-- ==== Sys2Proof/Word.lean ====
section
/-! DEFINITION. The word types of the machine (02 R39, 01 R13). -/

namespace Sys2Proof

/-- A byte of memory (00 R8). -/
abbrev Byte := BitVec 8

/-- A 64-bit instruction word, scalar register or address (02 R39, 01 R17). -/
abbrev Word := BitVec 64

/-- A 32-bit lane value (01 R13). -/
abbrev Lane := BitVec 32

/-- A set of lanes, one bit per lane of a warp (01 R19). -/
abbrev Lanes := BitVec 32

end Sys2Proof
end

