-- ==== Sys2Proof/Config.lean ====
section
/-! DEFINITION. What an implementation fixes and what the manual leaves open. A value the manual leaves
open is an opaque constant without a body: nothing can be proved of its value. -/

namespace Sys2Proof.Config

/-- 09 R240: which of the values allowed to a read inside a span is read; arguments: the free-value
counter of the state, the register number, the lane (and element). -/
opaque spanPick : Nat → Nat → Nat → Nat

/-- 06 R155: whether a faithful result that is not exact is rounded up; arguments: the free-value
counter of the state and the lane. -/
opaque faithfulUp : Nat → Nat → Bool

/-- 01 R30: by how much CLK of a core lags (used modulo 5); argument: the core key. -/
opaque clkSkew : Nat → Nat

/-- 01 R26: whether EXP of a descriptor that was rewritten during its task takes the task's exponent. -/
opaque expLands : Nat → Bool

/-- 17 R409: byte i of SHA-512 of a text; the manual names the hash and does not define it. -/
opaque sha512 : List Byte → Nat → Byte

/-- 17 R409: byte i of the two ECDSA values r and s over a text, made with a private key. -/
opaque signature : List Byte → Nat → Byte

/-- 17 R409: byte i of the hash of firmware image n (0 the Jerad image, 1 + d the image of die d). -/
opaque imageHash : Nat → Nat → Byte

/-- 17 R409: byte i of the certificate of a package's identity key. -/
opaque certificate : Nat → Nat → Byte

/-- 17 R407: package power in units of 1 W, averaged over 1,200 clk, at a clk. -/
opaque power : Nat → Nat → Nat

/-- 15 R355: a byte that the command front end reads at an address that no page maps; arguments: the clk and
the address. -/
opaque frontByte : Nat → Nat → Byte

/-- 08 R214: FPKG and FDIE of a unit that failed without a home (a list entry that is not canonical, a scale stream that
ends a task, a request that is not performed); argument: the free-value counter of the state. -/
opaque noHome : Nat → Nat × Nat

/-- 09 R249, 03 R72: the byte address of the KBO object that holds a kernel record; the manual states no relation
between the two; arguments: the address space and the address of the record. -/
opaque kboBase : Nat → Nat → Nat

/-- 16 R393: commands that a core's queue holds; the manual states no number. -/
opaque cmdRoom : Nat

/-- 15 R363: LAUNCH of a record that a packet without a launch causes; argument: the free-value counter. -/
opaque recordLaunch : Nat → Nat

/-- 15 R366: the address of the argument area that the front end keeps for a buffer of an armed launch; arguments: the armed
launch, the buffer. -/
opaque argCopy : Nat → Nat → Nat

/-- 15 R368: clk from a PREEMPT to the arrival of its halt request, at most 2,400; arguments: clk A, the core. -/
opaque haltDelay : Nat → Nat → Nat

/-- 16 R388: clk from the entry of a line into LOST to its recovery, at most 120,000 (more when a package fails during it);
arguments: the clk of the entry, the line key. -/
opaque lostTime : Nat → Nat → Nat

/-- 09 R254: whether an access to HBM hits the open row; arguments: the clk, the byte. -/
opaque rowHit : Nat → Nat → Bool

/-- 16 R383: the byte of HBM (die key * 2^36 + address) that a physical address names; the manual gives the address no layout. -/
opaque physByte : Nat → Nat

/-- 17 R403: whether the flit that a link sends in a clk is acknowledged; arguments: the link, the clk. -/
opaque flitAck : Nat → Nat → Bool

/-- 17 R400: clk from a switch's report to a package's adoption of it, at most 12,000; arguments: the package, the clk. -/
opaque adoptDelay : Nat → Nat → Nat

/-- 17 R404: whether a dead port that trains again succeeds; arguments: 512 * plane + package, the clk. -/
opaque portTrains : Nat → Nat → Bool

/-- 17 R409: whether a report that is being made is complete in a clk; arguments: the package, the clk. -/
opaque reportMade : Nat → Nat → Bool

/-- 17 R405: whether a die's controller falls silent in a clk; arguments: the die key, the clk. -/
opaque dieFails : Nat → Nat → Bool

/-- 17 R405: whether a package fails in a clk; arguments: the package, the clk. -/
opaque packageFails : Nat → Nat → Bool

/-- 00 R1, 11 R282: which tag block of a full cache is given up, among those that go first; arguments: the clk, the place. -/
opaque victim : Nat → Nat → Nat

/-- 16 R379: which of a die's 16 memory controllers serves an address (used modulo 16); arguments: the die key, the address. -/
opaque controller : Nat → Nat → Nat

/-- 16 R383: clk from the start of a bump until a die takes the new generation and discards its copies; arguments: the clk of the
start, the die key. -/
opaque bumpDelay : Nat → Nat → Nat

/-- 16 R390 ASIDLOC: the die and the 4 KiB frame of a package's ASID table, published by firmware
at start; the manual states no value. The argument is the package. DESIGN CHOICE: die 0, frame 0. -/
def asidLoc (_pkg : Nat) : Nat × Nat := (0, 0)

/-- 00 R3: the number of packages of the rack domain (1 to 512): all 512 ids exist. -/
def packages : Nat := 512

end Sys2Proof.Config
end

