-- ==== Sys2Proof/Syntax.lean ====
section
/-! DEFINITION. The instructions: one constructor per row of the table of opcodes and steps. The first
198 rows are Karburek instructions (but for two steps), the next four are firmware instructions (Xkarb), and the rest are the part's
steps without an encoding (events), whose arguments name the objects they act on. -/

namespace Sys2Proof

/-- Format S, scalar (02 R46); `sw` is the switch marker of R40. -/
structure SFmt where
  sw  : Bool
  sd  : BitVec 6
  sa  : BitVec 6
  sb  : BitVec 6
  imm : BitVec 34
  deriving DecidableEq, Repr

/-- Format A, vector with three sources (02 R42). -/
structure AFmt where
  sw : Bool
  vd : BitVec 8
  va : BitVec 8
  vb : BitVec 8
  vc : BitVec 8
  msk : BitVec 3
  ty : BitVec 4
  rm : BitVec 3
  fl : BitVec 10
  deriving DecidableEq, Repr

/-- Format B, vector with a 32-bit immediate (02 R45). -/
structure BFmt where
  sw  : Bool
  ty  : BitVec 4
  vd  : BitVec 8
  va  : BitVec 8
  msk : BitVec 3
  sat : Bool
  imm : BitVec 32
  deriving DecidableEq, Repr

/-- Format M, memory (02 R47). -/
structure MFmt where
  sw   : Bool
  data : BitVec 8
  base : BitVec 6
  idx  : BitVec 8
  msk  : BitVec 3
  sc   : BitVec 3
  sz   : BitVec 3
  fq   : BitVec 3
  hnt  : BitVec 2
  ofs  : BitVec 16
  deriving DecidableEq, Repr

/-- Format J, control (02 R49). -/
structure JFmt where
  sw   : Bool
  bofs : BitVec 22
  jofs : BitVec 16
  reg  : BitVec 8
  cc   : BitVec 3
  deriving DecidableEq, Repr

/-- Format E, engine command (02 R50); `ext` is the extension word, present when `xw` is set. -/
structure EFmt where
  sw  : Bool
  td1 : BitVec 4
  td2 : BitVec 4
  td3 : BitVec 4
  sa  : BitVec 6
  sb  : BitVec 6
  cnt : BitVec 5
  sc  : BitVec 3
  xw  : Bool
  imm : BitVec 16
  ext : BitVec 64
  deriving DecidableEq, Repr

/-- Format X, system and synchronisation (02 R51). -/
structure XFmt where
  sw  : Bool
  sd  : BitVec 6
  sa  : BitVec 6
  sc  : BitVec 3
  lvl : BitVec 2
  num : BitVec 5
  imm : BitVec 24
  deriving DecidableEq, Repr

/-- The R-type layout of the firmware instructions (16 R392). -/
structure RFmt where
  rs2 : BitVec 5
  rs1 : BitVec 5
  rd  : BitVec 5
  deriving DecidableEq, Repr

/-- Where an uncorrectable storage error strikes (17 R402). -/
inductive EccSite where
  | register (w : Nat)
  | localStore (b : Nat)
  | copy (c : Nat)
  | hbm (pkg die sector : Nat)
  | directory (pkg die line : Nat)
  | lockHolder (pkg die line : Nat)
  | lockWaiter (pkg die line key : Nat)
  | tlb (pkg die key : Nat)
  deriving DecidableEq, Repr

/-- The instructions and steps of the part. -/
inductive Instr where
  /-- SADD (R102). Adds two scalar registers modulo 2^64 (register form, opcode 0x01). -/
  | sadd (f : SFmt)
  /-- SSUB (R102). Subtracts one scalar register from another modulo 2^64 (register form). -/
  | ssub (f : SFmt)
  /-- SMUL (R102). Multiplies two scalar registers and keeps the low 64 bits (register form). -/
  | smul (f : SFmt)
  /-- SMULH (R102). Writes the high 64 bits of the signed 128-bit product (register form). -/
  | smulh (f : SFmt)
  /-- SDIV (R104). Signed scalar division, truncated towards zero, with fixed results for division by zero and overflow (register form). -/
  | sdiv (f : SFmt)
  /-- SAND (R102). Bitwise AND of two scalar registers (register form). -/
  | sand (f : SFmt)
  /-- SOR (R102). Bitwise OR of two scalar registers (register form). -/
  | sor (f : SFmt)
  /-- SXOR (R102). Bitwise XOR of two scalar registers (register form). -/
  | sxor (f : SFmt)
  /-- SSHL (R102). Shifts a scalar left by a register count; a count of 64 or more gives 0 (register form). -/
  | sshl (f : SFmt)
  /-- SSHR (R102). Shifts a scalar right logically by a register count (register form). -/
  | sshr (f : SFmt)
  /-- SSRA (R102). Shifts a scalar right arithmetically by a register count (register form). -/
  | ssra (f : SFmt)
  /-- SMIN (R102). Writes the signed minimum of two scalar registers (register form). -/
  | smin (f : SFmt)
  /-- SMAX (R102). Writes the signed maximum of two scalar registers (register form). -/
  | smax (f : SFmt)
  /-- SMOV (R102). Copies one scalar register to another. -/
  | smov (f : SFmt)
  /-- SPOPC (R102). Counts the 1 bits of a scalar register. -/
  | spopc (f : SFmt)
  /-- SCLZ (R102). Counts the zero bits above the highest 1 bit of a scalar, giving 64 for zero. -/
  | sclz (f : SFmt)
  /-- SADD_IMM (R102). Adds a sign-extended 34-bit immediate to a scalar (immediate form, opcode 0x02). -/
  | saddImm (f : SFmt)
  /-- SSUB_IMM (R102). Subtracts a sign-extended immediate from a scalar (immediate form). -/
  | ssubImm (f : SFmt)
  /-- SMUL_IMM (R102). Multiplies a scalar by a sign-extended immediate (immediate form). -/
  | smulImm (f : SFmt)
  /-- SMULH_IMM (R102). Writes the high half of the signed product of a scalar and an immediate (immediate form). -/
  | smulhImm (f : SFmt)
  /-- SDIV_IMM (R104). Signed division of a scalar by a sign-extended immediate (immediate form). -/
  | sdivImm (f : SFmt)
  /-- SAND_IMM (R102). Bitwise AND of a scalar with an immediate (immediate form). -/
  | sandImm (f : SFmt)
  /-- SOR_IMM (R102). Bitwise OR of a scalar with an immediate (immediate form). -/
  | sorImm (f : SFmt)
  /-- SXOR_IMM (R102). Bitwise XOR of a scalar with an immediate (immediate form). -/
  | sxorImm (f : SFmt)
  /-- SSHL_IMM (R102). Shifts a scalar left by an immediate count (immediate form). -/
  | sshlImm (f : SFmt)
  /-- SSHR_IMM (R102). Shifts a scalar right logically by an immediate count (immediate form). -/
  | sshrImm (f : SFmt)
  /-- SSRA_IMM (R102). Shifts a scalar right arithmetically by an immediate count (immediate form). -/
  | ssraImm (f : SFmt)
  /-- SMIN_IMM (R102). Writes the signed minimum of a scalar and an immediate (immediate form). -/
  | sminImm (f : SFmt)
  /-- SMAX_IMM (R102). Writes the signed maximum of a scalar and an immediate (immediate form). -/
  | smaxImm (f : SFmt)
  /-- SMOV_IMM (R102). Writes a sign-extended immediate to a scalar register. -/
  | smovImm (f : SFmt)
  /-- SMULH_U (R102). Writes the high 64 bits of the unsigned 128-bit product. -/
  | smulhU (f : SFmt)
  /-- SDIV_U (R104). Unsigned scalar division, with all ones for division by zero. -/
  | sdivU (f : SFmt)
  /-- SMIN_U (R102). Writes the unsigned minimum of two scalars. -/
  | sminU (f : SFmt)
  /-- SMAX_U (R102). Writes the unsigned maximum of two scalars. -/
  | smaxU (f : SFmt)
  /-- SCMP (R105). Writes 1 when a signed compare condition holds between two scalars, and 0 otherwise. -/
  | scmp (f : SFmt)
  /-- SCMP_U (R105). Writes 1 when an unsigned compare condition holds between two scalars, and 0 otherwise. -/
  | scmpU (f : SFmt)
  /-- SSEL (R106). Selects one of two scalars according to whether a third scalar is nonzero. -/
  | ssel (f : SFmt)
  /-- SBFX (R107). Extracts a bit field of a scalar and sign-extends it. -/
  | sbfx (f : SFmt)
  /-- SBFX_U (R107). Extracts a bit field of a scalar and zero-extends it. -/
  | sbfxU (f : SFmt)
  /-- SBFI (R107). Inserts the low bits of one scalar into a bit field of another. -/
  | sbfi (f : SFmt)
  /-- SLEA (R102). Adds a scalar shifted left by 0 to 7 to another scalar. -/
  | slea (f : SFmt)
  /-- SLDI (R108). Loads the 64-bit extension word into a scalar register. -/
  | sldi (f : SFmt) (ext : BitVec 64)
  /-- SRD (R109). Reads a special register into a scalar, or the lane number into a vector register. -/
  | srd (f : SFmt)
  /-- SWR (R110). Writes a scalar to the warp's SEED, ordered with other users of SEED. -/
  | swr (f : SFmt)
  /-- BRA (R116). Moves the whole split to a direct target. -/
  | bra (f : JFmt)
  /-- BRC (R116). Moves the whole split to a target when a scalar meets the condition, and to PC + 1 otherwise. -/
  | brc (f : JFmt)
  /-- BRX (R117). Divides the split by a mask register into a taken part and a fall-through part. -/
  | brx (f : JFmt)
  /-- JMPI (R118). Sends each lane to the target held in its vector pair, dividing the split by target. -/
  | jmpi (f : JFmt)
  /-- CALL (R119). Writes the return address into a vector pair and moves the split to a direct target. -/
  | call (f : JFmt)
  /-- CALL_IND (R119). Reads per-lane targets from a pair, writes the return address into it and divides the split by target. -/
  | callInd (f : JFmt)
  /-- RET (R118). Sends each lane to the return address held in its vector pair. -/
  | ret (f : JFmt)
  /-- EXIT (R123). Ends every lane of the split, frees its entry, and ends the warp when it was the last live split. -/
  | exit (f : JFmt)
  /-- NOP (R124). Advances the PC and changes nothing else. -/
  | nop (f : JFmt)
  /-- YIELD (R125). Ends the span, advances the PC and marks the split to be passed over once by its issue port. -/
  | yield (f : JFmt)
  /-- JOIN (R120). Puts the split into JOIN-WAIT at its join PC under the strict form. -/
  | join (f : JFmt)
  /-- JOIN_BND (R121). Puts the split into JOIN-WAIT at its join PC with a bound in clk. -/
  | joinBnd (f : JFmt)
  /-- JOIN_BOUND_EXPIRY (R121). A bounded join member whose bound reaches zero leaves its group alone, READY at j + 1. -/
  | joinBoundExpiry (w slot : Nat)
  /-- MAND (R127). ANDs two mask registers within the split's lanes. -/
  | mand (f : SFmt)
  /-- MOR (R127). ORs two mask registers within the split's lanes. -/
  | mor (f : SFmt)
  /-- MXOR (R127). XORs two mask registers within the split's lanes. -/
  | mxor (f : SFmt)
  /-- MNOT (R127). Inverts a mask register within the split's lanes. -/
  | mnot (f : SFmt)
  /-- MMOV (R127). Copies a mask register within the split's lanes. -/
  | mmov (f : SFmt)
  /-- MPOPC (R127). Counts the bits of a mask within the split's lanes into a scalar. -/
  | mpopc (f : SFmt)
  /-- MFFS (R127). Writes the index of the lowest set bit of a mask within the split's lanes, or 32. -/
  | mffs (f : SFmt)
  /-- MSETEM (R128). Narrows the execution mask by a mask register and saves its old value. -/
  | msetem (f : SFmt)
  /-- MSAVE (R127). Copies all 32 bits of a mask register into a scalar. -/
  | msave (f : SFmt)
  /-- MREST (R127). Writes a scalar's low 32 bits into a mask register within the split's lanes. -/
  | mrest (f : SFmt)
  /-- SPLITQ (R129). Writes the warp's live lanes and the lanes of the issuer's join group into a scalar. -/
  | splitq (f : SFmt)
  /-- REGANG (R130). Enters a gathering at this PC that merges waiting splits when the awaited lanes arrive or the bound expires. -/
  | regang (f : SFmt)
  /-- REGANG_BOUND_EXPIRY (R130). A REGANG gathering whose bound expires releases and merges its waiters. -/
  | regangBoundExpiry (w slot : Nat)
  /-- VADD (R137). Adds integer elements, wrapping or saturating (format A). -/
  | vadd (f : AFmt)
  /-- VSUB (R137). Subtracts integer elements (format A). -/
  | vsub (f : AFmt)
  /-- VMUL (R137). Multiplies integer elements (format A). -/
  | vmul (f : AFmt)
  /-- VMULH (R137). Writes the high half of integer element products. -/
  | vmulh (f : AFmt)
  /-- VMAD (R137). Computes a × b + c per integer element with one reduction. -/
  | vmad (f : AFmt)
  /-- VMIN (R137). Writes the smaller integer element (format A). -/
  | vmin (f : AFmt)
  /-- VMAX (R137). Writes the larger integer element (format A). -/
  | vmax (f : AFmt)
  /-- VABS (R137). Writes the absolute value of signed integer elements. -/
  | vabs (f : AFmt)
  /-- VNEG (R137). Negates signed integer elements. -/
  | vneg (f : AFmt)
  /-- VADDC (R139). Adds 32-bit lanes with a carry held in a mask register. -/
  | vaddc (f : AFmt)
  /-- VSUBB (R139). Subtracts 32-bit lanes with a borrow held in a mask register. -/
  | vsubb (f : AFmt)
  /-- VSAD (R138). Adds the sum of absolute element differences into a 32-bit accumulator. -/
  | vsad (f : AFmt)
  /-- VAVG (R137). Writes the rounded-up average of integer elements. -/
  | vavg (f : AFmt)
  /-- VCMP (R140). Sets mask bits where an integer compare holds. -/
  | vcmp (f : AFmt)
  /-- VSEL (R141). Selects per lane between two registers by a mask register. -/
  | vsel (f : AFmt)
  /-- VMOV (R142). Copies a vector register's bits, retagging by TY. -/
  | vmov (f : AFmt)
  /-- VAND (R144). Bitwise AND of vector registers (format A). -/
  | vand (f : AFmt)
  /-- VOR (R144). Bitwise OR of vector registers (format A). -/
  | vor (f : AFmt)
  /-- VXOR (R144). Bitwise XOR of vector registers (format A). -/
  | vxor (f : AFmt)
  /-- VNOT (R144). Bitwise NOT of a vector register. -/
  | vnot (f : AFmt)
  /-- VSHL (R145). Shifts elements left by per-element counts (format A). -/
  | vshl (f : AFmt)
  /-- VSHR (R145). Shifts elements right logically (format A). -/
  | vshr (f : AFmt)
  /-- VSRA (R145). Shifts elements right arithmetically (format A). -/
  | vsra (f : AFmt)
  /-- VROT (R145). Rotates elements left. -/
  | vrot (f : AFmt)
  /-- VCLZ (R146). Counts leading zeros of each 32-bit lane. -/
  | vclz (f : AFmt)
  /-- VPOPC (R146). Counts the 1 bits of each 32-bit lane. -/
  | vpopc (f : AFmt)
  /-- VBFX (R147). Extracts a bit field from each lane. -/
  | vbfx (f : AFmt)
  /-- VBFI (R147). Inserts a bit field into each lane. -/
  | vbfi (f : AFmt)
  /-- VMOVS (R143). Broadcasts a scalar into each active lane of a vector register. -/
  | vmovs (f : AFmt)
  /-- VFADD (R149). Adds float elements with one rounding (format A). -/
  | vfadd (f : AFmt)
  /-- VFSUB (R149). Subtracts float elements with one rounding. -/
  | vfsub (f : AFmt)
  /-- VFMUL (R149). Multiplies float elements with one rounding (format A). -/
  | vfmul (f : AFmt)
  /-- VFMA (R149). Fused multiply-add of float elements with one rounding. -/
  | vfma (f : AFmt)
  /-- VFMIN (R150). Returns the smaller float operand, NaN-aware (format A). -/
  | vfmin (f : AFmt)
  /-- VFMAX (R150). Returns the larger float operand, NaN-aware (format A). -/
  | vfmax (f : AFmt)
  /-- VFCMP (R151). Sets mask bits where an F32 compare holds. -/
  | vfcmp (f : AFmt)
  /-- VFDOT2 (R152). Two-element F16 or BF16 dot product plus accumulator, rounded once to F32. -/
  | vfdot2 (f : AFmt)
  /-- VFDOT4 (R152). Four-element FP8 dot product plus accumulator, rounded once to F32. -/
  | vfdot4 (f : AFmt)
  /-- VFCLASS (R156). Writes a one-hot class code of each F32 value. -/
  | vfclass (f : AFmt)
  /-- VFRND (R153). Rounds float elements to integral values in their own format. -/
  | vfrnd (f : AFmt)
  /-- VFRCP (R155). Correctly rounded F32 reciprocal. -/
  | vfrcp (f : AFmt)
  /-- VFRSQ (R155). Correctly rounded F32 reciprocal square root. -/
  | vfrsq (f : AFmt)
  /-- VFSQRT (R155). Correctly rounded F32 square root. -/
  | vfsqrt (f : AFmt)
  /-- VFEXP2 (R155). Faithful F32 power of two. -/
  | vfexp2 (f : AFmt)
  /-- VFLOG2 (R155). Faithful F32 base-2 logarithm. -/
  | vflog2 (f : AFmt)
  /-- VFSIN (R155). Faithful F32 sine of an argument in turns. -/
  | vfsin (f : AFmt)
  /-- VFCOS (R155). Faithful F32 cosine of an argument in turns. -/
  | vfcos (f : AFmt)
  /-- VADD_IMM (R136). Adds a 32-bit immediate to integer elements (format B, 0x30). -/
  | vaddImm (f : BFmt)
  /-- VSUB_IMM (R136). Subtracts a 32-bit immediate from integer elements (format B, 0x31). -/
  | vsubImm (f : BFmt)
  /-- VMUL_IMM (R136). Multiplies integer elements by an immediate (format B, 0x32). -/
  | vmulImm (f : BFmt)
  /-- VAND_IMM (R136). ANDs lanes with an immediate (format B, 0x33). -/
  | vandImm (f : BFmt)
  /-- VOR_IMM (R136). ORs lanes with an immediate (format B, 0x34). -/
  | vorImm (f : BFmt)
  /-- VXOR_IMM (R136). XORs lanes with an immediate (format B, 0x35). -/
  | vxorImm (f : BFmt)
  /-- VSHL_IMM (R136). Shifts elements left by immediate counts (format B, 0x36). -/
  | vshlImm (f : BFmt)
  /-- VSHR_IMM (R136). Shifts elements right logically by immediate counts (format B, 0x37). -/
  | vshrImm (f : BFmt)
  /-- VSRA_IMM (R136). Shifts elements right arithmetically by immediate counts (format B, 0x38). -/
  | vsraImm (f : BFmt)
  /-- VMIN_IMM (R136). Integer minimum with an immediate (format B, 0x39). -/
  | vminImm (f : BFmt)
  /-- VMAX_IMM (R136). Integer maximum with an immediate (format B, 0x3A). -/
  | vmaxImm (f : BFmt)
  /-- VMOV_IMM (R136). Writes an immediate into each active lane, tagged TY (format B, 0x3B). -/
  | vmovImm (f : BFmt)
  /-- VFADD_IMM (R136). Adds a float immediate, rounding RNE (format B, 0x3C). -/
  | vfaddImm (f : BFmt)
  /-- VFMUL_IMM (R136). Multiplies by a float immediate, rounding RNE (format B, 0x3D). -/
  | vfmulImm (f : BFmt)
  /-- VFMIN_IMM (R136). Float minimum with an immediate (format B, 0x3E). -/
  | vfminImm (f : BFmt)
  /-- VFMAX_IMM (R136). Float maximum with an immediate (format B, 0x3F). -/
  | vfmaxImm (f : BFmt)
  /-- VCVT (R157). Converts every element from the input type to the output type by R87. -/
  | vcvt (f : AFmt)
  /-- VPACK_X2 (R158). Converts two 32-bit sources into one x2 packed destination (FN 0). -/
  | vpackX2 (f : AFmt)
  /-- VPACK_X4 (R158). Converts two x2 sources into one x4 packed destination (FN 1). -/
  | vpackX4 (f : AFmt)
  /-- VUNPK (R158). Converts one element of a packed source into a 32-bit destination. -/
  | vunpk (e : BitVec 4) (f : AFmt)
  /-- VTAG (R159). Sets the format tag of a vector register for the whole warp without changing bits. -/
  | vtag (f : AFmt)
  /-- VQDUO (R160). Quantises four F32 registers into one DUO8x4 register with a scalar scale. -/
  | vqduo (f : AFmt)
  /-- VSCALE (R161). Multiplies float elements by a power of two and rounds once. -/
  | vscale (f : AFmt)
  /-- VSHFL (R163). Reads each lane's value from an indexed lane of its segment (FN 0). -/
  | vshfl (f : AFmt)
  /-- VSHFL_UP (R163). Reads each lane's value from b lanes below (FN 1). -/
  | vshflUp (f : AFmt)
  /-- VSHFL_DOWN (R163). Reads each lane's value from b lanes above (FN 2). -/
  | vshflDown (f : AFmt)
  /-- VSHFL_XOR (R163). Reads each lane's value from the lane at l xor b (FN 3). -/
  | vshflXor (f : AFmt)
  /-- VSHFLX (R164). Selects each lane's value from 64 candidates in two registers. -/
  | vshflx (f : AFmt)
  /-- VBCAST (R165). Broadcasts one participant's value to every participant. -/
  | vbcast (f : AFmt)
  /-- VRED (R166). Reduces the participants' values with the FN operator into a scalar. -/
  | vred (op : BitVec 4) (f : AFmt)
  /-- VSCAN (R167). Writes an inclusive or exclusive prefix reduction to each participant. -/
  | vscan (op : BitVec 4) (f : AFmt)
  /-- VFUNL (R168). Shifts a byte stream held across lanes by one to three bytes. -/
  | vfunl (f : AFmt)
  /-- VLUTN (R169). Looks up each byte's nibble in a 16-entry byte table held in two scalars. -/
  | vlutn (f : AFmt)
  /-- VBPERM (R170). Builds each byte of a lane from eight bytes of two registers. -/
  | vbperm (f : AFmt)
  /-- VBALLOT (R171). Writes a scalar bit mask of the participants with a nonzero value. -/
  | vballot (f : AFmt)
  /-- VMATCH (R171). Writes to each participant the mask of participants holding equal bits. -/
  | vmatch (f : AFmt)
  /-- VCOMPR (R172). Packs the values of selected participants into the lowest participants. -/
  | vcompr (f : AFmt)
  /-- LD (R181). Loads from global memory into a vector register in each active lane. -/
  | ld (ty : BitVec 4) (f : MFmt)
  /-- ST (R181). Posts a store from a vector register to global memory in each active lane. -/
  | st (ty : BitVec 4) (f : MFmt)
  /-- LDS (R183). Loads global memory into one scalar register, zero-extended. -/
  | lds (f : MFmt)
  /-- LDS_SX (R183). Loads global memory into one scalar register, sign-extended. -/
  | ldsSx (f : MFmt)
  /-- STS (R183). Posts a store of one scalar register to global memory. -/
  | sts (f : MFmt)
  /-- LDL (R184). Loads from local store with an optional full-empty qualifier. -/
  | ldl (ty : BitVec 4) (f : MFmt)
  /-- STL (R184). Stores to local store with an optional full-empty qualifier. -/
  | stl (ty : BitVec 4) (f : MFmt)
  /-- PRF (R188). Prefetches the line of each active lane into L1. -/
  | prf (f : MFmt)
  /-- PRF_L2 (R188). Prefetches the line of each active lane into L2 only. -/
  | prfL2 (f : MFmt)
  /-- CWB (R189). Writes back dirty untracked sectors to the level shared at the named scope. -/
  | cwb (f : MFmt)
  /-- CINV (R189). Writes back, then discards, copies of untracked lines below the level shared at the named scope. -/
  | cinv (f : MFmt)
  /-- ATOM (R190). Fetching atomic read-modify-write at the home slice, operation selected by FN. -/
  | atom (op : BitVec 4) (f : MFmt)
  /-- ATOMC (R191). Compare-and-exchange at the home slice, returning the old value. -/
  | atomc (f : MFmt)
  /-- RED (R190). Posted atomic reduction at the home slice, operation selected by FN. -/
  | red (op : BitVec 4) (f : MFmt)
  /-- LOCK (R195). Requests a line lock with a timeout and parks the split in LOCK-WAIT. -/
  | lock (f : MFmt)
  /-- LOCK_TRY (R195). Requests a line lock that returns BUSY rather than queueing. -/
  | lockTry (f : MFmt)
  /-- UNLOCK (R196). Releases a line lock the warp holds; the release leaves once prior writes are acknowledged. -/
  | unlock (f : MFmt)
  /-- LKQRY (R199). Reads a snapshot of a line's lock state at its home. -/
  | lkqry (f : MFmt)
  /-- FENCE (R200). Waits until the warp's earlier accesses are complete at the scope, then returns the pending failure record. -/
  | fence (f : XFmt)
  /-- BARARV (R203). Adds the split's lanes to a barrier arrival set, completing the warp's arrival when all live lanes are in. -/
  | bararv (f : XFmt)
  /-- BARWAIT (R205). Waits until the warp's arrival phase at a barrier has released. -/
  | barwait (f : XFmt)
  /-- BARSYNC (R205). Arrives at a barrier and then waits for its release. -/
  | barsync (f : XFmt)
  /-- CSIG (R207). Posts an increment of a block counter as a release at the scope. -/
  | csig (f : XFmt)
  /-- CWAIT (R207). Waits until a block counter reaches a target, then returns its value. -/
  | cwait (f : XFmt)
  /-- CRD (R207). Reads a block counter's current value. -/
  | crd (f : XFmt)
  /-- WSYNC (R208). Waits until every live lane of a membership mask waits in WSYNC. -/
  | wsync (f : XFmt)
  /-- CPY (R218). Posts a hod copy of a tile from global memory into local store. -/
  | cpy (f : EFmt)
  /-- CPY_OUT (R218). Posts a hod copy of a tile from local store to global memory. -/
  | cpyOut (f : EFmt)
  /-- CPY_LOCAL (R218). Posts a hod copy of a tile from one local-store tile to another (FN 2). -/
  | cpyLocal (f : EFmt)
  /-- CPYG (R218). Posts a hod gather of lines at listed addresses into local store. -/
  | cpyg (f : EFmt)
  /-- CPYG_SCATTER (R218). Posts a hod scatter of tile lines to listed addresses. -/
  | cpygScatter (f : EFmt)
  /-- TDESC (R220). Writes a block's tile descriptor from two scalars after checking it. -/
  | tdesc (f : EFmt)
  /-- TASK (R221). Enqueues a tile task that accumulates A × B into a BFA48 tile. -/
  | task (f : EFmt)
  /-- TASK_OVR (R221). Enqueues a tile task that writes A × B over a BFA48 tile. -/
  | taskOvr (f : EFmt)
  /-- TASK_CVT (R221). Enqueues a tile task that converts one tile into the format of another. -/
  | taskCvt (f : EFmt)
  /-- KMV (R226). Sends a matrix-vector request to the kiln of the stack homing the matrix. -/
  | kmv (f : EFmt)
  /-- MCST (R229). Posts a 256-byte store multicast by the switch to every member of a group. -/
  | mcst (f : EFmt)
  /-- MSGX (R230). Posts a tagged message payload to a destination package's armed launch. -/
  | msgx (f : EFmt)
  /-- TRAP (R232). Parks the split FAULTED with fault TRAP and the immediate as INFO. -/
  | trap (f : XFmt)
  /-- BKPT (R232). Acts as TRAP with fault BKPT when the launch's debug flag is set, else a no-op. -/
  | bkpt (f : XFmt)
  /-- CKPT (R233). Ends the span and halts the split here when a halt request is pending. -/
  | ckpt (f : XFmt)
  /-- CLKRD (R232). Waits for the split's outstanding results, then reads CLK. -/
  | clkrd (f : XFmt)
  /-- EVNT (R234). Posts an event record to the launch queue's event ring once its release holds. -/
  | evnt (f : XFmt)
  /-- HALTW (R235). Posts a HALTW record and stops the whole warp. -/
  | haltw (f : XFmt)
  /-- RFETCH (R393). Firmware takes the next entry of an SRAM ring, indivisibly among the die's cores. -/
  | rfetch (f : RFmt)
  /-- KBFX (R392). Firmware extracts and zero-extends a bit field. -/
  | kbfx (f : RFmt)
  /-- SIGWAIT (R392). Firmware waits for selected SIG bits or a timeout, then clears and returns them. -/
  | sigwait (f : RFmt)
  /-- DISPATCH (R393). Firmware queues a command at local or remote target cores and waits for remote reports. -/
  | dispatch (f : RFmt)
  /-- SIGWAIT_WAKE (R392). A waiting SIGWAIT resumes when a selected SIG bit is set by hardware. -/
  | sigwaitWake (pkg die fw : Nat)
  /-- SIGWAIT_TIMEOUT (R392). A waiting SIGWAIT whose clk count expires resumes with rd := 0. -/
  | sigwaitTimeout (pkg die fw : Nat)
  /-- DISPATCH_COMPLETE (R393). A remote DISPATCH completes when every target die has reported, or reports 2 after a dead target or 24,000 clk. -/
  | dispatchComplete (pkg die fw : Nat)
  /-- PURGE (R393). A target core discards its L1 and far copies of an (ASID, line). -/
  | purge (pkg die core : Nat)
  /-- MASK (R393). A target core is marked dead and excused on every wire. -/
  | mask (pkg die core : Nat)
  /-- GENSET (R393). A target core writes a generation into its generation table. -/
  | genset (pkg die core : Nat)
  /-- REBIND (R393). Rebinds the locks of a restored warp at their homes to its new location. -/
  | rebind (pkg die core : Nat)
  /-- SPAN_PARK_END (R239). A split in SPAN-PARK whose last outstanding result returns becomes READY or enters its wait state. -/
  | spanParkEnd (w slot : Nat)
  /-- EXCEPTION_RECORD_HELD (R360). A record held for lack of room is written with OVF when the exception queue gains room. -/
  | exceptionRecordHeld (q : Nat)
  /-- LOAD_REPLY (R182). A load, fetching atomic or LKQRY value returns and is written to its lanes. -/
  | loadReply (r : Nat)
  /-- REGANG_MERGE (R247). At the start of a clk, resident splits at an issue boundary with one PC and join group merge. -/
  | regangMerge (w : Nat)
  /-- SWAP_EPOCH_ADVANCE (R36). The warp's swap epoch advances every 256 clk and triggers a pending swap. -/
  | swapEpochAdvance (w : Nat)
  /-- SPLIT_SWAP (R246). The oldest ready dormant split begins a 32-clk exchange with a resident candidate. -/
  | splitSwap (w : Nat)
  /-- SPLIT_SWAP_DONE (R246). A swap completes; the two splits exchange places and take the epoch's AGE. -/
  | splitSwapDone (w : Nat)
  /-- SPLIT_FILL (R246). A free slot begins a 32-clk fill from the overflow area. -/
  | splitFill (w : Nat)
  /-- SPLIT_FILL_DONE (R246). A fill completes; the split takes its HELD state and the overflow entry is freed. -/
  | splitFillDone (w : Nat)
  /-- FE_GRANULE_ACCESS (R185). A local-store access is tested, made and changes the full-empty bit at its granule's bank. -/
  | feGranuleAccess (a : Nat)
  /-- HOME_SERVE_LOAD (R255). A load request reaches its home copy or the copy that serves it and is answered. -/
  | homeServeLoad (r : Nat)
  /-- STORE_APPLY (R294). A store, RED or engine write is applied at the home copy in coherence order and invalidations are sent. -/
  | storeApply (r : Nat)
  /-- ATOMIC_APPLY (R192). An atomic group is applied at its home slice as one contiguous sequence. -/
  | atomicApply (r : Nat)
  /-- STAGE_ACK (R294). A stage acknowledgement of a store returns to the issuing core. -/
  | stageAck (r : Nat)
  /-- INVALIDATION (R288). A die receives an invalidation, discards its far and L1 copies and acknowledges. -/
  | invalidation (v : Nat)
  /-- PROBE_ABSENT (R289). A die with no copy answers a probe as absent after 9 clk. -/
  | probeAbsent (v : Nat)
  /-- STALE (R381). A request with an old generation is rejected; the core updates its table and resends. -/
  | stale (r : Nat)
  /-- MISHOME (R380). A request reaching a die that is no longer its home is rejected and resent after a PLC lookup. -/
  | mishome (r : Nat)
  /-- PLC_MISS (R378). A placement-cache miss reads the home fields from the package's replica tables. -/
  | plcMiss (r : Nat)
  /-- TLB_MISS_WALK (R379). A memory controller walks the home package's tables for a TLB miss. -/
  | tlbMissWalk (r : Nat)
  /-- EVICTION_WRITEBACK (R293). An evicted dirty untracked copy writes its dirty bytes one level down. -/
  | evictionWriteback (c : Nat)
  /-- XLATE (R386). A translation fault is recorded on the driver's fault queue, waiting while it is full. -/
  | xlate (r : Nat)
  /-- LOST (R290). A directory entry enters LOST after a lost flit or an uncorrectable error. -/
  | lost (pkg die line : Nat)
  /-- COHLOST (R388). Home-die firmware posts COHLOST and starts the entry's recovery with a PURGE DISPATCH. -/
  | cohlost (pkg die line : Nat)
  /-- COHFIX (R388). Once every die has acknowledged the purge, the entry is reset and COHFIX posted. -/
  | cohfix (pkg die line : Nat)
  /-- FENCE_COMPLETE (R200). A FENCE whose required completions have arrived writes the failure record and clears it. -/
  | fenceComplete (w slot : Nat)
  /-- UNLOCK_DEPART (R196). An UNLOCK leaves the core once the warp's earlier writes are acknowledged at its scope. -/
  | unlockDepart (r : Nat)
  /-- CSIG_APPLY (R207). A CSIG increment is applied once the warp's earlier writes are acknowledged. -/
  | csigApply (p : Nat)
  /-- EVNT_APPEND (R234). An EVNT record is appended to the event ring, or dropped with EOVF counting when full. -/
  | evntAppend (p : Nat)
  /-- LOCK_REQUEST (R313). A LOCK reaches the home lock entry and is granted or queued. -/
  | lockRequest (r : Nat)
  /-- LOCK_TRY_REQUEST (R313). A LOCK.try reaches the home lock entry and is granted or answered BUSY. -/
  | lockTryRequest (r : Nat)
  /-- UNLOCK_REQUEST (R313). An UNLOCK reaches the home, which grants the first present waiter or frees the line. -/
  | unlockRequest (r : Nat)
  /-- LOCK_GRANT (R196). A lock status with the line's sectors reaches the waiter, which becomes READY at PC + 1. -/
  | lockGrant (g : Nat)
  /-- LOCK_TIMEOUT_EXPIRY (R315). A waiter's TLEFT reaches zero and the core sends a withdraw to the home. -/
  | lockTimeoutExpiry (w k : Nat)
  /-- WITHDRAW (R313). A withdraw reaches the home and removes the waiter with TIMEOUT, or is ignored after a grant. -/
  | withdraw (d : Nat)
  /-- WAIT_FOR_RECORD (R315). A TIMEOUT's wait-for record reaches the waiter's die controller and sets SIG bit 2. -/
  | waitForRecord (n : Nat)
  /-- HOLDER_SAVED (R313). The home marks a lock's holder absent when its warp is saved. -/
  | holderSaved (w k : Nat)
  /-- HOLDER_RESTORED (R313). The home rebinds a saved holder's location when it is restored. -/
  | holderRestored (w k : Nat)
  /-- HOLDER_FATAL_END (R314). The home learns a holder ended fatally and grants BROKEN or sets the broken mark. -/
  | holderFatalEnd (pkg die line : Nat)
  /-- WAITER_SAVED (R313). A waiter's entry becomes ABSENT when its warp is saved. -/
  | waiterSaved (w k : Nat)
  /-- WAITER_RESTORED (R313). A restored waiter's entry becomes PRESENT, and is granted when the lock is free. -/
  | waiterRestored (w k : Nat)
  /-- ENGINE_FORK (R212). Engine work begins once the warp's earlier writes and local-store accesses are done. -/
  | engineFork (e : Nat)
  /-- ENGINE_JOIN (R212). Engine work's status word and counter increment are applied once its writes are made and acknowledged. -/
  | engineJoin (e : Nat)
  /-- HOD_LINE_BEGIN (R412). The hod begins a line of a copy when bandwidth and room allow. -/
  | hodLineBegin (e : Nat)
  /-- HOD_LINE_COMPLETE (R412). A hod line's read and write complete, setting local-store granules full. -/
  | hodLineComplete (e : Nat)
  /-- TASK_START (R322). The TTS starts a task whose dependence and hazard hold on the lowest free engine. -/
  | taskStart (e : Nat)
  /-- TASK_KBLOCK_COMMIT (R224). A running task commits one k-block of its accumulation. -/
  | taskKblockCommit (e : Nat)
  /-- TASK_END (R222). A task writes its destination, EXP, status and join in one clk. -/
  | taskEnd (e : Nat)
  /-- KILN_REQUEST_ARRIVAL (R324). A kiln request reaches its stack and is queued in arrival order. -/
  | kilnRequestArrival (e : Nat)
  /-- KILN_COMPLETE (R227). The kiln writes the output, the result record and sets their granules full. -/
  | kilnComplete (e : Nat)
  /-- MCST_REPLICATE (R229). The switch plane checks the group entry and replicates the store to every member. -/
  | mcstReplicate (e : Nat)
  /-- MCST_MEMBER_WRITE (R229). A member translates and writes the multicast line, or refuses, and replies. -/
  | mcstMemberWrite (e pkg : Nat)
  /-- MCST_ACK (R325). The switch aggregates member replies into one acknowledgement to the issuer. -/
  | mcstAck (e : Nat)
  /-- MSGX_DELIVERY (R230). A destination writes a message into an armed launch's buffer, or refuses with NOTRIG. -/
  | msgxDelivery (e : Nat)
  /-- ETHERNET_FRAME (R367). A Jerad port frame matched by a STEER rule is taken as a trigger message. -/
  | ethernetFrame (port etype : Nat) (bytes : List Byte)
  /-- FIRING (R277). An accepted message starts one firing of its armed launch with its argument area. `tag` is the tag, plus 2^16 for a
  launch armed for Ethernet frames (R366). -/
  | firing (pkg tag : Nat)
  /-- FIRING_REFUSED (R366). A message with no armed tag, no free buffer or a disarmed launch is refused and KIND 8 posted. -/
  | firingRefused (pkg tag : Nat)
  /-- CLUSTER_HANDDOWN (R264). A distributor node hands a child's head pending cluster down when the child has room. -/
  | clusterHanddown (l node : Nat)
  /-- CLUSTER_STEAL (R265). An idle node moves the upper half of the busiest sibling's pending list to itself. -/
  | clusterSteal (l node : Nat)
  /-- CLUSTER_PLACE (R264). A die distributor places its head pending cluster on the next free site. -/
  | clusterPlace (pkg die : Nat)
  /-- CORESIDENT_PLACE (R269). A co-resident launch is placed whole in one decision when every cluster fits. -/
  | coresidentPlace (l : Nat)
  /-- BLOCK_START (R262). A block becomes resident with its warps, descriptors, counters and local store initialised. -/
  | blockStart (l k : Nat)
  /-- BLOCK_RETIRE (R273). A block retires once its warps, engine work and writes are done, freeing its resources. -/
  | blockRetire (b : Nat)
  /-- NODE_DRAIN (R274). A distributor node's retire counter reaches zero by a retirement and raises its drain event. -/
  | nodeDrain (l node : Nat)
  /-- MORTAR_ROOT_CLOSE (R256). The mortar tree closes a cluster or grid phase at the root once the region has arrived. -/
  | mortarRootClose (l k n pkg : Nat)
  /-- MORTAR_PACKAGE_COMPLETION (R320). A package root sends its phase completion to the lowest package's root, which releases all. -/
  | mortarPackageCompletion (l n pkg : Nat)
  /-- MORTAR_DIE_RELEASE (R256). A die releases the phase and its waiting BARWAITs complete 4 clk later. -/
  | mortarDieRelease (l k n pkg die : Nat)
  /-- HALT_REQUEST_ARRIVAL (R250). A halt request reaches a core; splits in wait states halt at once. -/
  | haltRequestArrival (l pkg die core : Nat)
  /-- CHECKPOINT_BUDGET_EXPIRY (R252). At H + 4,800 splits not yet halted stop issuing and whole contexts are saved. -/
  | checkpointBudgetExpiry (w : Nat)
  /-- WARP_CAPTURE (R252). A warp's context is captured once no split issues and engine work reaches its save points. -/
  | warpCapture (w : Nat)
  /-- HALT_COMPLETE (R368). Every die controller has reported capture; KIND 4 is posted. -/
  | haltComplete (p : Nat)
  /-- SAVE_COMPLETE (R368). Every captured warp's writes are acknowledged or failed; images complete and KIND 5 is posted. -/
  | saveComplete (p : Nat)
  /-- CLUSTER_RESTORE (R272). A saved cluster is placed on a free site and all its blocks restart in one clk. -/
  | clusterRestore (l k : Nat)
  /-- QTAIL (R356). A doorbell write sets a queue's producer index. -/
  | qtail (q v : Nat)
  /-- EXANS_RESUME (R361). Answers a record with resume; the split resumes and held accesses are made. -/
  | exansResume (q seq : Nat)
  /-- EXANS_SKIP (R361). Answers a record with skip; the split continues past the faulting point. -/
  | exansSkip (q seq : Nat)
  /-- EXANS_ABORT (R362). Answers a record with abort, ending the whole launch. -/
  | exansAbort (q seq : Nat)
  /-- REGISTER_WRITE (R9). Writes a register field without behaviour of its own, such as XCONS, ECONS, EOVF or FQCONS. -/
  | registerWrite (addr v : Nat)
  /-- PACKET_NOP (R357). A NOP packet completes when it starts. -/
  | packetNop (q : Nat)
  /-- LAUNCH (R365). A LAUNCH packet starts a launch into the rack distributor. -/
  | launch (q : Nat)
  /-- ARM (R366). An ARM packet records a triggered launch's descriptor, tag and receive ring. -/
  | arm (q : Nat)
  /-- DISARM (R357). A DISARM packet stops accepting messages for a tag. -/
  | disarm (q : Nat)
  /-- DISARM_COMPLETE (R357). A DISARM completes once every firing of the launch has completed. -/
  | disarmComplete (q : Nat)
  /-- WAITMEM (R357). A WAITMEM packet starts polling a word and holds later packets of its queue. -/
  | waitmem (q : Nat)
  /-- WAITMEM_SATISFIED (R357). A WAITMEM completes when the masked word meets its condition. -/
  | waitmemSatisfied (q : Nat)
  /-- SIGNALMEM (R357). A SIGNALMEM packet writes or adds to a word as a rack-scope release. -/
  | signalmem (q : Nat)
  /-- PREEMPT (R368). A PREEMPT packet stops placement and sends halt requests for the chosen launches. -/
  | preempt (q : Nat)
  /-- RESUME (R370). A RESUME packet checks saved images and restores the named launches' clusters. -/
  | resume (q : Nat)
  /-- ABORT (R362). An ABORT packet ends the named launch. -/
  | abort (q : Nat)
  /-- QCTL_CREATE (R355). Creates a queue from its descriptor. -/
  | qctlCreate (q : Nat)
  /-- QCTL_STOP (R357). Stops a queue. -/
  | qctlStop (q : Nat)
  /-- QCTL_RESTART (R359). Returns a stopped queue to RUN, optionally skipping the refused packet. -/
  | qctlRestart (q : Nat)
  /-- QCTL_DESTROY (R357). Destroys a queue. -/
  | qctlDestroy (q : Nat)
  /-- STEER (R367). Installs an Ethernet steering rule on a Jerad port. -/
  | steer (q : Nat)
  /-- TFANS_REPLAY (R386). Answers a translation record with replay under the current generation. -/
  | tfansReplay (ticket pkg : Nat)
  /-- TFANS_INVALID (R386). Answers a translation record by declaring the access invalid. -/
  | tfansInvalid (ticket pkg : Nat)
  /-- GENCMD (R383). Starts a generation bump for an ASID's ranges. -/
  | gencmd (addr : Nat)
  /-- BUMPDONE (R383). Once old-generation requests have been performed, BUMPDONE is posted. -/
  | bumpdone (asid : Nat)
  /-- FRAMEFREE (R387). Clears a memory controller's frame record. -/
  | framefree (v : Nat)
  /-- CLEAR (R406). Clears selected telemetry counters of a die's counter block. -/
  | clear (pkg die v : Nat)
  /-- PSTATE (R408). Requests a power state for the package. -/
  | pstate (pkg v : Nat)
  /-- POWER_CAP_DOWN (R408). After two averages above the cap, firmware applies the next lower state's limits. -/
  | powerCapDown (pkg : Nat)
  /-- POWER_CAP_RESTORE (R408). After two averages below the requested state's cap, firmware returns to it. -/
  | powerCapRestore (pkg : Nat)
  /-- PLANEEN (R404). Writing plane enables removes a plane from the mask or lets it rejoin. -/
  | planeen (pkg : Nat) (v : BitVec 128)
  /-- ATTEST_REQUEST (R409). Writing 1 to the start register begins a signed attestation report. -/
  | attestRequest (pkg v : Nat)
  /-- ATTEST_COMPLETE (R409). The signed report is written and the completion bit reads 1. -/
  | attestComplete (pkg : Nat)
  /-- MCAST_GROUP_WRITE (R401). The Jerad die sends a multicast group entry to every live plane and waits for acknowledgement. -/
  | mcastGroupWrite (g : Nat) (members : BitVec 512) (asid : BitVec 16) (valid : Bool)
  /-- FLIT_CRC_FAIL (R403). A receiver drops a flit failing CRC and asks for it again. -/
  | flitCrcFail (link : Nat)
  /-- FLIT_RETRY_TIMER (R403). A flit unacknowledged for 128 clk is sent again from the replay buffer. -/
  | flitRetryTimer (link : Nat)
  /-- LINK_DEAD (R403). A link is declared dead after 16 failed retries or 2,400 idle clk with flits waiting. -/
  | linkDead (link : Nat)
  /-- PLANE_MASK_ADOPT (R400). A package adopts a new live-plane mask after a switch report. -/
  | planeMaskAdopt (pkg : Nat)
  /-- PORT_RETRAIN (R404). A dead Elpor port tries to train again every 1,200,000 clk. -/
  | portRetrain (pkg plane : Nat) (good : Bool)
  /-- DIE_HEARTBEAT (R405). A die controller sends a heartbeat to its mesh neighbours every 1,200 clk. -/
  | dieHeartbeat (pkg die : Nat)
  /-- DIE_LOST (R405). A die silent for 12,000 clk is lost, masked, and its launches aborted. -/
  | dieLost (pkg die : Nat)
  /-- PACKAGE_HEARTBEAT (R405). A package sends a heartbeat on every live plane every 1,200 clk. -/
  | packageHeartbeat (pkg : Nat)
  /-- PACKAGE_DEAD (R405). Switches declare a silent package dead; writes fail DPEER and loads take PEERDEAD. -/
  | packageDead (pkg : Nat)
  /-- CORE_FAIL (R405). A core failing in service is masked and its launches aborted. -/
  | coreFail (pkg die core : Nat)
  /-- ECC_CORRECTABLE (R402). A correctable storage error is corrected and counted. -/
  | eccCorrectable (pkg die : Nat)
  /-- ECC_UNCORRECTABLE (R402). An uncorrectable error aborts, poisons, discards or marks LOST by structure. -/
  | eccUncorrectable (e : EccSite)
  /-- BOOT_START (R394). Each die controller runs its boot steps at every start, journalling each. -/
  | bootStart (pkg die : Nat) (fails : List Nat)
  /-- DIE_UPDATE (R395). The Jerad die updates one die's image bank and restarts it. -/
  | dieUpdate (pkg die pmin pmax : Nat) (good : Bool)
  /-- HOST_HEARTBEAT (R397). The primary Jerad die sends a heartbeat to the standby every 1,200 clk. -/
  | hostHeartbeat
  /-- STREAM_RECORD (R397). The primary streams a state change to the standby before it takes effect. -/
  | streamRecord
  /-- TAKEOVER (R397). The standby declares the primary failed after 24,000 silent clk and takes over. -/
  | takeover
  /-- INSTRUCTION_FETCH (R241). An instruction fetch that missed the instruction cache completes, filling it or raising IFETCH or IACCESS. -/
  | instructionFetch (w slot : Nat)
  /-- REGISTER_RESULT_RETURN (R18). An arithmetic or mask instruction's result is produced after its latency and written to its register. -/
  | registerResultReturn (w k : Nat)
  /-- MAILBOX_MESSAGE (R391). A mailbox message from the Jerad die arrives at a die controller and sets SIG bit 4. -/
  | mailboxMessage (pkg die fw : Nat)
  /-- WAIT_FOR_RECORD_AGE_OUT (R389). A lock wait-for record older than 24,000,000 clk is dropped by firmware. -/
  | waitForRecordAgeOut (pkg die : Nat)
  /-- JOURNAL_CLEAR (R394). The operator clears a die's boot journal entries so that skipped steps are retried at the next start. -/
  | journalClear (pkg die : Nat)
  deriving DecidableEq, Repr

end Sys2Proof
end

