-- ==== Sys2Proof/WellFormed.lean ====
section
/-! DEFINITION. Which instruction words are instructions (02 R62): for each instruction the values its
fields accept. `check i` names the first field rule that `i` breaks; an event has no fields. -/

namespace Sys2Proof

/-- Why a word is illegal (02 R62, R39 to R61). -/
inductive Illop where
  | opcode        -- an unassigned opcode, or 0x7F (R59)
  | variant       -- a reserved FN (R59, R61)
  | reserved      -- a reserved field is not zero (R10, R62)
  | unused        -- an operand field that the entry does not use is not zero (R62)
  | flag          -- a flag that the entry does not list, or lacks one it requires (R43, R44)
  | xword         -- XW set where the entry gives the extension word no meaning (R41)
  | type          -- a type code that the entry does not accept (R53)
  | rounding      -- a rounding mode or compare condition not accepted (R54)
  | scope         -- a scope code not accepted (R55)
  | size          -- an access size not accepted (R56)
  | ordering      -- a qualifier or ordering not accepted (R57)
  | hint          -- a cache hint not accepted (R58)
  | condition     -- a branch condition not accepted (R49)
  | register      -- a register-naming violation (R52, R15)
  | subField      -- a sub-field out of range (R59, R62)
  | level         -- barrier level 3 or a barrier number above 15 (R51)
  | extension     -- a bit of the extension word that must be 0 (R62, R214)
  deriving DecidableEq, Repr

/-- The first rule of a list that does not hold. -/
def firstBroken : List (Bool × Illop) → Option Illop
  | [] => none
  | (ok, why) :: rest => if ok then firstBroken rest else some why

/-- Flag bits of format A (02 R43). -/
abbrev flSat : Nat := 0
abbrev flNega : Nat := 1
abbrev flNegc : Nat := 2
abbrev flAbs : Nat := 3
abbrev flRawok : Nat := 4
abbrev flFtz : Nat := 5
abbrev flScb : Nat := 6
abbrev flScc : Nat := 7
abbrev flXw : Nat := 8
abbrev flXf : Nat := 9

/-- Whether a flag of format A is set. -/
def AFmt.flag (f : AFmt) (b : Nat) : Bool := f.fl.getLsbD b

/-- What the RM field of an entry holds (02 R54). -/
inductive RmKind where
  | zero | round | roundNoSr | cond6 | cond8
  deriving DecidableEq, Repr

/-- What a register field of an entry names (02 R52, 06 R135). -/
inductive RegKind where
  | none    -- not used: must be 0
  | single  -- one vector register
  | typed   -- one vector register, or an even pair for type codes 13 and 14
  | quad    -- four vector registers from a multiple of 4
  | scalar  -- a scalar register
  | mask    -- a mask register
  | const   -- a constant, which the entry checks
  deriving DecidableEq, Repr

/-- The entry of an instruction of format A: accepted types, flags, flags that must be set, and fields. -/
structure AEntry where
  tys : List Nat
  fls : List Nat
  req : List Nat
  rm  : RmKind
  vd  : RegKind
  va  : RegKind
  vb  : RegKind
  vc  : RegKind

/-- Whether a type code selects a 64-bit operation on pairs (02 R53). -/
def isPairTy (ty : Nat) : Bool := ty == 13 || ty == 14

/-- The number of elements of a type (06 R133). -/
def elemCount (ty : Nat) : Nat :=
  if 4 ≤ ty ∧ ty ≤ 7 then 2 else if 8 ≤ ty ∧ ty ≤ 12 then 4 else 1

/-- Whether a register field holds what its kind asks (02 R52). -/
def regOk (k : RegKind) (ty r : Nat) : Bool :=
  match k with
  | .none => r == 0
  | .single => true
  | .typed => !isPairTy ty || r % 2 == 0
  | .quad => r % 4 == 0
  | .scalar => r < 64
  | .mask => r < 8
  | .const => true

def rmOk (k : RmKind) (rm : Nat) : Bool :=
  match k with
  | .zero => rm == 0
  | .round => rm ≤ 5
  | .roundNoSr => rm ≤ 4
  | .cond6 => rm ≤ 5
  | .cond8 => true

def tysInt : List Nat := [1, 2, 4, 5, 8, 9]
def tysInt64 : List Nat := [1, 2, 4, 5, 8, 9, 13, 14]
def tysAll : List Nat := [0, 1, 2, 3, 4, 5, 6, 7, 8, 9, 10, 11, 12, 13, 14]
def tysNarrow : List Nat := [0, 1, 2, 3, 4, 5, 6, 7, 8, 9, 10, 11, 12]
def tysFloat : List Nat := [3, 6, 7]
def tysShift : List Nat := [0, 1, 2, 4, 5, 8, 9, 13, 14]
def flsFloat : List Nat := [flSat, flNega, flAbs, flRawok, flFtz, flScb]

/-- Types of the reduction operators (06 R166). -/
def tysReduce (op : Nat) : List Nat :=
  if op ≤ 2 then [1, 2, 13, 14] else if op ≤ 5 then [0, 1, 2, 13, 14] else [3]

def flsReduce (op : Nat) : List Nat :=
  if op = 0 then [flSat, flRawok] else if op ≤ 5 then [flRawok] else [flRawok, flFtz]

/-- The entry of each instruction of format A (06 R137 to R172). -/
def entryA : Instr → Option (AEntry × AFmt)
  | .vadd f | .vsub f => some (⟨tysInt64, [flSat, flRawok, flScb], [], .zero, .typed, .typed, .typed, .none⟩, f)
  | .vmul f => some (⟨tysInt, [flSat, flRawok, flScb], [], .zero, .single, .single, .single, .none⟩, f)
  | .vmulh f | .vavg f => some (⟨tysInt, [flRawok, flScb], [], .zero, .single, .single, .single, .none⟩, f)
  | .vmad f => some (⟨tysInt, [flSat, flRawok, flScb, flScc], [], .zero, .single, .single, .single, .single⟩, f)
  | .vmin f | .vmax f => some (⟨tysInt64, [flRawok, flScb], [], .zero, .typed, .typed, .typed, .none⟩, f)
  | .vabs f | .vneg f => some (⟨[1, 4, 8, 13], [flSat, flRawok], [], .zero, .typed, .typed, .none, .none⟩, f)
  | .vaddc f | .vsubb f => some (⟨[1, 2], [flRawok, flScb], [], .zero, .single, .single, .single, .mask⟩, f)
  | .vsad f => some (⟨[4, 5, 8, 9], [flSat, flRawok, flScc], [], .zero, .single, .single, .single, .single⟩, f)
  | .vcmp f => some (⟨[1, 2, 13, 14], [flRawok, flScb], [], .cond6, .mask, .typed, .typed, .none⟩, f)
  | .vsel f => some (⟨tysAll, [flRawok, flScb], [], .zero, .typed, .typed, .typed, .mask⟩, f)
  | .vmov f => some (⟨tysAll, [flRawok], [], .zero, .typed, .typed, .none, .none⟩, f)
  | .vand f | .vor f | .vxor f => some (⟨tysAll, [flRawok, flScb], [], .zero, .typed, .typed, .typed, .none⟩, f)
  | .vnot f => some (⟨tysAll, [flRawok], [], .zero, .typed, .typed, .none, .none⟩, f)
  | .vshl f | .vshr f | .vrot f => some (⟨tysShift, [flRawok, flScb], [], .zero, .typed, .typed, .single, .none⟩, f)
  | .vsra f => some (⟨[0, 1, 4, 8, 13], [flRawok, flScb], [], .zero, .typed, .typed, .single, .none⟩, f)
  | .vclz f | .vpopc f => some (⟨[0, 1, 2], [flRawok], [], .zero, .single, .single, .none, .none⟩, f)
  | .vbfx f => some (⟨[0, 1, 2], [flRawok, flScb], [], .zero, .single, .single, .single, .none⟩, f)
  | .vbfi f => some (⟨[0, 1, 2], [flRawok, flScb, flScc], [], .zero, .single, .single, .single, .single⟩, f)
  | .vmovs f => some (⟨tysAll, [flScb], [flScb], .zero, .typed, .none, .scalar, .none⟩, f)
  | .vfadd f | .vfsub f | .vfmul f => some (⟨tysFloat, flsFloat, [], .round, .single, .single, .single, .none⟩, f)
  | .vfma f => some (⟨tysFloat, flNegc :: flScc :: flsFloat, [], .round, .single, .single, .single, .single⟩, f)
  | .vfmin f | .vfmax f =>
    some (⟨tysFloat, [flNega, flAbs, flRawok, flFtz, flScb], [], .zero, .single, .single, .single, .none⟩, f)
  | .vfcmp f => some (⟨[3], [flNega, flAbs, flRawok, flFtz, flScb], [], .cond8, .mask, .single, .single, .none⟩, f)
  | .vfdot2 f =>
    some (⟨[6, 7], [flSat, flNega, flNegc, flAbs, flRawok, flFtz, flScc], [], .round, .single, .single, .single, .single⟩, f)
  | .vfdot4 f =>
    some (⟨[10, 11], [flSat, flNega, flNegc, flAbs, flRawok, flFtz, flScc, flXf], [], .round, .single, .single, .single, .single⟩, f)
  | .vfclass f => some (⟨[3], [flRawok], [], .zero, .single, .single, .none, .none⟩, f)
  | .vfrnd f => some (⟨tysFloat, [flRawok, flFtz], [], .round, .single, .single, .none, .none⟩, f)
  | .vfrcp f | .vfrsq f | .vfsqrt f =>
    some (⟨[3], [flNega, flAbs, flRawok, flFtz], [], .round, .single, .single, .none, .none⟩, f)
  | .vfexp2 f | .vflog2 f | .vfsin f | .vfcos f =>
    some (⟨[3], [flNega, flAbs, flRawok, flFtz], [], .zero, .single, .single, .none, .none⟩, f)
  | .vcvt f => some (⟨tysAll.tail, [flSat, flRawok, flFtz], [], .round, .typed, .const, .none, .const⟩, f)
  | .vpackX2 f => some (⟨[4, 5, 6, 7], [flSat, flRawok, flFtz], [], .round, .single, .single, .single, .const⟩, f)
  | .vpackX4 f => some (⟨[8, 9, 10, 11, 12], [flSat, flRawok, flFtz], [], .round, .single, .single, .single, .const⟩, f)
  | .vunpk _ f => some (⟨[1, 2, 3], [flSat, flRawok, flFtz], [], .round, .single, .single, .none, .const⟩, f)
  | .vtag f => some (⟨tysAll, [], [], .zero, .typed, .none, .none, .none⟩, f)
  | .vqduo f => some (⟨[12], [flRawok, flFtz, flScc], [flScc], .round, .single, .quad, .none, .scalar⟩, f)
  | .vscale f => some (⟨tysFloat, [flSat, flRawok, flFtz, flScb], [], .round, .single, .single, .single, .none⟩, f)
  | .vshfl f | .vshflUp f | .vshflDown f | .vshflXor f =>
    some (⟨[0], [flRawok, flScb], [], .zero, .single, .single, .single, .const⟩, f)
  | .vshflx f => some (⟨[0], [flRawok], [], .zero, .single, .single, .single, .single⟩, f)
  | .vbcast f => some (⟨[0], [flRawok, flScb, flXf], [], .zero, .single, .single, .const, .none⟩, f)
  | .vred op f =>
    some (⟨tysReduce op.toNat, flsReduce op.toNat, [], if op.toNat = 6 then .roundNoSr else .zero,
           .scalar, .typed, .none, .none⟩, f)
  | .vscan op f =>
    some (⟨tysReduce op.toNat, flXf :: flsReduce op.toNat, [], if op.toNat = 6 then .roundNoSr else .zero,
           .typed, .typed, .none, .none⟩, f)
  | .vfunl f => some (⟨[0], [flRawok, flScb], [], .zero, .single, .single, .single, .const⟩, f)
  | .vlutn f => some (⟨[0, 8, 9], [flRawok, flScb, flScc, flXf], [flScb, flScc], .zero, .single, .single, .scalar, .scalar⟩, f)
  | .vbperm f => some (⟨[0], [flRawok], [], .zero, .single, .single, .single, .single⟩, f)
  | .vballot f => some (⟨[0], [flRawok], [], .zero, .scalar, .single, .none, .none⟩, f)
  | .vmatch f => some (⟨tysAll, [flRawok], [], .zero, .single, .typed, .none, .none⟩, f)
  | .vcompr f => some (⟨[0, 13], [flRawok], [], .zero, .typed, .typed, .mask, .none⟩, f)
  | _ => none

/-- The flags of `fl` all lie in a list (02 R43). -/
def flagsWithin (f : AFmt) (l : List Nat) : Bool :=
  (List.range 10).all fun b => !f.flag b || l.contains b

/-- What the constant fields of an entry must hold (06 R157 to R168). -/
def constsOk (i : Instr) : Bool :=
  match i with
  | .vcvt f =>
    f.vc.toNat < 15 && 1 ≤ f.vc.toNat && elemCount f.vc.toNat == elemCount f.ty.toNat
      && (!isPairTy f.vc.toNat || f.va.toNat % 2 == 0)
  | .vpackX2 f => 1 ≤ f.vc.toNat && f.vc.toNat ≤ 3
  | .vpackX4 f => 4 ≤ f.vc.toNat && f.vc.toNat ≤ 7
  | .vunpk _ f => 4 ≤ f.vc.toNat && f.vc.toNat ≤ 12
  | .vshfl f | .vshflUp f | .vshflDown f | .vshflXor f => f.vc.toNat ≤ 5
  | .vfunl f => 1 ≤ f.vc.toNat && f.vc.toNat ≤ 3
  | .vbcast f => if f.flag flXf then f.vb == 0 && !f.flag flScb else f.flag flScb
  | _ => true

/-- FN values of opcodes 0x42, 0x4B and 0x4C (02 R59, 06 R158, R166). -/
def variantOk (i : Instr) : Bool :=
  match i with
  | .vunpk e f => e.toNat < elemCount f.vc.toNat
  | .vred op _ | .vscan op _ => op.toNat ≤ 8
  | .atom op _ | .red op _ => op.toNat ≤ 14
  | _ => true

def checkA (i : Instr) (e : AEntry) (f : AFmt) : Option Illop :=
  let ty := f.ty.toNat
  firstBroken [
    (!f.flag flXw, .xword),
    (flagsWithin f e.fls && e.req.all f.flag, .flag),
    (e.tys.contains ty, .type),
    (rmOk e.rm f.rm.toNat, .rounding),
    (constsOk i, .subField),
    (variantOk i, .variant),
    (regOk e.vd ty f.vd.toNat && regOk e.va ty f.va.toNat
      && (if f.flag flScb then f.vb.toNat < 64 else regOk e.vb ty f.vb.toNat)
      && (if f.flag flScc then f.vc.toNat < 64 else regOk e.vc ty f.vc.toNat), .register),
    ((match i with | .vtag _ => f.msk == 0 | _ => true), .unused)]

/-- The entry of each instruction of format B: accepted types, whether SAT is accepted, whether VA is used (R60, R136). -/
def entryB : Instr → Option (List Nat × Bool × Bool × BFmt)
  | .vaddImm f | .vsubImm f | .vmulImm f => some (tysInt, true, true, f)
  | .vandImm f | .vorImm f | .vxorImm f => some (tysNarrow, false, true, f)
  | .vshlImm f | .vshrImm f => some ([0, 1, 2, 4, 5, 8, 9], false, true, f)
  | .vsraImm f => some ([0, 1, 4, 8], false, true, f)
  | .vminImm f | .vmaxImm f => some (tysInt, false, true, f)
  | .vmovImm f => some (tysNarrow, false, false, f)
  | .vfaddImm f | .vfmulImm f | .vfminImm f | .vfmaxImm f => some (tysFloat, false, true, f)
  | _ => none

def checkB (tys : List Nat) (sat useVa : Bool) (f : BFmt) : Option Illop :=
  firstBroken [
    (tys.contains f.ty.toNat, .type),
    (!f.sat || sat, .flag),
    (useVa || f.va == 0, .unused)]

/-- What a 6-bit field of format S names (02 R52, 05 R126). -/
inductive SKind where
  | none | scalar | mask
  deriving DecidableEq, Repr

def sOk (k : SKind) (r : Nat) : Bool :=
  match k with
  | .none => r == 0
  | .scalar => true
  | .mask => r < 8

/-- The entry of each instruction of format S: its fields SD, SA, SB and whether IMM is accepted (05 R102 to R130). -/
def entryS : Instr → Option (SKind × SKind × SKind × Bool × SFmt)
  | .sadd f | .ssub f | .smul f | .smulh f | .sdiv f | .sand f | .sor f | .sxor f | .sshl f | .sshr f | .ssra f
  | .smin f | .smax f | .smulhU f | .sdivU f | .sminU f | .smaxU f =>
    some (.scalar, .scalar, .scalar, f.imm == 0, f)
  | .smov f | .spopc f | .sclz f => some (.scalar, .scalar, .none, f.imm == 0, f)
  | .saddImm f | .ssubImm f | .smulImm f | .smulhImm f | .sdivImm f | .sandImm f | .sorImm f | .sxorImm f
  | .sshlImm f | .sshrImm f | .ssraImm f | .sminImm f | .smaxImm f =>
    some (.scalar, .scalar, .none, true, f)
  | .smovImm f => some (.scalar, .none, .none, true, f)
  | .scmp f | .scmpU f => some (.scalar, .scalar, .scalar, f.imm.toNat ≤ 5, f)
  | .ssel f => some (.scalar, .scalar, .scalar, f.imm.toNat < 64, f)
  | .sbfx f | .sbfxU f =>
    some (.scalar, .scalar, .none, f.imm.toNat < 8192 && 1 ≤ f.imm.toNat / 64 &&
      f.imm.toNat % 64 + f.imm.toNat / 64 ≤ 64, f)
  | .sbfi f =>
    some (.scalar, .scalar, .scalar, f.imm.toNat < 8192 && 1 ≤ f.imm.toNat / 64 &&
      f.imm.toNat % 64 + f.imm.toNat / 64 ≤ 64, f)
  | .slea f => some (.scalar, .scalar, .scalar, f.imm.toNat < 8, f)
  | .sldi f _ => some (.scalar, .none, .none, f.imm == 0, f)
  | .srd f =>
    if f.imm.toNat % 16 = 0 then some (.none, .none, .none, f.imm.toNat < 4096, f)
    else some (.scalar, .none, .none, f.imm.toNat < 16, f)
  | .swr f => some (.none, .scalar, .none, f.imm.toNat == 12, f)
  | .mand f | .mor f | .mxor f => some (.mask, .mask, .mask, f.imm == 0, f)
  | .mnot f | .mmov f | .msetem f => some (.mask, .mask, .none, f.imm == 0, f)
  | .mpopc f | .mffs f | .msave f => some (.scalar, .mask, .none, f.imm == 0, f)
  | .mrest f => some (.mask, .scalar, .none, f.imm == 0, f)
  | .splitq f => some (.scalar, .none, .none, f.imm == 0, f)
  | .regang f => some (.none, .mask, .none, f.imm.toNat < 65536, f)
  | _ => none

def checkS (d a b : SKind) (immOk : Bool) (f : SFmt) : Option Illop :=
  firstBroken [
    (immOk, .subField),
    ((d != .none || f.sd == 0) && (a != .none || f.sa == 0) && (b != .none || f.sb == 0), .unused),
    (sOk d f.sd.toNat && sOk a f.sa.toNat && sOk b f.sb.toNat, .register)]

/-- The field rules of format J (05 R116 to R125). -/
def checkJ (i : Instr) : Option (Option Illop × JFmt) :=
  let chk (f : JFmt) (bofs jofs reg cc : Bool) (regOk : Bool) : Option (Option Illop × JFmt) :=
    some (firstBroken [
      ((bofs || f.bofs == 0) && (jofs || f.jofs == 0) && (reg || f.reg == 0) && (cc || f.cc == 0), .unused),
      (!cc || f.cc.toNat ≤ 5, .condition),
      (regOk, .register)], f)
  match i with
  | .bra f => chk f true false false false true
  | .brc f => chk f true false true true (f.reg.toNat < 64)
  | .brx f => chk f true true true false (f.reg.toNat < 8)
  | .jmpi f | .callInd f | .ret f => chk f false true true false (f.reg.toNat % 2 == 0)
  | .call f => chk f true false true false (f.reg.toNat % 2 == 0)
  | .exit f | .nop f | .yield f => chk f false false false false true
  | .join f => chk f false true false false true
  | .joinBnd f =>
    some (firstBroken [
      (f.reg == 0 && f.cc == 0, .unused),
      (f.bofs != 0, .subField)], f)
  | _ => none

/-- Agreement of the type code with SZ in LD, ST, LDL and STL (02 R56). -/
def tySizeOk (ty sz : Nat) : Bool :=
  match sz with
  | 0 | 1 => ty ≤ 2
  | 2 | 4 => ty ≤ 12
  | 3 => ty == 0 || ty == 13 || ty == 14
  | _ => false

/-- The data register of a sized access (02 R52). -/
def dataOk (sz data : Nat) : Bool :=
  match sz with
  | 3 => data % 2 == 0
  | 4 => data % 4 == 0
  | _ => true

/-- ORD of a load or store: ORD 0 requires SC 0 (02 R57). -/
def ordOk (accept : List Nat) (f : MFmt) : Bool :=
  accept.contains f.fq.toNat && (f.fq != 0 || f.sc == 0)

/-- The field rules of format M (02 R47 to R58, 07 R181 to R199). -/
def checkM (i : Instr) : Option (Option Illop × MFmt) :=
  let scOk (f : MFmt) : Bool × Illop := (f.sc.toNat ≤ 5, .scope)
  let vecAcc (ty : BitVec 4) (f : MFmt) (ords : List Nat) : Option (Option Illop × MFmt) :=
    some (firstBroken [
      (f.sz.toNat ≤ 4, .size), (tySizeOk ty.toNat f.sz.toNat, .type), (dataOk f.sz.toNat f.data.toNat, .register),
      (ordOk ords f, .ordering), scOk f], f)
  let locAcc (ty : BitVec 4) (f : MFmt) (quals : List Nat) : Option (Option Illop × MFmt) :=
    some (firstBroken [
      (f.sz.toNat ≤ 4, .size), (tySizeOk ty.toNat f.sz.toNat, .type), (dataOk f.sz.toNat f.data.toNat, .register),
      (quals.contains f.fq.toNat, .ordering), (f.sc == 0, .scope), (f.hnt == 0, .hint)], f)
  let scaAcc (f : MFmt) (ords : List Nat) : Option (Option Illop × MFmt) :=
    some (firstBroken [
      (f.idx == 255 && f.msk == 0, .unused), (f.data.toNat < 64, .register), (f.sz.toNat ≤ 3, .size),
      (ordOk ords f, .ordering), scOk f], f)
  let atomAcc (f : MFmt) (f32 : Bool) (ords : List Nat) : Option (Option Illop × MFmt) :=
    some (firstBroken [
      (variantOk i, .variant),
      (f.sz == 2 || (f.sz == 3 && !f32), .size), (dataOk f.sz.toNat f.data.toNat, .register),
      (ords.contains f.fq.toNat, .ordering), scOk f, (f.hnt == 0, .hint)], f)
  let lineAcc (f : MFmt) (data sc hnt : Bool) (oneShot : Bool) : Option (Option Illop × MFmt) :=
    some (firstBroken [
      ((data || f.data == 0) && (!oneShot || (f.idx == 255 && f.msk == 0)), .unused),
      (f.data.toNat < 64, .register),
      (f.sz == 0, .size), (f.fq == 0, .ordering), ((if sc then f.sc.toNat ≤ 5 else f.sc == 0), .scope),
      (hnt || f.hnt == 0, .hint)], f)
  match i with
  | .ld ty f => vecAcc ty f [0, 1, 2]
  | .st ty f => vecAcc ty f [0, 1, 3]
  | .ldl ty f => locAcc ty f [0, 1, 2, 3]
  | .stl ty f => locAcc ty f [0, 4, 5]
  | .lds f | .ldsSx f => scaAcc f [0, 1, 2]
  | .sts f => scaAcc f [0, 1, 3]
  | .prf f | .prfL2 f => lineAcc f false false true false
  | .cwb f | .cinv f => lineAcc f false true false false
  | .atom op f => atomAcc f (12 ≤ op.toNat) [1, 2, 3, 4]
  | .atomc f => atomAcc f false [1, 2, 3, 4]
  | .red op f => atomAcc f (12 ≤ op.toNat) [1, 3]
  | .lock f | .lockTry f => lineAcc f true true false true
  | .unlock f => lineAcc f false true false true
  | .lkqry f => lineAcc f true false false true
  | _ => none

/-- The extension word of an engine command (08 R214). -/
def extOk (f : EFmt) : Bool :=
  if f.xw then f.ext.toNat < 2 ^ 27 && f.ext.toNat % 16 == 0 else f.ext == 0

/-- The field rules of format E (08 R211 to R230). -/
def checkE (i : Instr) : Option (Option Illop × EFmt) :=
  let chk (f : EFmt) (unused : Bool) (sc : Bool) (xw : Bool) : Option (Option Illop × EFmt) :=
    some (firstBroken [
      (unused && (f.imm != 0 || f.cnt == 0), .unused), (sc && f.sc.toNat ≤ 5, .scope), (xw || !f.xw, .xword),
      (extOk f, .extension)], f)
  match i with
  | .cpy f | .cpyOut f => chk f (f.td2 == 0 && f.td3 == 0) true true
  | .cpyLocal f => chk f (f.td3 == 0 && f.sa == 0 && f.sb == 0) true true
  | .cpyg f | .cpygScatter f => chk f (f.td2 == 0 && f.td3 == 0 && f.sb == 0) true true
  | .tdesc f => chk f (f.td2 == 0 && f.td3 == 0 && f.cnt == 0 && f.imm == 0) (f.sc == 0) false
  | .task f | .taskOvr f => chk f (f.sb == 0) true true
  | .taskCvt f => chk f (f.td3 == 0 && f.sb == 0) true true
  | .kmv f => chk f (f.td1 == 0 && f.td2 == 0 && f.td3 == 0 && f.sb == 0) true false
  | .mcst f => chk f true (f.sc == 5) true
  | .msgx f => chk f (f.td1 == 0 && f.td2 == 0 && f.td3 == 0) (f.sc == 5) true
  | _ => none

/-- The least scope code of a barrier level (07 R202). -/
def barScope (lvl : Nat) : Nat := if lvl = 0 then 0 else if lvl = 1 then 1 else 3

/-- The field rules of format X (07 R200 to R208, 08 R232). -/
def checkX (i : Instr) : Option (Option Illop × XFmt) :=
  let chk (f : XFmt) (unused : Bool) (sc : Bool) (sub : Bool) (lvl : Bool) : Option (Option Illop × XFmt) :=
    some (firstBroken [(unused, .unused), (sc && f.sc.toNat ≤ 5, .scope), (sub, .subField), (lvl, .level)], f)
  let barLvl (f : XFmt) : Bool := f.lvl.toNat ≤ 2 && f.num.toNat ≤ 15
  let barSc (f : XFmt) : Bool := barScope f.lvl.toNat ≤ f.sc.toNat
  match i with
  | .fence f => chk f (f.sa == 0 && f.lvl == 0 && f.num == 0 && f.imm == 0) true true true
  | .bararv f => chk f (f.sd == 0 && f.sa == 0) (barSc f) (f.imm.toNat ≤ 32) (barLvl f)
  | .barwait f => chk f (f.sa == 0 && f.imm == 0) (barSc f) true (barLvl f)
  | .barsync f => chk f (f.sa == 0) (barSc f) (f.imm.toNat ≤ 32) (barLvl f)
  | .csig f => chk f (f.sd == 0 && f.sa == 0 && f.lvl == 0) true (f.imm != 0) true
  | .cwait f => chk f (f.lvl == 0 && f.imm == 0) true true true
  | .crd f => chk f (f.sa == 0 && f.lvl == 0 && f.imm == 0) (f.sc == 0) true true
  | .wsync f => chk f (f.sd == 0 && f.lvl == 0 && f.num == 0 && f.imm == 0) (f.sc == 0) true true
  | .trap f => chk f (f.sd == 0 && f.sa == 0 && f.lvl == 0 && f.num == 0) (f.sc == 0) true true
  | .bkpt f => chk f (f.sd == 0 && f.sa == 0 && f.lvl == 0 && f.num == 0) (f.sc == 0) (f.imm.toNat < 65536) true
  | .ckpt f | .haltw f =>
    chk f (f.sd == 0 && f.sa == 0 && f.lvl == 0 && f.num == 0 && f.imm == 0) (f.sc == 0) true true
  | .clkrd f => chk f (f.sa == 0 && f.lvl == 0 && f.num == 0 && f.imm == 0) (f.sc == 0) true true
  | .evnt f => chk f (f.sd == 0 && f.sa == 0 && f.lvl == 0) true true true
  | _ => none

/-- The first field rule that an instruction breaks (02 R62); `none` for a well-formed one. -/
def check (i : Instr) : Option Illop :=
  match entryA i with
  | some (e, f) => checkA i e f
  | none =>
  match entryB i with
  | some (tys, sat, useVa, f) => checkB tys sat useVa f
  | none =>
  match entryS i with
  | some (d, a, b, immOk, f) => checkS d a b immOk f
  | none =>
  match checkJ i with
  | some (r, _) => r
  | none =>
  match checkM i with
  | some (r, _) => r
  | none =>
  match checkE i with
  | some (r, _) => r
  | none =>
  match checkX i with
  | some (r, _) => r
  | none => none

/-- Well-formedness: the instruction breaks no field rule. -/
def Instr.wf (i : Instr) : Bool := check i == none

end Sys2Proof
end

