-- ==== Sys2Proof/Decode.lean ====
section
/-! DEFINITION. Decoding instruction words, total on any words (02 R39 to R63), the firmware
instructions (16 R392), and the encoder written from the same tables. -/

namespace Sys2Proof

/-- Field of `n` bits of a word from bit `lo`. -/
def fld (w : Word) (lo n : Nat) : BitVec n := w.extractLsb' lo n

/-- OP of an instruction word (02 R40). -/
def opOf (w : Word) : Nat := (fld w 56 7).toNat

/-- FN of an instruction word (02 R40). -/
def fnOf (w : Word) : Nat := (fld w 52 4).toNat

/-- SW of an instruction word (02 R40). -/
def swOf (w : Word) : Bool := fld w 63 1 == 1

/-- FN where it is an operand (02 R59). -/
def readFn (w : Word) : BitVec 4 := fld w 52 4

/-- Format S (02 R46). -/
def readS (w : Word) : SFmt := ⟨swOf w, fld w 46 6, fld w 40 6, fld w 34 6, fld w 0 34⟩

/-- Format A (02 R42). -/
def readA (w : Word) : AFmt :=
  ⟨swOf w, fld w 44 8, fld w 36 8, fld w 28 8, fld w 20 8, fld w 17 3, fld w 13 4, fld w 10 3, fld w 0 10⟩

/-- Format B (02 R45). -/
def readB (w : Word) : BFmt :=
  ⟨swOf w, fld w 52 4, fld w 44 8, fld w 36 8, fld w 33 3, fld w 32 1 == 1, fld w 0 32⟩

/-- Format M (02 R47). -/
def readM (w : Word) : MFmt :=
  ⟨swOf w, fld w 44 8, fld w 38 6, fld w 30 8, fld w 27 3, fld w 24 3, fld w 21 3, fld w 18 3, fld w 16 2, fld w 0 16⟩

/-- Format J (02 R49). -/
def readJ (w : Word) : JFmt := ⟨swOf w, fld w 30 22, fld w 14 16, fld w 6 8, fld w 3 3⟩

/-- Format E with the word that follows it (02 R50, R41). -/
def readE (w ext : Word) : EFmt :=
  ⟨swOf w, fld w 48 4, fld w 44 4, fld w 40 4, fld w 34 6, fld w 28 6, fld w 23 5, fld w 20 3, fld w 19 1 == 1,
   fld w 0 16, if fld w 19 1 == 1 then ext else 0⟩

/-- Format X (02 R51). -/
def readX (w : Word) : XFmt :=
  ⟨swOf w, fld w 46 6, fld w 40 6, fld w 37 3, fld w 35 2, fld w 30 5, fld w 0 24⟩


/-- The variants of opcode 0x01 (02 R59). -/
def select01 (w : Word) : Except Illop Instr :=
  match fnOf w with
  | 0 => .ok (.sadd (readS w))
  | 1 => .ok (.ssub (readS w))
  | 2 => .ok (.smul (readS w))
  | 3 => .ok (.smulh (readS w))
  | 4 => .ok (.sdiv (readS w))
  | 5 => .ok (.sand (readS w))
  | 6 => .ok (.sor (readS w))
  | 7 => .ok (.sxor (readS w))
  | 8 => .ok (.sshl (readS w))
  | 9 => .ok (.sshr (readS w))
  | 10 => .ok (.ssra (readS w))
  | 11 => .ok (.smin (readS w))
  | 12 => .ok (.smax (readS w))
  | 13 => .ok (.smov (readS w))
  | 14 => .ok (.spopc (readS w))
  | _ => .ok (.sclz (readS w))

/-- The variants of opcode 0x02 (02 R59). -/
def select02 (w : Word) : Except Illop Instr :=
  match fnOf w with
  | 0 => .ok (.saddImm (readS w))
  | 1 => .ok (.ssubImm (readS w))
  | 2 => .ok (.smulImm (readS w))
  | 3 => .ok (.smulhImm (readS w))
  | 4 => .ok (.sdivImm (readS w))
  | 5 => .ok (.sandImm (readS w))
  | 6 => .ok (.sorImm (readS w))
  | 7 => .ok (.sxorImm (readS w))
  | 8 => .ok (.sshlImm (readS w))
  | 9 => .ok (.sshrImm (readS w))
  | 10 => .ok (.ssraImm (readS w))
  | 11 => .ok (.sminImm (readS w))
  | 12 => .ok (.smaxImm (readS w))
  | 13 => .ok (.smovImm (readS w))
  | _ => .error .variant

/-- The variants of opcode 0x03 (02 R59). -/
def select03 (w : Word) : Except Illop Instr :=
  match fnOf w with
  | 0 => .ok (.smulhU (readS w))
  | 1 => .ok (.sdivU (readS w))
  | 2 => .ok (.sminU (readS w))
  | 3 => .ok (.smaxU (readS w))
  | 4 => .ok (.scmp (readS w))
  | 5 => .ok (.scmpU (readS w))
  | 6 => .ok (.ssel (readS w))
  | 7 => .ok (.sbfx (readS w))
  | 8 => .ok (.sbfxU (readS w))
  | 9 => .ok (.sbfi (readS w))
  | 10 => .ok (.slea (readS w))
  | _ => .error .variant

/-- The variants of opcode 0x05 (02 R59). -/
def select05 (w : Word) : Except Illop Instr :=
  match fnOf w with
  | 0 => .ok (.srd (readS w))
  | 1 => .ok (.swr (readS w))
  | _ => .error .variant

/-- The variants of opcode 0x14 (02 R59). -/
def select14 (w : Word) : Except Illop Instr :=
  match fnOf w with
  | 0 => .ok (.call (readJ w))
  | 1 => .ok (.callInd (readJ w))
  | _ => .error .variant

/-- The variants of opcode 0x16 (02 R59). -/
def select16 (w : Word) : Except Illop Instr :=
  match fnOf w with
  | 0 => .ok (.exit (readJ w))
  | 1 => .ok (.nop (readJ w))
  | 2 => .ok (.yield (readJ w))
  | 3 => .ok (.join (readJ w))
  | 4 => .ok (.joinBnd (readJ w))
  | _ => .error .variant

/-- The variants of opcode 0x18 (02 R59). -/
def select18 (w : Word) : Except Illop Instr :=
  match fnOf w with
  | 0 => .ok (.mand (readS w))
  | 1 => .ok (.mor (readS w))
  | 2 => .ok (.mxor (readS w))
  | 3 => .ok (.mnot (readS w))
  | 4 => .ok (.mmov (readS w))
  | 5 => .ok (.mpopc (readS w))
  | 6 => .ok (.mffs (readS w))
  | 7 => .ok (.msetem (readS w))
  | 8 => .ok (.msave (readS w))
  | 9 => .ok (.mrest (readS w))
  | 10 => .ok (.splitq (readS w))
  | 11 => .ok (.regang (readS w))
  | _ => .error .variant

/-- The variants of opcode 0x20 (02 R59). -/
def select20 (w : Word) : Except Illop Instr :=
  match fnOf w with
  | 0 => .ok (.vadd (readA w))
  | 1 => .ok (.vsub (readA w))
  | 2 => .ok (.vmul (readA w))
  | 3 => .ok (.vmulh (readA w))
  | 4 => .ok (.vmad (readA w))
  | 5 => .ok (.vmin (readA w))
  | 6 => .ok (.vmax (readA w))
  | 7 => .ok (.vabs (readA w))
  | 8 => .ok (.vneg (readA w))
  | 9 => .ok (.vaddc (readA w))
  | 10 => .ok (.vsubb (readA w))
  | 11 => .ok (.vsad (readA w))
  | 12 => .ok (.vavg (readA w))
  | 13 => .ok (.vcmp (readA w))
  | 14 => .ok (.vsel (readA w))
  | _ => .ok (.vmov (readA w))

/-- The variants of opcode 0x21 (02 R59). -/
def select21 (w : Word) : Except Illop Instr :=
  match fnOf w with
  | 0 => .ok (.vand (readA w))
  | 1 => .ok (.vor (readA w))
  | 2 => .ok (.vxor (readA w))
  | 3 => .ok (.vnot (readA w))
  | 4 => .ok (.vshl (readA w))
  | 5 => .ok (.vshr (readA w))
  | 6 => .ok (.vsra (readA w))
  | 7 => .ok (.vrot (readA w))
  | 8 => .ok (.vclz (readA w))
  | 9 => .ok (.vpopc (readA w))
  | 10 => .ok (.vbfx (readA w))
  | 11 => .ok (.vbfi (readA w))
  | 12 => .ok (.vmovs (readA w))
  | _ => .error .variant

/-- The variants of opcode 0x22 (02 R59). -/
def select22 (w : Word) : Except Illop Instr :=
  match fnOf w with
  | 0 => .ok (.vfadd (readA w))
  | 1 => .ok (.vfsub (readA w))
  | 2 => .ok (.vfmul (readA w))
  | 3 => .ok (.vfma (readA w))
  | 4 => .ok (.vfmin (readA w))
  | 5 => .ok (.vfmax (readA w))
  | 6 => .ok (.vfcmp (readA w))
  | 7 => .ok (.vfdot2 (readA w))
  | 8 => .ok (.vfdot4 (readA w))
  | 9 => .ok (.vfclass (readA w))
  | 10 => .ok (.vfrnd (readA w))
  | _ => .error .variant

/-- The variants of opcode 0x23 (02 R59). -/
def select23 (w : Word) : Except Illop Instr :=
  match fnOf w with
  | 0 => .ok (.vfrcp (readA w))
  | 1 => .ok (.vfrsq (readA w))
  | 2 => .ok (.vfsqrt (readA w))
  | 3 => .ok (.vfexp2 (readA w))
  | 4 => .ok (.vflog2 (readA w))
  | 5 => .ok (.vfsin (readA w))
  | 6 => .ok (.vfcos (readA w))
  | _ => .error .variant

/-- The variants of opcode 0x41 (02 R59). -/
def select41 (w : Word) : Except Illop Instr :=
  match fnOf w with
  | 0 => .ok (.vpackX2 (readA w))
  | 1 => .ok (.vpackX4 (readA w))
  | _ => .error .variant

/-- The variants of opcode 0x48 (02 R59). -/
def select48 (w : Word) : Except Illop Instr :=
  match fnOf w with
  | 0 => .ok (.vshfl (readA w))
  | 1 => .ok (.vshflUp (readA w))
  | 2 => .ok (.vshflDown (readA w))
  | 3 => .ok (.vshflXor (readA w))
  | _ => .error .variant

/-- The variants of opcode 0x4D (02 R59). -/
def select4D (w : Word) : Except Illop Instr :=
  match fnOf w with
  | 0 => .ok (.vfunl (readA w))
  | 1 => .ok (.vlutn (readA w))
  | 2 => .ok (.vbperm (readA w))
  | _ => .error .variant

/-- The variants of opcode 0x4E (02 R59). -/
def select4E (w : Word) : Except Illop Instr :=
  match fnOf w with
  | 0 => .ok (.vballot (readA w))
  | 1 => .ok (.vmatch (readA w))
  | 2 => .ok (.vcompr (readA w))
  | _ => .error .variant

/-- The variants of opcode 0x52 (02 R59). -/
def select52 (w : Word) : Except Illop Instr :=
  match fnOf w with
  | 0 => .ok (.lds (readM w))
  | 1 => .ok (.ldsSx (readM w))
  | _ => .error .variant

/-- The variants of opcode 0x56 (02 R59). -/
def select56 (w : Word) : Except Illop Instr :=
  match fnOf w with
  | 0 => .ok (.prf (readM w))
  | 1 => .ok (.prfL2 (readM w))
  | _ => .error .variant

/-- The variants of opcode 0x63 (02 R59). -/
def select63 (w : Word) : Except Illop Instr :=
  match fnOf w with
  | 0 => .ok (.lock (readM w))
  | 1 => .ok (.lockTry (readM w))
  | _ => .error .variant

/-- The variants of opcode 0x70 (02 R59). -/
def select70 (w ext : Word) : Except Illop Instr :=
  match fnOf w with
  | 0 => .ok (.cpy (readE w ext))
  | 1 => .ok (.cpyOut (readE w ext))
  | 2 => .ok (.cpyLocal (readE w ext))
  | _ => .error .variant

/-- The variants of opcode 0x71 (02 R59). -/
def select71 (w ext : Word) : Except Illop Instr :=
  match fnOf w with
  | 0 => .ok (.cpyg (readE w ext))
  | 1 => .ok (.cpygScatter (readE w ext))
  | _ => .error .variant

/-- The variants of opcode 0x73 (02 R59). -/
def select73 (w ext : Word) : Except Illop Instr :=
  match fnOf w with
  | 0 => .ok (.task (readE w ext))
  | 1 => .ok (.taskOvr (readE w ext))
  | 2 => .ok (.taskCvt (readE w ext))
  | _ => .error .variant

/-- The instruction that a first word and the word after it select (02 R59, R60), its fields not checked. -/
def selectInstr (w ext : Word) : Except Illop Instr :=
  match opOf w with
  | 0x01 => select01 w
  | 0x02 => select02 w
  | 0x03 => select03 w
  | 0x04 => if fnOf w = 0 then .ok (.sldi (readS w) ext) else .error .variant
  | 0x05 => select05 w
  | 0x10 => if fnOf w = 0 then .ok (.bra (readJ w)) else .error .variant
  | 0x11 => if fnOf w = 0 then .ok (.brc (readJ w)) else .error .variant
  | 0x12 => if fnOf w = 0 then .ok (.brx (readJ w)) else .error .variant
  | 0x13 => if fnOf w = 0 then .ok (.jmpi (readJ w)) else .error .variant
  | 0x14 => select14 w
  | 0x15 => if fnOf w = 0 then .ok (.ret (readJ w)) else .error .variant
  | 0x16 => select16 w
  | 0x18 => select18 w
  | 0x20 => select20 w
  | 0x21 => select21 w
  | 0x22 => select22 w
  | 0x23 => select23 w
  | 0x30 => .ok (.vaddImm (readB w))
  | 0x31 => .ok (.vsubImm (readB w))
  | 0x32 => .ok (.vmulImm (readB w))
  | 0x33 => .ok (.vandImm (readB w))
  | 0x34 => .ok (.vorImm (readB w))
  | 0x35 => .ok (.vxorImm (readB w))
  | 0x36 => .ok (.vshlImm (readB w))
  | 0x37 => .ok (.vshrImm (readB w))
  | 0x38 => .ok (.vsraImm (readB w))
  | 0x39 => .ok (.vminImm (readB w))
  | 0x3A => .ok (.vmaxImm (readB w))
  | 0x3B => .ok (.vmovImm (readB w))
  | 0x3C => .ok (.vfaddImm (readB w))
  | 0x3D => .ok (.vfmulImm (readB w))
  | 0x3E => .ok (.vfminImm (readB w))
  | 0x3F => .ok (.vfmaxImm (readB w))
  | 0x40 => if fnOf w = 0 then .ok (.vcvt (readA w)) else .error .variant
  | 0x41 => select41 w
  | 0x42 => .ok (.vunpk (readFn w) (readA w))
  | 0x43 => if fnOf w = 0 then .ok (.vtag (readA w)) else .error .variant
  | 0x44 => if fnOf w = 0 then .ok (.vqduo (readA w)) else .error .variant
  | 0x45 => if fnOf w = 0 then .ok (.vscale (readA w)) else .error .variant
  | 0x48 => select48 w
  | 0x49 => if fnOf w = 0 then .ok (.vshflx (readA w)) else .error .variant
  | 0x4A => if fnOf w = 0 then .ok (.vbcast (readA w)) else .error .variant
  | 0x4B => .ok (.vred (readFn w) (readA w))
  | 0x4C => .ok (.vscan (readFn w) (readA w))
  | 0x4D => select4D w
  | 0x4E => select4E w
  | 0x50 => .ok (.ld (readFn w) (readM w))
  | 0x51 => .ok (.st (readFn w) (readM w))
  | 0x52 => select52 w
  | 0x53 => if fnOf w = 0 then .ok (.sts (readM w)) else .error .variant
  | 0x54 => .ok (.ldl (readFn w) (readM w))
  | 0x55 => .ok (.stl (readFn w) (readM w))
  | 0x56 => select56 w
  | 0x57 => if fnOf w = 0 then .ok (.cwb (readM w)) else .error .variant
  | 0x58 => if fnOf w = 0 then .ok (.cinv (readM w)) else .error .variant
  | 0x60 => .ok (.atom (readFn w) (readM w))
  | 0x61 => if fnOf w = 0 then .ok (.atomc (readM w)) else .error .variant
  | 0x62 => .ok (.red (readFn w) (readM w))
  | 0x63 => select63 w
  | 0x64 => if fnOf w = 0 then .ok (.unlock (readM w)) else .error .variant
  | 0x65 => if fnOf w = 0 then .ok (.lkqry (readM w)) else .error .variant
  | 0x68 => if fnOf w = 0 then .ok (.fence (readX w)) else .error .variant
  | 0x69 => if fnOf w = 0 then .ok (.bararv (readX w)) else .error .variant
  | 0x6A => if fnOf w = 0 then .ok (.barwait (readX w)) else .error .variant
  | 0x6B => if fnOf w = 0 then .ok (.barsync (readX w)) else .error .variant
  | 0x6C => if fnOf w = 0 then .ok (.csig (readX w)) else .error .variant
  | 0x6D => if fnOf w = 0 then .ok (.cwait (readX w)) else .error .variant
  | 0x6E => if fnOf w = 0 then .ok (.crd (readX w)) else .error .variant
  | 0x6F => if fnOf w = 0 then .ok (.wsync (readX w)) else .error .variant
  | 0x70 => select70 w ext
  | 0x71 => select71 w ext
  | 0x72 => if fnOf w = 0 then .ok (.tdesc (readE w ext)) else .error .variant
  | 0x73 => select73 w ext
  | 0x74 => if fnOf w = 0 then .ok (.kmv (readE w ext)) else .error .variant
  | 0x75 => if fnOf w = 0 then .ok (.mcst (readE w ext)) else .error .variant
  | 0x76 => if fnOf w = 0 then .ok (.msgx (readE w ext)) else .error .variant
  | 0x78 => if fnOf w = 0 then .ok (.trap (readX w)) else .error .variant
  | 0x79 => if fnOf w = 0 then .ok (.bkpt (readX w)) else .error .variant
  | 0x7A => if fnOf w = 0 then .ok (.ckpt (readX w)) else .error .variant
  | 0x7B => if fnOf w = 0 then .ok (.clkrd (readX w)) else .error .variant
  | 0x7C => if fnOf w = 0 then .ok (.evnt (readX w)) else .error .variant
  | 0x7D => if fnOf w = 0 then .ok (.haltw (readX w)) else .error .variant
  | _ => .error .opcode

/-- The formats of the opcode map (02 R59). -/
inductive Fmt where
  | a | b | s | m | j | e | x | unassigned
  deriving DecidableEq, Repr

/-- The format of an opcode (02 R59). -/
def fmtOf (op : Nat) : Fmt :=
  if 0x01 ≤ op ∧ op ≤ 0x05 ∨ op = 0x18 then .s
  else if 0x10 ≤ op ∧ op ≤ 0x16 then .j
  else if 0x20 ≤ op ∧ op ≤ 0x23 ∨ 0x40 ≤ op ∧ op ≤ 0x45 ∨ 0x48 ≤ op ∧ op ≤ 0x4E then .a
  else if 0x30 ≤ op ∧ op ≤ 0x3F then .b
  else if 0x50 ≤ op ∧ op ≤ 0x58 ∨ 0x60 ≤ op ∧ op ≤ 0x65 then .m
  else if 0x68 ≤ op ∧ op ≤ 0x6F ∨ 0x78 ≤ op ∧ op ≤ 0x7D then .x
  else if 0x70 ≤ op ∧ op ≤ 0x76 then .e
  else .unassigned

/-- Whether an extension word follows a first word (02 R41). -/
def hasExt (w : Word) : Bool :=
  match fmtOf (opOf w) with
  | .a => fld w 8 1 == 1
  | .s => opOf w == 0x04 && fnOf w == 0
  | .e => fld w 19 1 == 1
  | .x => fld w 29 1 == 1
  | _ => false

/-- The words of an instruction: 1, or 2 with an extension word (02 R41). -/
def wordsOf (w : Word) : Nat := if hasExt w then 2 else 1

/-- The reserved fields of formats J, E and X are zero (02 R49 to R51), and format X has no extension word
that an entry gives a meaning (R41). -/
def reservedOk (w : Word) : Option Illop :=
  match fmtOf (opOf w) with
  | .j => if fld w 0 3 = 0 then none else some .reserved
  | .e => if fld w 16 3 = 0 then none else some .reserved
  | .x => if fld w 29 1 ≠ 0 then some .xword else if fld w 24 5 = 0 then none else some .reserved
  | _ => none

/-- Decoding (02 R39 to R62): the instruction of a first word and, where it has one, its extension word;
or why the words are illegal. -/
def decode (w ext : Word) : Except Illop Instr :=
  match reservedOk w with
  | some e => .error e
  | none =>
    match selectInstr w ext with
    | .error e => .error e
    | .ok i =>
      match check i with
      | some e => .error e
      | none => .ok i

/-- Place a field of a word. -/
def put (v lo : Nat) : Nat := v * 2 ^ lo

def packHead (sw : Bool) (op fn : Nat) : Nat := put sw.toNat 63 + put op 56 + put fn 52

def packS (op fn : Nat) (f : SFmt) : Word :=
  BitVec.ofNat 64 (packHead f.sw op fn + put f.sd.toNat 46 + put f.sa.toNat 40 + put f.sb.toNat 34 + f.imm.toNat)

def packA (op fn : Nat) (f : AFmt) : Word :=
  BitVec.ofNat 64 (packHead f.sw op fn + put f.vd.toNat 44 + put f.va.toNat 36 + put f.vb.toNat 28 + put f.vc.toNat 20
    + put f.msk.toNat 17 + put f.ty.toNat 13 + put f.rm.toNat 10 + f.fl.toNat)

def packB (op : Nat) (f : BFmt) : Word :=
  BitVec.ofNat 64 (packHead f.sw op f.ty.toNat + put f.vd.toNat 44 + put f.va.toNat 36 + put f.msk.toNat 33
    + put f.sat.toNat 32 + f.imm.toNat)

def packM (op fn : Nat) (f : MFmt) : Word :=
  BitVec.ofNat 64 (packHead f.sw op fn + put f.data.toNat 44 + put f.base.toNat 38 + put f.idx.toNat 30
    + put f.msk.toNat 27 + put f.sc.toNat 24 + put f.sz.toNat 21 + put f.fq.toNat 18 + put f.hnt.toNat 16 + f.ofs.toNat)

def packJ (op fn : Nat) (f : JFmt) : Word :=
  BitVec.ofNat 64 (packHead f.sw op fn + put f.bofs.toNat 30 + put f.jofs.toNat 14 + put f.reg.toNat 6 + put f.cc.toNat 3)

def packE (op fn : Nat) (f : EFmt) : Word :=
  BitVec.ofNat 64 (packHead f.sw op fn + put f.td1.toNat 48 + put f.td2.toNat 44 + put f.td3.toNat 40 + put f.sa.toNat 34
    + put f.sb.toNat 28 + put f.cnt.toNat 23 + put f.sc.toNat 20 + put f.xw.toNat 19 + f.imm.toNat)

def packX (op fn : Nat) (f : XFmt) : Word :=
  BitVec.ofNat 64 (packHead f.sw op fn + put f.sd.toNat 46 + put f.sa.toNat 40 + put f.sc.toNat 37 + put f.lvl.toNat 35
    + put f.num.toNat 30 + f.imm.toNat)

/-- The words of a Karburek instruction: its first word and its extension word; `none` for the others. -/
def encode : Instr → Option (Word × Option Word)
  | .sadd f => some (packS 0x01 0 f, none)
  | .ssub f => some (packS 0x01 1 f, none)
  | .smul f => some (packS 0x01 2 f, none)
  | .smulh f => some (packS 0x01 3 f, none)
  | .sdiv f => some (packS 0x01 4 f, none)
  | .sand f => some (packS 0x01 5 f, none)
  | .sor f => some (packS 0x01 6 f, none)
  | .sxor f => some (packS 0x01 7 f, none)
  | .sshl f => some (packS 0x01 8 f, none)
  | .sshr f => some (packS 0x01 9 f, none)
  | .ssra f => some (packS 0x01 10 f, none)
  | .smin f => some (packS 0x01 11 f, none)
  | .smax f => some (packS 0x01 12 f, none)
  | .smov f => some (packS 0x01 13 f, none)
  | .spopc f => some (packS 0x01 14 f, none)
  | .sclz f => some (packS 0x01 15 f, none)
  | .saddImm f => some (packS 0x02 0 f, none)
  | .ssubImm f => some (packS 0x02 1 f, none)
  | .smulImm f => some (packS 0x02 2 f, none)
  | .smulhImm f => some (packS 0x02 3 f, none)
  | .sdivImm f => some (packS 0x02 4 f, none)
  | .sandImm f => some (packS 0x02 5 f, none)
  | .sorImm f => some (packS 0x02 6 f, none)
  | .sxorImm f => some (packS 0x02 7 f, none)
  | .sshlImm f => some (packS 0x02 8 f, none)
  | .sshrImm f => some (packS 0x02 9 f, none)
  | .ssraImm f => some (packS 0x02 10 f, none)
  | .sminImm f => some (packS 0x02 11 f, none)
  | .smaxImm f => some (packS 0x02 12 f, none)
  | .smovImm f => some (packS 0x02 13 f, none)
  | .smulhU f => some (packS 0x03 0 f, none)
  | .sdivU f => some (packS 0x03 1 f, none)
  | .sminU f => some (packS 0x03 2 f, none)
  | .smaxU f => some (packS 0x03 3 f, none)
  | .scmp f => some (packS 0x03 4 f, none)
  | .scmpU f => some (packS 0x03 5 f, none)
  | .ssel f => some (packS 0x03 6 f, none)
  | .sbfx f => some (packS 0x03 7 f, none)
  | .sbfxU f => some (packS 0x03 8 f, none)
  | .sbfi f => some (packS 0x03 9 f, none)
  | .slea f => some (packS 0x03 10 f, none)
  | .sldi f ext => some (packS 0x04 0 f, some ext)
  | .srd f => some (packS 0x05 0 f, none)
  | .swr f => some (packS 0x05 1 f, none)
  | .bra f => some (packJ 0x10 0 f, none)
  | .brc f => some (packJ 0x11 0 f, none)
  | .brx f => some (packJ 0x12 0 f, none)
  | .jmpi f => some (packJ 0x13 0 f, none)
  | .call f => some (packJ 0x14 0 f, none)
  | .callInd f => some (packJ 0x14 1 f, none)
  | .ret f => some (packJ 0x15 0 f, none)
  | .exit f => some (packJ 0x16 0 f, none)
  | .nop f => some (packJ 0x16 1 f, none)
  | .yield f => some (packJ 0x16 2 f, none)
  | .join f => some (packJ 0x16 3 f, none)
  | .joinBnd f => some (packJ 0x16 4 f, none)
  | .mand f => some (packS 0x18 0 f, none)
  | .mor f => some (packS 0x18 1 f, none)
  | .mxor f => some (packS 0x18 2 f, none)
  | .mnot f => some (packS 0x18 3 f, none)
  | .mmov f => some (packS 0x18 4 f, none)
  | .mpopc f => some (packS 0x18 5 f, none)
  | .mffs f => some (packS 0x18 6 f, none)
  | .msetem f => some (packS 0x18 7 f, none)
  | .msave f => some (packS 0x18 8 f, none)
  | .mrest f => some (packS 0x18 9 f, none)
  | .splitq f => some (packS 0x18 10 f, none)
  | .regang f => some (packS 0x18 11 f, none)
  | .vadd f => some (packA 0x20 0 f, none)
  | .vsub f => some (packA 0x20 1 f, none)
  | .vmul f => some (packA 0x20 2 f, none)
  | .vmulh f => some (packA 0x20 3 f, none)
  | .vmad f => some (packA 0x20 4 f, none)
  | .vmin f => some (packA 0x20 5 f, none)
  | .vmax f => some (packA 0x20 6 f, none)
  | .vabs f => some (packA 0x20 7 f, none)
  | .vneg f => some (packA 0x20 8 f, none)
  | .vaddc f => some (packA 0x20 9 f, none)
  | .vsubb f => some (packA 0x20 10 f, none)
  | .vsad f => some (packA 0x20 11 f, none)
  | .vavg f => some (packA 0x20 12 f, none)
  | .vcmp f => some (packA 0x20 13 f, none)
  | .vsel f => some (packA 0x20 14 f, none)
  | .vmov f => some (packA 0x20 15 f, none)
  | .vand f => some (packA 0x21 0 f, none)
  | .vor f => some (packA 0x21 1 f, none)
  | .vxor f => some (packA 0x21 2 f, none)
  | .vnot f => some (packA 0x21 3 f, none)
  | .vshl f => some (packA 0x21 4 f, none)
  | .vshr f => some (packA 0x21 5 f, none)
  | .vsra f => some (packA 0x21 6 f, none)
  | .vrot f => some (packA 0x21 7 f, none)
  | .vclz f => some (packA 0x21 8 f, none)
  | .vpopc f => some (packA 0x21 9 f, none)
  | .vbfx f => some (packA 0x21 10 f, none)
  | .vbfi f => some (packA 0x21 11 f, none)
  | .vmovs f => some (packA 0x21 12 f, none)
  | .vfadd f => some (packA 0x22 0 f, none)
  | .vfsub f => some (packA 0x22 1 f, none)
  | .vfmul f => some (packA 0x22 2 f, none)
  | .vfma f => some (packA 0x22 3 f, none)
  | .vfmin f => some (packA 0x22 4 f, none)
  | .vfmax f => some (packA 0x22 5 f, none)
  | .vfcmp f => some (packA 0x22 6 f, none)
  | .vfdot2 f => some (packA 0x22 7 f, none)
  | .vfdot4 f => some (packA 0x22 8 f, none)
  | .vfclass f => some (packA 0x22 9 f, none)
  | .vfrnd f => some (packA 0x22 10 f, none)
  | .vfrcp f => some (packA 0x23 0 f, none)
  | .vfrsq f => some (packA 0x23 1 f, none)
  | .vfsqrt f => some (packA 0x23 2 f, none)
  | .vfexp2 f => some (packA 0x23 3 f, none)
  | .vflog2 f => some (packA 0x23 4 f, none)
  | .vfsin f => some (packA 0x23 5 f, none)
  | .vfcos f => some (packA 0x23 6 f, none)
  | .vaddImm f => some (packB 0x30 f, none)
  | .vsubImm f => some (packB 0x31 f, none)
  | .vmulImm f => some (packB 0x32 f, none)
  | .vandImm f => some (packB 0x33 f, none)
  | .vorImm f => some (packB 0x34 f, none)
  | .vxorImm f => some (packB 0x35 f, none)
  | .vshlImm f => some (packB 0x36 f, none)
  | .vshrImm f => some (packB 0x37 f, none)
  | .vsraImm f => some (packB 0x38 f, none)
  | .vminImm f => some (packB 0x39 f, none)
  | .vmaxImm f => some (packB 0x3A f, none)
  | .vmovImm f => some (packB 0x3B f, none)
  | .vfaddImm f => some (packB 0x3C f, none)
  | .vfmulImm f => some (packB 0x3D f, none)
  | .vfminImm f => some (packB 0x3E f, none)
  | .vfmaxImm f => some (packB 0x3F f, none)
  | .vcvt f => some (packA 0x40 0 f, none)
  | .vpackX2 f => some (packA 0x41 0 f, none)
  | .vpackX4 f => some (packA 0x41 1 f, none)
  | .vunpk op f => some (packA 0x42 op.toNat f, none)
  | .vtag f => some (packA 0x43 0 f, none)
  | .vqduo f => some (packA 0x44 0 f, none)
  | .vscale f => some (packA 0x45 0 f, none)
  | .vshfl f => some (packA 0x48 0 f, none)
  | .vshflUp f => some (packA 0x48 1 f, none)
  | .vshflDown f => some (packA 0x48 2 f, none)
  | .vshflXor f => some (packA 0x48 3 f, none)
  | .vshflx f => some (packA 0x49 0 f, none)
  | .vbcast f => some (packA 0x4A 0 f, none)
  | .vred op f => some (packA 0x4B op.toNat f, none)
  | .vscan op f => some (packA 0x4C op.toNat f, none)
  | .vfunl f => some (packA 0x4D 0 f, none)
  | .vlutn f => some (packA 0x4D 1 f, none)
  | .vbperm f => some (packA 0x4D 2 f, none)
  | .vballot f => some (packA 0x4E 0 f, none)
  | .vmatch f => some (packA 0x4E 1 f, none)
  | .vcompr f => some (packA 0x4E 2 f, none)
  | .ld op f => some (packM 0x50 op.toNat f, none)
  | .st op f => some (packM 0x51 op.toNat f, none)
  | .lds f => some (packM 0x52 0 f, none)
  | .ldsSx f => some (packM 0x52 1 f, none)
  | .sts f => some (packM 0x53 0 f, none)
  | .ldl op f => some (packM 0x54 op.toNat f, none)
  | .stl op f => some (packM 0x55 op.toNat f, none)
  | .prf f => some (packM 0x56 0 f, none)
  | .prfL2 f => some (packM 0x56 1 f, none)
  | .cwb f => some (packM 0x57 0 f, none)
  | .cinv f => some (packM 0x58 0 f, none)
  | .atom op f => some (packM 0x60 op.toNat f, none)
  | .atomc f => some (packM 0x61 0 f, none)
  | .red op f => some (packM 0x62 op.toNat f, none)
  | .lock f => some (packM 0x63 0 f, none)
  | .lockTry f => some (packM 0x63 1 f, none)
  | .unlock f => some (packM 0x64 0 f, none)
  | .lkqry f => some (packM 0x65 0 f, none)
  | .fence f => some (packX 0x68 0 f, none)
  | .bararv f => some (packX 0x69 0 f, none)
  | .barwait f => some (packX 0x6A 0 f, none)
  | .barsync f => some (packX 0x6B 0 f, none)
  | .csig f => some (packX 0x6C 0 f, none)
  | .cwait f => some (packX 0x6D 0 f, none)
  | .crd f => some (packX 0x6E 0 f, none)
  | .wsync f => some (packX 0x6F 0 f, none)
  | .cpy f => some (packE 0x70 0 f, if f.xw then some f.ext else none)
  | .cpyOut f => some (packE 0x70 1 f, if f.xw then some f.ext else none)
  | .cpyLocal f => some (packE 0x70 2 f, if f.xw then some f.ext else none)
  | .cpyg f => some (packE 0x71 0 f, if f.xw then some f.ext else none)
  | .cpygScatter f => some (packE 0x71 1 f, if f.xw then some f.ext else none)
  | .tdesc f => some (packE 0x72 0 f, if f.xw then some f.ext else none)
  | .task f => some (packE 0x73 0 f, if f.xw then some f.ext else none)
  | .taskOvr f => some (packE 0x73 1 f, if f.xw then some f.ext else none)
  | .taskCvt f => some (packE 0x73 2 f, if f.xw then some f.ext else none)
  | .kmv f => some (packE 0x74 0 f, if f.xw then some f.ext else none)
  | .mcst f => some (packE 0x75 0 f, if f.xw then some f.ext else none)
  | .msgx f => some (packE 0x76 0 f, if f.xw then some f.ext else none)
  | .trap f => some (packX 0x78 0 f, none)
  | .bkpt f => some (packX 0x79 0 f, none)
  | .ckpt f => some (packX 0x7A 0 f, none)
  | .clkrd f => some (packX 0x7B 0 f, none)
  | .evnt f => some (packX 0x7C 0 f, none)
  | .haltw f => some (packX 0x7D 0 f, none)
  | _ => none

/-- The firmware instructions (16 R392): R-type, opcode 0x0B, FUNCT7 0, FUNCT3 0 to 3; the manual gives RFETCH
no use of rs2 and asks no value of it (log 12). -/
def decodeXkarb (w : BitVec 32) : Option Instr :=
  let f : RFmt := ⟨w.extractLsb' 20 5, w.extractLsb' 15 5, w.extractLsb' 7 5⟩
  if w.extractLsb' 0 7 = 0x0B ∧ w.extractLsb' 25 7 = 0 then
    match (w.extractLsb' 12 3).toNat with
    | 0 => some (.rfetch f)
    | 1 => some (.kbfx f)
    | 2 => some (.sigwait f)
    | 3 => some (.dispatch f)
    | _ => none
  else none

/-- The word of a firmware instruction (16 R392). -/
def encodeXkarb : Instr → Option (BitVec 32)
  | .rfetch f => some (packR 0 f)
  | .kbfx f => some (packR 1 f)
  | .sigwait f => some (packR 2 f)
  | .dispatch f => some (packR 3 f)
  | _ => none
where
  packR (funct3 : Nat) (f : RFmt) : BitVec 32 :=
    BitVec.ofNat 32 (put f.rs2.toNat 20 + put f.rs1.toNat 15 + put funct3 12 + put f.rd.toNat 7 + 0x0B)

/-- What the decoder reads from the bits `w` of an instruction whose table row has `nbits` bits: a firmware
instruction of one 32-bit word, or a Karburek instruction of one or two 64-bit words. -/
def decodeTableWord (nbits w : Nat) : Option Instr :=
  if nbits ≤ 32 then decodeXkarb (BitVec.ofNat 32 w)
  else
    match decode (BitVec.ofNat 64 w) (BitVec.ofNat 64 (w / 2 ^ 64)) with
    | .ok i => some i
    | .error _ => none

end Sys2Proof
end

