-- ==== Sys2Proof/Machine/Event.lean ====
section
/-! DEFINITION. The steps of the part that have no encoding, as the agenda and the outside inputs hold them: the same steps as the
constructors of `Instr` of these names. (A value of a constructor of `Instr` past the 245th cannot stand in compiled code.) -/

namespace Sys2Proof.Machine

/-- A step of the part. -/
inductive Event where
  /-- JOIN_BOUND_EXPIRY (R121). -/
  | joinBoundExpiry (w slot : Nat)
  /-- REGANG_BOUND_EXPIRY (R130). -/
  | regangBoundExpiry (w slot : Nat)
  /-- SIGWAIT_WAKE (R392). -/
  | sigwaitWake (pkg die fw : Nat)
  /-- SIGWAIT_TIMEOUT (R392). -/
  | sigwaitTimeout (pkg die fw : Nat)
  /-- DISPATCH_COMPLETE (R393). -/
  | dispatchComplete (pkg die fw : Nat)
  /-- PURGE (R393). -/
  | purge (pkg die core : Nat)
  /-- MASK (R393). -/
  | mask (pkg die core : Nat)
  /-- GENSET (R393). -/
  | genset (pkg die core : Nat)
  /-- REBIND (R393). -/
  | rebind (pkg die core : Nat)
  /-- SPAN_PARK_END (R239). -/
  | spanParkEnd (w slot : Nat)
  /-- EXCEPTION_RECORD_HELD (R360). -/
  | exceptionRecordHeld (q : Nat)
  /-- LOAD_REPLY (R182). -/
  | loadReply (r : Nat)
  /-- REGANG_MERGE (R247). -/
  | regangMerge (w : Nat)
  /-- SWAP_EPOCH_ADVANCE (R36). -/
  | swapEpochAdvance (w : Nat)
  /-- SPLIT_SWAP (R246). -/
  | splitSwap (w : Nat)
  /-- SPLIT_SWAP_DONE (R246). -/
  | splitSwapDone (w : Nat)
  /-- SPLIT_FILL (R246). -/
  | splitFill (w : Nat)
  /-- SPLIT_FILL_DONE (R246). -/
  | splitFillDone (w : Nat)
  /-- FE_GRANULE_ACCESS (R185). -/
  | feGranuleAccess (a : Nat)
  /-- HOME_SERVE_LOAD (R255). -/
  | homeServeLoad (r : Nat)
  /-- STORE_APPLY (R294). -/
  | storeApply (r : Nat)
  /-- ATOMIC_APPLY (R192). -/
  | atomicApply (r : Nat)
  /-- STAGE_ACK (R294). -/
  | stageAck (r : Nat)
  /-- INVALIDATION (R288). -/
  | invalidation (v : Nat)
  /-- PROBE_ABSENT (R289). -/
  | probeAbsent (v : Nat)
  /-- STALE (R381). -/
  | stale (r : Nat)
  /-- MISHOME (R380). -/
  | mishome (r : Nat)
  /-- PLC_MISS (R378). -/
  | plcMiss (r : Nat)
  /-- TLB_MISS_WALK (R379). -/
  | tlbMissWalk (r : Nat)
  /-- EVICTION_WRITEBACK (R293). -/
  | evictionWriteback (c : Nat)
  /-- XLATE (R386). -/
  | xlate (r : Nat)
  /-- LOST (R290). -/
  | lost (pkg die line : Nat)
  /-- COHLOST (R388). -/
  | cohlost (pkg die line : Nat)
  /-- COHFIX (R388). -/
  | cohfix (pkg die line : Nat)
  /-- FENCE_COMPLETE (R200). -/
  | fenceComplete (w slot : Nat)
  /-- UNLOCK_DEPART (R196). -/
  | unlockDepart (r : Nat)
  /-- CSIG_APPLY (R207). -/
  | csigApply (p : Nat)
  /-- EVNT_APPEND (R234). -/
  | evntAppend (p : Nat)
  /-- LOCK_REQUEST (R313). -/
  | lockRequest (r : Nat)
  /-- LOCK_TRY_REQUEST (R313). -/
  | lockTryRequest (r : Nat)
  /-- UNLOCK_REQUEST (R313). -/
  | unlockRequest (r : Nat)
  /-- LOCK_GRANT (R196). -/
  | lockGrant (g : Nat)
  /-- LOCK_TIMEOUT_EXPIRY (R315). -/
  | lockTimeoutExpiry (w k : Nat)
  /-- WITHDRAW (R313). -/
  | withdraw (d : Nat)
  /-- WAIT_FOR_RECORD (R315). -/
  | waitForRecord (n : Nat)
  /-- HOLDER_SAVED (R313). -/
  | holderSaved (w k : Nat)
  /-- HOLDER_RESTORED (R313). -/
  | holderRestored (w k : Nat)
  /-- HOLDER_FATAL_END (R314). -/
  | holderFatalEnd (pkg die line : Nat)
  /-- WAITER_SAVED (R313). -/
  | waiterSaved (w k : Nat)
  /-- WAITER_RESTORED (R313). -/
  | waiterRestored (w k : Nat)
  /-- ENGINE_FORK (R212). -/
  | engineFork (e : Nat)
  /-- ENGINE_JOIN (R212). -/
  | engineJoin (e : Nat)
  /-- HOD_LINE_BEGIN (R412). -/
  | hodLineBegin (e : Nat)
  /-- HOD_LINE_COMPLETE (R412). -/
  | hodLineComplete (e : Nat)
  /-- TASK_START (R322). -/
  | taskStart (e : Nat)
  /-- TASK_KBLOCK_COMMIT (R224). -/
  | taskKblockCommit (e : Nat)
  /-- TASK_END (R222). -/
  | taskEnd (e : Nat)
  /-- KILN_REQUEST_ARRIVAL (R324). -/
  | kilnRequestArrival (e : Nat)
  /-- KILN_COMPLETE (R227). -/
  | kilnComplete (e : Nat)
  /-- MCST_REPLICATE (R229). -/
  | mcstReplicate (e : Nat)
  /-- MCST_MEMBER_WRITE (R229). -/
  | mcstMemberWrite (e pkg : Nat)
  /-- MCST_ACK (R325). -/
  | mcstAck (e : Nat)
  /-- MSGX_DELIVERY (R230). -/
  | msgxDelivery (e : Nat)
  /-- ETHERNET_FRAME (R367). -/
  | ethernetFrame (port etype : Nat) (bytes : List Byte)
  /-- FIRING (R277). -/
  | firing (pkg tag : Nat)
  /-- FIRING_REFUSED (R366). -/
  | firingRefused (pkg tag : Nat)
  /-- CLUSTER_HANDDOWN (R264). -/
  | clusterHanddown (l node : Nat)
  /-- CLUSTER_STEAL (R265). -/
  | clusterSteal (l node : Nat)
  /-- CLUSTER_PLACE (R264). -/
  | clusterPlace (pkg die : Nat)
  /-- CORESIDENT_PLACE (R269). -/
  | coresidentPlace (l : Nat)
  /-- BLOCK_START (R262). -/
  | blockStart (l k : Nat)
  /-- BLOCK_RETIRE (R273). -/
  | blockRetire (b : Nat)
  /-- NODE_DRAIN (R274). -/
  | nodeDrain (l node : Nat)
  /-- MORTAR_ROOT_CLOSE (R256). -/
  | mortarRootClose (l k n pkg : Nat)
  /-- MORTAR_PACKAGE_COMPLETION (R320). -/
  | mortarPackageCompletion (l n pkg : Nat)
  /-- MORTAR_DIE_RELEASE (R256). -/
  | mortarDieRelease (l k n pkg die : Nat)
  /-- HALT_REQUEST_ARRIVAL (R250). -/
  | haltRequestArrival (l pkg die core : Nat)
  /-- CHECKPOINT_BUDGET_EXPIRY (R252). -/
  | checkpointBudgetExpiry (w : Nat)
  /-- WARP_CAPTURE (R252). -/
  | warpCapture (w : Nat)
  /-- HALT_COMPLETE (R368). -/
  | haltComplete (p : Nat)
  /-- SAVE_COMPLETE (R368). -/
  | saveComplete (p : Nat)
  /-- CLUSTER_RESTORE (R272). -/
  | clusterRestore (l k : Nat)
  /-- QTAIL (R356). -/
  | qtail (q v : Nat)
  /-- EXANS_RESUME (R361). -/
  | exansResume (q seq : Nat)
  /-- EXANS_SKIP (R361). -/
  | exansSkip (q seq : Nat)
  /-- EXANS_ABORT (R362). -/
  | exansAbort (q seq : Nat)
  /-- REGISTER_WRITE (R9). -/
  | registerWrite (addr v : Nat)
  /-- PACKET_NOP (R357). -/
  | packetNop (q : Nat)
  /-- LAUNCH (R365). -/
  | launch (q : Nat)
  /-- ARM (R366). -/
  | arm (q : Nat)
  /-- DISARM (R357). -/
  | disarm (q : Nat)
  /-- DISARM_COMPLETE (R357). -/
  | disarmComplete (q : Nat)
  /-- WAITMEM (R357). -/
  | waitmem (q : Nat)
  /-- WAITMEM_SATISFIED (R357). -/
  | waitmemSatisfied (q : Nat)
  /-- SIGNALMEM (R357). -/
  | signalmem (q : Nat)
  /-- PREEMPT (R368). -/
  | preempt (q : Nat)
  /-- RESUME (R370). -/
  | resume (q : Nat)
  /-- ABORT (R362). -/
  | abort (q : Nat)
  /-- QCTL_CREATE (R355). -/
  | qctlCreate (q : Nat)
  /-- QCTL_STOP (R357). -/
  | qctlStop (q : Nat)
  /-- QCTL_RESTART (R359). -/
  | qctlRestart (q : Nat)
  /-- QCTL_DESTROY (R357). -/
  | qctlDestroy (q : Nat)
  /-- STEER (R367). -/
  | steer (q : Nat)
  /-- TFANS_REPLAY (R386). -/
  | tfansReplay (ticket pkg : Nat)
  /-- TFANS_INVALID (R386). -/
  | tfansInvalid (ticket pkg : Nat)
  /-- GENCMD (R383). -/
  | gencmd (addr : Nat)
  /-- BUMPDONE (R383). -/
  | bumpdone (asid : Nat)
  /-- FRAMEFREE (R387). -/
  | framefree (v : Nat)
  /-- CLEAR (R406). -/
  | clear (pkg die v : Nat)
  /-- PSTATE (R408). -/
  | pstate (pkg v : Nat)
  /-- POWER_CAP_DOWN (R408). -/
  | powerCapDown (pkg : Nat)
  /-- POWER_CAP_RESTORE (R408). -/
  | powerCapRestore (pkg : Nat)
  /-- PLANEEN (R404). -/
  | planeen (pkg : Nat) (v : BitVec 128)
  /-- ATTEST_REQUEST (R409). -/
  | attestRequest (pkg v : Nat)
  /-- ATTEST_COMPLETE (R409). -/
  | attestComplete (pkg : Nat)
  /-- MCAST_GROUP_WRITE (R401). -/
  | mcastGroupWrite (g : Nat) (members : BitVec 512) (asid : BitVec 16) (valid : Bool)
  /-- FLIT_CRC_FAIL (R403). -/
  | flitCrcFail (link : Nat)
  /-- FLIT_RETRY_TIMER (R403). -/
  | flitRetryTimer (link : Nat)
  /-- LINK_DEAD (R403). -/
  | linkDead (link : Nat)
  /-- PLANE_MASK_ADOPT (R400). -/
  | planeMaskAdopt (pkg : Nat)
  /-- PORT_RETRAIN (R404). -/
  | portRetrain (pkg plane : Nat) (good : Bool)
  /-- DIE_HEARTBEAT (R405). -/
  | dieHeartbeat (pkg die : Nat)
  /-- DIE_LOST (R405). -/
  | dieLost (pkg die : Nat)
  /-- PACKAGE_HEARTBEAT (R405). -/
  | packageHeartbeat (pkg : Nat)
  /-- PACKAGE_DEAD (R405). -/
  | packageDead (pkg : Nat)
  /-- CORE_FAIL (R405). -/
  | coreFail (pkg die core : Nat)
  /-- ECC_CORRECTABLE (R402). -/
  | eccCorrectable (pkg die : Nat)
  /-- ECC_UNCORRECTABLE (R402). -/
  | eccUncorrectable (e : EccSite)
  /-- BOOT_START (R394). -/
  | bootStart (pkg die : Nat) (fails : List Nat)
  /-- DIE_UPDATE (R395). -/
  | dieUpdate (pkg die pmin pmax : Nat) (good : Bool)
  /-- HOST_HEARTBEAT (R397). -/
  | hostHeartbeat
  /-- STREAM_RECORD (R397). -/
  | streamRecord
  /-- TAKEOVER (R397). -/
  | takeover
  /-- INSTRUCTION_FETCH (R241). -/
  | instructionFetch (w slot : Nat)
  /-- REGISTER_RESULT_RETURN (R18). -/
  | registerResultReturn (w k : Nat)
  /-- MAILBOX_MESSAGE (R391). -/
  | mailboxMessage (pkg die fw : Nat)
  /-- WAIT_FOR_RECORD_AGE_OUT (R389). -/
  | waitForRecordAgeOut (pkg die : Nat)
  /-- JOURNAL_CLEAR (R394). -/
  | journalClear (pkg die : Nat)
  deriving DecidableEq, Repr

end Sys2Proof.Machine
end

