-- ==== Sys2Proof/Machine/State.lean ====
section
/-! DEFINITION. The state of the machine as plain data. Sparse storage is a list of pairs with rising
Nat keys (`KMap`); an absent key reads as the default that the comment of the field gives.

Keys used throughout: die key dk = 128 * package + die; core key ck = 48 * dk + core; warp key
wid = 32 * block id + WBLK; line = asid * 2^57 + address of the line; line key = dk * 2^73 + line.

The comment of each field gives its width; the rule that names it; its value at reset. Fields marked
"the model's" hold a step of the part that the manual only implies (an access under way), or say what
comes next. -/

namespace Sys2Proof.Machine

/-- Sparse storage by Nat key, keys strictly rising. -/
abbrev KMap (α : Type) := List (Nat × α)

/-- The states of a split that are stored (01 R34): codes 0 to 7, 8 and 15. -/
inductive SplitState where
  | ready | spanPark | lockWait | barWait | cntWait | joinWait | feWait | faulted | dormant | free
  deriving DecidableEq, Repr, Inhabited

/-- What a split in SPAN-PARK does once its results have returned (09 R239, 07 R179). -/
inductive After where
  | none                                          -- becomes READY
  | lock (r : Nat)                                -- sends lock request r
  | fence (sd sc seq key due : Nat)               -- FENCE; its place in the order of accesses and in issue order; its clk, once known
  | barWait (sd sc lvl num key : Nat)
  | barSync (sd sc lvl num key count : Nat)        -- arrives, then waits as barWait
  | cntWait (sd sc n tgt key : Nat)
  | join (bound : Nat) (jofs : BitVec 16)         -- bound 2^32 - 1: strict
  | regang (mask : Lanes) (bound : Nat)
  | wsync (mask : Lanes)
  | fe                                            -- LDL.w, LDL.wc, STL.we
  | ended                                         -- the span of a dormant READY split has ended (05 R115); parks once resident
  | clkrd (sd key : Nat)
  deriving DecidableEq, Repr, Inhabited

/-- How a FAULTED split goes on (07 R179, 08 R232, 15 R361). -/
inductive FaultKind where
  | issue (words : Nat)      -- resume at the PC, skip at PC + words
  | stop (halt : Bool)       -- TRAP, BKPT, HALTW: both answers at PC + 1
  | completion               -- the held accesses are made or skipped
  deriving DecidableEq, Repr, Inhabited

/-- A fault that a split carries (15 R360). -/
structure FaultInfo where
  kind  : FaultKind
  code  : Nat        -- 08 R237
  info  : Word
  pc    : BitVec 48
  group : Nat        -- SEQ of the record whose answer acts (16 R385); 2^64 until written
  accs  : Nat        -- SEQ of the last record of the accesses held beside an issue fault (07 R179); 2^64 for none
  recs  : Bool       -- the records have been posted
  deriving DecidableEq, Repr, Inhabited

/-- An entry of the split table or of the overflow area (01 R33). The first nine fields are the entry's
256 bits; the others are the model's. -/
structure Split where
  pc     : BitVec 48          -- 48; 01 R33
  age    : BitVec 16          -- 16; 01 R33, R36
  lmask  : Lanes              -- 32; 01 R33
  jpc    : BitVec 48          -- 48; 01 R33
  jgrp   : BitVec 5           -- 5; 01 R33
  st     : SplitState         -- 4; 01 R34
  held   : SplitState         -- 4; 01 R33
  wobj   : Word               -- 64; 01 R33
  waux   : Lane               -- 32; 01 R33
  span   : Nat                -- the model's: the issue span (09 R238)
  len    : Nat                -- instructions issued in the span (09 R238)
  after  : After              -- what follows SPAN-PARK or completes the wait
  rdy    : Nat                -- issue + latency of the span's instructions so far (09 R239)
  notBefore : Nat             -- first clk in which the split may issue (05 R112, 09 R239)
  yield  : Bool               -- yield mark (05 R125)
  halted : Bool               -- halted for pre-emption (09 R250)
  moving : Bool               -- fill or swap in progress (09 R246)
  arr    : Nat                -- order in which its wait began
  fault  : Option FaultInfo   -- the fault it is parked by
  deriving DecidableEq, Repr, Inhabited

/-- The register that a result is written to. -/
inductive Dest where
  | vec (r : Nat) | sca (r : Nat) | msk (r : Nat) | none
  deriving DecidableEq, Repr, Inhabited

/-- A result of a span (09 R239): kept until its span has ended, for the reads of R240. -/
structure Result where
  dest : Dest
  span : Nat
  own  : Lanes            -- lanes of the split that issued it
  key  : Nat              -- place in issue order: 64 * clk + 63 - slot (01 R18)
  due  : Nat              -- clk in which it is written; memory results: 0
  mem  : Bool             -- its values come from memory
  lanes : Lanes           -- lanes that it writes
  pend : Lanes            -- lanes not yet written
  vals : KMap Lane        -- values by lane
  olds : KMap Lane        -- values of those lanes before issue (R240)
  sval : Word
  sold : Word
  coming : KMap (Nat × Lane) -- values fetched that reach their lanes later: clk, value by lane (07 R185)
  done : Bool
  deriving DecidableEq, Repr, Inhabited

/-- A lock slot of a warp (12 R312); `live` is VALID. SLOT is the table key of the split that waits for the line. -/
structure LockSlot where
  line  : Nat        -- 57; 12 R312; with the ASID of the launch above it
  held  : Bool       -- 1; 12 R312
  live  : Bool       -- 1; 12 R312
  scope : Nat        -- 3; 12 R312
  tleft : Nat        -- 32; 12 R312
  sd    : Nat        -- the scalar that takes the status
  key   : Nat        -- place of the LOCK in issue order (01 R18)
  withdrawn : Bool   -- the withdraw has been sent (12 R315)
  deriving DecidableEq, Repr, Inhabited

/-- The pending failure record of a warp (01 R32), and the part of a retire record that has its form (10 R273). -/
structure FailRec where
  causes : BitVec 8     -- 5 cause bits in the places of the fence word (01 R31), SAVED in bit 6
  count  : Nat          -- 16, saturating; 01 R32
  pkg    : Nat          -- 9; 01 R32
  die    : Nat          -- 7; 01 R32
  has    : Bool         -- a failure with a home has been recorded
  deriving DecidableEq, Repr, Inhabited

/-- A warp (01 R13 to R38). -/
structure Warp where
  block  : Nat               -- the block; 10 R260
  wblk   : Nat               -- 5; 01 R29
  stage  : Nat               -- 2; 01 R29
  widx   : Nat               -- 5; 01 R29
  part   : Nat               -- 4; 01 R29 CORE.PART
  half   : Nat               -- 1; 01 R29 CORE.HALF
  wslot  : Nat               -- 3; 01 R29 CORE.WSLOT
  budget : Nat               -- 01 R14
  v      : KMap Lane         -- 256 x 32 lanes x 32; 01 R13; 0 at warp start; key 32 * reg + lane, absent 0
  tags   : KMap (BitVec 4)   -- 256 x 4; 01 R21; RAW at warp start; absent 0
  tagKey : KMap Nat          -- issue order of the last write of a tag (01 R22)
  sc     : KMap Word         -- 63 x 64; 01 R17; 0 at warp start; absent 0
  scKey  : KMap Nat          -- issue order of the last write of a scalar (01 R18)
  m      : KMap Lanes        -- 8 x 32; 01 R19; m0 all ones, others 0 at warp start; absent 0
  seed   : Word              -- 64; 01 R29 SEED; R30 at warp start
  fstat  : Word              -- 64; 01 R29 FSTAT; 0 at warp start
  pfr    : FailRec           -- 01 R32; empty at warp start
  table  : KMap Split        -- 8 slots (keys 0 to 7) and 24 overflow entries (8 to 31); 01 R33; absent FREE
  epoch  : BitVec 16         -- 16; 01 R36; 0 at warp start
  epochClk : Nat             -- clk of the last advance (256 clk; 01 R36)
  swapPend : Bool            -- a swap is pending (09 R246)
  moves  : KMap (Nat × Nat)  -- fills and swaps in progress: overflow key -> (slot, clk of completion)
  lastLead : Nat             -- 3; 09 R243; 7 at warp start
  ended  : Bool              -- the last live split has exited (05 R123)
  results : KMap Result      -- results of the current spans (09 R239)
  arrSet : KMap Lanes        -- 48 x 32; 07 R203; 0; key 16 * LVL + NUM
  arrCnt : KMap (Nat × Nat)  -- count of the last BARARV or BARSYNC in the phase (07 R203), and the widest scope named
  arrPend : List (Nat × Nat × Nat × Nat) -- arrivals whose release is not yet observable (11 R301): key, count, scope, place
  wphase : KMap (Nat × Bool) -- 48 x 16; 07 R203 warp_phase; 0; with whether the warp has an unreleased arrival
  locks  : List LockSlot     -- 4 slots; 12 R312; empty at warp start
  haltH  : Nat               -- clk H of a halt request plus 1, 0 when none (09 R250)
  ckpts  : List (Word × BitVec 256) -- SLIVE and VLIVE of the halts made at checkpoints (09 R249)
  whole  : Bool              -- some split halted elsewhere: the whole context is saved (09 R251)
  captured : Bool            -- the context has been captured; the warp is absent (09 R252)
  stopped : Bool             -- stopped by HALTW (08 R235)
  acqAt  : Nat               -- the model's: place of the warp's last acquire in the order of accesses (11 R304)
  fenceSc : Nat              -- the model's: widest scope of its FENCEs plus 1, 0 for none (11 R303)
  wsyncs : List (Nat × Lanes) -- the model's: releases of WSYNC with their masks (07 R208), for accesses still under way
  movedAt : Nat              -- the model's: clk of the last capture or restore (12 R313)
  deriving DecidableEq, Repr, Inhabited

/-- A tile descriptor with its value before the last write, for commands of the same clk (08 R220). -/
structure Desc where
  val   : BitVec 128    -- 128; 01 R24; 0
  prev  : BitVec 128
  clk   : Nat           -- clk of the last TDESC plus 1
  writer : Nat          -- order (stage, warp index, slot) of that write (01 R26)
  deriving DecidableEq, Repr, Inhabited

/-- A block-level barrier, and the block's share of one at cluster or grid level (07 R203, R204). -/
structure Barrier where
  phase   : BitVec 16   -- 16; 07 R204; 0
  count   : Nat         -- count fixed by the first arrival of the phase (07 R203)
  arrived : Nat         -- warps arrived
  blockArr : Bool       -- the block has arrived and is not released
  lastKey : Nat         -- clk of the block's arrival
  deriving DecidableEq, Repr, Inhabited

/-- A posted signal: CSIG (07 R207) or EVNT (08 R234). -/
structure Post where
  wid  : Nat
  seq  : Nat
  scope : Nat
  evnt : Bool
  num  : Nat       -- counter, or n of EVNT
  val  : Nat       -- increment, or value of EVNT
  deriving DecidableEq, Repr, Inhabited

/-- One access to one granule by lanes of an LDL or STL (07 R185). -/
structure FeAccess where
  wid   : Nat
  own   : Lanes        -- lanes of the split
  span  : Nat
  seq   : Nat          -- order of issue
  slot  : Nat          -- table slot at issue (07 R186)
  granule : Nat
  lanes : Lanes        -- lanes of the access
  ofs   : KMap Nat     -- offset by lane
  size  : Nat
  store : Bool
  qual  : Nat          -- 02 R57
  data  : KMap (List Byte) -- data of a store, by lane
  regs  : List Nat     -- result ids of the destination registers
  sext  : Bool
  reach : Nat          -- clk of arrival at the bank
  waiting : Bool       -- its condition did not hold when tested
  order : Nat          -- order in which it began to wait
  deriving DecidableEq, Repr, Inhabited

/-- A block (10 R260 to R273). -/
structure Block where
  launch : Nat
  cluster : Nat             -- cluster index
  rank   : Nat              -- 3; 01 R29 CRANK
  bx     : Nat              -- 32; 01 R29
  by_    : Nat              -- 16; 01 R29
  bz     : Nat              -- 16; 01 R29
  pkg    : Nat
  die    : Nat
  core   : Nat
  alloc  : Nat              -- 27; 01 R29 ALLOC
  bank   : Nat              -- B0; 11 R280
  warps  : Nat              -- warps of the block, W of 01 R27
  nstg   : Nat              -- 2; 01 R29
  ls     : KMap Byte        -- local store; 07 R184; 0; absent 0
  full   : List Nat         -- full granules (offset / 16), rising; 07 R184; empty
  counters : KMap Word      -- 32 x 64; 07 R206; 0; absent 0
  descs  : KMap Desc        -- 16 x 128; 01 R24; 0; absent 0
  bars   : KMap Barrier     -- 48; 07 R203; 0; key 16 * LVL + NUM
  rrec   : FailRec          -- retire record; 10 R273; empty
  aborted : Bool            -- ABORTED of the retire record (15 R362)
  resident : Bool
  saved : Bool              -- its cluster is saved; 10 R270
  deriving DecidableEq, Repr, Inhabited

/-- The kinds of request that leave a core for memory. -/
inductive ReqKind where
  | load | store | atom | red | cwb | cinv | lkqry | prf | lock | lockTry | unlock | fetch
  deriving DecidableEq, Repr, Inhabited

/-- Where a request stands. -/
inductive ReqPhase where
  | held        -- not sent: an acquire or a release holds it back, or it is a lock parked behind its span
  | plc         -- waiting for the home fields (16 R378)
  | out         -- on its way to its home
  | xlate       -- waits for the driver's answer (16 R386)
  | rejStale    -- rejected as STALE: the rejection is on its way back (16 R381)
  | rejMis      -- rejected as MISHOME: the same (16 R380)
  | applied     -- made at the home or copy; stages return
  | reply       -- the reply is on its way
  | failed      -- failed where it was to be served: word of it is on its way back (01 R32)
  | faulted     -- a completion fault, held by its split (07 R179)
  | done
  deriving DecidableEq, Repr, Inhabited

/-- A request of one lane, of one group of lanes (atomics), or of one split (07 R175 to R199). -/
structure Req where
  kind  : ReqKind
  wid   : Nat
  own   : Lanes            -- lanes of the issuing split
  lanes : Lanes            -- lanes the request is for
  span  : Nat
  seq   : Nat              -- order of issue
  clk   : Nat              -- clk of issue
  pc    : BitVec 48        -- PC of the instruction (15 R372)
  va    : Word
  size  : Nat
  scope : Nat
  ord   : Nat
  hint  : Nat
  op    : Nat              -- operation of an atomic; 15: compare and exchange; type of a load
  data  : List Byte        -- data of a store, or bytes fetched
  opnds : List (Nat × Word × Word) -- lane, operand, compare value of an atomic
  regs  : List Nat         -- result ids of the destination registers
  sext  : Bool
  phase : ReqPhase
  asid  : Nat
  gen   : Nat
  pkg   : Nat              -- home package
  die   : Nat              -- home die
  plane : Nat              -- Elpor plane of the route (09 R255); 128: none
  arrive : Nat             -- clk in which it reaches its next place
  old   : List (Nat × Word) -- lane, value fetched
  stage : Nat              -- stages returned (11 R294): 0 none, 1 core, ..., 6 rack
  mark  : Nat              -- stage that returns with a LOST mark (11 R290); 0 none
  fault : Nat              -- completion fault code (08 R237), or the cause of a posted write's failure (01 R31); 0 none
  info  : Word
  filled : Bool            -- the home slice has been given the time of its miss (09 R254, R255)
  tr    : Option Word      -- the leaf under which a memory controller has accepted it (16 R383 step 3)
  place : Nat              -- place of its application in the order of accesses (11 R294)
  slow  : Nat              -- clk that its unit adds (07 R209)
  resent : Bool            -- sent again after a STALE rejection (16 R384)
  work  : Nat × Nat × Nat  -- the engine work that it belongs to, its line and its place in the line (11 R308); work 0: none
  wrote : Option (Nat × List Byte) -- the byte of HBM from which it was applied, with the bytes before (12 R324)
  deriving DecidableEq, Repr, Inhabited

/-- A copy of a 512-byte tag block in an L1 or in a far region (11 R282 to R287). -/
structure Copy where
  place : Nat            -- 2 * ck: L1 of a core; 2 * dk + 1: far region of a die
  asid  : Nat            -- 16; 11 R282
  blk   : Nat            -- VA[56:9]; 11 R282
  leaf  : Word           -- the leaf it was filled under: grain, tracked bit, tag-enable bit, frame (11 R282, 16 R379)
  valid : BitVec 16      -- 16; 11 R282
  data  : KMap Byte      -- bytes of valid sectors by offset, absent 0
  dirty : List Nat       -- dirty bytes (untracked pages), rising; 11 R282
  poison : BitVec 16     -- 17 R402
  tags  : KMap (BitVec 4) -- memory tags by granule (16 R376), absent 0
  leases : KMap (Nat × Nat) -- by line of the block: logical time at which its lease ends, clk of the grant (11 R283, R287)
  prio  : Nat            -- 0 first to evict, 1 normal, 2 last to evict (02 R58)
  deriving DecidableEq, Repr, Inhabited

/-- A tag block of a home region (11 R282, R285). -/
structure Home where
  valid : BitVec 16      -- 16; 11 R282
  leaf  : Word           -- the leaf it was filled under: its frame (16 R379)
  prio  : Nat            -- as that of a copy (02 R58)
  deriving DecidableEq, Repr, Inhabited

/-- An invalidation or probe under way (11 R288, R289). -/
structure Inval where
  dk   : Nat             -- the die it goes to
  asid : Nat
  line : Nat             -- VA of the line
  grain : Nat
  req  : Nat             -- the store it belongs to; 0: none
  ord  : Nat             -- place of that store's application in the order of accesses
  anchor : Bool          -- sent to an anchor, which invalidates its own groups
  due  : Nat
  deriving DecidableEq, Repr, Inhabited

/-- A directory entry, of a home die or of an anchor (11 R288, R290). -/
structure Dir where
  groups : BitVec 32     -- 32; 11 R288
  anchors : List Nat     -- packages; 11 R288
  lost   : Bool          -- 11 R290
  lostClk : Nat          -- clk in which it entered LOST
  purge  : List Nat      -- dies whose PURGE is awaited (16 R388)
  recover : Bool         -- COHLOST has been posted
  deriving DecidableEq, Repr, Inhabited

/-- A waiter of a lock entry (12 R311). -/
structure Waiter where
  key  : Nat             -- warp key
  present : Bool
  pkg  : Nat
  die  : Nat
  core : Nat
  deriving DecidableEq, Repr, Inhabited

/-- A lock entry of a home slice (12 R311). -/
structure LockEntry where
  holder : Option Nat    -- warp key
  hpkg : Nat
  hdie : Nat
  hcore : Nat
  saved : Bool           -- HELD-SAVED
  broken : Bool          -- the broken mark
  lostHolder : Bool      -- the holder word was lost (12 R314)
  queue : List Waiter
  deriving DecidableEq, Repr, Inhabited

/-- A lock status on its way to a waiter (12 R316). -/
structure Grant where
  wid  : Nat
  line : Nat
  code : Nat             -- 07 R197
  ahead : Nat
  dk   : Nat             -- home die key
  due  : Nat
  deriving DecidableEq, Repr, Inhabited

/-- A withdraw on its way to a home (12 R315). -/
structure Withdraw where
  wid  : Nat
  line : Nat
  dk   : Nat
  due  : Nat
  slow : Bool            -- it has been given the time of an entry kept in HBM (12 R311)
  deriving DecidableEq, Repr, Inhabited

/-- A wait-for record (12 R315). -/
structure WaitFor where
  key  : Nat
  pkg  : Nat
  die  : Nat
  core : Nat
  line : Nat
  hkey : Nat
  hpkg : Nat
  hdie : Nat
  hcore : Nat
  ahead : Nat
  clk  : Nat
  told : Bool            -- part of a cycle already reported (16 R389)
  deriving DecidableEq, Repr, Inhabited

/-- The kinds of engine work (08 R218 to R230). -/
inductive WorkKind where
  | cpyIn | cpyOut | cpyLocal | gather | scatter | task | taskOvr | taskCvt | kmv | mcst | msgx
  deriving DecidableEq, Repr, Inhabited

/-- Where engine work stands. -/
inductive WorkPhase where
  | queued | forked
  | stopped               -- a tile task stopped after a k-block for a save (08 R216)
  | running | sent | finished
  deriving DecidableEq, Repr, Inhabited

/-- A line of a hod command in flight (08 R218, R412). -/
structure Line where
  va    : Nat            -- its global address
  due   : Nat            -- clk of its next step: its writes leave, its bytes are in local store; 0: its reads are under way
  sent  : Bool           -- its global accesses have been issued
  left  : Nat            -- those that have not been answered
  got   : KMap (List Byte) -- bytes read, by place in the line
  fails : KMap (Nat × Nat × Nat) -- CODE, package and die of accesses that failed, by place
  deriving DecidableEq, Repr, Inhabited

/-- Engine work of a core (08 R211 to R231; copy record R219, tile-task record R225). -/
structure Work where
  kind  : WorkKind
  wid   : Nat
  block : Nat
  seq   : Nat
  clk   : Nat            -- clk of issue
  pc    : BitVec 48
  td1   : BitVec 128
  td2   : BitVec 128
  td3   : BitVec 128
  tdn   : Nat            -- number of TD1
  a     : Word           -- s[SA] at issue
  b     : Word           -- s[SB] at issue
  grp   : Nat            -- multicast group
  cnt   : Nat
  scope : Nat
  inc   : Nat
  sten  : Bool
  stofs : Nat
  phase : WorkPhase
  fork  : Nat            -- clk from which its times count
  due   : Nat            -- clk of its next step
  engine : Nat           -- tile engine; 4: none
  next  : Nat            -- next line to begin, or next k-block
  base  : Nat            -- first line or k-block since the fork or a restore
  lines : KMap Line      -- hod lines in flight
  etmp  : Int            -- exponent committed so far
  mant  : List Int       -- committed mantissas, by rows
  fails : List (Nat × Nat × Nat × Nat) -- units that failed: unit, CODE, package, die
  buf   : List Byte      -- data read at the fork
  snap  : List Host.Cell -- of a kiln request: the bytes of its stack as of the fork (12 R324)
  gen   : Nat            -- of a kiln request: its generation (16 R381)
  plane : Nat
  wait  : List Nat       -- member packages not yet answered (08 R229)
  wfail : FailRec        -- failures of its global writes (08 R215)
  noStatus : Bool        -- no byte of local store may be written (08 R226)
  denied : List Nat      -- pages whose access the driver has declared invalid
  aborted : Bool         -- joins without signalling (15 R362)
  deriving DecidableEq, Repr, Inhabited

/-- A kernel record (03 R72), as the validator read it. -/
structure KernelRec where
  nstg : Nat
  shape : Nat
  fuse : Bool
  narg : Nat
  nckpt : Nat
  local_ : Nat
  stages : List (Nat × Nat × Nat)  -- entry, warps, budget of each stage
  ckofs : Nat
  deriving DecidableEq, Repr, Inhabited

/-- A launch descriptor (15 R358), as the validator read it, with its kernel record. -/
structure LaunchDesc where
  krec : Word
  code : Word
  args : Word
  gx : Nat
  gy : Nat
  gz : Nat
  pbase : Word
  pstride : Word
  lseed : Word
  rscope : Nat
  cores : Bool
  debug : Bool
  even : BitVec 5
  irq : Bool
  pset : Word
  ctxbase : Word
  ctxsize : Word
  gbind : BitVec 80
  kern : KernelRec
  deriving DecidableEq, Repr, Inhabited

/-- The image of a cluster (15 R371, R372), made by its last save. -/
structure Image where
  gen    : Nat               -- GEN; 15 R372
  slot   : Nat               -- slot of the context area
  used   : Bool              -- the slot holds it; free once the cluster is restored
  deriving DecidableEq, Repr, Inhabited

/-- A launch (10, 15 R358 to R370). -/
structure Launch where
  queue : Nat
  tag   : Nat
  desc  : LaunchDesc
  asid  : Nat
  pset  : List Nat            -- fixed package set
  nslot : Nat                 -- NSLOT of the context area at the start; 15 R371
  startClk : Nat
  prio  : Nat
  pend  : KMap (List Nat)     -- pending lists by node; 10 R264
  drains : List Nat           -- nodes whose drain is due; 10 R274
  excused : Nat × List Nat    -- clk plus 1 in which cores were last excused by retirements, and their dies (12 R319)
  rrec  : KMap FailRec        -- merged retire records by node; 10 R274
  aborted : Bool              -- 15 R362
  badImage : Bool
  halting : Bool              -- chosen by a PREEMPT
  saved : Bool                -- saved and not resumed
  packet : Option Nat         -- its LAUNCH packet's index
  homes : KMap Nat            -- home of each cluster, as a die key, found at the rack distributor; 10 R263
  lastSite : KMap Nat         -- site last used by each die; 10 R264
  placed : Bool               -- a co-resident launch has been placed
  images : KMap Image         -- images by cluster index; 15 R371
  answers : List (Nat × Nat × Bool) -- answers kept for saved warps: warp, SEQ, skip; 15 R361
  firing : Option (Nat × Nat) -- armed launch key and buffer of a firing
  region : List Nat           -- grid region: core keys at start; 12 R319
  deriving DecidableEq, Repr, Inhabited

/-- An armed launch (15 R366). -/
structure Armed where
  queue : Nat
  desc  : LaunchDesc
  asid  : Nat
  src   : Nat                 -- 0 Elpor, 1 Ethernet
  tag   : Nat
  pkg   : Nat
  base  : Nat                 -- buffer base
  nbuf  : Nat
  blen  : Nat
  busy  : List Nat            -- buffers held by firings
  next  : Nat                 -- firing sequence number
  last  : Nat                 -- buffer after the one filled last
  ptag  : Nat                 -- TAG of the ARM packet
  disarm : Bool
  waiting : List (Nat × Nat × Nat) -- accepted messages: buffer, argument slot 1, sequence number; 10 R278
  deriving DecidableEq, Repr, Inhabited

/-- A packet that has started and not completed (15 R357). -/
structure Packet where
  idx  : Nat                 -- index in ring order
  opc  : Nat
  tag  : Nat
  evt  : Bool
  w1   : Word
  w2   : Word
  w3   : Word
  w4   : Word
  launches : List Nat        -- launches chosen by PREEMPT
  clk  : Nat                 -- clk A
  step : Nat                 -- progress of PREEMPT: 0, 4, 5
  deriving DecidableEq, Repr, Inhabited

/-- An exception record (15 R360). -/
structure ExcRec where
  code : Nat
  noans : Bool
  launch : Nat
  info : Word
  pc   : BitVec 48
  lmask : Lanes
  slot : Nat
  bx : Nat
  by_ : Nat
  bz : Nat
  wblk : Nat
  pkg : Nat
  die : Nat
  core : Nat
  wid  : Nat                 -- the warp that waits for the answer
  last : Bool                -- the group's final record (16 R385)
  seq  : Nat                 -- SEQ, once written
  deriving DecidableEq, Repr, Inhabited

/-- A packet that the validator has passed (15 R358, R359): its words, the launch descriptor and the queue descriptor that it
names. -/
structure Head where
  words : List Word
  desc  : Option LaunchDesc
  qdesc : Option Nat
  deriving DecidableEq, Repr, Inhabited

/-- A queue (15 R355, R356). -/
structure Queue where
  ring : Word
  rlog : Nat
  prio : Nat
  kq : Bool
  asid : Nat
  opmask : BitVec 16
  ivec : Nat
  itgt : Nat
  exq : Word
  xlog : Nat
  evr : Word
  elog : Nat
  ranges : List (Word × Nat × Bool × Bool × Bool) -- base, pages, R, W, X
  qtail : Nat                -- 21; 15 R356; no value (write only): DESIGN CHOICE 0
  qhead : Nat                -- 21; 15 R356; 0
  qstate : Nat               -- 2; 15 R356; 0
  qcause : Nat               -- 8; 15 R356; 0
  xprod : Nat                -- 32; 15 R356; 0
  xcons : Nat                -- 32; 15 R356; 0
  eprod : Nat                -- 32; 15 R356; 0
  econs : Nat                -- 32; 15 R356; 0
  eovf : Nat                 -- 32; 15 R356; 0
  seq : Nat                  -- 64; 15 R360 SEQ; 0
  ovf : Bool                 -- the next exception record carries OVF (15 R360)
  heldRecs : List ExcRec     -- records held for lack of room (15 R360)
  waiting : List ExcRec      -- written records that await an answer (15 R361)
  npkt : Nat                 -- packets started
  head : Option Head         -- the validated packet at QHEAD (15 R359)
  active : List Packet       -- started and not completed (15 R357)
  heldNext : Option (Nat × Nat × Nat) -- a kind-0 halt applies to the next LAUNCH (15 R369): queue, TAG and launch of the PREEMPT
  deriving DecidableEq, Repr, Inhabited

/-- A TLB entry (16 R379) or a placement-cache entry (16 R378). -/
structure TlbEntry where
  asid : Nat
  gen  : Nat
  page : Nat              -- VA of the page
  leaf : Word
  deriving DecidableEq, Repr, Inhabited

/-- A frame record (16 R387). -/
structure FrameRec where
  asid : Nat
  page : Nat
  tracked : Bool
  untracked : Bool
  writable : Bool
  posted : Bool
  deriving DecidableEq, Repr, Inhabited

/-- A firmware core (16 R391). -/
structure FwCore where
  x    : KMap Word         -- 31 x 64; 16 R391 (RV64); DESIGN CHOICE 0 (log 6); absent 0
  pc   : Word              -- 64; 16 R391 (RV64); DESIGN CHOICE 0 (log 6)
  user : Bool              -- machine or user mode; 16 R391; PRESUMED machine (RISC-V; log 6)
  mcause : Word            -- 64; 16 R392; DESIGN CHOICE 0 (log 6)
  mtval : Word             -- 64; 16 R392; DESIGN CHOICE 0 (log 6)
  mepc : Word              -- 64; PRESUMED register of the privileged RISC-V architecture; 0 (log 6)
  mtvec : Word             -- 64; PRESUMED register of the privileged RISC-V architecture; 0 (log 6)
  mpp  : Bool              -- mode before the trap is user; PRESUMED; false (log 6)
  mie  : Bool              -- mstatus.MIE; PRESUMED; 0 (log 6)
  mpie : Bool              -- mstatus.MPIE; PRESUMED; 0 (log 6)
  sram : KMap Byte         -- 524,288 bytes; 16 R391; DESIGN CHOICE 0 (log 6); absent 0
  sig  : Word              -- 64; 16 R391; DESIGN CHOICE 0 (log 6)
  wait : Option (Nat × Word × Nat) -- a SIGWAIT under way: rd, mask, deadline (0: none)
  disp : Option (Nat × Nat × Nat × Bool) -- a remote DISPATCH: rd, its number, deadline, a target was dead
  deriving DecidableEq, Repr, Inhabited

/-- A firmware command on a core's queue (16 R393). -/
structure FwCmd where
  op   : Nat               -- 1 PURGE, 2 MASK, 3 GENSET, 4 REBIND
  a    : Word
  b    : Word
  c    : Word
  src  : Nat               -- number of the remote DISPATCH or of the recovery that awaits a report; 0 none
  lost : Bool              -- sent by the recovery of a LOST entry (16 R388)
  deriving DecidableEq, Repr, Inhabited

/-- A core (00 R3). -/
structure Core where
  dead  : Bool              -- masked dead; 16 R394
  ltime : Nat               -- 64; 11 R287; DESIGN CHOICE 0 (log 4)
  gens  : KMap Nat          -- generation table; 16 R381; absent 0
  icache : KMap Word        -- instruction cache: asid * 2^48 + pc -> word; 02 R65; empty
  last  : KMap Nat          -- warp slot last chosen by each half; 09 R242; 7; absent 7
  divs  : KMap Nat          -- clk in which the divider of a warp slot is free; 05 R101; absent 0
  trans : KMap Nat          -- clk in which a quad takes the next transcendental; 06 R173; absent 0
  cmds  : List FwCmd        -- commands queued by DISPATCH; 16 R393; empty
  deriving DecidableEq, Repr, Inhabited

/-- A compute die and its controller. -/
structure Die where
  dead  : Bool              -- masked dead; 16 R394
  lastBeat : Nat            -- clk of the last heartbeat; 17 R405
  beating : Bool            -- the controller sends heartbeats
  fw    : KMap FwCore       -- 4 firmware cores; 16 R391
  genReg : KMap Nat         -- register for each ASID; 16 R381; 0; absent 0
  tlb   : KMap TlbEntry     -- TLBs of the die's 16 controllers; 16 R379; empty
  walks : KMap (Nat × Nat)  -- their walk caches: die and frame of a table; 16 R379; empty
  plc   : KMap TlbEntry     -- placement cache; 16 R378; empty
  frames : KMap FrameRec    -- frame records; 16 R387; empty
  waits : List WaitFor      -- wait-for records; 12 R315; empty
  counters : KMap Nat       -- telemetry; 17 R406; 0; key: offset / 8
  banks : Nat × (Nat × Nat) × (Nat × Nat) -- image bank in use, (PMIN, PMAX) of A and B; 16 R395; 0, (0, 0), (0, 0) DESIGN CHOICE (log 5)
  deadLinks : List Nat      -- dead die-to-die links, 0 toward x - 1, 1 x + 1, 2 y - 1, 3 y + 1; 16 R394
  joined : Bool             -- the die has joined the package (16 R394 step 6)
  update : Option (Nat × Nat × Bool) -- out of service for an update: PMIN and PMAX of the image, whether it is good (16 R395)
  cleared : Bool            -- the operator has cleared its journal entries since the last start (16 R394)
  kiln  : List Nat          -- kiln requests in order of arrival; 12 R324
  kilnFree : Nat            -- clk in which the kiln is free
  masks : KMap (BitVec 48)  -- excuse masks of the die's segments: grid wires 0 to 15; 16: the sites' bits of the cluster wires; 12 R318, R319; all ones; absent so
  drains : List (Nat × Nat × FailRec) -- events of core and die drains, for the controller's firmware: node, launch, merged record; 10 R275; empty
  chans : KMap (Nat × Nat)  -- 15 and 15, by slice; source channels that its atomic and its lock unit served last; 12 R327; DESIGN CHOICE 0, 0 (log 5); absent so
  deriving DecidableEq, Repr, Inhabited

/-- A package. -/
structure Pkg where
  failed : Bool             -- its work and memory are gone; 17 R405
  known  : Bool             -- the switches have declared it dead; 17 R405
  lastBeat : Nat            -- clk of the last heartbeat; 17 R405
  live   : BitVec 128       -- live-plane mask; 17 R400, LIVE; DESIGN CHOICE all ones (log 5)
  planeen : BitVec 128      -- 128; 17 R404; all ones
  rejoins : Nat             -- 64; 17 R404; 0
  deadPorts : List (Nat × Nat) -- dead Elpor ports: plane, clk of death; 17 R403
  adopt  : List (Nat × Bool × Nat) -- switch reports to be adopted: plane, live, clk; 17 R400, R404
  pools  : KMap (BitVec 512) -- 16 x 512; 16 R377; DESIGN CHOICE 0 (log 5); absent 0
  lockto : Nat              -- default LOCK timeout; 07 R194; 1,200,000
  pstate : Nat              -- 3; 17 R407; 0
  pnow   : Nat              -- 3; 17 R407; 0
  pExit  : Nat              -- clk in which a change of state takes effect
  above  : Nat              -- averages above the cap in succession; 17 R408
  below  : Nat              -- averages below the cap in succession; 17 R408
  energy : Nat              -- 64; 17 R407; 0
  throttle : Nat            -- 64; 17 R407; 0
  nonce  : KMap Byte        -- 64 bytes; 17 R409; DESIGN CHOICE 0 (log 5); absent 0
  abuf   : Word             -- 64; 17 R409; DESIGN CHOICE 0 (log 5)
  attest : Bool             -- a report is being made; 17 R409
  attestDone : Bool         -- 1; 17 R409; DESIGN CHOICE 0 (log 5)
  journal : List (BitVec 128) -- boot journal, oldest first; 16 R394; DESIGN CHOICE empty (log 5)
  darkForGood : List Nat    -- dies marked dead for good; 16 R394
  pver   : Nat              -- 16; 16 R396; DESIGN CHOICE 0 (log 5)
  wires  : KMap Nat         -- grid wires in use: wire -> launch; 12 R318
  cold   : Nat              -- clk of the package's cold reset, from which CLK counts; 01 R29; 0
  deriving DecidableEq, Repr, Inhabited

/-- A phase of a barrier at cluster or grid level on its way (12 R318 to R320). -/
structure Phase where
  launch : Nat
  cluster : Option Nat      -- cluster index; none: grid level
  num   : Nat
  root  : Nat               -- root time at the package
  excused : Bool            -- bit 16 of the phase word
  pkgs  : List Nat          -- packages whose roots have closed
  told  : Bool              -- the release has been sent to every package
  dies  : List Nat          -- die keys not yet released
  deriving DecidableEq, Repr, Inhabited

/-- A page access that waits for the driver (16 R386). -/
structure Ticket where
  num  : Nat
  pkg  : Nat
  die  : Nat
  asid : Nat
  gen  : Nat
  page : Nat
  kind : Nat                -- 16 R385
  queue : Nat
  reqs : List Nat           -- requests that wait
  deriving DecidableEq, Repr, Inhabited

/-- A steering rule of a Jerad port (15 R367). -/
structure Steer where
  etype : Nat
  mofs : Nat
  pofs : Nat
  tag : Nat
  pkg : Nat
  en : Bool
  mval : Word
  mmask : Word
  queue : Nat                 -- the queue whose STEER wrote it, and the TAG of that packet
  ptag : Nat
  deriving DecidableEq, Repr, Inhabited

/-- A multicast group entry (12 R325). -/
structure Group where
  members : BitVec 512      -- 512; 12 R325; 0
  asid  : BitVec 16         -- 16; 12 R325; 0
  valid : Bool              -- 1; 12 R325; 0
  deriving DecidableEq, Repr, Inhabited

/-- A refused message whose record is still to be posted (15 R366). -/
structure Msg where
  pkg   : Nat
  tag   : Nat
  queue : Nat               -- the queue that is told
  ptag  : Nat               -- TAG of the record
  deriving DecidableEq, Repr, Inhabited

/-- A generation bump under way (16 R383). -/
structure Bump where
  addr : Nat
  gen  : Nat                -- the new generation
  ranges : List (Nat × Nat) -- start, pages
  clk  : Nat                -- clk of the start
  dies : List Nat           -- dies that have still to take the generation and discard their copies (steps 1 and 2)
  deriving DecidableEq, Repr, Inhabited

/-- A link with a flit that waits for its acknowledgement (17 R403). Links: 512 * plane + package for an Elpor
port; 2^20 + 4 * dk + direction for a die-to-die link. -/
structure Link where
  retries : Nat             -- retries of the flit at the head
  sent  : Nat               -- clk of its last sending
  first : Nat               -- clk of its first sending
  deriving DecidableEq, Repr, Inhabited

/-- The command front end and the driver's registers, on the primary Jerad die (15, 16 R390). -/
structure FrontEnd where
  lastLaunch : Nat          -- launch id assigned last; 15 R364; so that the first is 0
  ptrs  : KMap Nat          -- round-robin pointer of each priority; 15 R364; 4,095; absent 4,095
  fqbase : Word             -- 64; 16 R390; 0
  fqlog : Nat               -- 5; 16 R390; 0
  fqprod : Nat              -- 32; 16 R390; 0
  fqcons : Nat              -- 32; 16 R390; 0
  fqHeld : List (List (BitVec 64)) -- records held while the fault queue is full (16 R386)
  lockto : Nat              -- 32; 16 R390; 1,200,000
  primary : Nat             -- package of the primary Jerad die; 16 R397; DESIGN CHOICE 0 (log 5)
  standby : Option Nat      -- package of the standby; 16 R397; DESIGN CHOICE none (log 5)
  lastBeat : Nat            -- clk of the last heartbeat or stream record; 16 R397
  mirror : KMap (Nat × Nat) -- streamed for each queue: QTAIL, and QHEAD past the packet whose start is announced; 16 R397
  irqs  : List (Nat × Nat)  -- interrupts raised: vector, target; 15 R358
  startedL : Nat            -- clk of the last LAUNCH started plus 1; 15 R364
  startedP : Nat            -- clk of the last other packet started plus 1; 15 R364
  deriving DecidableEq, Repr, Inhabited

/-- What comes next. -/
inductive Action where
  | issue (wid slot : Nat)            -- a split issues its next instruction
  | firmware (pkg die fw : Nat)       -- a firmware core executes its next instruction
  | event (e : Event)                 -- a step of the part
  | phase (n : Nat)                   -- the scheduler lists the steps of part n of the clk
  deriving DecidableEq, Repr, Inhabited

/-- The state of the machine. -/
structure State where
  clk     : Nat               -- 64; 01 R30 CLK, 00 R1; 0
  agenda  : List Action       -- the model's: the actions that come next
  inputs  : List (Nat × Event) -- the model's: outside inputs by clk; DESIGN CHOICE none (log 1)
  cur     : Nat × Nat         -- the model's: warp and table slot, or 4 * dk + firmware core, of the issuer
  free    : Nat               -- the model's: counter of free values; DESIGN CHOICE 0 (log 2)
  nextId  : Nat               -- the model's: next number for a request, span or place in an order
  wclock  : Nat               -- write times of the dies (11 R287); DESIGN CHOICE 0 (log 4)
  mem     : List Host.Cell    -- HBM: key (dk * 2^36 + byte address in the stack); 00 R3; DESIGN CHOICE 0 (log 3)
  memPoison : List Nat        -- poisoned 32-byte sectors of HBM (17 R402); none
  drvAsid : Nat               -- address space of the driver (15 R355); DESIGN CHOICE 0 (log 7)
  pkgs    : KMap Pkg          -- by package; absent: as after reset
  dies    : KMap Die          -- by die key; absent: as after reset
  cores   : KMap Core         -- by core key; absent: as after reset
  copies  : KMap Copy         -- L1, far and anchor copies; 11 R285; none
  homes   : KMap Home         -- tag blocks of the home regions, by 2^64 * dk + 2^48 * asid + VA[56:9]; 11 R282, R285; none
  dirs    : KMap Dir          -- directories by line key; 11 R288; none
  lockTab : KMap LockEntry    -- lock entries by line key; 12 R311; none
  blocks  : KMap Block        -- blocks placed or saved, by block id; none
  warps   : KMap Warp         -- warps by warp key; none
  reqs    : KMap Req          -- requests under way; none
  fes     : KMap FeAccess     -- local-store accesses under way; none
  posts   : KMap Post         -- CSIG and EVNT under way; none
  invals  : KMap Inval        -- invalidations under way; none
  grants  : KMap Grant        -- lock statuses under way; none
  withdraws : KMap Withdraw   -- withdraws under way; none
  waitFors : KMap WaitFor     -- wait-for records under way; none
  works   : KMap Work         -- engine work; none
  msgs    : KMap Msg          -- refused messages; none
  phases  : KMap Phase        -- barrier phases under way; none
  tickets : KMap Ticket       -- translation faults; none
  bumps   : KMap Bump         -- generation bumps by ASID; none
  bumpReqs : List Nat         -- bump requests (16 R383) that wait for an earlier bump of their ASID; none
  links   : KMap Link         -- links that retry a flit; none
  queues  : KMap Queue        -- queues; 15 R355; all ABSENT
  launches : KMap Launch      -- launches in flight; 15 R364; none
  armed   : KMap Armed        -- armed launches by 2^17 * package + 2^16 * source + tag; 15 R366; none
  steers  : KMap Steer        -- steering rules by 64 * port + rule; 15 R367; none
  groups  : KMap Group        -- multicast groups; 12 R325; all fields 0; absent so
  fe      : FrontEnd
  deriving DecidableEq, Repr, Inhabited

/-- Why the machine stops with a fault: never. Every exception that the manual describes is taken as a next state. -/
inductive Fault where
  /-- Raised by no step; safe. -/
  | never
  deriving DecidableEq, Repr, Inhabited

/-- Why the model gives no next state. -/
inductive Refusal where
  /-- An instruction whose meaning is not written; raised by its arm of `exec` alone; safe. -/
  | notModelled (mnemonic : String)
  /-- A firmware core meets an instruction of RV64IMAC, Zicsr or Zifencei, whose effects this manual does not
  give (16 R391); raised by `step`; safe. -/
  | baseIsa (word : BitVec 32)
  deriving DecidableEq, Repr, Inhabited

/-- An empty failure record (01 R32). -/
def FailRec.empty : FailRec := ⟨0, 0, 0, 0, false⟩

/-- A firmware core after reset. -/
def FwCore.reset : FwCore := ⟨[], 0, false, 0, 0, 0, 0, false, false, false, [], 0, none, none⟩

/-- A core after reset. -/
def Core.reset : Core := ⟨false, 0, [], [], [], [], [], []⟩

/-- A die after reset. -/
def Die.reset : Die := ⟨false, 0, true, [], [], [], [], [], [], [], [], (0, (0, 0), (0, 0)), [], true, none, false, [], 0, [], [], []⟩

/-- A package after reset. -/
def Pkg.reset : Pkg :=
  ⟨false, false, 0, BitVec.allOnes 128, BitVec.allOnes 128, 0, [], [], [], 1200000, 0, 0, 0, 0, 0, 0, 0, [], 0, false, false,
   [], [], 0, [], 0⟩

/-- The front end after reset. -/
def FrontEnd.reset : FrontEnd :=
  ⟨65535, [], 0, 0, 0, 0, [], 1200000, 0, none, 0, [], [], 0, 0⟩

/-- The machine right after a cold reset: no launch, no queue, memory with nothing listed. -/
def State.reset : State :=
  { clk := 0, agenda := [], inputs := [], cur := (0, 0), free := 0, nextId := 1, wclock := 0, mem := [], memPoison := []
    drvAsid := 0, pkgs := [], dies := [], cores := [], copies := [], homes := [], dirs := [], lockTab := [], blocks := [], warps := []
    reqs := [], fes := [], posts := [], invals := [], grants := [], withdraws := [], waitFors := [], works := []
    msgs := [], phases := [], tickets := [], bumps := [], bumpReqs := [], links := [], queues := [], launches := [], armed := []
    steers := [], groups := [], fe := FrontEnd.reset }

end Sys2Proof.Machine
end

