-- ==== Sys2Proof/Machine/Map.lean ====
section
/-! DEFINITION. Sparse maps with rising keys, the bytes of HBM (a list in one canonical form), lists of lanes
and bytes. -/

namespace Sys2Proof.Machine

/-- The value at a key. -/
def kget? {α : Type} : KMap α → Nat → Option α
  | [], _ => none
  | (k, v) :: r, i => if i = k then some v else kget? r i

/-- The value at a key, or the default of an absent key. -/
def kgetD {α : Type} (m : KMap α) (i : Nat) (d : α) : α := (kget? m i).getD d

/-- Set the value at a key. -/
def kput {α : Type} : KMap α → Nat → α → KMap α
  | [], i, x => [(i, x)]
  | (k, v) :: r, i, x => if i < k then (i, x) :: (k, v) :: r else if i = k then (i, x) :: r else (k, v) :: kput r i x

/-- Remove a key. -/
def kdel {α : Type} : KMap α → Nat → KMap α
  | [], _ => []
  | (k, v) :: r, i => if i = k then r else (k, v) :: kdel r i

/-- Change the value at a key that is present. -/
def kmod {α : Type} : KMap α → Nat → (α → α) → KMap α
  | [], _, _ => []
  | (k, v) :: r, i, f => if i = k then (k, f v) :: r else (k, v) :: kmod r i f

/-- Change every value. -/
def kmap {α : Type} (m : KMap α) (f : Nat → α → α) : KMap α := m.map fun p => (p.1, f p.1 p.2)

/-- Put a list of pairs. -/
def kputs {α : Type} (m : KMap α) (l : List (Nat × α)) : KMap α := l.foldl (fun a p => kput a p.1 p.2) m

/-- Insert into a rising list of numbers. -/
def ninsert (l : List Nat) (i : Nat) : List Nat :=
  match l with
  | [] => [i]
  | k :: r => if i < k then i :: k :: r else if i = k then k :: r else k :: ninsert r i

/-- The first value of a non-empty list of keys by a rank, lowest rank first. -/
def leastBy {α : Type} (rank : α → Nat) : List α → Option α
  | [] => none
  | a :: r =>
    match leastBy rank r with
    | none => some a
    | some b => if rank b < rank a then some b else some a

/-- Insertion sort by a rank, stable. -/
def insertBy {α : Type} (rank : α → Nat) (a : α) : List α → List α
  | [] => [a]
  | b :: r => if rank a ≤ rank b then a :: b :: r else b :: insertBy rank a r

def sortBy {α : Type} (rank : α → Nat) : List α → List α
  | [] => []
  | a :: r => insertBy rank a (sortBy rank r)

/-- A byte of memory: a byte that is not listed reads 0 (log 3). -/
def memGet : List Host.Cell → Nat → Byte
  | [], _ => 0
  | (k, v) :: r, a => if a = k then v else memGet r a

/-- Remove the entry of an address. -/
def memDel : List Host.Cell → Nat → List Host.Cell
  | [], _ => []
  | (k, v) :: r, a => if a = k then r else (k, v) :: memDel r a

/-- Enter a byte that is not 0. -/
def memIns : List Host.Cell → Nat → Byte → List Host.Cell
  | [], a, b => [(a, b)]
  | (k, v) :: r, a, b =>
    if a < k then (a, b) :: (k, v) :: r else if a = k then (a, b) :: r else (k, v) :: memIns r a b

/-- Write a byte, keeping the canonical form. -/
def memPut (m : List Host.Cell) (a : Nat) (b : Byte) : List Host.Cell := if b = 0 then memDel m a else memIns m a b

/-- The canonical form of memory: addresses strictly rising, no entry equal to 0. -/
def Memory.wf : List Host.Cell → Bool
  | [] => true
  | (k, v) :: r => v != 0 && (r.all fun p => decide (k < p.1)) && Memory.wf r

/-- `n` bytes from an address up. -/
def memRead (m : List Host.Cell) (a : Nat) : Nat → List Byte
  | 0 => []
  | n + 1 => memGet m a :: memRead m (a + 1) n

/-- Write bytes from an address up. -/
def memWrite (m : List Host.Cell) (a : Nat) : List Byte → List Host.Cell
  | [] => m
  | b :: r => memWrite (memPut m a b) (a + 1) r

/-- The little-endian number of a list of bytes (00 R8). -/
def bytesNat : List Byte → Nat
  | [] => 0
  | b :: r => b.toNat + 256 * bytesNat r

/-- The low `n` bytes of a number, low byte first (00 R8). -/
def natBytes (x : Nat) : Nat → List Byte
  | 0 => []
  | n + 1 => BitVec.ofNat 8 x :: natBytes (x / 256) n

/-- Bits hi..lo of a number. -/
def nbits (x lo n : Nat) : Nat := x / 2 ^ lo % 2 ^ n

/-- The lanes of a mask, lowest first. -/
def lanesOf (m : Lanes) : List Nat := (List.range 32).filter fun l => m.getLsbD l

/-- The mask of a list of lanes. -/
def maskOf (l : List Nat) : Lanes := l.foldl (fun m i => m ||| (1#32 <<< i)) 0

/-- The number of 1 bits. -/
def popc {w : Nat} (x : BitVec w) : Nat := ((List.range w).filter fun i => x.getLsbD i).length

/-- The index of the lowest 1 bit, or the width. -/
def ffs {w : Nat} (x : BitVec w) : Nat := ((List.range w).find? fun i => x.getLsbD i).getD w

/-- ceil(a / b). -/
def cdiv (a b : Nat) : Nat := (a + b - 1) / b

end Sys2Proof.Machine
end

