-- ==== Sys2Proof/Machine/Topology.lean ====
section
/-! DEFINITION. Where things are: mesh, slices, distances, planes (00 R3, R4, 09 R255, 11 R285), and
the accessors of packages, dies, cores, blocks, warps and splits. -/

namespace Sys2Proof.Machine

def State.pkg (s : State) (p : Nat) : Pkg := kgetD s.pkgs p Pkg.reset
def State.die (s : State) (dk : Nat) : Die := kgetD s.dies dk Die.reset
def State.core (s : State) (ck : Nat) : Core := kgetD s.cores ck Core.reset
def State.modPkg (s : State) (p : Nat) (f : Pkg → Pkg) : State := { s with pkgs := kput s.pkgs p (f (s.pkg p)) }
def State.modDie (s : State) (dk : Nat) (f : Die → Die) : State := { s with dies := kput s.dies dk (f (s.die dk)) }
def State.modCore (s : State) (ck : Nat) (f : Core → Core) : State := { s with cores := kput s.cores ck (f (s.core ck)) }
def State.warp? (s : State) (w : Nat) : Option Warp := kget? s.warps w
def State.warpD (s : State) (w : Nat) : Warp := (s.warp? w).getD default
def State.modWarp (s : State) (w : Nat) (f : Warp → Warp) : State := { s with warps := kmod s.warps w f }
def State.split? (s : State) (w t : Nat) : Option Split := (s.warp? w).bind fun x => kget? x.table t
def State.splitD (s : State) (w t : Nat) : Split := (s.split? w t).getD default
def State.modSplit (s : State) (w t : Nat) (f : Split → Split) : State :=
  s.modWarp w fun x => { x with table := kmod x.table t f }
def State.block? (s : State) (b : Nat) : Option Block := kget? s.blocks b
def State.blockD (s : State) (b : Nat) : Block := (s.block? b).getD default
def State.modBlock (s : State) (b : Nat) (f : Block → Block) : State := { s with blocks := kmod s.blocks b f }
def State.launch? (s : State) (l : Nat) : Option Launch := kget? s.launches l
def State.launchD (s : State) (l : Nat) : Launch := (s.launch? l).getD default
def State.modLaunch (s : State) (l : Nat) (f : Launch → Launch) : State := { s with launches := kmod s.launches l f }
def State.queueD (s : State) (q : Nat) : Queue := (kget? s.queues q).getD default
def State.modQueue (s : State) (q : Nat) (f : Queue → Queue) : State := { s with queues := kmod s.queues q f }
def State.modReq (s : State) (r : Nat) (f : Req → Req) : State := { s with reqs := kmod s.reqs r f }
def State.modWork (s : State) (e : Nat) (f : Work → Work) : State := { s with works := kmod s.works e f }
def State.addReq (s : State) (r : Req) : State :=
  { s with reqs := kput s.reqs s.nextId r, nextId := s.nextId + 1 }

/-- The block and launch of a warp. -/
def State.blockOf (s : State) (w : Nat) : Block := s.blockD (s.warpD w).block
def State.launchOf (s : State) (w : Nat) : Launch := s.launchD (s.blockOf w).launch

/-- The key of the die and of the core of a block. -/
def Block.dk (b : Block) : Nat := 128 * b.pkg + b.die
def Block.ck (b : Block) : Nat := 48 * b.dk + b.core

/-- Mesh place of a die (00 R3): die 16 y + x. -/
def dieX (d : Nat) : Nat := d % 16
def dieY (d : Nat) : Nat := d / 16

def dist (a b : Nat) : Nat := (a - b) + (b - a)

/-- Die-mesh hops (00 R4, 09 R255). -/
def meshHops (a b : Nat) : Nat := dist (dieX a) (dieX b) + dist (dieY a) (dieY b)

/-- Mortar-tree band of a die (00 R4): its distance from die 72. -/
def bandOf (d : Nat) : Nat := meshHops d 72

/-- XOR of the successive n-bit pieces of a number of at most `fuel` pieces (16 R377). -/
def foldBits (n : Nat) : Nat → Nat → Nat
  | 0, _ => 0
  | fuel + 1, x => (x % 2 ^ n) ^^^ foldBits n fuel (x / 2 ^ n)

/-- VA[56:9] (11 R282). -/
def blkOf (va : Nat) : Nat := va % 2 ^ 57 / 512

/-- The slice of a tag block (11 R285). -/
def sliceOf (asid blk : Nat) : Nat := (blk + 97 * asid) % 384

/-- The Elpor plane that a line hashes to (09 R255). -/
def planeOf (asid va : Nat) : Nat := foldBits 7 7 (blkOf va) ^^^ foldBits 7 3 asid

/-- The plane that traffic takes: the hashed one, or the next live one (17 R400); 128 when none is live. -/
def livePlane (live : BitVec 128) (p : Nat) : Nat :=
  (((List.range 128).map fun i => (p + i) % 128).find? fun q => live.getLsbD q).getD 128

/-- The fabric column of a plane (09 R255). -/
def planeCol (p : Nat) : Nat := if p < 64 then 0 else 15

/-- Slice-grid hops from a core to a slice of its die (09 R255). -/
def hopsFromCore (core slice : Nat) : Nat := dist (slice % 24) (2 * (core % 12)) + dist (slice / 24) (4 * (core / 12))

/-- Slice-grid hops from the port by which a request of another die of the package enters (09 R255). -/
def hopsFromPort (src dst slice : Nat) : Nat :=
  let port : Nat × Nat :=
    if dieY src = dieY dst then (if dieX src < dieX dst then (0, 7) else (23, 7))
    else if dieY src < dieY dst then (11, 0) else (11, 15)
  dist (slice % 24) port.1 + dist (slice / 24) port.2

/-- Slice-grid hops from the fabric column's port or from the mesh port by which a request enters its home die. -/
def hopsFromFabric (col dst slice : Nat) : Nat :=
  if dieX dst = col then dist (slice % 24) (if col = 0 then 0 else 23) + dist (slice / 24) 7
  else hopsFromPort (16 * dieY dst + col) dst slice

/-- A route from a core to a home slice: slice hops, die hops, and whether it crosses packages (09 R255). -/
def routeOf (pkg die core hpkg hdie slice plane : Nat) : Nat × Nat × Bool :=
  if pkg = hpkg then
    if die = hdie then (hopsFromCore core slice, 0, false) else (hopsFromPort die hdie slice, meshHops die hdie, false)
  else
    let c := planeCol plane
    (hopsFromFabric c hdie slice, dist (dieX die) c + dist (dieX hdie) c, true)

/-- Time from issue to the home slice, and of the reply (09 R254, R255). -/
def routeTime (r : Nat × Nat × Bool) : Nat := 40 + r.1 + 24 * r.2.1 + if r.2.2 then 520 else 0

/-- Die hops of a lock hand-off, and whether it crosses packages (12 R316). -/
def handoff (a b plane : Nat) : Nat :=
  let pa := a / 128
  let pb := b / 128
  if pa = pb then 110 + 24 * meshHops (a % 128) (b % 128)
  else 110 + 24 * (dist (dieX (a % 128)) (planeCol plane) + dist (dieX (b % 128)) (planeCol plane)) + 1040

/-- Columns of a cluster shape, and the core of a rank at a site origin (10 R258). -/
def shapeCols (shape : Nat) : Nat := match shape with | 0 => 1 | 1 => 2 | 2 => 2 | _ => 4
def siteCore (shape origin r : Nat) : Nat := origin + r % shapeCols shape + 12 * (r / shapeCols shape)

/-- The site origin of a block (10 R258). -/
def Block.origin (b : Block) (shape : Nat) : Nat := b.core - (b.rank % shapeCols shape + 12 * (b.rank / shapeCols shape))

/-- Number of blocks of a cluster shape (01 R29). -/
def csizeOf (shape : Nat) : Nat := 2 ^ shape

/-- Distributor nodes of a core's path, from the rack down (10 R264): rack, tray, package, die, core. -/
def nodeTray (pkg : Nat) : Nat := 1000 + pkg / 2
def nodePkg (pkg : Nat) : Nat := 2000 + pkg
def nodeDie (dk : Nat) : Nat := 10000 + dk
def nodeCore (ck : Nat) : Nat := 200000 + ck
def Block.path (b : Block) : List Nat := [0, nodeTray b.pkg, nodePkg b.pkg, nodeDie b.dk, nodeCore b.ck]

/-- Whether a package, a die and a core can work (17 R405, 16 R394). -/
def State.pkgLive (s : State) (p : Nat) : Bool := decide (p < Config.packages) && !(s.pkg p).failed
def State.dieLive (s : State) (dk : Nat) : Bool := s.pkgLive (dk / 128) && !(s.die dk).dead
def State.coreLive (s : State) (ck : Nat) : Bool := s.dieLive (ck / 48) && !(s.core ck).dead

/-- Live dies of a package in ascending id. -/
def State.liveDies (s : State) (p : Nat) : List Nat := (List.range 128).filter fun d => s.dieLive (128 * p + d)

/-- The neighbours of a die in its mesh that a live die-to-die link joins it to (00 R4, 17 R403). -/
def State.joined (s : State) (p d : Nat) : List Nat :=
  let dead := (s.die (128 * p + d)).deadLinks
  (if dieX d ≠ 0 ∧ !dead.contains 0 then [d - 1] else []) ++ (if dieX d ≠ 15 ∧ !dead.contains 1 then [d + 1] else [])
    ++ (if dieY d ≠ 0 ∧ !dead.contains 2 then [d - 16] else []) ++ if dieY d ≠ 7 ∧ !dead.contains 3 then [d + 16] else []

/-- The dies that routes of at most `n` links reach. -/
def State.reach (s : State) (p : Nat) : Nat → List Nat → List Nat
  | 0, l => l
  | n + 1, l =>
    let l1 := l.foldl (fun a d => (s.joined p d).foldl ninsert a) l
    if l1.length = l.length then l else s.reach p n l1

/-- Whether no route joins two dies of a package (11 R295). -/
def State.cut (s : State) (p a b : Nat) : Bool :=
  (s.dies.any fun d => d.1 / 128 == p && !d.2.deadLinks.isEmpty) && !(s.reach p 128 [a]).contains b

/-- Whether no route joins a die and a home, over the column of a plane between packages (09 R255, 11 R295). -/
def State.noRoute (s : State) (pkg die hpkg hdie plane : Nat) : Bool :=
  if pkg = hpkg then s.cut pkg die hdie
  else s.cut pkg die (16 * dieY die + planeCol plane) || s.cut hpkg (16 * dieY hdie + planeCol plane) hdie

/-- The live die of a package nearest in the mesh to a die id, the lowest id on equal distance (10 R263, 11 R285). -/
def State.nearestLive (s : State) (p d : Nat) : Option Nat := leastBy (fun x => meshHops x d) (s.liveDies p)

/-- Number of the partition's slot in the core: 16 partition + 8 half + slot (07 R186). -/
def Warp.slotNo (w : Warp) : Nat := 16 * w.part + 8 * w.half + w.wslot

/-- A line with its ASID, and with its die (State.lean). -/
def lineOf (asid va grain : Nat) : Nat := asid * 2 ^ 57 + va % 2 ^ 57 / grain * grain
def lineKey (dk line : Nat) : Nat := dk * 2 ^ 73 + line
def lineVa (line : Nat) : Nat := line % 2 ^ 57
def lineAsid (line : Nat) : Nat := line / 2 ^ 57 % 2 ^ 16

/-- The excuse mask of a die's segment of a wire (12 R319). -/
def State.excuseMask (s : State) (dk wire : Nat) : BitVec 48 := kgetD (s.die dk).masks wire (BitVec.allOnes 48)

/-- Set or clear a core's bit in the mask of a wire. -/
def State.excuse (s : State) (ck wire : Nat) (on : Bool) : State :=
  let m := s.excuseMask (ck / 48) wire
  let bit : BitVec 48 := 1#48 <<< (ck % 48)
  s.modDie (ck / 48) fun d => { d with masks := kput d.masks wire (if on then m ||| bit else m &&& ~~~bit) }

/-- Whether a core is excused from every phase of a wire. -/
def State.isExcused (s : State) (ck wire : Nat) : Bool := (s.excuseMask (ck / 48) wire).getLsbD (ck % 48)

/-- A core is masked dead: every segment excuses it (12 R319, 16 R393, 17 R405). -/
def State.maskCore (s : State) (ck : Nat) : State :=
  (List.range 17).foldl (fun s w => s.excuse ck w true) (s.modCore ck fun c => { c with dead := true })

/-- The mask key of the cluster wires. -/
abbrev clusterWire : Nat := 16

/-- The grid wires of a launch serve none, and every core is outside their regions (12 R318, R319). -/
def State.freeWires (s : State) (l : Nat) : State :=
  { s with
    dies := kmap s.dies fun dk (d : Die) =>
      { d with masks := d.masks.filter fun m => !((s.pkg (dk / 128)).wires.any fun w => w.1 == m.1 && w.2 == l) }
    pkgs := kmap s.pkgs fun _ (p : Pkg) => { p with wires := p.wires.filter fun w => w.2 != l } }

end Sys2Proof.Machine
end

