-- ==== Sys2Proof/Machine/Translate.lean ====
section
/-! DEFINITION. Address spaces: the five-level walk, leaf entries, homes, memory tags (16 R373 to R377), and
the command front end's access to memory (15 R355). -/

namespace Sys2Proof.Machine

/-- Key of a byte of HBM. -/
def hbmKey (dk frame ofs : Nat) : Nat := dk * 2 ^ 36 + frame * 4096 + ofs

/-- An 8-byte entry in memory. -/
def State.mem8 (s : State) (k : Nat) : Word := BitVec.ofNat 64 (bytesNat (memRead s.mem k 8))

/-- Field of an entry. -/
def wf (w : Word) (lo n : Nat) : Nat := (w.extractLsb' lo n).toNat

/-- The ASID table entry of a package's replica (16 R373). -/
def State.asidEntry (s : State) (pkg asid : Nat) : Word :=
  let (d, f) := Config.asidLoc pkg
  s.mem8 (hbmKey (128 * pkg + d) f (8 * asid))

/-- Key of the ASID table entry. -/
def asidKey (pkg asid : Nat) : Nat :=
  let (d, f) := Config.asidLoc pkg
  hbmKey (128 * pkg + d) f (8 * asid)

/-- Leaf fields (16 R375). -/
def leafR (e : Word) : Bool := e.getLsbD 2
def leafW (e : Word) : Bool := e.getLsbD 3
def leafX (e : Word) : Bool := e.getLsbD 4
def leafTr (e : Word) : Bool := e.getLsbD 5
def leafGrain (e : Word) : Nat := match wf e 6 2 with | 0 => 32 | 1 => 128 | _ => 512
def leafTe (e : Word) : Bool := e.getLsbD 8
def leafSize (e : Word) : Nat := wf e 9 4
def leafMode (e : Word) : Nat := wf e 13 4
def leafFrame (e : Word) : Nat := wf e 17 24
def leafHdie (e : Word) : Nat := wf e 41 7
def leafHpkg (e : Word) : Nat := wf e 48 9

/-- 4 KiB frames of a page size code: 4 KiB times a power of 4, but 1 GiB for code 9 (16 R375). -/
def pageFrames (size : Nat) : Nat := if size = 9 then 2 ^ 18 else 4 ^ size

/-- The level at which a leaf of a size lies (16 R375). -/
def leafLevel (size : Nat) : Nat := if size ≤ 4 then 0 else if size ≤ 8 then 1 else 2

/-- First frame of the tag region (16 R376). -/
def tagFrame : Nat := 0xFC0000

/-- Whether a leaf met at a level is well formed (16 R375 to R377). -/
def leafOk (e : Word) (level : Nat) : Bool :=
  leafSize e ≤ 9 && leafLevel (leafSize e) == level && wf e 6 2 != 3 && leafMode e ≤ 8 && wf e 57 7 == 0
    && leafFrame e % pageFrames (leafSize e) == 0
    && (leafFrame e < tagFrame || (!leafTe e && !leafX e))
    && (leafMode e != 8 || wf e 52 5 == 0)

/-- The walk below a table (16 R374): the leaf with the number of levels read, or none for an XLATE. -/
def State.walkFrom (s : State) (pkg va : Nat) : Nat → Nat → Nat → Option (Word × Nat)
  | 0, _, _ => none
  | n + 1, die, frame =>
    let e := s.mem8 (hbmKey (128 * pkg + die) frame (8 * (va / 2 ^ (12 + 9 * n) % 512)))
    if !e.getLsbD 0 then none
    else if e.getLsbD 1 then (if leafOk e n then some (e, 5 - n) else none)
    else if wf e 33 31 ≠ 0 then none
    else s.walkFrom pkg va n (wf e 2 7) (wf e 9 24)

/-- The walk of a virtual address in a package's replica (16 R374). -/
def State.walk (s : State) (pkg asid va : Nat) : Option (Word × Nat) :=
  let a := s.asidEntry pkg asid
  if a.getLsbD 0 && wf a 52 12 == 0 then s.walkFrom pkg (va % 2 ^ 57) 5 (wf a 1 7) (wf a 8 24) else none

/-- The tables that a walk reads from a table on: levels left, die, frame (16 R374). -/
def State.tablesFrom (s : State) (pkg va : Nat) : Nat → Nat → Nat → List (Nat × Nat × Nat)
  | 0, _, _ => []
  | n + 1, die, frame =>
    let e := s.mem8 (hbmKey (128 * pkg + die) frame (8 * (va / 2 ^ (12 + 9 * n) % 512)))
    (n + 1, die, frame) ::
      if !e.getLsbD 0 || e.getLsbD 1 || wf e 33 31 != 0 then [] else s.tablesFrom pkg va n (wf e 2 7) (wf e 9 24)

/-- The tables that a walk of a virtual address reads in a package's replica. -/
def State.tables (s : State) (pkg asid va : Nat) : List (Nat × Nat × Nat) :=
  let a := s.asidEntry pkg asid
  if a.getLsbD 0 && wf a 52 12 == 0 then s.tablesFrom pkg (va % 2 ^ 57) 5 (wf a 1 7) (wf a 8 24) else []

/-- Packages of a pool, ascending (16 R377). -/
def State.poolPkgs (s : State) (pkg pool : Nat) : List Nat :=
  let m := kgetD (s.pkg pkg).pools pool 0
  (List.range 512).filter fun q => m.getLsbD q

/-- The home of an address under a leaf (16 R377); none for an empty pool. -/
def State.homeOf (s : State) (pkg asid : Nat) (e : Word) (va : Nat) : Option (Nat × Nat) :=
  let x := blkOf va
  match leafMode e with
  | 0 => some (leafHpkg e, leafHdie e)
  | 8 =>
    let l := s.poolPkgs pkg (wf (s.asidEntry pkg asid) 48 4)
    if l.isEmpty then none else some (l.getD (foldBits 9 6 x % l.length) 0, leafHdie e)
  | m => some (leafHpkg e, leafHdie e / 2 ^ m * 2 ^ m + foldBits 7 7 x % 2 ^ m)

/-- A walk that gives a leaf with a home. -/
def State.lookup (s : State) (pkg asid va : Nat) : Option (Word × Nat × (Nat × Nat)) :=
  match s.walk pkg asid va with
  | none => none
  | some (e, n) =>
    match s.homeOf pkg asid e va with
    | none => none
    | some h => some (e, n, h)

/-- The key of the byte of HBM behind an address under a leaf on a die (16 R379). -/
def frameKey (dk : Nat) (e : Word) (va : Nat) : Nat :=
  hbmKey dk (leafFrame e) (va % 2 ^ 57 % (4096 * pageFrames (leafSize e)))

/-- The memory tag of the granule (32 bytes) that holds a byte of HBM (16 R376). -/
def State.tagOf (s : State) (key : Nat) : BitVec 4 :=
  let dk := key / 2 ^ 36
  let o := key % 2 ^ 36
  let f := o / 4096
  let i := o % 4096 / 32
  let b := memGet s.mem (hbmKey dk tagFrame ((128 * f + i) / 2))
  if i % 2 = 0 then b.extractLsb' 0 4 else b.extractLsb' 4 4

/-- The access kinds of 16 R385. -/
abbrev akRead : Nat := 0
abbrev akWrite : Nat := 1
abbrev akRmw : Nat := 2
abbrev akFetch : Nat := 3

/-- Whether a leaf permits an access (16 R375). -/
def permits (e : Word) (kind : Nat) : Bool :=
  match kind with
  | 0 => leafR e
  | 1 => leafW e
  | 2 => leafR e && leafW e
  | _ => leafX e

/-- A byte that the front end reads at a virtual address of an address space (15 R355, 12 R309). -/
def State.feByte (s : State) (asid va : Nat) : Byte :=
  match s.lookup s.fe.primary asid va with
  | some (e, _, (p, d)) => memGet s.mem (frameKey (128 * p + d) e va)
  | none => Config.frontByte s.clk va

/-- Bytes that the front end reads. -/
def State.feRead (s : State) (asid va : Nat) (n : Nat) : List Byte :=
  (List.range n).map fun i => s.feByte asid (va + i)

/-- A number that the front end reads. -/
def State.feNat (s : State) (asid va n : Nat) : Nat := bytesNat (s.feRead asid va n)

/-- The grain, the tracked bit and the tag-enable bit of a copy's lines (11 R282). -/
def Copy.grain (c : Copy) : Nat := leafGrain c.leaf
def Copy.tracked (c : Copy) : Bool := leafTr c.leaf
def Copy.te (c : Copy) : Bool := leafTe c.leaf

/-- Drop the sectors of a byte range from every copy, those of untracked pages only where `all` says so (a write applied at the
home with its invalidations). -/
def State.dropCopies (s : State) (asid va n : Nat) (all : Bool) : State :=
  { s with copies := s.copies.map fun p =>
      if p.2.asid = asid ∧ blkOf va ≤ p.2.blk ∧ p.2.blk ≤ blkOf (va + n - 1) ∧ (p.2.tracked || all) then
        (p.1, { p.2 with
          valid := BitVec.ofNat 16 ((List.range 16).foldl (fun a i =>
            let lo := p.2.blk * 512 + 32 * i
            if p.2.valid.getLsbD i ∧ ¬ (lo < va % 2 ^ 57 + n ∧ va % 2 ^ 57 < lo + 32) then a + 2 ^ i else a) 0)
          dirty := p.2.dirty.filter fun o =>
            !(decide (va % 2 ^ 57 ≤ p.2.blk * 512 + o) && decide (p.2.blk * 512 + o < va % 2 ^ 57 + n)) })
      else p }

/-- Write one byte of an address space at its home. -/
def State.homeByte (s : State) (pkg asid va : Nat) (b : Byte) : State :=
  match s.lookup pkg asid va with
  | some (e, _, (p, d)) => { s with mem := memPut s.mem (frameKey (128 * p + d) e va) b }
  | none => s

/-- Bytes that the front end writes: made at the home, copies discarded; bytes that no page maps are lost (log 7). -/
def State.feWrite (s : State) (asid va : Nat) (l : List Byte) : State :=
  let s1 := (List.zip (List.range l.length) l).foldl (fun s p => s.homeByte s.fe.primary asid (va + p.1) p.2) s
  if l.isEmpty then s1 else s1.dropCopies asid va l.length false

end Sys2Proof.Machine
end

