-- ==== Sys2Proof/Machine/Ops.lean ====
section
/-! DEFINITION. The named operations on registers, results, spans and exceptions. The issuer of the instruction
under way is the split that `cur` names. -/

namespace Sys2Proof.Machine

/-- The state that a split is in, or keeps underneath while DORMANT (01 R34). -/
def Split.eff (p : Split) : SplitState := if p.st = .dormant then p.held else p.st

/-- Set that state. -/
def Split.setEff (p : Split) (x : SplitState) : Split := if p.st = .dormant then { p with held := x } else { p with st := x }

def State.curWarp (s : State) : Warp := s.warpD s.cur.1
def State.curSplit (s : State) : Split := s.splitD s.cur.1 s.cur.2
def State.curBlock (s : State) : Block := s.blockD s.curWarp.block
def State.curLaunch (s : State) : Launch := s.launchD s.curBlock.launch
def State.modCur (s : State) (f : Split → Split) : State := s.modSplit s.cur.1 s.cur.2 f
def State.modCurWarp (s : State) (f : Warp → Warp) : State := s.modWarp s.cur.1 f

/-- Place of the issuer in issue order: of instructions of one clk, the lowest slot stands (01 R18, R22). -/
def State.orderKey (s : State) : Nat := 64 * s.clk + 63 - s.cur.2

/-! ## Reading registers -/

/-- The results to a register that a split issued earlier in its span (09 R240). -/
def Warp.spanWrites (w : Warp) (p : Split) (d : Dest) : List Result :=
  if p.len = 0 then []
  else (w.results.map Prod.snd).filter fun r => r.span == p.span && (r.own &&& p.lmask) != 0 && r.dest == d

/-- One of the values that a read inside a span may return (09 R240). -/
def pickOf (free reg lane : Nat) (l : List Nat) : Nat := l.getD (Config.spanPick free reg lane % l.length) 0

/-- A lane of a vector register as `elems` elements, each read on its own (09 R240). -/
def State.laneOf (s : State) (w : Warp) (p : Split) (r l elems : Nat) : Lane :=
  let base := kgetD w.v (32 * r + l) 0
  match (w.spanWrites p (.vec r)).filter (fun q => (kget? q.vals l).isSome) with
  | [] => base
  | q :: qs =>
    let c := kgetD q.olds l base :: (q :: qs).map fun x => kgetD x.vals l base
    let n := 32 / elems
    BitVec.ofNat 32 ((List.range elems).foldl (fun a e =>
      a + pickOf s.free r (4 * l + e) (c.map fun x => nbits x.toNat (n * e) n) * 2 ^ (n * e)) 0)

/-- A scalar register (01 R17, R18, 09 R240). -/
def State.scalarOf (s : State) (w : Warp) (p : Split) (r : Nat) : Word :=
  if r = 63 then 0
  else
    let base := kgetD w.sc r 0
    match w.spanWrites p (.sca r) with
    | [] => base
    | q :: qs =>
      let known := (q :: qs).filter fun x => x.pend == 0 || !x.mem
      BitVec.ofNat 64 (pickOf s.free (256 + r) 0 ((base :: q.sold :: known.map (·.sval)).map (·.toNat)))

/-- A mask register, all 32 bits (01 R19, 09 R240). -/
def State.maskOfReg (s : State) (w : Warp) (p : Split) (r : Nat) : Lanes :=
  let base := kgetD w.m r 0
  match w.spanWrites p (.msk r) with
  | [] => base
  | q :: qs =>
    let mix (x : Word) (own : Lanes) : Nat := ((base &&& ~~~own) ||| (x.setWidth 32 &&& own)).toNat
    BitVec.ofNat 32 (pickOf s.free (320 + r) 0 (mix q.sold q.lanes :: (q :: qs).map fun x => mix x.sval x.lanes))

def State.rdV (s : State) (r l elems : Nat) : Lane := s.laneOf s.curWarp s.curSplit r l elems
def State.rdS (s : State) (r : Nat) : Word := s.scalarOf s.curWarp s.curSplit r
def State.rdM (s : State) (r : Nat) : Lanes := s.maskOfReg s.curWarp s.curSplit r

/-- A register pair: the even register holds bits 31:0 (01 R15). -/
def State.rdPair (s : State) (r l : Nat) : Word := (s.rdV (r + 1) l 1) ++ (s.rdV r l 1)

/-- The effective mask of an instruction with mask field MK (01 R20). -/
def State.effective (s : State) (mk : Nat) : Lanes :=
  s.curSplit.lmask &&& s.rdM 0 &&& (if mk = 0 then BitVec.allOnes 32 else s.rdM mk)

/-- The live lanes of a warp: the lanes of its live splits (05 R129). -/
def Warp.liveLanes (w : Warp) : Lanes := w.table.foldl (fun a p => a ||| p.2.lmask) 0

/-- The format tag of a register (01 R21). -/
def State.tagOfReg (s : State) (r : Nat) : BitVec 4 := kgetD s.curWarp.tags r 0

/-! ## Writing registers -/

/-- Set the tag of a vector register at issue (01 R22). -/
def Warp.setTag (w : Warp) (key r : Nat) (t : BitVec 4) : Warp :=
  if kgetD w.tagKey r 0 ≤ key then { w with tags := kput w.tags r t, tagKey := kput w.tagKey r key } else w

def State.setTag (s : State) (r : Nat) (t : BitVec 4) : State := s.modCurWarp fun w => w.setTag s.orderKey r t

/-- The scalar that a wait-type instruction will write, and its place in issue order (01 R18). -/
def After.scalar (a : After) : Option (Nat × Nat) :=
  match a with
  | .fence sd _ _ key _ => some (sd, key)
  | .barWait sd _ _ _ key => some (sd, key)
  | .barSync sd _ _ _ key _ => some (sd, key)
  | .cntWait sd _ _ _ key => some (sd, key)
  | .clkrd sd key => some (sd, key)
  | _ => Option.none

/-- Whether a result comes at the end of a wait or of a long path (01 R18): from memory, of a wait-type instruction, whose result no split
awaits, or of a division. -/
def Result.long (r : Result) : Bool := r.mem || r.own == 0 || decide (34 ≤ r.due - r.key / 64)

/-- Whether a write of a scalar that issued after place `key`, outside the span named, still to be made, takes the place of a write that
arrives now (01 R18): for one that ends a wait or a long path any such write, else one of a co-issued split in a lower slot. -/
def Warp.laterScalar (w : Warp) (key r span : Nat) (long : Bool) : Bool :=
  let later (k : Nat) : Bool := decide (key < k) && (long || k / 64 == key / 64)
  (w.results.any fun q => !q.2.done && q.2.dest == .sca r && later q.2.key && q.2.span != span)
    || (w.table.any fun t => match t.2.after.scalar with | some (sd, k) => sd == r && later k | none => false)
    || (w.locks.any fun k => k.live && !k.held && k.sd == r && later k.key)

/-- Whether the last write of a scalar came from the span named, whose writes R240 orders and not R18. -/
def Warp.lastOwn (w : Warp) (r span : Nat) : Bool :=
  w.results.any fun q => q.2.span == span && q.2.dest == .sca r && q.2.key == kgetD w.scKey r 0

/-- Give a scalar the value of a write with a place in issue order: the value is discarded when a write that issued later has
taken effect, or takes its place (01 R17, R18). -/
def Warp.putScalar (w : Warp) (key r span : Nat) (long : Bool) (x : Word) : Warp :=
  if r = 63 ∨ w.laterScalar key r span long then w
  else if kgetD w.scKey r 0 ≤ key ∨ w.lastOwn r span then
    { w with sc := kput w.sc r x, scKey := kput w.scKey r (max key (kgetD w.scKey r 0)) }
  else w

/-- Give lanes of a mask register their value; lanes that have exited keep 0 (01 R19). -/
def Warp.putMask (w : Warp) (r : Nat) (own x : Lanes) : Warp :=
  let on := own &&& w.liveLanes
  { w with m := kput w.m r ((kgetD w.m r 0 &&& ~~~on) ||| (x &&& on)) }

/-- Give lanes of a vector register their values (01 R16). -/
def Warp.putLanes (w : Warp) (r : Nat) (l : KMap Lane) : Warp :=
  { w with v := kputs w.v (l.map fun p => (32 * r + p.1, p.2)) }

/-- Enter a result of the instruction under way, due `lat` clk after issue (09 R239). -/
def State.addResult (s : State) (d : Dest) (lat : Nat) (lanes : Lanes) (vals : KMap Lane) (sval : Word) (mem : Bool) : State :=
  let p := s.curSplit
  let w := s.curWarp
  let r : Result :=
    { dest := match d with | .sca 63 => .none | x => x
      span := p.span, own := p.lmask, key := s.orderKey, due := if mem then 0 else s.clk + lat, mem := mem
      lanes := lanes, pend := lanes, vals := vals
      olds := match d with | .vec n => (lanesOf lanes).map fun l => (l, kgetD w.v (32 * n + l) 0) | _ => []
      sval := sval
      sold := match d with | .sca n => kgetD w.sc n 0 | .msk n => (kgetD w.m n 0).setWidth 64 | _ => 0
      coming := []
      done := mem && lanes == 0 }
  { s with nextId := s.nextId + 1 }.modCurWarp fun w => { w with results := kput w.results s.nextId r }

/-- A scalar result. -/
def State.putS (s : State) (sd lat : Nat) (x : Word) : State := s.addResult (.sca sd) lat (BitVec.allOnes 32) [] x false

/-- A mask result in the lanes of the split (05 R126). -/
def State.putM (s : State) (md lat : Nat) (x : Lanes) : State :=
  s.addResult (.msk md) lat s.curSplit.lmask [] (x.setWidth 64) false

/-- A vector result in some lanes, with its tag. -/
def State.putV (s : State) (vd lat : Nat) (lanes : Lanes) (vals : KMap Lane) (t : BitVec 4) : State :=
  (s.addResult (.vec vd) lat lanes vals 0 false).setTag vd t

/-- A vector result of a pair (01 R15, R22). -/
def State.putPair (s : State) (vd lat : Nat) (lanes : Lanes) (vals : List (Nat × Word)) (t : BitVec 4) : State :=
  (s.putV vd lat lanes (vals.map fun p => (p.1, p.2.setWidth 32)) t).putV (vd + 1) lat lanes
    (vals.map fun p => (p.1, p.2.extractLsb' 32 32)) 15

/-! ## Results that return -/

/-- Whether a result of a span is one that a split still waits for: a vector register's memory result by lane. -/
def Result.waits (r : Result) (p : Split) : Bool :=
  r.span == p.span && !r.done &&
    match r.dest, r.mem with
    | .vec _, true => (r.pend &&& p.lmask) != 0
    | _, _ => (r.own &&& p.lmask) != 0

/-- The results for which a split is still waiting (09 R239). -/
def Warp.outstanding (w : Warp) (p : Split) : Bool := p.len != 0 && w.results.any fun q => q.2.waits p

/-- Forget the results of spans that have ended. -/
def Warp.gc (w : Warp) : Warp :=
  { w with results := w.results.filter fun q =>
      !q.2.done || w.table.any fun t => t.2.span == q.2.span && (t.2.lmask &&& q.2.own) != 0 && t.2.len != 0 }

/-- Whether a result of a span has been written in a lane. -/
def Result.wrote (q : Result) (l : Nat) : Bool :=
  q.lanes.getLsbD l && if q.mem then !q.pend.getLsbD l && (q.dest matches .sca _ || (kget? q.vals l).isSome) else q.done

/-- Whether a result is written in a lane: where another result of its span has been written to the same register in that lane,
one of the two stands (09 R240). -/
def Warp.stands (w : Warp) (free : Nat) (r : Result) (l : Nat) : Bool :=
  if w.results.any fun q => q.2.span == r.span && q.2.dest == r.dest && q.2.key != r.key && q.2.wrote l then
    Config.spanPick free (1000 + l) r.key % 2 == 0
  else true

/-- The lanes in which a result is written (09 R240). -/
def Warp.standing (w : Warp) (free : Nat) (r : Result) (lanes : Lanes) : Lanes :=
  maskOf ((lanesOf lanes).filter fun l => w.stands free r l)

/-- Write the register of a result in some lanes: a scalar or mask register whole (09 R240). -/
def Warp.landResult (w : Warp) (free : Nat) (r : Result) (lanes : Lanes) (vals : KMap Lane) (sval : Word) : Warp :=
  match r.dest with
  | .vec n => w.putLanes n (vals.filter fun p => (w.standing free r lanes).getLsbD p.1)
  | .sca n => if w.stands free r (ffs lanes) then w.putScalar r.key n r.span r.long sval else w
  | .msk n => w.putMask n (w.standing free r lanes) (sval.setWidth 32)
  | .none => w

/-- Lanes of a memory result receive their values. -/
def State.landMem (s : State) (wid k : Nat) (lanes : Lanes) (vals : KMap Lane) (sval : Word) : State :=
  match s.warp? wid with
  | none => s
  | some w =>
    match kget? w.results k with
    | none => s
    | some r =>
      { s with free := s.free + 1 }.modWarp wid fun w =>
        let w := w.landResult s.free r lanes vals sval
        let pend := r.pend &&& ~~~lanes
        { w with results := kmod w.results k fun r =>
            { r with pend := pend, vals := kputs r.vals vals, sval := sval, done := pend == 0 } }

/-- Values fetched from local store are on their way to their lanes (07 R185). -/
def State.sendMem (s : State) (wid k due : Nat) (vals : KMap Lane) : State :=
  s.modWarp wid fun w => { w with results := kmod w.results k fun r =>
    { r with coming := kputs r.coming (vals.map fun p => (p.1, (due, p.2))) } }

/-- Those whose clk has come are written. -/
def State.landComing (s : State) (wid k : Nat) : State :=
  match s.warp? wid with
  | none => s
  | some w =>
    match kget? w.results k with
    | none => s
    | some r =>
      let here := r.coming.filter fun p => decide (p.2.1 ≤ s.clk)
      if here.isEmpty then s
      else
        (s.landMem wid k (maskOf (here.map (·.1))) (here.map fun p => (p.1, p.2.2)) 0).modWarp wid fun w =>
          { w with results := kmod w.results k fun r => { r with coming := r.coming.filter fun p => decide (s.clk < p.2.1) } }

/-- A result produced by its latency is written (01 R18), or lanes of a load from local store that have arrived. -/
def State.landDue (s : State) (wid k : Nat) : State :=
  match s.warp? wid with
  | none => s
  | some w =>
    match kget? w.results k with
    | none => s
    | some r =>
      if r.mem then s.landComing wid k
      else if r.done || s.clk < r.due then s
      else
        { s with free := s.free + 1 }.modWarp wid fun w =>
          let w := w.landResult s.free r r.pend r.vals r.sval
          { w with results := kmod w.results k fun r => { r with done := true, pend := 0 } }

/-- Lanes of a memory result complete with their destination unchanged (07 R179 skip, 05 R123). -/
def State.dropMem (s : State) (wid k : Nat) (lanes : Lanes) : State :=
  s.modWarp wid fun w => { w with results := kmod w.results k fun r =>
    let pend := r.pend &&& ~~~lanes
    { r with pend := pend, done := r.done || pend == 0 } }

/-! ## Spans -/

/-- A split becomes READY with a new span (09 R238). -/
def State.freshReady (s : State) (wid slot notBefore : Nat) : State :=
  { s with nextId := s.nextId + 1 }.modWarp wid fun w =>
    { w with table := kmod w.table slot fun p =>
        { p.setEff .ready with span := s.nextId, len := 0, after := .none, rdy := 0, notBefore := notBefore, fault := none } }

/-- A split whose span has ended: SPAN-PARK while results are outstanding, else READY in the next clk (09 R239). -/
def State.endSpan (s : State) (wid slot : Nat) : State :=
  match s.warp? wid, s.split? wid slot with
  | some w, some p =>
    if w.outstanding p then s.modSplit wid slot fun p => { p.setEff .spanPark with after := .none }
    else (s.freshReady wid slot (max (max p.rdy p.notBefore) (s.clk + 1))).modWarp wid Warp.gc
  | _, _ => s

/-- Whether the current instruction ends its span by SW or as the 64th (09 R238). -/
def spanEnds (sw : Bool) (p : Split) : Bool := sw || p.len + 1 == 64

/-- The issuer goes on at `pc` of the next sequential instruction; `lat` is the instruction's latency. -/
def State.retire (s : State) (sw : Bool) (lat : Nat) (words : Nat) : State :=
  let p := s.curSplit
  let s1 := { s with free := s.free + 1 }.modCur fun p =>
    { p with pc := p.pc + BitVec.ofNat 48 words, len := p.len + 1, rdy := max p.rdy (s.clk + lat) }
  if spanEnds sw p then s1.endSpan s.cur.1 s.cur.2 else s1

/-- The issuer's span ends at `pc` and it may issue from clk + `lat` on (05 R112). -/
def State.jumpTo (s : State) (pc : BitVec 48) (lat : Nat) : State :=
  ({ s with free := s.free + 1 }.modCur fun p =>
    { p with pc := pc, len := p.len + 1, rdy := max p.rdy (s.clk + lat), notBefore := s.clk + lat }).endSpan s.cur.1 s.cur.2

/-- A scalar instruction's result and its advance (05 R100). -/
def State.scalarOp (s : State) (sw : Bool) (sd lat words : Nat) (x : Word) : State :=
  (s.putS sd lat x).retire sw lat words

/-- A split enters a wait state, at which a halt request stops it (09 R250). -/
def State.enterWait (s : State) (wid slot : Nat) (x : SplitState) (wobj : Word) (waux : Lane) : State :=
  { s with nextId := s.nextId + 1 }.modWarp wid fun w =>
    { w with
      whole := w.whole || w.haltH != 0
      table := kmod w.table slot fun p =>
        { p.setEff x with wobj := wobj, waux := waux, arr := s.nextId, halted := p.halted || w.haltH != 0 } }

/-- A wait ends: READY at PC + 1, issuing no earlier than `notBefore` (09 R245). -/
def State.wake (s : State) (wid slot notBefore : Nat) : State :=
  (s.freshReady wid slot notBefore).modSplit wid slot fun p => { p with pc := p.pc + 1, wobj := 0, waux := 0 }

/-- Enter the scalar that a wait-type instruction writes `lat` clk from now, in its place in issue order; its wait is over, so
no split waits for it (01 R18, 09 R245). -/
def State.waitScalar (s : State) (wid key sd : Nat) (x : Word) (lat : Nat) : State :=
  let r : Result :=
    { dest := if sd = 63 then .none else .sca sd, span := s.nextId, own := 0, key := key, due := s.clk + lat, mem := false
      lanes := BitVec.allOnes 32, pend := BitVec.allOnes 32, vals := [], olds := [], sval := x, sold := 0, coming := []
      done := false }
  { s with nextId := s.nextId + 2 }.modWarp wid fun w => { w with results := kput w.results (s.nextId + 1) r }

/-! ## Exceptions -/

/-- Fault codes (08 R237). -/
abbrev fcIllop : Nat := 0x01
abbrev fcRegrange : Nat := 0x02
abbrev fcFmttag : Nat := 0x03
abbrev fcIfetch : Nat := 0x04
abbrev fcIaccess : Nat := 0x05
abbrev fcJdepth : Nat := 0x06
abbrev fcLockexit : Nat := 0x07
abbrev fcTdinval : Nat := 0x08
abbrev fcLsrange : Nat := 0x09
abbrev fcAddrnc : Nat := 0x0A
abbrev fcMisalign : Nat := 0x0B
abbrev fcLockself : Nat := 0x0C
abbrev fcLocklimit : Nat := 0x0D
abbrev fcLocknh : Nat := 0x0E
abbrev fcBardup : Nat := 0x0F
abbrev fcBarncr : Nat := 0x10
abbrev fcSyncmask : Nat := 0x11
abbrev fcXlate : Nat := 0x12
abbrev fcAccess : Nat := 0x13
abbrev fcTagchk : Nat := 0x14
abbrev fcCohlost : Nat := 0x15
abbrev fcPeerdead : Nat := 0x16
abbrev fcLockuntr : Nat := 0x17
abbrev fcTrap : Nat := 0x18
abbrev fcBkpt : Nat := 0x19
abbrev fcHaltw : Nat := 0x1A
abbrev fcEngerr : Nat := 0x1B

/-- The 64 bytes of an exception record (15 R360). -/
def ExcRec.bytes (r : ExcRec) (queue seq : Nat) (ovf : Bool) : List Byte :=
  natBytes (r.code + 2 ^ 8 * ovf.toNat + 2 ^ 9 * r.noans.toNat + 2 ^ 16 * queue + 2 ^ 32 * r.launch) 8
  ++ natBytes r.info.toNat 8
  ++ natBytes r.pc.toNat 8
  ++ natBytes (r.lmask.toNat + 2 ^ 32 * r.slot + 2 ^ 40 * (r.bx % 2 ^ 24)) 8
  ++ natBytes (r.bx / 2 ^ 24 + 2 ^ 8 * r.by_ + 2 ^ 24 * r.bz + 2 ^ 40 * r.wblk) 8
  ++ natBytes seq 8
  ++ natBytes (r.die + 2 ^ 7 * r.pkg + 2 ^ 16 * r.core) 8
  ++ natBytes 0 8

/-- Records on a ring of 2^log entries. -/
def ringCount (prod cons : Nat) : Nat := (prod + 2 ^ 32 - cons % 2 ^ 32) % 2 ^ 32

/-- No SEQ yet. -/
abbrev noSeq : Nat := 2 ^ 64

/-- The answers to a record written as number `seq` act on a fault: on its held accesses alone when the record is one of those
beside an issue fault (07 R179, 15 R361). -/
def FaultInfo.named (f : FaultInfo) (code seq : Nat) : FaultInfo :=
  if f.kind = .completion ∨ f.code = code then { f with group := seq } else { f with accs := seq }

/-- Write one exception record to its queue (15 R360); the faulted split learns its SEQ when it is the last of its group. -/
def State.writeExc (s : State) (q : Nat) (r : ExcRec) : State :=
  let x := s.queueD q
  let s1 := s.feWrite s.drvAsid (x.exq.toNat + 64 * (x.xprod % 2 ^ x.xlog)) (r.bytes q x.seq x.ovf)
  let s2 := s1.modQueue q fun x =>
    { x with xprod := (x.xprod + 1) % 2 ^ 32, seq := x.seq + 1, ovf := false
             waiting := if r.noans then x.waiting else x.waiting ++ [{ r with seq := x.seq }] }
  if r.last && !r.noans then
    s2.modWarp r.wid fun w => { w with table := w.table.map fun t =>
      if t.2.eff = .faulted ∧ t.2.lmask = r.lmask then
        (t.1, { t.2 with fault := t.2.fault.map fun f => f.named r.code x.seq })
      else t }
  else s2

/-- Post an exception record: held while the queue is full (15 R360). -/
def State.postExc (s : State) (q : Nat) (r : ExcRec) : State :=
  let x := s.queueD q
  if x.heldRecs.isEmpty ∧ ringCount x.xprod x.xcons < 2 ^ x.xlog then s.writeExc q r
  else s.modQueue q fun x => { x with heldRecs := x.heldRecs ++ [r], ovf := true }

/-- The exception record of a split (15 R360). -/
def State.excOf (s : State) (wid slot code : Nat) (info : Word) (pc : BitVec 48) (lmask : Lanes) (last : Bool) : ExcRec :=
  let w := s.warpD wid
  let b := s.blockD w.block
  { code := code, noans := false, launch := b.launch, info := info, pc := pc, lmask := lmask, slot := slot
    bx := b.bx, by_ := b.by_, bz := b.bz, wblk := w.wblk, pkg := b.pkg, die := b.die, core := b.core
    wid := wid, last := last, seq := 0 }

/-- Whether values of a split's span are still on their way from memory. -/
def Warp.awaits (w : Warp) (p : Split) : Bool := w.results.any fun q => q.2.mem && q.2.waits p

/-- Park a split FAULTED and post its record (02 R63, 07 R178): taking an exception. No register, tag, mask,
memory or counter changes. Where accesses of the span are under way, the record waits for them: should they fault, the split
parks once, with theirs (07 R179, log 46). -/
def State.raiseAt (s : State) (wid slot : Nat) (kind : FaultKind) (code : Nat) (info : Word) : State :=
  match s.split? wid slot with
  | none => s
  | some p =>
    let now := !(s.warpD wid).awaits p
    let s1 := (s.enterWait wid slot .faulted 0 0).modSplit wid slot fun p =>
      { p with fault := some ⟨kind, code, info, p.pc, noSeq, noSeq, now⟩ }
    if now then s1.postExc (s1.launchOf wid).queue (s1.excOf wid slot code info p.pc p.lmask true) else s1

/-- The issuer takes a precise fault; its instruction has `words` words. -/
def State.raise (s : State) (words code : Nat) (info : Word) : State :=
  s.raiseAt s.cur.1 s.cur.2 (.issue words) code info

/-- The cause bits of a failure record, in the places of the fence word (01 R31). -/
abbrev cbDlink : Nat := 1
abbrev cbRefused : Nat := 2
abbrev cbDpeer : Nat := 3
abbrev cbCohlost : Nat := 4
abbrev cbTagf : Nat := 5
abbrev cbSaved : Nat := 6

/-- Add failures to a record (01 R32). -/
def FailRec.add (r : FailRec) (causes : BitVec 8) (n pkg die : Nat) : FailRec :=
  { causes := r.causes ||| causes, count := min 65535 (r.count + n)
    pkg := if r.has then r.pkg else pkg, die := if r.has then r.die else die, has := r.has || n != 0 }

/-- A write of a warp has failed: it is added to the pending failure record, with SAVED during a save, or to the
block's retire record when the warp has ended (01 R32, 10 R273, 15 R368). -/
def State.reportFail (s : State) (wid : Nat) (causes : BitVec 8) (n pkg die : Nat) : State :=
  match s.warp? wid with
  | none => s
  | some w =>
    if w.ended then s.modBlock w.block fun b => { b with rrec := b.rrec.add causes n pkg die }
    else
      let c := if w.captured then causes ||| (1#8 <<< cbSaved) else causes
      s.modWarp wid fun w => { w with pfr := w.pfr.add c n pkg die }

/-- The record as a fence status word (01 R31). -/
def FailRec.word (r : FailRec) (scope : Nat) : Word :=
  BitVec.ofNat 64 ((if r.causes.toNat / 2 % 32 ≠ 0 then 1 else 0) + r.causes.toNat / 2 % 64 * 2 + scope * 2 ^ 8
    + r.count * 2 ^ 16 + r.pkg * 2 ^ 32 + r.die * 2 ^ 41)

/-- The usable limit of a block's local store (01 R27). -/
def Block.usable (b : Block) : Nat := b.alloc - 1536 * b.warps

/-- Local-store bytes. -/
def Block.lsRead (b : Block) (o n : Nat) : List Byte := (List.range n).map fun i => kgetD b.ls (o + i) 0

def Block.lsWrite (b : Block) (o : Nat) (l : List Byte) : Block :=
  { b with ls := kputs b.ls ((List.zip (List.range l.length) l).map fun p => (o + p.1, p.2)) }

def Block.isFull (b : Block) (g : Nat) : Bool := b.full.contains g
def Block.setFull (b : Block) (g : Nat) (v : Bool) : Block :=
  { b with full := if v then ninsert b.full g else b.full.filter (· != g) }

/-- Write local store and set full each granule touched (07 R186). -/
def Block.lsFill (b : Block) (o : Nat) (l : List Byte) : Block :=
  if l.isEmpty then b
  else ((List.range ((o + l.length - 1) / 16 + 1 - o / 16)).foldl (fun b i => b.setFull (o / 16 + i) true) (b.lsWrite o l))

end Sys2Proof.Machine
end

