-- ==== Sys2Proof/Machine/Scalar.lean ====
section
/-! DEFINITION. The scalar instructions (05 R100 to R110). A scalar instruction executes once, whatever the
effective mask, reads its sources at issue and raises no fault but those of SRD of LANE. -/

namespace Sys2Proof.Machine

/-- The outcome of an instruction or step. -/
abbrev Out := Host.Outcome State Fault Refusal

/-- IMM of an immediate form, sign-extended (02 R46). -/
def SFmtImm (f : SFmt) : Word := f.imm.signExtend 64

/-- A shift by a count; a count of 64 or more gives 0 or the sign (05 R102). -/
def sshlW (a b : Word) : Word := if b.toNat < 64 then a <<< b.toNat else 0
def sshrW (a b : Word) : Word := if b.toNat < 64 then a >>> b.toNat else 0
def ssraW (a b : Word) : Word := if b.toNat < 64 then a.sshiftRight b.toNat else (if a.msb then BitVec.allOnes 64 else 0)
def smulhW (a b : Word) : Word := BitVec.ofInt 64 (a.toInt * b.toInt / 2 ^ 64)
def smulhuW (a b : Word) : Word := BitVec.ofNat 64 (a.toNat * b.toNat / 2 ^ 64)

/-- Signed and unsigned division (05 R104): all ones for a divisor of 0; -2^63 / -1 wraps. -/
def sdivW (a b : Word) : Word := if b = 0 then BitVec.allOnes 64 else BitVec.ofInt 64 (a.toInt.tdiv b.toInt)
def sdivuW (a b : Word) : Word := if b = 0 then BitVec.allOnes 64 else BitVec.ofNat 64 (a.toNat / b.toNat)
def sminW (a b : Word) : Word := if a.toInt ≤ b.toInt then a else b
def smaxW (a b : Word) : Word := if a.toInt ≤ b.toInt then b else a
def sminuW (a b : Word) : Word := if a.toNat ≤ b.toNat then a else b
def smaxuW (a b : Word) : Word := if a.toNat ≤ b.toNat then b else a
def spopcW (a : Word) : Word := BitVec.ofNat 64 (popc a)

/-- Zero bits above the highest 1 bit (05 R102). -/
def clzOf {w : Nat} (a : BitVec w) : Nat := (((List.range w).reverse.find? fun i => a.getLsbD i).map fun i => w - 1 - i).getD w

/-- The compare conditions 0 to 5 of 02 R54 on integers. -/
def condHolds (c : Nat) (a b : Int) : Bool :=
  match c with
  | 0 => a == b
  | 1 => a != b
  | 2 => decide (a < b)
  | 3 => decide (a ≤ b)
  | 4 => decide (a > b)
  | _ => decide (a ≥ b)

/-- Bit fields (05 R107): position p, width n. -/
def bfxU (a : Word) (p n : Nat) : Word := BitVec.ofNat 64 (nbits a.toNat p n)
def bfxS (a : Word) (p n : Nat) : Word := ((a >>> p) <<< (64 - n)).sshiftRight (64 - n)
def bfiW (a b : Word) (p n : Nat) : Word :=
  let m := BitVec.ofNat 64 (2 ^ n - 1)
  (a &&& ~~~(m <<< p)) ||| ((b &&& m) <<< p)

/-- SADD (05 R102). -/
def execSadd (f : SFmt) (s : State) : Out :=
  let a := s.rdS f.sa.toNat
  let b := s.rdS f.sb.toNat
  .next (s.scalarOp f.sw f.sd.toNat 2 1 (a + b))

/-- SADD with an immediate (05 R102). -/
def execSaddImm (f : SFmt) (s : State) : Out :=
  let a := s.rdS f.sa.toNat
  let b := SFmtImm f
  .next (s.scalarOp f.sw f.sd.toNat 2 1 (a + b))

/-- SSUB (05 R102). -/
def execSsub (f : SFmt) (s : State) : Out :=
  let a := s.rdS f.sa.toNat
  let b := s.rdS f.sb.toNat
  .next (s.scalarOp f.sw f.sd.toNat 2 1 (a - b))

/-- SSUB with an immediate (05 R102). -/
def execSsubImm (f : SFmt) (s : State) : Out :=
  let a := s.rdS f.sa.toNat
  let b := SFmtImm f
  .next (s.scalarOp f.sw f.sd.toNat 2 1 (a - b))

/-- SMUL (05 R102). -/
def execSmul (f : SFmt) (s : State) : Out :=
  let a := s.rdS f.sa.toNat
  let b := s.rdS f.sb.toNat
  .next (s.scalarOp f.sw f.sd.toNat 4 1 (a * b))

/-- SMUL with an immediate (05 R102). -/
def execSmulImm (f : SFmt) (s : State) : Out :=
  let a := s.rdS f.sa.toNat
  let b := SFmtImm f
  .next (s.scalarOp f.sw f.sd.toNat 4 1 (a * b))

/-- SMULH (05 R102). -/
def execSmulh (f : SFmt) (s : State) : Out :=
  let a := s.rdS f.sa.toNat
  let b := s.rdS f.sb.toNat
  .next (s.scalarOp f.sw f.sd.toNat 4 1 (smulhW a b))

/-- SMULH with an immediate (05 R102). -/
def execSmulhImm (f : SFmt) (s : State) : Out :=
  let a := s.rdS f.sa.toNat
  let b := SFmtImm f
  .next (s.scalarOp f.sw f.sd.toNat 4 1 (smulhW a b))

/-- SAND (05 R102). -/
def execSand (f : SFmt) (s : State) : Out :=
  let a := s.rdS f.sa.toNat
  let b := s.rdS f.sb.toNat
  .next (s.scalarOp f.sw f.sd.toNat 2 1 (a &&& b))

/-- SAND with an immediate (05 R102). -/
def execSandImm (f : SFmt) (s : State) : Out :=
  let a := s.rdS f.sa.toNat
  let b := SFmtImm f
  .next (s.scalarOp f.sw f.sd.toNat 2 1 (a &&& b))

/-- SOR (05 R102). -/
def execSor (f : SFmt) (s : State) : Out :=
  let a := s.rdS f.sa.toNat
  let b := s.rdS f.sb.toNat
  .next (s.scalarOp f.sw f.sd.toNat 2 1 (a ||| b))

/-- SOR with an immediate (05 R102). -/
def execSorImm (f : SFmt) (s : State) : Out :=
  let a := s.rdS f.sa.toNat
  let b := SFmtImm f
  .next (s.scalarOp f.sw f.sd.toNat 2 1 (a ||| b))

/-- SXOR (05 R102). -/
def execSxor (f : SFmt) (s : State) : Out :=
  let a := s.rdS f.sa.toNat
  let b := s.rdS f.sb.toNat
  .next (s.scalarOp f.sw f.sd.toNat 2 1 (a ^^^ b))

/-- SXOR with an immediate (05 R102). -/
def execSxorImm (f : SFmt) (s : State) : Out :=
  let a := s.rdS f.sa.toNat
  let b := SFmtImm f
  .next (s.scalarOp f.sw f.sd.toNat 2 1 (a ^^^ b))

/-- SSHL (05 R102). -/
def execSshl (f : SFmt) (s : State) : Out :=
  let a := s.rdS f.sa.toNat
  let b := s.rdS f.sb.toNat
  .next (s.scalarOp f.sw f.sd.toNat 2 1 (sshlW a b))

/-- SSHL with an immediate (05 R102). -/
def execSshlImm (f : SFmt) (s : State) : Out :=
  let a := s.rdS f.sa.toNat
  let b := SFmtImm f
  .next (s.scalarOp f.sw f.sd.toNat 2 1 (sshlW a b))

/-- SSHR (05 R102). -/
def execSshr (f : SFmt) (s : State) : Out :=
  let a := s.rdS f.sa.toNat
  let b := s.rdS f.sb.toNat
  .next (s.scalarOp f.sw f.sd.toNat 2 1 (sshrW a b))

/-- SSHR with an immediate (05 R102). -/
def execSshrImm (f : SFmt) (s : State) : Out :=
  let a := s.rdS f.sa.toNat
  let b := SFmtImm f
  .next (s.scalarOp f.sw f.sd.toNat 2 1 (sshrW a b))

/-- SSRA (05 R102). -/
def execSsra (f : SFmt) (s : State) : Out :=
  let a := s.rdS f.sa.toNat
  let b := s.rdS f.sb.toNat
  .next (s.scalarOp f.sw f.sd.toNat 2 1 (ssraW a b))

/-- SSRA with an immediate (05 R102). -/
def execSsraImm (f : SFmt) (s : State) : Out :=
  let a := s.rdS f.sa.toNat
  let b := SFmtImm f
  .next (s.scalarOp f.sw f.sd.toNat 2 1 (ssraW a b))

/-- SMIN (05 R102). -/
def execSmin (f : SFmt) (s : State) : Out :=
  let a := s.rdS f.sa.toNat
  let b := s.rdS f.sb.toNat
  .next (s.scalarOp f.sw f.sd.toNat 2 1 (sminW a b))

/-- SMIN with an immediate (05 R102). -/
def execSminImm (f : SFmt) (s : State) : Out :=
  let a := s.rdS f.sa.toNat
  let b := SFmtImm f
  .next (s.scalarOp f.sw f.sd.toNat 2 1 (sminW a b))

/-- SMAX (05 R102). -/
def execSmax (f : SFmt) (s : State) : Out :=
  let a := s.rdS f.sa.toNat
  let b := s.rdS f.sb.toNat
  .next (s.scalarOp f.sw f.sd.toNat 2 1 (smaxW a b))

/-- SMAX with an immediate (05 R102). -/
def execSmaxImm (f : SFmt) (s : State) : Out :=
  let a := s.rdS f.sa.toNat
  let b := SFmtImm f
  .next (s.scalarOp f.sw f.sd.toNat 2 1 (smaxW a b))

/-- smulhU (05 R102). -/
def execSmulhU (f : SFmt) (s : State) : Out :=
  let a := s.rdS f.sa.toNat
  let b := s.rdS f.sb.toNat
  .next (s.scalarOp f.sw f.sd.toNat 4 1 (smulhuW a b))

/-- sminU (05 R102). -/
def execSminU (f : SFmt) (s : State) : Out :=
  let a := s.rdS f.sa.toNat
  let b := s.rdS f.sb.toNat
  .next (s.scalarOp f.sw f.sd.toNat 2 1 (sminuW a b))

/-- smaxU (05 R102). -/
def execSmaxU (f : SFmt) (s : State) : Out :=
  let a := s.rdS f.sa.toNat
  let b := s.rdS f.sb.toNat
  .next (s.scalarOp f.sw f.sd.toNat 2 1 (smaxuW a b))

/-- A division: its result after 34 clk; the warp slot's divider is busy until then (05 R101). -/
def State.divide (s : State) (f : SFmt) (q : Word) : State :=
  let k := s.curWarp.slotNo
  let ck := s.curBlock.ck
  (s.scalarOp f.sw f.sd.toNat 34 1 q).modCore ck fun c => { c with divs := kput c.divs k (s.clk + 34) }

/-- SDIV (05 R104). -/
def execSdiv (f : SFmt) (s : State) : Out :=
  .next (s.divide f (sdivW (s.rdS f.sa.toNat) (s.rdS f.sb.toNat)))

/-- SDIV with an immediate (05 R104). -/
def execSdivImm (f : SFmt) (s : State) : Out :=
  .next (s.divide f (sdivW (s.rdS f.sa.toNat) (SFmtImm f)))

/-- SDIV.u (05 R104). -/
def execSdivU (f : SFmt) (s : State) : Out :=
  .next (s.divide f (sdivuW (s.rdS f.sa.toNat) (s.rdS f.sb.toNat)))

/-- SMOV (05 R102). -/
def execSmov (f : SFmt) (s : State) : Out :=
  .next (s.scalarOp f.sw f.sd.toNat 2 1 (s.rdS f.sa.toNat))

/-- SMOV of an immediate (05 R102). -/
def execSmovImm (f : SFmt) (s : State) : Out :=
  .next (s.scalarOp f.sw f.sd.toNat 2 1 (SFmtImm f))

/-- SPOPC (05 R102). -/
def execSpopc (f : SFmt) (s : State) : Out :=
  .next (s.scalarOp f.sw f.sd.toNat 2 1 (spopcW (s.rdS f.sa.toNat)))

/-- SCLZ (05 R102). -/
def execSclz (f : SFmt) (s : State) : Out :=
  .next (s.scalarOp f.sw f.sd.toNat 2 1 (BitVec.ofNat 64 (clzOf (s.rdS f.sa.toNat))))

/-- SCMP (05 R105). -/
def execScmp (f : SFmt) (s : State) : Out :=
  let c := condHolds (nbits f.imm.toNat 0 3) (s.rdS f.sa.toNat).toInt (s.rdS f.sb.toNat).toInt
  .next (s.scalarOp f.sw f.sd.toNat 2 1 (if c then 1 else 0))

/-- SCMP.u (05 R105). -/
def execScmpU (f : SFmt) (s : State) : Out :=
  let c := condHolds (nbits f.imm.toNat 0 3) (s.rdS f.sa.toNat).toNat (s.rdS f.sb.toNat).toNat
  .next (s.scalarOp f.sw f.sd.toNat 2 1 (if c then 1 else 0))

/-- SSEL (05 R106). -/
def execSsel (f : SFmt) (s : State) : Out :=
  let c := s.rdS (nbits f.imm.toNat 0 6)
  .next (s.scalarOp f.sw f.sd.toNat 2 1 (if c ≠ 0 then s.rdS f.sa.toNat else s.rdS f.sb.toNat))

/-- SBFX (05 R107). -/
def execSbfx (f : SFmt) (s : State) : Out :=
  .next (s.scalarOp f.sw f.sd.toNat 2 1 (bfxS (s.rdS f.sa.toNat) (nbits f.imm.toNat 0 6) (nbits f.imm.toNat 6 7)))

/-- SBFX.u (05 R107). -/
def execSbfxU (f : SFmt) (s : State) : Out :=
  .next (s.scalarOp f.sw f.sd.toNat 2 1 (bfxU (s.rdS f.sa.toNat) (nbits f.imm.toNat 0 6) (nbits f.imm.toNat 6 7)))

/-- SBFI (05 R107). -/
def execSbfi (f : SFmt) (s : State) : Out :=
  let x := bfiW (s.rdS f.sa.toNat) (s.rdS f.sb.toNat) (nbits f.imm.toNat 0 6) (nbits f.imm.toNat 6 7)
  .next (s.scalarOp f.sw f.sd.toNat 2 1 x)

/-- SLEA (05 R102). -/
def execSlea (f : SFmt) (s : State) : Out :=
  .next (s.scalarOp f.sw f.sd.toNat 2 1 (s.rdS f.sa.toNat + (s.rdS f.sb.toNat <<< nbits f.imm.toNat 0 3)))

/-- SLDI (05 R108). -/
def execSldi (f : SFmt) (ext : Word) (s : State) : Out := .next (s.scalarOp f.sw f.sd.toNat 2 2 ext)

/-- CLK as a core reads it (01 R29, R30): the clk since its package's cold reset; each core's count lags by up to 4, always by the
same (log 13). -/
def State.clkRead (s : State) (ck : Nat) : Word := BitVec.ofNat 64 (s.clk - (s.pkg (ck / 6144)).cold - Config.clkSkew ck % 5)

/-- A special register as SRD lays it out (01 R28, R29). -/
def State.special (s : State) (n : Nat) : Word :=
  let w := s.curWarp
  let p := s.curSplit
  let b := s.curBlock
  let d := s.curLaunch.desc
  match n with
  | 1 => BitVec.ofNat 64 (w.widx + 2 ^ 8 * w.wblk)
  | 2 => BitVec.ofNat 64 (s.cur.2 % 8 + 2 ^ 8 * w.table.length + 2 ^ 32 * p.lmask.toNat)
  | 3 => BitVec.ofNat 64 (w.stage + 2 ^ 8 * b.nstg)
  | 4 => BitVec.ofNat 64 (b.bx + 2 ^ 32 * b.by_ + 2 ^ 48 * b.bz)
  | 5 => BitVec.ofNat 64 (d.gx + 2 ^ 32 * d.gy + 2 ^ 48 * d.gz)
  | 6 => BitVec.ofNat 64 (csizeOf d.kern.shape + 2 ^ 4 * d.kern.shape + 2 ^ 8 * b.rank + 2 ^ 16 * d.kern.fuse.toNat)
  | 7 => BitVec.ofNat 64 (b.core + 2 ^ 8 * w.part + 2 ^ 12 * w.half + 2 ^ 13 * w.wslot + 2 ^ 16 * (48 * b.die + b.core))
  | 8 => BitVec.ofNat 64 (b.die + 2 ^ 8 * dieX b.die + 2 ^ 12 * dieY b.die + 2 ^ 16 * bandOf b.die)
  | 9 => BitVec.ofNat 64 b.pkg
  | 10 => BitVec.ofNat 64 (b.pkg / 2 + 2 ^ 8 * (b.pkg % 2))
  | 11 => s.clkRead b.ck
  | 12 => w.seed
  | 13 => d.args
  | 14 => BitVec.ofNat 64 (b.usable + 2 ^ 32 * b.alloc)
  | 15 => w.fstat
  | _ => 0

/-- REGRANGE for a vector register at or above the budget (01 R14); INFO of 08 R237. -/
def regInfo (r budget : Nat) : Word := BitVec.ofNat 64 (r + 2 ^ 8 * (budget / 8))

/-- SRD (05 R109): a special register into a scalar, or the lane number into a vector register. -/
def execSrd (f : SFmt) (s : State) : Out :=
  let n := nbits f.imm.toNat 0 4
  if n = 0 then
    let vd := nbits f.imm.toNat 4 8
    if s.curWarp.budget ≤ vd then .next (s.raise 1 fcRegrange (regInfo vd s.curWarp.budget))
    else
      let m := s.effective 0
      .next ((s.putV vd 4 m ((lanesOf m).map fun l => (l, BitVec.ofNat 32 l)) 2).retire f.sw 4 1)
  else .next (s.scalarOp f.sw f.sd.toNat 2 1 (s.special n))

/-- SWR of SEED (05 R110), in issue order with the other users of SEED (04 R86). -/
def execSwr (f : SFmt) (s : State) : Out :=
  let x := s.rdS f.sa.toNat
  .next ((s.modCurWarp fun w => { w with seed := x }).retire f.sw 2 1)

end Sys2Proof.Machine
end

