-- ==== Sys2Proof/Machine/Operands.lean ====
section
/-! DEFINITION. Vector operands and the run of a vector instruction (06 R132 to R136): registers named, tags
checked, elements read and written. -/

namespace Sys2Proof.Machine

/-- A source of a vector instruction: a register, a pair, or a value that is the same in every lane (a scalar, 02 R44,
or an immediate, 02 R45). -/
inductive VOpd where
  | reg (r : Nat)
  | pair (r : Nat)
  | const (x : Nat)
  deriving DecidableEq, Repr

/-- The lane value of a source. -/
def State.opd (s : State) (elems : Nat) (o : VOpd) (l : Nat) : Nat :=
  match o with
  | .reg r => (s.rdV r l elems).toNat
  | .pair r => (s.rdPair r l).toNat
  | .const x => x

/-- Registers that an operand of a type names (01 R15). -/
def regsOf (ty r : Nat) : List Nat := if isPairTy ty then [r, r + 1] else [r]

/-- A tag check: register, tags that pass, type reported (01 R23). -/
abbrev TagCheck := Nat × List Nat × Nat

/-- The checks of an operand of a type; RAW is not checked (06 R134). -/
def checkOf (ty r : Nat) : List TagCheck :=
  if ty = 0 then [] else if isPairTy ty then [(r, [0, ty], ty), (r + 1, [0, 15], ty)] else [(r, [0, ty], ty)]

/-- The checks of an index or amount register, which may hold I32, N32 or RAW (02 R48, 06 R163). -/
def checkIndex (r : Nat) : List TagCheck := [(r, [0, 1, 2], 1)]

/-- The fault of a vector instruction before it does anything (06 R132): REGRANGE, then FMTTAG. -/
def State.vecFault (s : State) (regs : List Nat) (rawok : Bool) (chk : List TagCheck) : Option (Nat × Word) :=
  let b := s.curWarp.budget
  match regs.find? fun r => b ≤ r with
  | some r => some (fcRegrange, regInfo r b)
  | none =>
    if rawok then none
    else
      match chk.find? fun c => !c.2.1.contains (s.tagOfReg c.1).toNat with
      | some c => some (fcFmttag, BitVec.ofNat 64 (c.1 + 2 ^ 8 * (s.tagOfReg c.1).toNat + 2 ^ 12 * c.2.2))
      | none => none

/-- mix64 (04 R85). -/
def mix64 (z : Word) : Word :=
  let z := (z ^^^ (z >>> 30)) * 0xBF58476D1CE4E5B9
  let z := (z ^^^ (z >>> 27)) * 0x94D049BB133111EB
  z ^^^ (z >>> 31)

/-- SEED advances once for an instruction with RM = 5 (04 R85). -/
def State.advanceSeed (s : State) : State := s.modCurWarp fun w => { w with seed := w.seed + 0x9E3779B97F4A7C15 }

/-- The random bits of a lane (04 R85), SEED having advanced. -/
def State.rnd64 (s : State) (l : Nat) : Nat := (mix64 (s.curWarp.seed + BitVec.ofNat 64 (l * 0xD1B54A32D192ED03))).toNat

/-- A vector instruction (06 R132): its faults, the advance of SEED, its effect, and its retirement. -/
def State.runVec (s : State) (sw seed : Bool) (regs : List Nat) (rawok : Bool) (chk : List TagCheck) (lat : Nat)
    (eff : State → State) : Out :=
  match s.vecFault regs rawok chk with
  | some (c, i) => .next (s.raise 1 c i)
  | none => .next ((eff (if seed then s.advanceSeed else s)).retire sw lat 1)

/-- The width of an element of a type (06 R133). -/
def elemBits (ty : Nat) : Nat := if isPairTy ty then 64 else 32 / elemCount ty

/-- Element e of a lane value (06 R133). -/
def elemAt (ty x e : Nat) : Nat := nbits x (elemBits ty * e) (elemBits ty)

/-- A lane value made of its elements. -/
def packElems (ty : Nat) (g : Nat → Nat) : Nat :=
  (List.range (elemCount ty)).foldl (fun a e => a + g e % 2 ^ elemBits ty * 2 ^ (elemBits ty * e)) 0

/-- Write lane values to a register or pair with the tag of a type (06 R134). -/
def State.putTyped (s : State) (vd ty lat : Nat) (m : Lanes) (vals : List (Nat × Nat)) : State :=
  if isPairTy ty then s.putPair vd lat m (vals.map fun p => (p.1, BitVec.ofNat 64 p.2)) (BitVec.ofNat 4 ty)
  else s.putV vd lat m (vals.map fun p => (p.1, BitVec.ofNat 32 p.2)) (BitVec.ofNat 4 ty)

/-- An element-wise operation on the active lanes: `g` gives element e of lane l from the source elements. -/
def State.elemOp (s : State) (mk vd ty lat : Nat) (src : List VOpd) (g : Nat → Nat → List Nat → Nat) : State :=
  let m := s.effective mk
  s.putTyped vd ty lat m ((lanesOf m).map fun l =>
    let xs := src.map fun o => s.opd (elemCount ty) o l
    (l, packElems ty fun e => g l e (xs.map fun x => elemAt ty x e)))

/-- The source named by VA. -/
def opA (f : AFmt) : VOpd := if isPairTy f.ty.toNat then .pair f.va.toNat else .reg f.va.toNat

/-- A scalar source: bits 31:0 of it, or all 64 for a 64-bit type (02 R44). -/
def State.scalarOpd (s : State) (ty r : Nat) : VOpd :=
  .const (if isPairTy ty then (s.rdS r).toNat else (s.rdS r).toNat % 2 ^ 32)

/-- The source named by VB, or the scalar under SCB. -/
def State.opB (s : State) (f : AFmt) : VOpd :=
  if f.flag flScb then s.scalarOpd f.ty.toNat (f.vb.toNat % 64)
  else if isPairTy f.ty.toNat then .pair f.vb.toNat else .reg f.vb.toNat

/-- The source named by VC, one register, or the scalar under SCC. -/
def State.opC (s : State) (f : AFmt) : VOpd :=
  if f.flag flScc then s.scalarOpd 2 (f.vc.toNat % 64) else .reg f.vc.toNat

/-- Registers and checks of VB as an operand of a type, none under SCB. -/
def regsB (f : AFmt) (ty : Nat) : List Nat := if f.flag flScb then [] else regsOf ty f.vb.toNat
def chkB (f : AFmt) (ty : Nat) : List TagCheck := if f.flag flScb then [] else checkOf ty f.vb.toNat
def regsC (f : AFmt) (ty : Nat) : List Nat := if f.flag flScc then [] else regsOf ty f.vc.toNat
def chkC (f : AFmt) (ty : Nat) : List TagCheck := if f.flag flScc then [] else checkOf ty f.vc.toNat
def rawokOf (f : AFmt) : Bool := f.flag flRawok

end Sys2Proof.Machine
end

