-- ==== Sys2Proof/Machine/Splits.lean ====
section
/-! DEFINITION. The split table at run time: division (05 R114, R115), join groups (R113, R120, R121), REGANG
gatherings (R130), merging at issue boundaries (09 R247), the overflow area (R246) and age (01 R36). -/

namespace Sys2Proof.Machine

/-- Split a is older than split b (01 R36); equal AGE values are ordered by slot. -/
def olderThan (a b : Nat × BitVec 16) : Bool :=
  let d := (b.2 - a.2).toNat
  if d = 0 then decide (a.1 < b.1) else decide (1 ≤ d ∧ d ≤ 32767)

/-- The oldest of a list of splits, by table key and AGE. -/
def oldestOf : List (Nat × Split) → Option (Nat × Split)
  | [] => none
  | a :: r =>
    match oldestOf r with
    | none => some a
    | some b => if olderThan (b.1, b.2.age) (a.1, a.2.age) then some b else some a

/-- The youngest of a list of splits. -/
def youngestOf : List (Nat × Split) → Option (Nat × Split)
  | [] => none
  | a :: r =>
    match youngestOf r with
    | none => some a
    | some b => if olderThan (a.1, a.2.age) (b.1, b.2.age) then some b else some a

/-- Slots that a fill has reserved (09 R246). -/
def Warp.reserved (w : Warp) (t : Nat) : Bool := w.moves.any fun m => m.2.1 == t

/-- The lowest free slot, or else the lowest free overflow entry (05 R115). -/
def Warp.freePlace (w : Warp) : Option Nat :=
  ((List.range 32).find? fun t => (kget? w.table t).isNone && !(t < 8 && w.reserved t))

/-- Place a new split (05 R115): DORMANT with HELD its state when only the overflow area has room. Where fills have reserved the
last free slots, the split takes such a slot and the fill is given up (01 R33: a place is always found; log 49). -/
def Warp.place (w : Warp) (p : Split) : Warp × Option Nat :=
  match w.freePlace with
  | none =>
    match w.moves.find? fun m => (kget? w.table m.2.1).isNone with
    | none => (w, none)
    | some (o, t, _) =>
      ({ w with moves := kdel w.moves o
                table := kput (kmod w.table o fun q => { q with moving := false }) t { p with age := w.epoch } }, some t)
  | some t =>
    let q := if t < 8 then p else { p with st := .dormant, held := p.st }
    ({ w with table := kput w.table t { q with age := w.epoch } }, some t)

/-- A part of a divergent transfer: its target, its lanes, and whether its span ends. -/
structure Part where
  pc    : BitVec 48
  lanes : Lanes
  ends  : Bool
  deriving DecidableEq, Repr

/-- Place one part of the issuer (05 R114, R115): the first in the issuer's slot. A part in the overflow area is DORMANT with HELD
READY whatever results it still awaits; the end of its span takes effect once it is resident (09 R245; log 27). -/
def State.dividePart (s : State) (wid slot : Nat) (parent : Split) (lat : Nat) (jgrp : BitVec 5) (jpc : BitVec 48)
    (first : Bool) (q : Part) : State :=
  let p : Split :=
    { parent with pc := q.pc, lmask := q.lanes, jgrp := jgrp, jpc := jpc, len := parent.len + 1
                  rdy := max parent.rdy (s.clk + lat), notBefore := s.clk + lat, yield := false }
  if first then
    let s1 := s.modSplit wid slot fun _ => p
    if q.ends then s1.endSpan wid slot else s1
  else
    match s.warp? wid with
    | none => s
    | some w =>
      match w.place p with
      | (_, none) => s
      | (w1, some t) =>
        let s1 := s.modWarp wid fun _ => w1
        if !q.ends then s1
        else if t < 8 then s1.endSpan wid t
        else s1.modSplit wid t fun p => { p with after := .ended }

/-- Divide the issuer by a list of parts, two or more, in ascending order of their lowest lane. -/
def State.divideAll (s : State) (wid slot : Nat) (parent : Split) (lat : Nat) (jgrp : BitVec 5) (jpc : BitVec 48)
    : Bool → List Part → State
  | _, [] => s
  | first, q :: r => (s.dividePart wid slot parent lat jgrp jpc first q).divideAll wid slot parent lat jgrp jpc false r

/-- The PC that an offset in words gives (05 R111). -/
def pcPlus {n : Nat} (pc : BitVec 48) (ofs : BitVec n) : BitVec 48 := pc + ofs.signExtend 48

/-! ## Join groups -/

/-- Whether a split waits in JOIN (and not in REGANG) at its join PC. -/
def Split.inJoin (p : Split) : Bool := p.eff == .joinWait && !p.wobj.msb && p.pc == p.jpc

/-- Whether a split waits in REGANG. -/
def Split.inRegang (p : Split) : Bool := p.eff == .joinWait && p.wobj.msb

/-- The JOFS of the JOIN word a split waits at. -/
def Split.joinOfs (p : Split) : BitVec 16 := match p.after with | .join _ o => o | _ => 0

/-- The members of a join group (05 R113). -/
def Warp.groupOf (w : Warp) (g : BitVec 5) (j : BitVec 48) : List (Nat × Split) :=
  w.table.filter fun t => t.2.jgrp == g && t.2.jpc == j

/-- Merge splits into the first place of the list, which has the lowest key (05 R120, R130). A mark of YIELD stays when that split has it; the
others' go (05 R125 does not say: DESIGN CHOICE, log 42). -/
def State.mergeAt (s : State) (wid : Nat) (l : List (Nat × Split)) (pc : BitVec 48) (jgrp : BitVec 5) (jpc : BitVec 48)
    (notBefore : Nat) : State :=
  match l with
  | [] => s
  | (t, p) :: r =>
    let lanes := l.foldl (fun a q => a ||| q.2.lmask) 0
    let age := ((oldestOf l).map fun q => q.2.age).getD p.age
    let one : Split :=
      { p with lmask := lanes, age := age, pc := pc, jgrp := jgrp, jpc := jpc, wobj := 0, waux := 0
               halted := l.all fun q => q.2.halted }
    let s1 := s.modWarp wid fun w => { w with table := kput (r.foldl (fun m q => kdel m q.1) w.table) t one }
    s1.freshReady wid t notBefore

/-- Release a join group when every member waits at the join (05 R120): JOIN_GROUP_RELEASE. -/
def State.joinCheck (s : State) (wid : Nat) (g : BitVec 5) (j : BitVec 48) : State :=
  match s.warp? wid with
  | none => s
  | some w =>
    match w.groupOf g j with
    | [] => s
    | (t, p) :: r =>
      if g ≠ 0 ∧ ((t, p) :: r).all fun q => q.2.inJoin then
        s.mergeAt wid ((t, p) :: r) (j + 1) (g - 1) (if g - 1 = 0 then 0 else pcPlus j p.joinOfs) (s.clk + 4)
      else s

/-! ## Transfers -/

/-- A transfer of control of the issuer to its parts (05 R112, R114). One part: the split moves whole. Several: it
divides, or takes JDEPTH at nesting depth 31. A split that divides into a deeper group leaves its own, which releases when all
that remain in it wait (R113, R120; log 43). -/
def State.transfer (s : State) (sw : Bool) (lat : Nat) (jofs : BitVec 16) (parts : List (BitVec 48 × Lanes)) : State :=
  let p := s.curSplit
  let ends (t : BitVec 48) : Bool := t != p.pc + 1 || spanEnds sw p
  match parts with
  | [] => s
  | [(t, _)] =>
    if ends t then s.jumpTo t lat
    else { s with free := s.free + 1 }.modCur fun p =>
      { p with pc := t, len := p.len + 1, rdy := max p.rdy (s.clk + lat), notBefore := s.clk + lat }
  | _ =>
    if jofs ≠ 0 ∧ p.jgrp = 31 then s.raise 1 fcJdepth 0
    else
      let jgrp := if jofs = 0 then p.jgrp else p.jgrp + 1
      let jpc := if jofs = 0 then p.jpc else pcPlus p.pc jofs
      let l := sortBy (fun q => ffs q.2) parts
      let s1 := { s with free := s.free + 1 }.divideAll s.cur.1 s.cur.2 p lat jgrp jpc true
        (l.map fun (q : BitVec 48 × Lanes) => ⟨q.1, q.2, ends q.1⟩)
      if jofs = 0 then s1 else s1.joinCheck s.cur.1 p.jgrp p.jpc

/-- Lanes grouped by target (05 R118). -/
def groupTargets (l : List (Nat × BitVec 48)) : List (BitVec 48 × Lanes) :=
  l.foldl (fun acc p =>
    if acc.any fun q => q.1 == p.2 then acc.map fun q => if q.1 = p.2 then (q.1, q.2 ||| (1#32 <<< p.1)) else q
    else acc ++ [(p.2, 1#32 <<< p.1)]) []

/-! ## Bounds of joins -/

/-- A bounded join member leaves its group alone (05 R121). -/
def State.joinExpire (s : State) (wid slot : Nat) : State :=
  match s.split? wid slot with
  | none => s
  | some p =>
    let g := p.jgrp
    let j := p.jpc
    ((s.modSplit wid slot fun p =>
      { p with jgrp := g - 1, jpc := if g - 1 = 0 then 0 else pcPlus j p.joinOfs }).wake wid slot (s.clk + 4)).joinCheck wid g j

/-! ## REGANG gatherings -/

/-- The splits that wait in REGANG at a PC. -/
def Warp.gathering (w : Warp) (pc : BitVec 48) : List (Nat × Split) := w.table.filter fun t => t.2.inRegang && t.2.pc == pc

/-- The first arrival of a gathering. -/
def firstArrival (l : List (Nat × Split)) : Option (Nat × Split) := leastBy (fun q => q.2.arr) l

/-- Release a gathering: every waiter merges (05 R130). -/
def State.regangRelease (s : State) (wid : Nat) (pc : BitVec 48) : State :=
  match s.warp? wid with
  | none => s
  | some w =>
    let l := w.gathering pc
    match firstArrival l with
    | none => s
    | some (_, f) =>
      let s1 := s.mergeAt wid l (pc + 1) f.jgrp f.jpc (s.clk + 4)
      -- members merged out of their own join groups leave them, and those groups go on without them
      l.foldl (fun s q => s.joinCheck wid q.2.jgrp q.2.jpc) s1

/-- Release a gathering whose awaited lanes have all arrived (05 R130): REGANG_RELEASE. -/
def State.regangCheck (s : State) (wid : Nat) (pc : BitVec 48) : State :=
  match s.warp? wid with
  | none => s
  | some w =>
    let l := w.gathering pc
    match firstArrival l with
    | none => s
    | some (_, f) =>
      let need := f.wobj.setWidth 32 &&& w.liveLanes
      let here := l.foldl (fun a q => a ||| q.2.lmask) 0
      if need &&& ~~~here = 0 then s.regangRelease wid pc else s

/-- The clk of a bound: WAUX of the bounded waits of a resident warp counts down (05 R121, R130). -/
def Split.tickBound (p : Split) : Split :=
  match p.after with
  | .join b _ => if b < 2 ^ 32 - 1 ∧ p.waux ≠ 0 then { p with waux := p.waux - 1 } else p
  | .regang .. => if p.inRegang ∧ p.waux ≠ 0 then { p with waux := p.waux - 1 } else p
  | _ => p

/-! ## Merging at issue boundaries -/

/-- At an issue boundary, and neither filled nor swapped (09 R247). -/
def Split.atBoundary (p : Split) : Bool := p.st == .ready && p.len == 0 && !p.moving

/-- Merge the resident splits of a warp that share PC, JGRP and JPC at an issue boundary (09 R247); `n` rounds. A split that R112
or R239 still holds back takes no part, as the example at the end of 05 shows. Splits that a halt request has stopped merge among
themselves alone (09 R250; log 43). The marks of YIELD of all but the lowest member are dropped (log 42). -/
def State.mergeBoundary (s : State) (wid : Nat) : Nat → State
  | 0 => s
  | n + 1 =>
    match s.warp? wid with
    | none => s
    | some w =>
      let l := w.table.filter fun t => t.1 < 8 && t.2.atBoundary && decide (t.2.notBefore ≤ s.clk)
      match l.find? fun a => l.any fun b =>
          a.1 < b.1 && a.2.pc == b.2.pc && a.2.jgrp == b.2.jgrp && a.2.jpc == b.2.jpc && a.2.halted == b.2.halted with
      | none => s
      | some a =>
        let m := l.filter fun b => b.2.pc == a.2.pc && b.2.jgrp == a.2.jgrp && b.2.jpc == a.2.jpc && b.2.halted == a.2.halted
        let nb := m.foldl (fun x q => max x q.2.notBefore) 0
        (s.mergeAt wid m a.2.pc a.2.jgrp a.2.jpc nb).mergeBoundary wid n

/-! ## The overflow area -/

/-- Start a fill of a free slot (09 R246): the oldest dormant split with HELD READY, or the oldest. -/
def State.startFill (s : State) (wid : Nat) : State :=
  match s.warp? wid with
  | none => s
  | some w =>
    match (List.range 8).find? fun t => (kget? w.table t).isNone && !w.reserved t with
    | none => s
    | some t =>
      let d := w.table.filter fun q => 8 ≤ q.1 && !q.2.moving
      let r := d.filter fun q => q.2.held == .ready
      match oldestOf (if r.isEmpty then d else r) with
      | none => s
      | some (o, _) =>
        s.modWarp wid fun w =>
          { w with moves := kput w.moves o (t, s.clk + 32), table := kmod w.table o fun p => { p with moving := true } }

/-- Whether a resident split is in a parked state (09 R246). -/
def Split.parked (p : Split) : Bool :=
  p.st == .lockWait || p.st == .barWait || p.st == .cntWait || p.st == .joinWait || p.st == .feWait || p.st == .faulted

/-- The resident candidate of a swap (09 R246). -/
def Warp.swapCandidate (w : Warp) : Option (Nat × Split) :=
  let r := w.table.filter fun q => q.1 < 8 && !q.2.moving
  let k := r.filter fun q => q.2.parked
  if k.isEmpty then youngestOf (r.filter fun q => q.2.atBoundary) else youngestOf k

/-- Whether the overflow area holds a split that a swap can bring in (09 R246). -/
def Warp.swapDue (w : Warp) : Bool := w.table.any fun q => decide (8 ≤ q.1) && !q.2.moving && q.2.held == .ready

/-- Start the pending swap of a warp (09 R246). -/
def State.startSwap (s : State) (wid : Nat) : State :=
  match s.warp? wid with
  | none => s
  | some w =>
    if !w.swapPend then s
    else
      match oldestOf (w.table.filter fun q => 8 ≤ q.1 && !q.2.moving && q.2.held == .ready) with
      | none => s.modWarp wid fun w => { w with swapPend := false }
      | some (o, _) =>
        match w.swapCandidate with
        | none => s
        | some (t, _) =>
          s.modWarp wid fun w =>
            { w with
              swapPend := false
              moves := kput w.moves o (t, s.clk + 32)
              table := kmod (kmod w.table o fun p => { p with moving := true, age := w.epoch }) t
                fun p => { p with moving := true, age := w.epoch } }

/-- The moves of a warp whose 32 clk have passed (09 R246); `fill` selects fills into free slots. -/
def Warp.finishMoves (w : Warp) (clk : Nat) (fill : Bool) : Warp :=
    w.moves.foldl (fun w m =>
      let o := m.1
      let t := m.2.1
      if clk < m.2.2 then w
      else
        match kget? w.table o, kget? w.table t with
        | some a, none =>
          if fill then
            { w with moves := kdel w.moves o
                     table := kput (kdel w.table o) t { a with st := a.held, held := .ready, age := w.epoch, moving := false } }
          else w
        | some a, some b =>
          if fill then w
          else
            { w with moves := kdel w.moves o
                     table := kput (kput w.table t { a with st := a.held, held := .ready, moving := false }) o
                       { b with st := .dormant, held := b.st, moving := false } }
        | none, _ => { w with moves := kdel w.moves o }) w

/-- Complete the fills or the swaps of a warp (09 R246). A READY split that comes in with an ended span parks while it awaits
results (09 R239). -/
def State.finishMoves (s : State) (wid : Nat) (fill : Bool) : State :=
  let s1 := s.modWarp wid fun w => w.finishMoves s.clk fill
  ((s1.warpD wid).table.filter fun t => decide (t.1 < 8) && t.2.st == .ready && t.2.after == .ended).foldl
    (fun s t => s.endSpan wid t.1) s1

end Sys2Proof.Machine
end

