-- ==== Sys2Proof/Machine/Path.lean ====
section
/-! DEFINITION. The way of a request from its core to the copy that serves it: order of accesses (11 R297, R301),
copies (R282 to R287), routing through the placement cache (16 R378), and the state met at the home (16 R379 to R381). -/

namespace Sys2Proof.Machine

/-! ## Lines and copies -/

/-- The leaf of an address in a package's replica. -/
def State.leafAt (s : State) (pkg asid va : Nat) : Option Word := (s.walk pkg asid va).map Prod.fst

/-- The grain of an address; 32 where no leaf maps it. -/
def State.grainAt (s : State) (pkg asid va : Nat) : Nat := match s.leafAt pkg asid va with | some e => leafGrain e | none => 32

/-- The first address of the line of an address (11 R283). -/
def lineBase (va grain : Nat) : Nat := va % 2 ^ 57 / grain * grain

/-- Keys of copies and their places (State.lean). -/
def copyKey (place asid blk : Nat) : Nat := place * 2 ^ 64 + asid * 2 ^ 48 + blk
def l1Place (ck : Nat) : Nat := 2 * ck
def farPlace (dk : Nat) : Nat := 2 * dk + 1

/-- Whether a copy lies on a die. -/
def Copy.onDie (c : Copy) (dk : Nat) : Bool := if c.place % 2 = 1 then c.place / 2 == dk else c.place / 2 / 48 == dk
def Copy.isL1 (c : Copy) : Bool := c.place % 2 == 0

/-- The core whose L1 holds a block of addresses for a warp (11 R284). -/
def State.l1Core (s : State) (wid asid va : Nat) : Nat :=
  let b := s.blockOf wid
  let k := (s.launchD b.launch).desc.kern
  if k.fuse then 48 * b.dk + siteCore k.shape (b.origin k.shape) ((blkOf va + asid) % csizeOf k.shape) else b.ck

def State.copy? (s : State) (place asid va : Nat) : Option Copy := kget? s.copies (copyKey place asid (blkOf va))

/-- Sector of an address in its block. -/
def sectorOf (va : Nat) : Nat := va % 512 / 32

/-- Whether a copy holds the sector of an address. -/
def Copy.has (c : Copy) (va : Nat) : Bool := c.valid.getLsbD (sectorOf va)

/-- Whether a copy can serve some bytes of a sector: the sector is valid, or the core wrote each of them (11 R293). -/
def Copy.covers (c : Copy) (va n : Nat) : Bool := c.has va || (List.range n).all fun i => c.dirty.contains (va % 512 + i)

/-- Bytes of a copy. -/
def Copy.read (c : Copy) (va n : Nat) : List Byte := (List.range n).map fun i => kgetD c.data (va % 512 + i) 0

/-- Bytes with their offsets in the block of an address. -/
def placed (va : Nat) (l : List Byte) : List (Nat × Byte) := (List.zip (List.range l.length) l).map fun p => (va % 512 + p.1, p.2)

/-- The sectors of a block all of whose bytes, or some of whose bytes, have offsets in a list. -/
def wholeSectors (l : List Nat) : BitVec 16 :=
  BitVec.ofNat 16 ((List.range 16).foldl (fun a i => if (List.range 32).all fun j => l.contains (32 * i + j) then a + 2 ^ i else a) 0)
def someSectors (l : List Nat) : BitVec 16 := l.foldl (fun m o => m ||| (1#16 <<< (o / 32))) 0

/-- Put bytes at offsets into a copy; poison stays but in the sectors that they fill (17 R402). -/
def Copy.putBytes (c : Copy) (l : List (Nat × Byte)) : Copy :=
  { c with data := kputs c.data l, poison := if c.poison = 0 then 0 else c.poison &&& ~~~(wholeSectors (l.map (·.1))) }

/-- Put bytes into a copy. -/
def Copy.write (c : Copy) (va : Nat) (l : List Byte) : Copy := c.putBytes (placed va l)

/-- The dirty bytes of a copy by offset, those of some offsets, and the poison of their sectors. -/
def Copy.dirtyBytes (c : Copy) (sel : Nat → Bool) : List (Nat × Byte) × BitVec 16 :=
  let l := c.dirty.filter sel
  (l.map fun o => (o, kgetD c.data o 0), c.poison &&& someSectors l)

/-- Whether the memory tag of an access matches in a copy (16 R376); the tag found. -/
def Copy.tagFound (c : Copy) (va : Nat) : Nat := (kgetD c.tags (sectorOf va) 0).toNat
def Copy.tagOk (c : Copy) (va : Word) : Bool := !c.te || c.tagFound va.toNat == wf va 60 4

/-- Drop one sector of a copy; dirty bytes stay. -/
def State.dropSector (s : State) (key va : Nat) : State :=
  { s with copies := kmod s.copies key fun c => { c with valid := c.valid &&& ~~~(1#16 <<< sectorOf va) } }

/-- Whether a byte of a copy's block lies in the line of an address. -/
def Copy.inLine (c : Copy) (va grain o : Nat) : Bool := (c.blk * 512 + o) / grain == va % 2 ^ 57 / grain

/-- Drop the clean and dirty sectors of a line from a copy. -/
def Copy.dropLine (c : Copy) (va grain : Nat) : Copy :=
  { c with
    valid := BitVec.ofNat 16 ((List.range 16).foldl (fun a i => if c.valid.getLsbD i ∧ !c.inLine va grain (32 * i) then a + 2 ^ i else a) 0)
    dirty := c.dirty.filter fun o => !c.inLine va grain o }

/-- Whether a copy holds a sector of a line. -/
def Copy.hasLine (c : Copy) (va grain : Nat) : Bool := (List.range 16).any fun i => c.valid.getLsbD i && c.inLine va grain (32 * i)

/-- Drop a line from the copies that a test selects. -/
def State.dropLineWhere (s : State) (asid va grain : Nat) (sel : Copy → Bool) : State :=
  { s with copies := s.copies.map fun p =>
      if p.2.asid = asid ∧ p.2.blk = blkOf va ∧ sel p.2 then (p.1, p.2.dropLine va grain) else p }

/-- The lease of the line of an address in a copy (11 R283, R287): its logical end, and the clk of its grant. -/
def Copy.lease (c : Copy) (va : Nat) : Nat × Nat := kgetD c.leases (va % 512 / c.grain) (0, 0)

/-- Drop the lines of a copy whose lease has ended at a logical time. -/
def Copy.expire (c : Copy) (t : Nat) : Copy :=
  (List.range (512 / c.grain)).foldl (fun x i =>
    if (kgetD c.leases i (0, 0)).1 ≤ t then x.dropLine (512 * c.blk + c.grain * i) c.grain else x) c

/-! ## Room -/

/-- Place of a tag block in the home region of a die. -/
def homeKey (dk asid blk : Nat) : Nat := dk * 2 ^ 64 + asid * 2 ^ 48 + blk

/-- The leaf under which the home region of a die holds a block, else the one given (16 R379). -/
def State.homeLeaf (s : State) (dk asid blk : Nat) (leaf : Word) : Word :=
  match kget? s.homes (homeKey dk asid blk) with | some h => h.leaf | none => leaf

/-- The package of a copy's place, and its die. -/
def Copy.dk (c : Copy) : Nat := if c.isL1 then c.place / 2 / 48 else c.place / 2

/-- The die of the anchor copies of lines homed on a die, in a reading package (11 R285). -/
def State.anchorDie (s : State) (pkg hdie : Nat) : Option Nat :=
  if s.dieLive (128 * pkg + hdie) then some hdie else s.nearestLive pkg hdie

/-- The place of that anchor copy. -/
def State.anchorPlaces (s : State) (pkg hpkg hdie : Nat) : List Nat :=
  if pkg = hpkg then [] else match s.anchorDie pkg hdie with | some a => [farPlace (128 * pkg + a)] | none => []

/-- The place one level below a copy on its way home (11 R293), none for the home copy; and the home die. -/
def State.below (s : State) (c : Copy) : Option Nat × Nat :=
  let pkg := c.dk / 128
  match s.homeOf pkg c.asid c.leaf (512 * c.blk) with
  | none => (none, 128 * pkg)
  | some (hp, hd) =>
    let home := 128 * hp + hd
    if c.isL1 then (if c.dk = home then none else some (farPlace c.dk), home)
    else ((s.anchorPlaces pkg hp hd).find? (· != c.place), home)

/-- The copies that share room with a tag block of a place: those of the L1, or of the far region of its slice (11 R282, R285). -/
def State.rivals (s : State) (place asid blk : Nat) : List (Nat × Copy) :=
  s.copies.filter fun q => q.2.place == place && (place % 2 == 0 || sliceOf q.2.asid q.2.blk == sliceOf asid blk)

/-- Tag blocks of an L1, and of the far region of a slice. -/
def roomOf (place : Nat) : Nat := if place % 2 = 0 then 2048 else 128

/-- The entry that is given up for room: one of those that go first (02 R58). -/
def victimOf {α : Type} (clk place : Nat) (prio : α → Nat) (l : List (Nat × α)) : Option (Nat × α) :=
  let low := l.foldl (fun m q => min m (prio q.2)) 2
  let first := l.filter fun q => prio q.2 == low
  first[Config.victim clk place % first.length]?

/-- The entry that must go before a place can take a tag block. -/
def State.outgoing (s : State) (place asid blk : Nat) : Option (Nat × Copy) :=
  if (kget? s.copies (copyKey place asid blk)).isSome then none
  else
    let l := s.rivals place asid blk
    if l.length < roomOf place then none else victimOf s.clk place Copy.prio l

/-- A tag block with nothing in it. -/
def newCopy (place asid blk : Nat) (leaf : Word) : Copy :=
  { place := place, asid := asid, blk := blk, leaf := leaf, valid := 0, data := [], dirty := [], poison := 0, tags := [], leases := []
    prio := 1 }

/-- Write bytes of a block at its home copy, with the poison of their sectors (17 R402). -/
def State.writeHome (s : State) (asid blk : Nat) (leaf : Word) (home : Nat) (d : List (Nat × Byte) × BitVec 16) : State :=
  let key (o : Nat) : Nat := frameKey home (s.homeLeaf home asid blk leaf) (512 * blk + o)
  let whole := wholeSectors (d.1.map (·.1))
  { s with
    mem := d.1.foldl (fun m q => memPut m (key q.1) q.2) s.mem
    memPoison := (List.range 16).foldl (fun m i =>
      if d.2.getLsbD i then ninsert m (key (32 * i) / 32)
      else if whole.getLsbD i then m.filter (· != key (32 * i) / 32) else m) s.memPoison }

/-- Dirty bytes of a block, with the poison of their sectors, go into a place, or into the home copy (11 R293, 17 R402); what has to make
room goes one level down in its turn. No path has more levels than `fuel`. -/
def State.putDirty (s : State) (fuel : Nat) (place : Option Nat) (asid blk : Nat) (leaf : Word) (home : Nat)
    (l : List (Nat × Byte) × BitVec 16) : State :=
  match fuel, place with
  | n + 1, some pl =>
    let s1 := match s.outgoing pl asid blk with
      | none => s
      | some (k, v) =>
        let down := s.below v
        { s with copies := kdel s.copies k }.putDirty n down.1 v.asid v.blk v.leaf down.2 (v.dirtyBytes fun _ => true)
    let old := (kget? s1.copies (copyKey pl asid blk)).getD (newCopy pl asid blk leaf)
    let put := old.putBytes l.1
    let new : Copy := { put with dirty := l.1.foldl (fun d q => ninsert d q.1) put.dirty, poison := put.poison ||| l.2 }
    { s1 with copies := kput s1.copies (copyKey pl asid blk) new }
  | _, _ => s.writeHome asid blk leaf home l

/-- More levels than a path has. -/
abbrev levels : Nat := 4

/-- A copy is given up: its dirty bytes go one level down (11 R293). -/
def State.evict (s : State) (k : Nat) : State :=
  match kget? s.copies k with
  | none => s
  | some c =>
    let down := s.below c
    { s with copies := kdel s.copies k }.putDirty levels down.1 c.asid c.blk c.leaf down.2 (c.dirtyBytes fun _ => true)

/-- A place is ready to take a block under a leaf: there is room, and what it holds under another leaf has gone to its own frame. -/
def State.makeRoom (s : State) (place asid blk : Nat) (leaf : Word) : State :=
  match kget? s.copies (copyKey place asid blk) with
  | some c => if c.leaf = leaf then s else s.evict (copyKey place asid blk)
  | none => match s.outgoing place asid blk with | some (k, _) => s.evict k | none => s

/-- How long a hint keeps what it fills (02 R58). -/
def hintPrio (hint place : Nat) : Nat := if hint = 1 then 0 else if hint = 2 ∧ place % 2 = 1 then 2 else 1

/-- Bytes of a line that an L1 holds before they are made at the home (11 R284): those of its core's stores under way. -/
def State.heldStores (s : State) (place asid base : Nat) : List (Nat × Byte) :=
  s.reqs.flatMap fun (q : Nat × Req) =>
    let r := q.2
    let early := r.phase == .held || r.phase == .plc || r.phase == .out || r.phase == .rejStale || r.phase == .rejMis
    if r.kind == .store && r.op == 1 && early && r.asid == asid && r.va.toNat % 2 ^ 57 / 32 == base % 2 ^ 57 / 32
        && l1Place (s.l1Core r.wid asid r.va.toNat) == place then placed r.va.toNat r.data else []

/-- Fill the sector of an address in a place with bytes and tags (11 R282, R286, R287): bytes that it holds dirty, or that its core is
writing, stay. A line whose lease had ended keeps no other sector. -/
def State.fillSector (s : State) (place asid va : Nat) (leaf : Word) (bytes : List Byte) (tag : BitVec 4) (poison : Bool) (hint : Nat) :
    State :=
  let s := s.makeRoom place asid (blkOf va) leaf
  let key := copyKey place asid (blkOf va)
  let base := va / 32 * 32
  let found := (kget? s.copies key).getD (newCopy place asid (blkOf va) leaf)
  let old := if found.tracked && decide ((found.lease va).1 ≤ s.wclock) then found.dropLine va found.grain else found
  let keep := (placed base bytes).map fun p => (p.1, if old.dirty.contains p.1 then kgetD old.data p.1 0 else p.2)
  let mine := if place % 2 = 0 then s.heldStores place asid base else []
  let i := sectorOf va
  let c := { old with
    data := kputs (kputs old.data keep) mine
    valid := old.valid ||| (1#16 <<< i)
    poison := if poison then old.poison ||| (1#16 <<< i)
      else if old.dirty.any fun o => o / 32 == i then old.poison else old.poison &&& ~~~(1#16 <<< i)
    tags := kput old.tags i tag
    leases := kput old.leases (va % 512 / old.grain) (s.wclock + 1, s.clk)
    prio := hintPrio hint place }
  { s with copies := kput s.copies key c }

/-- The L1s that a warp's loads may read (11 R284): its core's, or those of its fused cluster. -/
def State.l1Places (s : State) (wid : Nat) : List Nat :=
  let b := s.blockOf wid
  let k := (s.launchD b.launch).desc.kern
  if k.fuse then (List.range (csizeOf k.shape)).map fun r => l1Place (48 * b.dk + siteCore k.shape (b.origin k.shape) r) else [l1Place b.ck]

/-- An acquire by a warp (11 R287): its core's logical time reaches the write times that it may observe, and the lines of its L1
whose lease has ended go. At core scope the parties share the L1. What the warp writes later comes after what it has observed
(R304). -/
def State.acquire (s : State) (wid sc : Nat) : State :=
  let s := s.modWarp wid fun w => { w with acqAt := s.nextId }
  if sc = 0 then s
  else
    let l1s := s.l1Places wid
    let s1 := s.modCore (s.blockOf wid).ck fun c => { c with ltime := max c.ltime s.wclock }
    { s1 with copies := s1.copies.map fun p => if l1s.contains p.2.place ∧ p.2.tracked then (p.1, p.2.expire s.wclock) else p }

/-! ## The order of accesses -/

/-- Whether a request is an access of a warp itself, not of its engine work (11 R296). -/
def Req.from (r : Req) (wid : Nat) : Bool := r.wid == wid && r.work.1 == 0

/-- Requests that return a value to a register. -/
def Req.isResult (r : Req) : Bool := r.kind == .load || r.kind == .atom || r.kind == .lkqry

/-- Posted writes (07 R180). -/
def Req.isPosted (r : Req) : Bool :=
  r.kind == .store || r.kind == .red || r.kind == .cwb || r.kind == .cinv || r.kind == .unlock

/-- Whether a request has not been made. -/
def Req.unmade (r : Req) : Bool :=
  r.phase == .held || r.phase == .plc || r.phase == .out || r.phase == .xlate || r.phase == .faulted || r.phase == .rejStale
    || r.phase == .rejMis || (r.phase == .failed && !r.isPosted)

/-- Whether it waits for an answer of the driver or the runtime. -/
def Req.stuck (r : Req) : Bool := r.phase == .xlate || r.phase == .faulted

/-- Whether two requests touch a common byte. -/
def Req.overlaps (a b : Req) : Bool :=
  let x := a.va.toNat % 2 ^ 57
  let y := b.va.toNat % 2 ^ 57
  a.asid == b.asid && decide (x < y + b.size) && decide (y < x + a.size)

/-- Whether a request that is still kept is complete at a scope (07 R200). -/
def Req.completeAt (r : Req) (sc : Nat) : Bool :=
  match r.kind with
  | .load | .atom | .lkqry => r.stuck
  | .store | .red | .cwb | .cinv | .unlock => decide (sc < r.stage)
  | .lock | .lockTry => false
  | .prf | .fetch => true

/-- Whether every access that a warp issued before a place in its order is complete at a scope (07 R200, 11 R301). -/
def State.priorDone (s : State) (wid seq sc : Nat) : Bool :=
  (s.reqs.all fun q => !q.2.from wid || decide (seq ≤ q.2.seq) || q.2.completeAt sc)
    && s.fes.all fun q => q.2.wid != wid || decide (seq ≤ q.2.seq)

/-- The least scope that holds the cores of two warps (00 R6). -/
def State.apart (s : State) (a b : Nat) : Nat :=
  let x := s.blockOf a
  let y := s.blockOf b
  if x.ck = y.ck then 0 else if x.launch = y.launch ∧ x.cluster = y.cluster then 1 else if x.dk = y.dk then 2 else if x.pkg = y.pkg then 3
  else if x.pkg / 2 = y.pkg / 2 then 4 else 5

/-- Whether the writes of other warps that a warp may have observed by its last acquire are complete at a scope: they come before
what the warp releases (11 R304). A write is complete at least at the scope through which it was observed. -/
def State.seenDone (s : State) (wid seq sc : Nat) : Bool :=
  let upto := min seq (s.warpD wid).acqAt
  s.reqs.all fun q => q.2.from wid || !q.2.isPosted || decide (upto ≤ q.2.seq) || q.2.completeAt sc
    || !q.2.completeAt (s.apart wid q.2.wid)

/-- Whether what a release waits for is complete at a scope (11 R301, R304). -/
def State.releaseReady (s : State) (wid seq sc : Nat) : Bool := s.priorDone wid seq sc && s.seenDone wid seq sc

/-- Whether a local-store access waits for another party (07 R184), or may stand behind one of its warp that does (11 R281). -/
def State.feBlocked (s : State) (a : FeAccess) : Bool :=
  s.fes.any fun q => q.2.wid == a.wid && q.2.waiting && decide (q.2.seq ≤ a.seq)

/-- Whether a signal that a warp posts may be sent (07 R196, R207, 08 R234, 11 R301, R304): its earlier accesses are complete at the
scope or have failed; an UNLOCK or LOCK among them has its own order at the home, and a full-empty wait, which may be for what the
signal starts, does not hold it. -/
def State.signalReady (s : State) (wid seq sc : Nat) : Bool :=
  (s.reqs.all fun q => !q.2.from wid || decide (seq ≤ q.2.seq) || q.2.kind == .unlock || q.2.kind == .lock || q.2.kind == .lockTry
      || q.2.completeAt sc)
    && (s.fes.all fun q => q.2.wid != wid || decide (seq ≤ q.2.seq) || s.feBlocked q.2) && s.seenDone wid seq sc

/-- Whether an earlier acquire of the same split holds an access back (11 R301). -/
def State.acquireHolds (s : State) (wid seq : Nat) (own : Lanes) : Bool :=
  s.reqs.any fun q => q.2.from wid && decide (q.2.seq < seq) && (q.2.own &&& own) != 0 && q.2.isResult
    && (q.2.ord == 2 || q.2.ord == 4) && !q.2.completeAt q.2.scope

/-- Whether a release of WSYNC orders an access before another: lanes of both took part (07 R208). -/
def Warp.synced (w : Warp) (seq1 seq2 : Nat) (own1 own2 : Lanes) : Bool :=
  w.wsyncs.any fun x => decide (seq1 < x.1) && decide (x.1 ≤ seq2) && (x.2 &&& own1) != 0 && (x.2 &&& own2) != 0

/-- Whether a store that an L1 holds before its home copy does keeps another warp of that L1 from passing it (11 R298): only a read of
the L1 may. -/
def State.l1Ahead (s : State) (r : Req) : Bool :=
  !(r.kind == .prf || (r.kind == .load && r.stage == 0)) &&
    s.reqs.any fun q => q.2.kind == .store && q.2.op == 1 && q.2.unmade && !q.2.stuck && !(q.2.from r.wid && r.from r.wid) && decide (q.2.seq < r.seq)
      && q.2.overlaps r && s.l1Core q.2.wid q.2.asid q.2.va.toNat == s.l1Core r.wid r.asid r.va.toNat

/-- Whether the writes that a warp had observed by its FENCEs are complete at their scope: a strong write that follows acts as their
release (11 R303, R304). -/
def State.fenceHolds (s : State) (wid seq : Nat) : Bool :=
  (s.warpD wid).fenceSc == 0 || s.seenDone wid seq ((s.warpD wid).fenceSc - 1)

/-- Whether a request may be made now (11 R297, R298, R301): no earlier overlapping access of its warp is still to be made
(one that waits for an answer holds back its own lanes alone, and no load, unless a WSYNC release lies between), no acquire holds it,
and what a release waits for is complete. An access of engine work follows the writes that its warp issued before the command, and the
earlier lines of the work (08 R212, R218). -/
def State.mayMake (s : State) (r : Req) : Bool :=
  if r.work.1 ≠ 0 then
    !s.l1Ahead r && !(s.reqs.any fun q => q.2.unmade && q.2.overlaps r
      && ((q.2.from r.wid && q.2.isPosted && decide (q.2.seq < r.seq))
        || (q.2.work.1 == r.work.1 && decide (q.2.work.2.1 < r.work.2.1))))
  else
  !(s.reqs.any fun q => q.2.from r.wid && decide (q.2.seq < r.seq) && q.2.unmade && q.2.overlaps r
      && ((s.warpD r.wid).synced q.2.seq r.seq q.2.own r.own
        || (!(q.2.stuck && (q.2.own &&& r.own) == 0)
          && !(q.2.stuck && q.2.isResult && (r.kind == .load || r.kind == .lkqry || r.kind == .prf)))))
    && !s.l1Ahead r
    && !s.acquireHolds r.wid r.seq r.own
    && !((r.ord == 3 || r.ord == 4) && !s.releaseReady r.wid r.seq r.scope)
    && !(r.ord != 0 && (r.isPosted || r.kind == .atom) && !s.fenceHolds r.wid r.seq)

/-! ## Routing -/

/-- Key of a TLB or placement-cache entry: one for each 4 KiB page (16 R378, R379). -/
def tlbKey (asid gen va : Nat) : Nat := (asid * 2 ^ 16 + gen) * 2 ^ 45 + va % 2 ^ 57 / 4096

/-- Entry into one of these caches. -/
def tlbEntry (asid gen va : Nat) (leaf : Word) : TlbEntry :=
  let n := 4096 * pageFrames (leafSize leaf)
  ⟨asid, gen, va % 2 ^ 57 / n * n, leaf⟩

/-- The warp's core, as package, die and core. -/
def State.siteOf (s : State) (wid : Nat) : Nat × Nat × Nat :=
  let b := s.blockOf wid
  (b.pkg, b.die, b.core)

/-- Places on a core's path, from its L1 down to the last copy above the home (11 R286, R293). -/
def State.pathOf (s : State) (wid asid va hpkg hdie : Nat) : List Nat :=
  let (p, d, _) := s.siteOf wid
  let far := if p = hpkg ∧ d = hdie then [] else [farPlace (128 * p + d)]
  l1Place (s.l1Core wid asid va) :: (far ++ (s.anchorPlaces p hpkg hdie).filter fun a => !far.contains a)

/-- Places below the L1, nearest first, that a load may read before the home copy (11 R286, R293). -/
def State.nearPlaces (s : State) (r : Req) (tracked : Bool) : List Nat :=
  if !tracked || r.ord == 0 || decide (r.scope ≤ 2) then (s.pathOf r.wid r.asid r.va.toNat r.pkg r.die).drop 1
  else if r.scope ≤ 4 then s.anchorPlaces (s.siteOf r.wid).1 r.pkg r.die
  else []

/-- Whether a load may read the L1 copy (11 R286, R291, R293). -/
def State.l1Serves (s : State) (r : Req) (c : Copy) : Bool :=
  let b := s.blockOf r.wid
  let k := (s.launchD b.launch).desc.kern
  let lease := c.lease r.va.toNat
  let young := decide (s.clk < lease.2 + 2048)
  !c.tracked || r.ord == 0 || (k.fuse && r.scope == 1 && young)
    || (decide (r.scope ≤ 2) && decide ((s.core b.ck).ltime < lease.1) && young)

/-- The L1 copy that serves a load, with its key. -/
def State.l1Hit (s : State) (r : Req) : Option (Nat × Copy) :=
  let place := l1Place (s.l1Core r.wid r.asid r.va.toNat)
  match s.copy? place r.asid r.va.toNat with
  | some c => if c.covers r.va.toNat r.size && s.l1Serves r c then some (copyKey place r.asid (blkOf r.va.toNat), c) else none
  | none => none

/-- The near copy that serves a load, with its key. -/
def State.nearHit (s : State) (r : Req) : Option (Nat × Copy) :=
  let (p, _, _) := s.siteOf r.wid
  let tracked := match s.leafAt p r.asid r.va.toNat with | some e => leafTr e | none => true
  ((s.nearPlaces r tracked).filterMap fun pl =>
    match s.copy? pl r.asid r.va.toNat with
    | some c => if c.covers r.va.toNat r.size then some (copyKey pl r.asid (blkOf r.va.toNat), c) else none
    | none => none).head?

/-- Clk from a core to a copy's place on a die of its package (09 R255). -/
def State.timeTo (s : State) (wid asid va dk : Nat) : Nat :=
  let (p, d, c) := s.siteOf wid
  routeTime (routeOf p d c (dk / 128) (dk % 128) (sliceOf asid (blkOf va)) (livePlane (s.pkg p).live (planeOf asid va)))

/-- Send a request whose placement-cache entry is present: on its way to the nearest copy that can serve a load
(stage 1), or to its home (stage 2). -/
def State.sendHome (s : State) (id : Nat) (r : Req) (hpkg hdie : Nat) (near : Bool) : State :=
  let (p, _, _) := s.siteOf r.wid
  let r1 := { r with pkg := hpkg, die := hdie, phase := .out, filled := false, tr := none
                     plane := if p = hpkg then 128 else livePlane (s.pkg p).live (planeOf r.asid r.va.toNat) }
  let toHome := s.clk + s.timeTo r.wid r.asid r.va.toNat (128 * hpkg + hdie)
  let r2 :=
    if near && r.kind == .load then
      match s.nearHit r1 with
      | some (_, c) => { r1 with stage := 1, arrive := s.clk + s.timeTo r.wid r.asid r.va.toNat (c.place / 2) }
      | none => { r1 with stage := 2, arrive := toHome }
    else { r1 with stage := if r.isPosted then r.stage else 2, arrive := toHome }
  { s with reqs := kput s.reqs id r2 }

/-- Clk of a placement-cache miss (16 R378): 320 for each level, and the hops to each table's die. -/
def State.plcTime (s : State) (pkg die asid va : Nat) : Nat :=
  (s.tables pkg asid va).foldl (fun t x => t + 320 + 48 * meshHops die x.2.1) 0

/-- Enter a leaf into a die's placement cache of 2,048 entries (16 R378). -/
def State.plcFill (s : State) (dk asid gen va : Nat) (leaf : Word) : State :=
  s.modDie dk fun d =>
    let key := tlbKey asid gen va
    let room := if d.plc.length < 2048 || (kget? d.plc key).isSome then d.plc
      else match victimOf s.clk dk (fun _ : TlbEntry => 0) d.plc with | some (k, _) => kdel d.plc k | none => d.plc
    { d with plc := kput room key (tlbEntry asid gen va leaf) }

/-- Look a request's home up in its die's placement cache (16 R378). -/
def State.sendOut (s : State) (id : Nat) (r : Req) (near : Bool) : State :=
  let (p, d, _) := s.siteOf r.wid
  match kget? (s.die (128 * p + d)).plc (tlbKey r.asid r.gen r.va.toNat) with
  | some t =>
    match s.homeOf p r.asid t.leaf r.va.toNat with
    | some (hp, hd) => s.sendHome id r hp hd near
    | none => s.sendHome id r p 0 false
  | none =>
    { s with reqs := kput s.reqs id { r with phase := .plc, arrive := s.clk + s.plcTime p d r.asid r.va.toNat
                                             stage := if r.isPosted then r.stage else 2 } }

/-- The sectors that the loads and prefetches of a core are waiting for below the L1. -/
def State.misses (s : State) (ck : Nat) : List Nat :=
  (s.reqs.filter fun q =>
    let r := q.2
    ((r.kind == .load && decide (1 ≤ r.stage)) || r.kind == .prf) && r.phase != .held && !r.stuck && (s.blockOf r.wid).ck == ck).foldl
      (fun a q => ninsert a (q.2.asid * 2 ^ 52 + q.2.va.toNat % 2 ^ 57 / 32)) []

/-- Whether a core may have another miss under way: 4,096 at most (00 R1). -/
def State.missRoom (s : State) (r : Req) : Bool :=
  decide (s.reqs.length ≤ 4096) || !(r.kind == .load || r.kind == .prf) || decide ((s.misses (s.blockOf r.wid).ck).length < 4096)

/-- Start a request that has been entered: an L1 hit is made 15 clk after issue, 21 in a fused cluster's remote slice
(09 R255); a miss waits while its core has no room for it. -/
def State.start (s : State) (id : Nat) : State :=
  match kget? s.reqs id with
  | none => s
  | some r =>
    let b := s.blockOf r.wid
    match r.kind, s.l1Hit r with
    | .load, some (_, c) =>
      s.modReq id fun r => { r with phase := .out, stage := 0, arrive := s.clk + if c.place = l1Place b.ck then 15 else 21 }
    | _, _ => if s.missRoom r then s.sendOut id r true else s.modReq id fun r => { r with phase := .held }

/-! ## At the home -/

/-- The sectors of a block that a request touches. -/
def Req.sectors (r : Req) : BitVec 16 :=
  let n := cdiv (r.va.toNat % 32 + max r.size 1) 32
  BitVec.ofNat 16 ((2 ^ n - 1) * 2 ^ sectorOf r.va.toNat)

/-- The home region's block of a request. -/
def State.homeOfReq (s : State) (r : Req) : Option Home := kget? s.homes (homeKey (128 * r.pkg + r.die) r.asid (blkOf r.va.toNat))

/-- Whether the home region holds what a request touches (11 R282). -/
def State.homeHolds (s : State) (r : Req) : Bool :=
  match s.homeOfReq r with | some h => r.sectors &&& ~~~h.valid == 0 | none => false

/-- Enter sectors of a block into the home region of a die, 384 blocks in a slice (11 R282, R285). What goes for room is in HBM
already: the model keeps the data of home copies there. -/
def State.homePut (s : State) (dk asid blk : Nat) (sectors : BitVec 16) (leaf : Word) (hint : Nat) : State :=
  let k := homeKey dk asid blk
  let old := kget? s.homes k
  let mine := s.homes.filter fun q =>
    q.1 / 2 ^ 64 == dk && sliceOf (q.1 / 2 ^ 48 % 2 ^ 16) (q.1 % 2 ^ 48) == sliceOf asid blk
  let room := if old.isSome || decide (mine.length < 384) then s.homes
    else match victimOf s.clk dk Home.prio mine with | some (v, _) => kdel s.homes v | none => s.homes
  let held := match old with | some h => if h.leaf = leaf then h.valid else 0 | none => 0
  { s with homes := kput room k ⟨held ||| sectors, leaf, hintPrio hint 1⟩ }

/-- Whether a request was accepted at its home before the die took the next generation (16 R383 step 3): it is made at its old frame,
and leaves no copy. -/
def State.outdated (s : State) (r : Req) : Bool :=
  r.tr.isSome && kgetD (s.die (128 * r.pkg + r.die)).genReg r.asid 0 != r.gen

/-- The home region holds what a request has touched. -/
def State.homeFill (s : State) (r : Req) (leaf : Word) : State :=
  if s.outdated r then s else s.homePut (128 * r.pkg + r.die) r.asid (blkOf r.va.toNat) r.sectors leaf r.hint

/-! ### The TLBs of the memory controllers (16 R379) -/

/-- The controller of a die that serves an address. -/
def ctlOf (dk va : Nat) : Nat := Config.controller dk (va % 2 ^ 57) % 16

/-- Key of a TLB entry: controller, ASID, generation, size, page. -/
def ctlKey (ctl asid gen size va : Nat) : Nat :=
  (((ctl * 2 ^ 16 + asid) * 2 ^ 16 + gen) * 16 + size) * 2 ^ 45 + va % 2 ^ 57 / (4096 * pageFrames size)

/-- The leaf that a controller's TLB has for an address. -/
def State.tlbHit (s : State) (dk asid gen va : Nat) : Option Word :=
  (List.range 10).findSome? fun z => (kget? (s.die dk).tlb (ctlKey (ctlOf dk va) asid gen z va)).map TlbEntry.leaf

/-- Key of a walk-cache entry: controller, ASID, generation, levels left, and the bits of the address above them. -/
def walkKey (ctl asid gen n va : Nat) : Nat :=
  (((ctl * 2 ^ 16 + asid) * 2 ^ 16 + gen) * 8 + n) * 2 ^ 45 + va % 2 ^ 57 / 2 ^ (12 + 9 * n)

/-- A controller's walk: the leaf, and the tables read, from the lowest table that its walk cache holds. -/
def State.ctlWalk (s : State) (dk asid gen va : Nat) : Option Word × List (Nat × Nat × Nat) :=
  let pkg := dk / 128
  match [1, 2, 3, 4].findSome? fun n => (kget? (s.die dk).walks (walkKey (ctlOf dk va) asid gen n va)).map fun x => (n, x) with
  | some (n, d, f) => ((s.walkFrom pkg (va % 2 ^ 57) n d f).map (·.1), s.tablesFrom pkg (va % 2 ^ 57) n d f)
  | none => ((s.walk pkg asid va).map (·.1), s.tables pkg asid va)

/-- Put an entry into a cache that holds at most `n` entries of each controller. -/
def ctlPut {α : Type} (clk ctl n : Nat) (m : KMap α) (key : Nat) (x : α) (ctlOfKey : Nat → Nat) : KMap α :=
  let mine := m.filter fun q => ctlOfKey q.1 == ctl
  let room := if (kget? m key).isSome || decide (mine.length < n) then m
    else match victimOf clk ctl (fun _ : α => 0) mine with | some (k, _) => kdel m k | none => m
  kput room key x

/-- A controller's TLB and walk cache after a walk. -/
def State.ctlFill (s : State) (dk asid gen va : Nat) (leaf : Word) (tables : List (Nat × Nat × Nat)) : State :=
  let c := ctlOf dk va
  let n := 4096 * pageFrames (leafSize leaf)
  s.modDie dk fun d =>
    { d with
      tlb := ctlPut s.clk c 4096 d.tlb (ctlKey c asid gen (leafSize leaf) va) ⟨asid, gen, va % 2 ^ 57 / n * n, leaf⟩ (· / 2 ^ 81)
      walks := (tables.filter fun t => decide (t.1 ≤ 4)).foldl (fun m t =>
        ctlPut s.clk c 256 m (walkKey c asid gen t.1 va) (t.2.1, t.2.2) (· / 2 ^ 80)) d.walks }

/-- What a request meets on the die that it was sent to. One that a memory controller has accepted is made under its generation
(16 R383 step 3); the home slice translates what it holds (R379). -/
inductive HomeState where
  | peer               -- the package has failed
  | cut                -- it was lost: no route is left around the dead die-to-die links (11 R295)
  | dead               -- the die is masked dead
  | stale              -- its generation is old (16 R381)
  | miss               -- the TLB has no entry (16 R379)
  | absent             -- no leaf; or a write sent again after a rejection has lost its permission (16 R384)
  | mishome            -- the home is another die (16 R380)
  | ok (leaf : Word)
  deriving DecidableEq, Repr

/-- The access kind of a request (16 R375, R385). -/
def Req.akind (r : Req) : Nat :=
  match r.kind with
  | .store | .cwb | .cinv => akWrite
  | .atom | .red | .lock | .lockTry | .unlock => akRmw
  | .fetch => akFetch
  | _ => akRead

/-- Whether a leaf permits a request; CWB and CINV change nothing that needs a permission but that of reading. -/
def Req.permitted (r : Req) (leaf : Word) : Bool :=
  match r.kind with
  | .cwb | .cinv => leafR leaf || leafW leaf
  | .prf => leafR leaf
  | _ => permits leaf r.akind

/-- Whether a request writes what is mapped read-only to its launch (10 R279): its argument slots, or the buffer of its firing. -/
def State.readOnly (s : State) (r : Req) : Bool :=
  let l := s.launchOf r.wid
  let va := r.va.toNat % 2 ^ 57
  let meets (a n : Nat) : Bool := decide (va < a + n) && decide (a < va + r.size)
  let buf := match l.firing with
    | some (k, b) => match kget? s.armed k with | some x => meets ((x.base + b * x.blen) % 2 ^ 57) x.blen | none => false
    | none => false
  (r.kind == .store || r.kind == .atom || r.kind == .red) && (meets (l.desc.args.toNat % 2 ^ 57) (8 * l.desc.kern.narg) || buf)

/-- What a request meets under a leaf that the home's controllers or its home slice have. -/
def State.underLeaf (s : State) (r : Req) (leaf : Word) : HomeState :=
  if s.homeOf r.pkg r.asid leaf r.va.toNat ≠ some (r.pkg, r.die) then .mishome
  else if r.resent && (r.isPosted || r.kind == .atom) && !r.permitted leaf then .absent
  else .ok leaf

def State.homeState (s : State) (r : Req) : HomeState :=
  let dk := 128 * r.pkg + r.die
  let va := r.va.toNat
  let (p, d, _) := s.siteOf r.wid
  if (s.pkg r.pkg).failed then .peer
  else if !s.dieLive dk then .dead
  else
    match r.tr with
    | some leaf => .ok leaf
    | none =>
      if s.noRoute p d r.pkg r.die r.plane then .cut
      else if kgetD (s.die dk).genReg r.asid 0 ≠ r.gen then .stale
      else
        match (if s.homeHolds r then (s.homeOfReq r).map Home.leaf else s.tlbHit dk r.asid r.gen va) with
        | some leaf => s.underLeaf r leaf
        | none =>
          match (s.ctlWalk dk r.asid r.gen va).1 with
          | some leaf => if (s.homeOf r.pkg r.asid leaf va).isSome then .miss else .absent
          | none => .absent

/-- The key of the byte of HBM behind a request. -/
def Req.key (r : Req) (leaf : Word) : Nat := frameKey (128 * r.pkg + r.die) leaf r.va.toNat

/-- Whether the memory tag of every granule touched matches at the home (07 R175, 16 R376). -/
def State.homeTagOk (s : State) (r : Req) (leaf : Word) : Bool :=
  !leafTe leaf || (List.range (cdiv (r.va.toNat % 32 + max r.size 1) 32)).all fun i =>
    (s.tagOf (r.key leaf / 32 * 32 + 32 * i)).toNat == wf r.va 60 4

/-- The time that a home slice takes for a request that it does not hold (09 R254, R255): a TLB hit, and HBM unless the request
is a write. -/
def State.missTime (s : State) (r : Req) (leaf : Word) : Nat :=
  if r.isPosted then 4 else 4 + (if Config.rowHit s.clk (r.key leaf) then 250 else 340)

/-- The directory entry of a line on a die, and whether it is LOST (11 R288, R290). -/
def State.dirOf (s : State) (dk line : Nat) : Dir := (kget? s.dirs (lineKey dk line)).getD ⟨0, [], false, 0, [], false⟩

/-- Change a directory entry. -/
def State.modDir (s : State) (dk line : Nat) (f : Dir → Dir) : State :=
  { s with dirs := kput s.dirs (lineKey dk line) (f (s.dirOf dk line)) }

/-- Whether some directory entry of a line is LOST: that of its home, or of an anchor (11 R290). -/
def State.entryLost (s : State) (line : Nat) : Bool := s.dirs.any fun d => d.2.lost && d.1 % 2 ^ 73 == line

/-- Whether the line of a request is LOST. -/
def State.lineLost (s : State) (r : Req) (leaf : Word) : Bool :=
  leafTr leaf && s.entryLost (lineOf r.asid r.va.toNat (leafGrain leaf))

/-- CODE values of the engine status (08 R214). -/
abbrev ecSd4 : Nat := 1
abbrev ecOvf : Nat := 2
abbrev ecAccess : Nat := 3
abbrev ecTagchk : Nat := 4
abbrev ecPeer : Nat := 5
abbrev ecCohlost : Nat := 6
abbrev ecRefused : Nat := 7
abbrev ecDlink : Nat := 8
abbrev ecDpeer : Nat := 9
abbrev ecHome : Nat := 10
abbrev ecAddr : Nat := 11
abbrev ecNotrig : Nat := 12
abbrev ecLsrange : Nat := 13

/-- The CODE of a read that takes a completion fault, and of a write that fails with a cause (08 R214). -/
def faultEng (code : Nat) : Nat :=
  if code = fcTagchk then ecTagchk else if code = fcPeerdead then ecPeer else if code = fcCohlost then ecCohlost else ecAccess
def causeEng (cause : Nat) : Nat :=
  if cause = cbTagf then ecTagchk else if cause = cbDlink then ecDlink else if cause = cbDpeer then ecDpeer
  else if cause = cbCohlost then ecCohlost else ecRefused

/-- An access of a hod line has been answered: with bytes, or with its failure (08 R214). -/
def State.pieceDone (s : State) (r : Req) (x : Except (Nat × Nat × Nat) (List Byte)) : State :=
  s.modWork r.work.1 fun e => { e with lines := kmod e.lines r.work.2.1 fun l =>
    match x with
    | .ok b => { l with left := l.left - 1, got := kput l.got r.work.2.2 b }
    | .error f => { l with left := l.left - 1, fails := kput l.fails r.work.2.2 f } }

/-- Park a result of a request as faulted (07 R179); the split takes it at the end of its span. An access of engine work fails its line
(08 R214). -/
def State.faultReq (s : State) (id code : Nat) (info : Word) : State :=
  match kget? s.reqs id with
  | none => s
  | some r =>
    if r.work.1 ≠ 0 then { s with reqs := kdel s.reqs id }.pieceDone r (.error (faultEng code, r.pkg, r.die))
    else s.modReq id fun r => { r with phase := .faulted, fault := code, info := info }

/-- INFO of ACCESS and XLATE without the fields of the group (16 R385). -/
def pageInfo (leaf : Option Word) (va kind : Nat) : Word :=
  let n := match leaf with | some e => 4096 * pageFrames (leafSize e) | none => 4096
  BitVec.ofNat 64 (va % 2 ^ 57 / n * n + kind)

/-- A posted write fails (07 R180, 11 R295): counted, and no sector of the issuing core's L1 keeps its value. -/
def State.failPosted (s : State) (id : Nat) (r : Req) (cause : Nat) : State :=
  let place := l1Place (s.l1Core r.wid r.asid r.va.toNat)
  let s1 := if r.work.1 ≠ 0 then s.pieceDone r (.error (causeEng cause, r.pkg, r.die))
    else s.reportFail r.wid (1#8 <<< cause) 1 r.pkg r.die
  let s2 := if r.kind = .store then
      match s1.copy? place r.asid r.va.toNat with
      | some c => if c.tracked then s1.dropSector (copyKey place r.asid (blkOf r.va.toNat)) r.va.toNat else s1
      | none => s1
    else s1
  { s2 with reqs := kdel s2.reqs id }

/-- A posted write is refused where it was to be made: the core learns of it at a clk (01 R32). What no home answers for fails where
that is detected (07 R180). -/
def State.refuseWrite (s : State) (id : Nat) (r : Req) (cause due : Nat) : State :=
  if cause = cbDpeer ∨ cause = cbDlink then s.failPosted id r cause
  else s.modReq id fun _ => { r with phase := .failed, fault := cause, arrive := due }

/-- The same for a request that returns a value, or a lock request: its completion fault (07 R179). -/
def State.refuseRead (s : State) (id code : Nat) (info : Word) (due : Nat) : State :=
  if code = fcPeerdead then s.faultReq id code info
  else s.modReq id fun r => { r with phase := .failed, fault := code, info := info, arrive := due }

/-- The anchor copy's directory and the home's learn of a reader (11 R288). -/
def State.noteReader (s : State) (pkg die hpkg hdie line : Nat) : State :=
  if pkg = hpkg then
    if die = hdie then s
    else s.modDir (128 * hpkg + hdie) line fun d => { d with groups := d.groups ||| (1#32 <<< (die / 4)) }
  else
    let s1 := s.modDir (128 * hpkg + hdie) line fun d => { d with anchors := ninsert d.anchors pkg }
    match s1.anchorDie pkg hdie with
    | none => s1
    | some a =>
      if a = die then s1 else s1.modDir (128 * pkg + a) line fun d => { d with groups := d.groups ||| (1#32 <<< (die / 4)) }

/-- Whether a value that a die's copies gave must not enter another die's: a bump has reached the second and not the first
(16 R383). -/
def State.bumpBetween (s : State) (asid src dst : Nat) : Bool :=
  match kget? s.bumps asid with | some b => b.dies.contains src && !b.dies.contains dst | none => false

/-- Refresh the places of a load's path above the copy that served it, from the lowest up, with the sector that it returns
(11 R286, R293): each keeps its own dirty bytes and passes them on. `.nol1` allocates no L1 copy and refreshes one that stands. -/
def State.fillPath (s : State) (r : Req) (leaf : Word) (bytes : List Byte) (tag : BitVec 4) (poison : Bool) (src : Option Nat) :
    State :=
  let (p, d, _) := s.siteOf r.wid
  let va := r.va.toNat
  let path := s.pathOf r.wid r.asid va r.pkg r.die
  let above := match src with | some x => path.takeWhile (· != x) | none => path
  let dieOf (place : Nat) : Nat := if place % 2 = 1 then place / 2 else place / 2 / 48
  let stands (place : Nat) : Bool :=
    match s.copy? place r.asid va with
    | some c => c.has va || c.dirty.any fun o => o / 32 == sectorOf va
    | none => false
  let from_ := match src with | some x => dieOf x | none => 128 * r.pkg + r.die
  let places := above.filter fun x =>
    !s.outdated r && !s.bumpBetween r.asid from_ (dieOf x) && (x % 2 == 1 || r.hint != 3 || stands x)
  let go := places.reverse.foldl (fun (q : State × List Byte) pl =>
    let s1 := q.1.fillSector pl r.asid va leaf q.2 tag poison r.hint
    (s1, match s1.copy? pl r.asid va with | some c => c.read (va / 32 * 32) 32 | none => q.2)) (s, bytes)
  if leafTr leaf && !places.isEmpty then go.1.noteReader p d r.pkg r.die (lineOf r.asid va (leafGrain leaf)) else go.1

/-- Bytes that a copy gave, with what the core wrote in the places of its path above that copy (11 R293). -/
def State.mergeNear (s : State) (r : Req) (src : Option Nat) (bytes : List Byte) : List Byte :=
  let va := r.va.toNat
  let path := s.pathOf r.wid r.asid va r.pkg r.die
  let above := match src with | some x => path.takeWhile (· != x) | none => path
  above.reverse.foldl (fun l pl =>
    match s.copy? pl r.asid va with
    | some c => (List.zip (List.range l.length) l).map fun q =>
        if c.dirty.contains (va % 512 + q.1) then kgetD c.data (va % 512 + q.1) 0 else q.2
    | none => l) bytes

/-- Generation of a core for an address space (16 R381). -/
def State.genOf (s : State) (ck asid : Nat) : Nat := kgetD (s.core ck).gens asid 0

/-- A request of the issuer, not yet entered. -/
def State.newReq (s : State) (kind : ReqKind) (lanes : Lanes) (seq : Nat) (va : Word) (size : Nat) (f : MFmt) : Req :=
  let b := s.curBlock
  let l := s.launchD b.launch
  { kind := kind, wid := s.cur.1, own := s.curSplit.lmask, lanes := lanes, span := s.curSplit.span, seq := seq, clk := s.clk
    pc := s.curSplit.pc, va := va, size := size, scope := f.sc.toNat, ord := f.fq.toNat, hint := f.hnt.toNat, op := 0, data := [], opnds := []
    regs := [], sext := false, phase := .held, asid := l.asid, gen := s.genOf b.ck l.asid, pkg := b.pkg, die := b.die
    plane := 128, arrive := s.clk, old := [], filled := false, tr := none, place := 0, slow := 0, resent := false, work := (0, 0, 0), wrote := none, stage := 0
    mark := 0, fault := 0, info := 0 }

/-- Enter a request and start it. -/
def State.postReq (s : State) (r : Req) : State := (s.addReq r).start s.nextId

end Sys2Proof.Machine
end

