-- ==== Sys2Proof/Machine/MemGlobal.lean ====
section
/-! DEFINITION. Global loads and stores, prefetch and cache maintenance (07 R175 to R183, R188, R189). -/

namespace Sys2Proof.Machine

/-- The address of a lane (02 R48). -/
def State.addrOf (s : State) (f : MFmt) (l : Nat) : Word :=
  s.rdS f.base.toNat + (if f.idx = 255 then 0 else (s.rdV f.idx.toNat l 1).signExtend 64) + f.ofs.signExtend 64

/-- The address of an instruction that acts once for the split (07 R176). -/
def State.addrOnce (s : State) (f : MFmt) : Word := s.rdS f.base.toNat + f.ofs.signExtend 64

/-- The fault of a list of global addresses, lowest lane first (07 R175): ADDRNC, then MISALIGN. A size of 0 is that of an
instruction that acts on a line. -/
def addrFault (l : List Word) (size : Nat) : Option (Nat × Word) :=
  match l.find? fun a => wf a 57 3 != 0 with
  | some a => some (fcAddrnc, a)
  | none =>
    match l.find? fun a => size != 0 && a.toNat % size != 0 with
    | some a => some (fcMisalign, a)
    | none => none

/-- Bytes of an access by SZ (02 R56). -/
def szBytes (f : MFmt) : Nat := 2 ^ f.sz.toNat

/-- Registers that DATA names by SZ (07 R181). -/
def dataRegs (f : MFmt) : List Nat :=
  let d := f.data.toNat
  match f.sz.toNat with
  | 3 => [d, d + 1]
  | 4 => [d, d + 1, d + 2, d + 3]
  | _ => [d]

/-- The index register, and its check (02 R48). -/
def idxRegs (f : MFmt) : List Nat := if f.idx = 255 then [] else [f.idx.toNat]
def idxChk (f : MFmt) : List TagCheck := if f.idx = 255 then [] else checkIndex f.idx.toNat

/-- The check of DATA by the type of a store (07 R181). -/
def dataChk (ty : Nat) (f : MFmt) : List TagCheck :=
  if ty = 0 then [] else if isPairTy ty then checkOf ty f.data.toNat else (dataRegs f).map fun r => (r, [0, ty], ty)

/-- Tags that a load gives its registers (02 R56, 01 R22). -/
def loadTag (ty i : Nat) : BitVec 4 := if isPairTy ty ∧ i = 1 then 15 else BitVec.ofNat 4 ty

/-- Memory results of a load, with their tags; the identities of the results. -/
def State.loadDests (s : State) (lanes : Lanes) (ty : Nat) : List Nat → Nat → State × List Nat
  | [], _ => (s, [])
  | r :: rest, i =>
    let s1 := (s.addResult (.vec r) 0 lanes [] 0 true).setTag r (loadTag ty i)
    let (s2, ids) := s1.loadDests lanes ty rest (i + 1)
    (s2, s.nextId :: ids)

/-- The low bytes of the data registers of a lane. -/
def State.storeData (s : State) (f : MFmt) (l : Nat) : List Byte :=
  ((dataRegs f).flatMap fun r => natBytes (s.rdV r l 1).toNat 4).take (szBytes f)

/-- Post a list of requests in order. -/
def State.postAll (s : State) : List Req → State
  | [] => s
  | r :: rest => (s.postReq r).postAll rest

/-- A memory instruction (07 R175, R178): its issue faults, then its effect and its retirement. -/
def State.runMem (s : State) (f : MFmt) (regs : List Nat) (chk : List TagCheck) (flt : Option (Nat × Word)) (eff : State → State) :
    Out :=
  match s.vecFault regs false chk with
  | some (c, i) => .next (s.raise 1 c i)
  | none =>
    match flt with
    | some (c, i) => .next (s.raise 1 c i)
    | none => .next ((eff s).retire f.sw 2 1)

/-- Active lanes with their addresses. -/
def State.laneAddrs (s : State) (f : MFmt) : List (Nat × Word) :=
  (lanesOf (s.effective f.msk.toNat)).map fun l => (l, s.addrOf f l)

/-- LD (07 R181). -/
def execLd (ty : BitVec 4) (f : MFmt) (s : State) : Out :=
  let la := s.laneAddrs f
  s.runMem f (dataRegs f ++ idxRegs f) (idxChk f) (addrFault (la.map (·.2)) (szBytes f)) fun s =>
    let seq := s.nextId
    let (s1, ids) := s.loadDests (s.effective f.msk.toNat) ty.toNat (dataRegs f) 0
    s1.postAll (la.map fun (l, a) =>
      { s1.newReq .load (1#32 <<< l) seq a (szBytes f) f with regs := ids, sext := ty == 1 })

/-- Whether a page is untracked and may be written, so that a store goes no further than the caches (11 R293). -/
def State.untrackedLeaf (s : State) (pkg asid va : Nat) : Option Word :=
  match s.leafAt pkg asid va with
  | some e => if leafTr e then none else some e
  | none => none

/-- A store of the issuer: the L1 copy takes the bytes at once where nothing holds the store back (11 R284, R294); `op` 1
marks that it holds them, 2 a store to an untracked page. -/
def State.postStore (s : State) (r : Req) : State :=
  let (p, _, _) := s.siteOf r.wid
  match s.untrackedLeaf p r.asid r.va.toNat with
  | some e =>
    if leafW e && !s.readOnly r then
      s.addReq { r with op := 2, phase := .out, arrive := s.clk + 2 }
    else s.postReq r
  | none =>
    let key := copyKey (l1Place (s.l1Core r.wid r.asid r.va.toNat)) r.asid (blkOf r.va.toNat)
    match kget? s.copies key with
    | some c =>
      if c.has r.va.toNat && c.tagOk r.va && s.mayMake r && !s.readOnly r then
        { s with copies := kput s.copies key (c.write r.va.toNat r.data) }.postReq { r with op := 1 }
      else s.postReq r
    | none => s.postReq r

def State.postStores (s : State) : List Req → State
  | [] => s
  | r :: rest => (s.postStore r).postStores rest

/-- ST (07 R181). Lanes that write one byte are made in ascending lane order (R177). -/
def execSt (ty : BitVec 4) (f : MFmt) (s : State) : Out :=
  let la := s.laneAddrs f
  s.runMem f (dataRegs f ++ idxRegs f) (dataChk ty.toNat f ++ idxChk f) (addrFault (la.map (·.2)) (szBytes f)) fun s =>
    let n := s.nextId
    { s with nextId := n + 32 }.postStores (la.map fun (l, a) =>
      { s.newReq .store (1#32 <<< l) (n + l) a (szBytes f) f with data := s.storeData f l })

/-- A load to a scalar (07 R183). -/
def State.loadScalar (s : State) (f : MFmt) (sext : Bool) : Out :=
  let a := s.addrOnce f
  s.runMem f [] [] (addrFault [a] (szBytes f)) fun s =>
    let s1 := s.addResult (.sca f.data.toNat) 0 (BitVec.allOnes 32) [] 0 true
    s1.postReq { s1.newReq .load s.curSplit.lmask s.nextId a (szBytes f) f with regs := [s.nextId], sext := sext }

/-- LDS (07 R183). -/
def execLds (f : MFmt) (s : State) : Out := s.loadScalar f false

/-- LDS.sx (07 R183). -/
def execLdsSx (f : MFmt) (s : State) : Out := s.loadScalar f true

/-- STS (07 R183). -/
def execSts (f : MFmt) (s : State) : Out :=
  let a := s.addrOnce f
  s.runMem f [] [] (addrFault [a] (szBytes f)) fun s =>
    s.postStore { s.newReq .store s.curSplit.lmask s.nextId a (szBytes f) f with
      data := natBytes (s.rdS f.data.toNat).toNat (szBytes f) }

/-- A prefetch (07 R188): a lane whose address fails a check is dropped; `op` 1 fills L2 alone. -/
def State.prefetch (s : State) (f : MFmt) (l2 : Nat) : Out :=
  let la := (s.laneAddrs f).filter fun p => wf p.2 57 3 == 0
  s.runMem f (idxRegs f) (idxChk f) none fun s =>
    let seq := s.nextId
    s.postAll (la.map fun (l, a) =>
      let g := s.grainAt s.curBlock.pkg s.curLaunch.asid a.toNat
      let va := BitVec.ofNat 64 (lineBase a.toNat g) ||| (a &&& 0xF000000000000000)
      { s.newReq .prf (1#32 <<< l) seq va g f with op := l2, hint := if l2 = 1 then 3 else f.hnt.toNat })

/-- PRF (07 R188). -/
def execPrf (f : MFmt) (s : State) : Out := s.prefetch f 0

/-- PRF.l2 (07 R188). -/
def execPrfL2 (f : MFmt) (s : State) : Out := s.prefetch f 1

/-- CWB and CINV (07 R189): posted for the line of each active lane. On a mapped page the core's caches act 2 clk after
issue; an unmapped page goes to the home, which raises XLATE. -/
def State.maintain (s : State) (f : MFmt) (kind : ReqKind) : Out :=
  let la := s.laneAddrs f
  s.runMem f (idxRegs f) (idxChk f) (addrFault (la.map (·.2)) 0) fun s =>
    let seq := s.nextId
    la.foldl (fun s (p : Nat × Word) =>
      let g := s.grainAt s.curBlock.pkg s.curLaunch.asid p.2.toNat
      let va := BitVec.ofNat 64 (lineBase p.2.toNat g) ||| (p.2 &&& 0xF000000000000000)
      let r := s.newReq kind (1#32 <<< p.1) seq va g f
      match s.leafAt s.curBlock.pkg r.asid va.toNat with
      | some _ => s.addReq { r with op := 2, phase := .out, arrive := s.clk + 2 }
      | none => s.postReq r) s

/-- CWB (07 R189). -/
def execCwb (f : MFmt) (s : State) : Out := s.maintain f .cwb

/-- CINV (07 R189). -/
def execCinv (f : MFmt) (s : State) : Out := s.maintain f .cinv

end Sys2Proof.Machine
end

