-- ==== Sys2Proof/Machine/Locks.lean ====
section
/-! DEFINITION. Line locks: the instructions (07 R194 to R199), the lock entry of the home slice (12 R311 to R316), and the
fatal end of a holder (12 R314). -/

namespace Sys2Proof.Machine

/-! ## At the core -/

/-- The line that an instruction names (07 R194). -/
def State.lockLine (s : State) (a : Word) : Nat :=
  lineOf s.curLaunch.asid a.toNat (s.grainAt s.curBlock.pkg s.curLaunch.asid a.toNat)

/-- The lock slots of a warp that are in use (12 R312). -/
def Warp.liveLocks (w : Warp) : List LockSlot := w.locks.filter (·.live)

/-- The slots of a warp that hold a line. -/
def Warp.heldLocks (w : Warp) : List LockSlot := w.locks.filter fun k => k.live && k.held

/-- Release the slot of a line. -/
def Warp.dropLock (w : Warp) (line : Nat) : Warp := { w with locks := w.locks.filter fun k => k.line != line }

/-- The line part of a request's address, with the memory tag removed. -/
def lineWord (line : Nat) : Word := BitVec.ofNat 64 (lineVa line)

/-- The word of a lock status (07 R197). -/
def lockStatus (code ahead : Nat) : Word := BitVec.ofNat 64 (code + 2 ^ 16 * min ahead 65535)

/-- UNLOCK (07 R194, R195, R196): checked and counted at issue, posted. -/
def execUnlock (f : MFmt) (s : State) : Out :=
  let a := s.addrOnce f
  match addrFault [a] 0 with
  | some (c, i) => .next (s.raise 1 c i)
  | none =>
    let line := s.lockLine a
    if s.curWarp.heldLocks.any fun k => k.line == line then
      let g := s.grainAt s.curBlock.pkg s.curLaunch.asid a.toNat
      let r := s.newReq .unlock s.curSplit.lmask s.nextId (lineWord line) g f
      .next (((s.addReq r).modCurWarp fun w => w.dropLock line).retire f.sw 2 1)
    else .next (s.raise 1 fcLocknh (lineWord line))

/-- LKQRY (07 R199). -/
def execLkqry (f : MFmt) (s : State) : Out :=
  let a := s.addrOnce f
  s.runMem f [] [] (addrFault [a] 0) fun s =>
    let g := s.grainAt s.curBlock.pkg s.curLaunch.asid a.toNat
    let s1 := s.addResult (.sca f.data.toNat) 0 (BitVec.allOnes 32) [] 0 true
    s1.postReq { s1.newReq .lkqry s.curSplit.lmask s.nextId (lineWord (s.lockLine a)) g f with regs := [s.nextId] }

/-! ## At the home -/

/-- A lock entry that is FREE with an empty queue. -/
def LockEntry.free : LockEntry := ⟨none, 0, 0, 0, false, false, false, []⟩

def State.lockEntry (s : State) (dk line : Nat) : LockEntry := kgetD s.lockTab (lineKey dk line) LockEntry.free

/-- Keep an entry, or release it when it is FREE with an empty queue and no mark (12 R313). -/
def State.setLock (s : State) (dk line : Nat) (e : LockEntry) : State :=
  if e.holder.isNone && e.queue.isEmpty && !e.broken && !e.lostHolder then { s with lockTab := kdel s.lockTab (lineKey dk line) }
  else { s with lockTab := kput s.lockTab (lineKey dk line) e }

/-- Whether a line's entry lies beyond the 1,024 that its home slice keeps (12 R311); which entries those are is DESIGN CHOICE, log 78:
the ones of higher lines. -/
def State.lockFar (s : State) (dk line : Nat) : Bool :=
  let slice (l : Nat) : Nat := sliceOf (lineAsid l) (blkOf (lineVa l))
  decide (1024 ≤ (s.lockTab.filter fun q => q.1 / 2 ^ 73 == dk && decide (q.1 % 2 ^ 73 < line) && slice (q.1 % 2 ^ 73) == slice line).length)

/-- Clk of an access to the HBM of a die that reaches byte `key` (09 R254). -/
def State.rowTime (s : State) (key : Nat) : Nat := if Config.rowHit s.clk key then 250 else 340

/-- The first present waiter and the queue with the absent entries ahead of it moved to the tail (12 R313). -/
def bypass : List Waiter → List Waiter → Option (Waiter × List Waiter)
  | _, [] => none
  | ahead, x :: r => if x.present then some (x, r ++ ahead) else bypass (ahead ++ [x]) r

/-- Send a status to a waiter. -/
def State.sendGrant (s : State) (wid line code ahead dk due : Nat) : State :=
  { s with nextId := s.nextId + 1, grants := kput s.grants s.nextId ⟨wid, line, code, ahead, dk, max due s.clk⟩ }

/-- The plane of a lock's traffic. -/
def State.lockPlane (s : State) (pkg line : Nat) : Nat := livePlane (s.pkg pkg).live (planeOf (lineAsid line) (lineVa line))

/-- Bind the lock to a warp at a location. -/
def LockEntry.bind (e : LockEntry) (wid pkg die core : Nat) : LockEntry :=
  { e with holder := some wid, hpkg := pkg, hdie := die, hcore := core, saved := false, broken := false, lostHolder := false }

/-- Grant a lock to the first present waiter, or leave it FREE (12 R313): `src` is the die the sectors travel from,
counted from clk `t0` (12 R316). -/
def State.passLock (s : State) (dk line : Nat) (e : LockEntry) (fatal : Bool) (src t0 : Nat) : State :=
  match bypass [] e.queue with
  | some (x, q) =>
    let due := t0 + handoff src (128 * x.pkg + x.die) (s.lockPlane (src / 128) line)
    (s.setLock dk line ({ e with queue := q }.bind x.key x.pkg x.die x.core)).sendGrant x.key line (if fatal then 1 else 0) 0 dk due
  | none => s.setLock dk line { e with holder := none, saved := false, broken := e.broken || fatal, lostHolder := false }

/-- A LOCK or LOCK.try reaches its entry (12 R313). -/
def State.lockArrive (s : State) (dk line wid : Nat) (try_ : Bool) (back : Nat) : State :=
  let e := s.lockEntry dk line
  let (p, d, c) := s.siteOf wid
  if e.holder.isNone && !e.lostHolder && !(e.queue.any (·.present)) then
    (s.setLock dk line (e.bind wid p d c)).sendGrant wid line (if e.broken then 1 else 0) 0 dk (s.clk + back)
  else if try_ then s.sendGrant wid line 3 0 dk (s.clk + back)
  else s.setLock dk line { e with queue := e.queue ++ [⟨wid, true, p, d, c⟩] }

/-- An UNLOCK reaches its entry (12 R313): `t0` is the clk in which it left its core. -/
def State.unlockArrive (s : State) (dk line wid t0 : Nat) : State :=
  let e := s.lockEntry dk line
  let (p, d, _) := s.siteOf wid
  if e.holder = some wid then s.passLock dk line e false (128 * p + d) t0
  else s.reportFail wid (1#8 <<< cbRefused) 1 (dk / 128) (dk % 128)

/-- A holder has ended fatally (12 R314). -/
def State.holderFatal (s : State) (dk line : Nat) : State :=
  let e := s.lockEntry dk line
  if e.holder.isSome || e.lostHolder then s.passLock dk line e true dk s.clk else s

/-- The holder's warp is saved, or restored at its warp's location (12 R313). -/
def State.holderSaved (s : State) (dk line wid : Nat) : State :=
  let e := s.lockEntry dk line
  if e.holder = some wid then s.setLock dk line { e with saved := true } else s

def State.holderRestored (s : State) (dk line wid : Nat) : State :=
  let e := s.lockEntry dk line
  let (p, d, c) := s.siteOf wid
  if e.holder = some wid then s.setLock dk line { e with saved := false, hpkg := p, hdie := d, hcore := c } else s

/-- A waiter's warp is saved: its entry becomes ABSENT and keeps its place. -/
def State.waiterSaved (s : State) (dk line wid : Nat) : State :=
  let e := s.lockEntry dk line
  s.setLock dk line { e with queue := e.queue.map fun x => if x.key = wid then { x with present := false } else x }

/-- A waiter's warp is restored: its entry becomes PRESENT; a FREE lock is granted to it. -/
def State.waiterRestored (s : State) (dk line wid : Nat) : State :=
  let e := s.lockEntry dk line
  let (p, d, c) := s.siteOf wid
  let q := e.queue.map fun x => if x.key = wid then { x with present := true, pkg := p, die := d, core := c } else x
  if e.holder.isNone && !e.lostHolder then s.passLock dk line { e with queue := q } e.broken dk s.clk
  else s.setLock dk line { e with queue := q }

/-- A withdraw reaches the home (12 R313, R315): TIMEOUT with AHEAD and a wait-for record, or nothing after a grant. -/
def State.withdrawArrive (s : State) (dk line wid : Nat) : State :=
  let e := s.lockEntry dk line
  let (p, d, c) := s.siteOf wid
  if e.holder = some wid || s.grants.any fun g => g.2.wid == wid && g.2.line == line then s
  else
    let ahead := (e.queue.takeWhile fun x => x.key != wid).length
    let found := e.queue.any fun x => x.key == wid
    let back := s.timeTo wid (lineAsid line) (lineVa line) dk
    let s1 := (s.setLock dk line { e with queue := e.queue.filter fun x => x.key != wid }).sendGrant wid line 2
      (if found then ahead else 0) dk (s.clk + back)
    let rec_ : WaitFor :=
      { key := wid, pkg := p, die := d, core := c, line := line, hkey := e.holder.getD 0, hpkg := e.hpkg, hdie := e.hdie
        hcore := e.hcore, ahead := if found then ahead else 0, clk := s.clk + back, told := false }
    { s1 with nextId := s1.nextId + 1, waitFors := kput s1.waitFors s1.nextId rec_ }

/-- The home dies whose entry of a line names a warp. -/
def State.lockHomes (s : State) (wid line : Nat) : List Nat :=
  (s.lockTab.filter fun q => q.1 % 2 ^ 73 == line && (q.2.holder == some wid || q.2.queue.any fun x => x.key == wid)).map
    fun q => q.1 / 2 ^ 73

/-- The home die of a line as its requester's package maps it. -/
def State.lockHome (s : State) (wid line : Nat) : Nat :=
  match s.lockHomes wid line with
  | dk :: _ => dk
  | [] =>
    let (p, _, _) := s.siteOf wid
    match s.lookup p (lineAsid line) (lineVa line) with
    | some (_, _, (hp, hd)) => 128 * hp + hd
    | none => 128 * p

/-- The word of LKQRY (07 R199). -/
def State.lockQuery (s : State) (dk line wid : Nat) (lost : Bool) : Word :=
  let e := s.lockEntry dk line
  let st := if lost then 3 else if e.holder = some wid then 1 else if e.holder.isSome || e.lostHolder then 2 else 0
  let on := st = 1 ∨ st = 2
  BitVec.ofNat 64 (st + 4 * (if e.queue.any fun x => x.key == wid then 1 else 0) + 2 ^ 8 * min e.queue.length 255
    + (if on then 2 ^ 16 * e.hpkg + 2 ^ 25 * e.hdie + 2 ^ 32 * e.hcore else 0))

/-! ## Back at the core -/

/-- A lock request faults (07 R179, R195): the split parks at the LOCK, where it goes on after either answer, and the slot is released. -/
def State.lockFault (s : State) (id : Nat) (r : Req) (code : Nat) (info : Word) : State :=
  let line := lineOf r.asid r.va.toNat r.size
  let s1 := { s with reqs := kdel s.reqs id }.modWarp r.wid fun w => w.dropLock line
  match (s.warpD r.wid).table.find? fun t => t.2.eff == .lockWait && t.2.after == .lock id with
  | some (t, _) => s1.raiseAt r.wid t (.issue 0) code info
  | none => s1

/-- A status reaches the waiter (07 R196, R197): written in the place of the LOCK in issue order; the split becomes READY. -/
def State.lockAnswer (s : State) (g : Grant) (leaf : Option Word) : State :=
  match s.warp? g.wid with
  | none => s
  | some w =>
    match w.locks.find? fun k => k.line == g.line && !k.held with
    | none => s
    | some k =>
      let got : Bool := g.code == 0 || g.code == 1
      let s1 := s.modWarp g.wid fun w =>
        let w := w.putScalar k.key k.sd 0 true (lockStatus g.code g.ahead)
        if got then { w with locks := w.locks.map fun q => if q.line = g.line then { q with held := true, tleft := 0 } else q }
        else w.dropLock g.line
      let s2 := if got then s1.acquire g.wid k.scope else s1
      -- the line's sectors arrive in the core's L1 (07 R196, 12 R316)
      let s3 : State := match got, leaf with
        | true, some e =>
          let va := lineVa g.line
          let place := l1Place (s2.l1Core g.wid (lineAsid g.line) va)
          let (p, d, _) := s2.siteOf g.wid
          ((List.range (leafGrain e / 32)).foldl (fun s i =>
            let key := frameKey g.dk e (va + 32 * i)
            s.fillSector place (lineAsid g.line) (va + 32 * i) e (memRead s.mem key 32) (s.tagOf key)
              (s.memPoison.contains (key / 32)) 0) s2).noteReader p d (g.dk / 128) (g.dk % 128) g.line
        | _, _ => s2
      let gone := s3.reqs.filter fun q => !(q.2.wid == g.wid && (q.2.kind == .lock || q.2.kind == .lockTry)
        && lineOf q.2.asid q.2.va.toNat q.2.size == g.line)
      match w.table.find? fun t => t.2.eff == .lockWait && t.2.wobj == lineWord g.line with
      | some (t, _) => { s3 with reqs := gone }.wake g.wid t s3.clk
      | none => { s3 with reqs := gone }

end Sys2Proof.Machine
end

