-- ==== Sys2Proof/Machine/Abort.lean ====
section
/-! DEFINITION. The abort of a launch (15 R362): its warps end, its locks end fatally, its engine work is discarded or stops,
its images go. Each block still resident then counts as retired: BLOCK_RETIRE completes it. -/

namespace Sys2Proof.Machine

/-- Keys of the warps of a launch. -/
def State.launchWarps (s : State) (l : Nat) : List Nat :=
  (s.warps.filter fun q => (s.blockD q.2.block).launch == l).map (·.1)

/-- Ids of the resident blocks of a launch. -/
def State.residentBlocks (s : State) (l : Nat) : List Nat :=
  (s.blocks.filter fun q => q.2.launch == l && q.2.resident).map (·.1)

/-- A warp's locks end fatally and its places in lock queues go (15 R362, 12 R314). -/
def State.dropLocks (s : State) (wid : Nat) : State :=
  let w := s.warpD wid
  let s1 := w.liveLocks.foldl (fun s k =>
    (s.lockHomes wid k.line).foldl (fun s dk =>
      let e := s.lockEntry dk k.line
      if e.holder = some wid then s.holderFatal dk k.line
      else s.setLock dk k.line { e with queue := e.queue.filter fun x => x.key != wid }) s) s
  s1.modWarp wid fun w => { w with locks := [] }

/-- A warp ends without completing anything (15 R362). -/
def State.endWarp (s : State) (wid : Nat) : State :=
  let s1 := s.dropLocks wid
  let s2 := { s1 with
    reqs := s1.reqs.filter fun q => !q.2.from wid || q.2.isPosted
    fes := s1.fes.filter fun q => q.2.wid != wid
    posts := s1.posts.filter fun q => q.2.wid != wid || q.2.evnt
    grants := s1.grants.filter fun q => q.2.wid != wid }
  s2.modWarp wid fun w => { w with table := [], moves := [], ended := true, results := [] }

/-- Whether engine work has not begun. -/
def Work.waiting (e : Work) : Bool := e.phase == .queued || e.phase == .stopped || (e.phase == .forked && e.kind != .kmv)

/-- Abort a launch (15 R362). Aborting one that has completed does nothing. No further firing of the armed launch that it came from starts:
that is disarmed, and messages that wait in its buffers are dropped (DESIGN CHOICE, log 88). -/
def State.abortLaunch (s : State) (l : Nat) : State :=
  match s.launch? l with
  | none => s
  | some x =>
    if x.aborted then s   -- it has been aborted already
    else
      let s1 := (s.launchWarps l).foldl State.endWarp s
      let mine (e : Work) : Bool := (s1.blockD e.block).launch == l
      let resident := s1.residentBlocks l
      let s2 := { s1 with
        works := (s1.works.filter fun (q : Nat × Work) => !(mine q.2 && q.2.waiting)).map
          fun (q : Nat × Work) => if mine q.2 then (q.1, { q.2 with aborted := true }) else q
        blocks := (s1.blocks.filter fun (q : Nat × Block) => q.2.launch != l || q.2.resident).map
          fun (q : Nat × Block) => if q.2.launch = l then (q.1, { q.2 with aborted := true }) else q
        warps := s1.warps.filter fun q => (s1.blockD q.2.block).launch != l || (s1.blockD q.2.block).resident
        phases := s1.phases.filter fun q => q.2.launch != l
        armed := match x.firing with
          | some (a, _) => kmod s1.armed a fun (y : Armed) =>
              { y with disarm := true, waiting := [], busy := y.busy.filter fun b => !y.waiting.any fun w => w.1 == b }
          | none => s1.armed }
      let s3 := (s2.freeWires l).modLaunch l fun x =>
        { x with aborted := true, pend := [], images := [], saved := false, halting := false, answers := []
                 drains := if resident.isEmpty then [0] else x.drains }
      s3.modQueue x.queue fun q =>
        { q with waiting := q.waiting.filter fun r => r.launch != l, heldRecs := q.heldRecs.filter fun r => r.launch != l }

end Sys2Proof.Machine
end

