-- ==== Sys2Proof/Machine/Float.lean ====
section
/-! DEFINITION. Number formats and exact arithmetic (04 R77 to R93): values as exact numbers, rounded once. -/

namespace Sys2Proof.Machine

/-- A float format (04 R79): exponent width, fraction width, bias, whether it has infinities. -/
structure FFmt where
  ew   : Nat
  fw   : Nat
  bias : Nat
  inf  : Bool
  deriving DecidableEq, Repr

def fmtF32 : FFmt := ⟨8, 23, 127, true⟩
def fmtF16 : FFmt := ⟨5, 10, 15, true⟩
def fmtBF16 : FFmt := ⟨8, 7, 127, true⟩
def fmtE4M3 : FFmt := ⟨4, 3, 7, false⟩
def fmtE5M2 : FFmt := ⟨5, 2, 15, true⟩

/-- A value: `fin neg m e sticky` is (-1)^neg * (m + d) * 2^e, with 0 < d < 1 when `sticky` and d = 0 otherwise. -/
inductive FVal where
  | nan
  | inf (neg : Bool)
  | fin (neg : Bool) (m : Nat) (e : Int) (sticky : Bool)
  deriving DecidableEq, Repr, Inhabited

/-- How a result is rounded: RM, SAT, FTZ and the random bits with their width (04 R83 to R85). -/
structure Rnd where
  rm  : Nat
  sat : Bool
  ftz : Bool
  rnd : Nat
  w   : Nat
  deriving DecidableEq, Repr

/-- Rounding to nearest even without saturation or flushing (02 R45). -/
def rndRne : Rnd := ⟨0, false, false, 0, 32⟩

/-- The value of a code (04 R79, R80). -/
def FFmt.decode (f : FFmt) (b : Nat) : FVal :=
  let neg := nbits b (f.ew + f.fw) 1 == 1
  let e := nbits b f.fw f.ew
  let m := nbits b 0 f.fw
  if e = 2 ^ f.ew - 1 ∧ f.inf then (if m = 0 then .inf neg else .nan)
  else if e = 2 ^ f.ew - 1 ∧ !f.inf ∧ m = 2 ^ f.fw - 1 then .nan
  else if e = 0 then .fin neg m (1 - (f.bias : Int) - f.fw) false
  else .fin neg (2 ^ f.fw + m) ((e : Int) - f.bias - f.fw) false

/-- Whether a code is subnormal and not zero. -/
def FFmt.isSub (f : FFmt) (b : Nat) : Bool := nbits b f.fw f.ew == 0 && nbits b 0 f.fw != 0

def FFmt.signBit (f : FFmt) (neg : Bool) : Nat := neg.toNat * 2 ^ (f.ew + f.fw)

/-- The canonical NaN (04 R79). -/
def FFmt.nan (f : FFmt) : Nat :=
  if f.inf then (2 ^ f.ew - 1) * 2 ^ f.fw + 2 ^ (f.fw - 1) else 2 ^ (f.ew + f.fw) - 1

/-- The code of infinity, or the canonical NaN of a format without (04 R84). -/
def FFmt.infCode (f : FFmt) (neg : Bool) : Nat := if f.inf then f.signBit neg + (2 ^ f.ew - 1) * 2 ^ f.fw else f.nan

/-- The code of the largest finite value. -/
def FFmt.maxCode (f : FFmt) (neg : Bool) : Nat :=
  f.signBit neg + if f.inf then (2 ^ f.ew - 1) * 2 ^ f.fw - 1 else 2 ^ (f.ew + f.fw) - 2

/-- FTZ acts on F32, F16 and BF16 alone (04 R81). -/
def FFmt.flushes (f : FFmt) : Bool := f != fmtE4M3 && f != fmtE5M2

/-- Read an input under FTZ (04 R81). -/
def FFmt.input (f : FFmt) (ftz : Bool) (b : Nat) : FVal :=
  if ftz && f.flushes && f.isSub b then .fin (nbits b (f.ew + f.fw) 1 == 1) 0 0 false else f.decode b

/-- The number of binary digits. -/
def bitLen (m : Nat) : Nat := if m = 0 then 0 else Nat.log2 m + 1

/-- Whether a magnitude between two neighbours goes to the upper one (04 R83): `rem` of 2^`sh` above the lower one,
plus `sticky`; `odd`: the last bit of the lower one. -/
def roundsUp (r : Rnd) (neg odd : Bool) (rem sh : Nat) (sticky : Bool) : Bool :=
  if rem = 0 ∧ !sticky then false
  else
    let twice := 2 * rem
    let half := 2 ^ sh
    match r.rm with
    | 0 => decide (half < twice) || (twice == half && (sticky || odd))
    | 1 => false
    | 2 => neg
    | 3 => !neg
    | 4 => decide (half ≤ twice)
    | _ =>
      if neg then
        -- up is the value of smaller magnitude: taken when rnd < (1 - g) * 2^w
        !decide (r.rnd * 2 ^ sh + rem * 2 ^ r.w < 2 ^ (sh + r.w))
      else if sticky then decide (r.rnd * 2 ^ sh ≤ rem * 2 ^ r.w)
      else decide (r.rnd * 2 ^ sh < rem * 2 ^ r.w)

/-- The magnitude m * 2^e (plus sticky) in units of 2^q, rounded. -/
def roundUnits (r : Rnd) (neg : Bool) (m : Nat) (e q : Int) (sticky : Bool) : Nat :=
  if q ≤ e then m * 2 ^ (e - q).toNat + (if sticky ∧ roundsUp r neg true 0 64 true then 1 else 0)
  else
    let sh := (q - e).toNat
    let d := m / 2 ^ sh
    d + if roundsUp r neg (d % 2 == 1) (m % 2 ^ sh) sh sticky then 1 else 0

/-- What overflow gives (04 R84). -/
def FFmt.overflow (f : FFmt) (r : Rnd) (neg : Bool) : Nat :=
  let toMax := r.sat || r.rm == 1 || (r.rm == 2 && !neg) || (r.rm == 3 && neg)
  if toMax then f.maxCode neg else f.infCode neg

/-- Round an exact value to a format (04 R80 to R84). -/
def FFmt.round (f : FFmt) (r : Rnd) (x : FVal) : Nat :=
  match x with
  | .nan => f.nan
  | .inf neg => if r.sat then f.maxCode neg else f.infCode neg
  | .fin neg m e sticky =>
    if m = 0 ∧ !sticky then f.signBit neg
    else
      let emin : Int := 1 - (f.bias : Int) - f.fw
      let q := max (e + bitLen m - 1 - f.fw) emin
      let n := roundUnits r neg m e q sticky
      let (n, q) := if n = 2 ^ (f.fw + 1) then (2 ^ f.fw, q + 1) else (n, q)
      if n < 2 ^ f.fw then
        if n ≠ 0 ∧ r.ftz ∧ f.flushes then f.signBit neg else f.signBit neg + n
      else
        let be := (q - emin).toNat + 1
        let code := be * 2 ^ f.fw + (n - 2 ^ f.fw)
        if f.maxCode false < code then f.overflow r neg else f.signBit neg + code

def FVal.isNan : FVal → Bool
  | .nan => true
  | _ => false

def FVal.neg : FVal → FVal
  | .nan => .nan
  | .inf n => .inf (!n)
  | .fin n m e s => .fin (!n) m e s

def FVal.abs : FVal → FVal
  | .nan => .nan
  | .inf _ => .inf false
  | .fin _ m e s => .fin false m e s

def FVal.isNeg : FVal → Bool
  | .nan => false
  | .inf n => n
  | .fin n _ _ _ => n

def FVal.isZero : FVal → Bool
  | .fin _ 0 _ false => true
  | _ => false

/-- A product (04 R80, R82). -/
def FVal.mul (a b : FVal) : FVal :=
  match a, b with
  | .nan, _ | _, .nan => .nan
  | .inf n, x => if x.isZero then .nan else .inf (n != x.isNeg)
  | x, .inf n => if x.isZero then .nan else .inf (n != x.isNeg)
  | .fin n m e _, .fin n' m' e' _ => .fin (n != n') (m * m') (e + e') false

/-- An exact signed number over a power of two. -/
def sgn (neg : Bool) (m : Nat) : Int := if neg then -(m : Int) else m

/-- An exact sum (04 R80, R82); `rm` decides the sign of a sum that is exactly zero. R82 speaks of two zeros of one sign; a sum of three or
more that are all -0 is -0 here, as it is when they are added in turn (DEDUCED, log 93). -/
def FVal.sum (rm : Nat) (l : List FVal) : FVal :=
  if l.any FVal.isNan then .nan
  else
    let infs := l.filterMap fun x => match x with | .inf n => some n | _ => none
    match infs with
    | n :: r => if r.all (· == n) then .inf n else .nan
    | [] =>
      let e := l.foldl (fun a x => match x with | .fin _ _ e _ => min a e | _ => a) (0 : Int)
      let t := l.foldl (fun a x => match x with | .fin n m e' _ => a + sgn n m * 2 ^ (e' - e).toNat | _ => a) (0 : Int)
      if t = 0 then
        -- zeros of one sign keep it; any other exact zero is +0, or -0 under RDN
        if l.all FVal.isZero ∧ (l.all FVal.isNeg ∨ l.all fun x => !x.isNeg) then .fin (l.all FVal.isNeg) 0 0 false else .fin (rm == 2) 0 0 false
      else .fin (decide (t < 0)) t.natAbs e false

/-- Multiplication by a power of two. -/
def FVal.scale (x : FVal) (k : Int) : FVal :=
  match x with
  | .fin n m e s => .fin n m (e + k) s
  | y => y

/-- Order of two values that are not NaN, with -0 below +0 (06 R150): whether a comes before b. -/
def FVal.ltEq (a b : FVal) : Bool :=
  match a, b with
  | .nan, _ | _, .nan => false
  | .inf n, y => n || y == .inf false
  | x, .inf n => !n || x == .inf true
  | .fin n m e _, .fin n' m' e' _ =>
    if m = 0 ∧ m' = 0 then n || !n'
    else
      let c := min e e'
      decide (sgn n m * 2 ^ (e - c).toNat ≤ sgn n' m' * 2 ^ (e' - c).toNat)

/-- Equality of two values that are not NaN; +0 equals -0. -/
def FVal.eqv (a b : FVal) : Bool := (a.isZero && b.isZero) || (FVal.ltEq a b && FVal.ltEq b a)

/-- The compare conditions 0 to 7 on floats (02 R54, 06 R151). -/
def fcondHolds (c : Nat) (a b : FVal) : Bool :=
  if a.isNan || b.isNan then c == 1 || c == 6
  else
    match c with
    | 0 => a.eqv b
    | 1 => !a.eqv b
    | 2 => a.ltEq b && !a.eqv b
    | 3 => a.ltEq b || a.eqv b
    | 4 => b.ltEq a && !a.eqv b
    | 5 => b.ltEq a || a.eqv b
    | 6 => false
    | _ => true

/-! ## Functions (06 R154, R155) -/

/-- Division of magnitudes with 128 digits beyond the point. -/
def divMag (a b : Nat) : Nat × Int × Bool :=
  let k := 128 + bitLen b
  (a * 2 ^ k / b, -(k : Int), a * 2 ^ k % b != 0)

/-- The integer square root, by one bit of the result in each round. -/
def isqrtGo (n : Nat) : Nat → Nat → Nat
  | 0, r => r
  | k + 1, r => if (r + 2 ^ k) * (r + 2 ^ k) ≤ n then isqrtGo n k (r + 2 ^ k) else isqrtGo n k r

def isqrt (n : Nat) : Nat := isqrtGo n (bitLen n / 2 + 1) 0

/-- 1 / x (06 R154). -/
def fRcp : FVal → FVal
  | .nan => .nan
  | .inf n => .fin n 0 0 false
  | .fin n m e _ =>
    if m = 0 then .inf n
    else
      let (q, k, s) := divMag 1 m
      .fin n q (k - e) s

/-- The square root of m * 2^e, m not 0, with 128 digits beyond those of the root. -/
def sqrtMag (m : Nat) (e : Int) : Nat × Int × Bool :=
  let (m, e) := if e % 2 = 0 then (m, e) else (2 * m, e - 1)
  let n := m * 2 ^ 256
  let r := isqrt n
  (r, e / 2 - 128, r * r != n)

def fSqrt : FVal → FVal
  | .nan => .nan
  | .inf n => if n then .nan else .inf false
  | .fin n m e _ =>
    if m = 0 then .fin n 0 0 false
    else if n then .nan
    else
      let (r, k, s) := sqrtMag m e
      .fin false r k s

/-- 1 / sqrt x: the root of 1 / m, formed from 2^(2k) / m. -/
def fRsq : FVal → FVal
  | .nan => .nan
  | .inf n => if n then .nan else .fin false 0 0 false
  | .fin n m e _ =>
    if m = 0 then .inf n
    else if n then .nan
    else
      let (m, e) := if e % 2 = 0 then (m, e) else (2 * m, e - 1)
      let big := 2 ^ (2 * (160 + bitLen m))
      let r := isqrt (big / m)
      .fin false r (-(160 + bitLen m : Nat) - e / 2) (r * r * m != big)

/-- Digits of the fixed-point numbers of the faithful functions. -/
abbrev fxP : Nat := 320
abbrev fxOne : Nat := 2 ^ fxP
def fxMul (a b : Nat) : Nat := a * b / fxOne

/-- sum of z^(2i+1) / (2i+1), `n` terms: atanh z; z2 = z * z. -/
def atanhGo (z2 : Nat) : Nat → Nat → Nat → Nat
  | 0, _, _ => 0
  | n + 1, i, p => p / (2 * i + 1) + atanhGo z2 n (i + 1) (fxMul p z2)

def fxAtanh (z : Nat) : Nat := atanhGo (fxMul z z) 120 0 z

/-- arctan (1 / k) by its alternating series. -/
def atanGo (k2 : Nat) : Nat → Nat → Nat → Int
  | 0, _, _ => 0
  | n + 1, i, p => (if i % 2 = 0 then (1 : Int) else -1) * (p / (2 * i + 1) : Nat) + atanGo k2 n (i + 1) (p / k2)

/-- ln 2 and pi in fixed point. -/
def fxLn2 : Nat := 2 * fxAtanh (fxOne / 3)
def fxPi : Nat := (16 * atanGo 25 80 0 (fxOne / 5) - 4 * atanGo 57121 30 0 (fxOne / 239)).toNat

/-- e^x for fixed-point x below 1: sum of x^i / i!. -/
def expGo (x : Nat) : Nat → Nat → Nat → Nat
  | 0, _, _ => 0
  | n + 1, i, p => p + expGo x n (i + 1) (fxMul p x / (i + 1))

/-- sin and cos: sum of (-1)^i x^(2i+o) / (2i+o)!, p the term. -/
def sinGo (x2 : Nat) (o : Nat) : Nat → Nat → Nat → Int
  | 0, _, _ => 0
  | n + 1, i, p =>
    (if i % 2 = 0 then (p : Int) else -(p : Int))
      + sinGo x2 o n (i + 1) (fxMul p x2 / ((2 * i + o + 1) * (2 * i + o + 2)))

/-- A fixed-point number as a value that is not representable exactly. -/
def ofFx (x : Int) : FVal := .fin (decide (x < 0)) x.natAbs (-(fxP : Int)) true

/-- 2^x (06 R154, R155). -/
def fExp2 : FVal → FVal
  | .nan => .nan
  | .inf n => if n then .fin false 0 0 false else .inf false
  | .fin n m e _ =>
    if m = 0 then .fin false 1 0 false
    else if 0 ≤ e ∧ 12 ≤ e + bitLen m then (if n then .fin false 1 (-4096) true else .fin false 1 4096 true)
    else if 12 ≤ e + bitLen m then (if n then .fin false 1 (-4096) true else .fin false 1 4096 true)
    else
      let k := (-e).toNat
      let x := sgn n (m * 2 ^ e.toNat)
      let i := x / 2 ^ k
      let r := (x % 2 ^ k).toNat
      if r = 0 then .fin false 1 i false
      else
        let f := if k ≤ fxP then r * 2 ^ (fxP - k) else r / 2 ^ (k - fxP)
        .fin false (expGo (fxMul f fxLn2) 90 0 fxOne) (i - fxP) true

/-- log2 x (06 R154, R155). -/
def fLog2 : FVal → FVal
  | .nan => .nan
  | .inf n => if n then .nan else .inf false
  | .fin n m e _ =>
    if m = 0 then .inf true
    else if n then .nan
    else
      let k := bitLen m - 1
      let i := e + k
      if m = 2 ^ k then .fin (decide (i < 0)) i.natAbs 0 false
      else
        let z := (m - 2 ^ k) * fxOne / (m + 2 ^ k)
        ofFx (i * fxOne + (2 * fxAtanh z * fxOne / fxLn2 : Nat))

/-- sin (cosine: cos) of 2 pi x (06 R154, R155). -/
def fTurn (cosine : Bool) : FVal → FVal
  | .nan => .nan
  | .inf _ => .nan
  | .fin n m e _ =>
    if m = 0 then (if cosine then .fin false 1 0 false else .fin n 0 0 false)
    else
      let k := (-e).toNat
      let x := sgn n (m * 2 ^ e.toNat)
      let r := (x % 2 ^ k).toNat
      -- four times the fraction of a turn: quadrant and the rest
      let q := (4 * r / 2 ^ k + if cosine then 1 else 0) % 4
      let t := 4 * r % 2 ^ k
      if t = 0 then
        match q with
        | 0 | 2 => if cosine then .fin false 0 0 false else .fin n 0 0 false
        | 1 => .fin false 1 0 false
        | _ => .fin true 1 0 false
      else
        let u := if k ≤ fxP then t * 2 ^ (fxP - k) else t / 2 ^ (k - fxP)
        -- the angle is u * pi / 2
        let a := fxMul u fxPi / 2
        let a2 := fxMul a a
        let v := if q % 2 = 0 then sinGo a2 1 90 0 a else sinGo a2 0 90 0 fxOne
        ofFx (if q < 2 then v else -v)

/-! ## DUO8 (04 R88 to R91) -/

/-- The value of a DUO8 byte in units of 2^-6 (04 R88). -/
def duoTerm (s c : Nat) : Int := if c = 7 then 0 else sgn (s == 1) (2 ^ (6 - c))
def duoVal (b : Nat) : Int := duoTerm (nbits b 7 1) (nbits b 4 3) + duoTerm (nbits b 3 1) (nbits b 0 3)

/-- The positive values with their canonical bytes and their number of nonzero terms, in units of 2^-6 (04 R89). -/
def duoPos : List (Int × Nat × Nat) :=
  [((128 : Int), 0x00, 2)]
  ++ (List.range 7).map (fun c => (((2 ^ (6 - c) : Nat) : Int), 16 * c + 7, 1))
  ++ (List.range 7).flatMap (fun i => ((List.range 7).filter (fun j => i < j)).map fun j =>
      (((2 ^ (6 - i) + 2 ^ (6 - j) : Nat) : Int), 16 * i + j, 2))
  ++ (List.range 7).flatMap (fun i => ((List.range 7).filter (fun j => i + 3 ≤ j)).map fun j =>
      (((2 ^ (6 - i) : Nat) : Int) - ((2 ^ (6 - j) : Nat) : Int), 16 * i + 8 + j, 2))

/-- All 79 values (04 R88, R89). -/
def duoAll : List (Int × Nat × Nat) :=
  (0, 0x77, 0) :: duoPos ++ duoPos.map fun p =>
    (-p.1, if p.2.1 = 0x00 then 0x88 else 0x80 ||| (if p.2.2 = 1 then p.2.1 else p.2.1 ^^^ 8), p.2.2)

/-- The canonical byte and number of terms of a value. -/
def duoCode (v : Int) : Nat × Nat := ((duoAll.find? fun p => p.1 == v).map fun p => p.2).getD (0x77, 0)

/-- Round an exact value to DUO8 (04 R90). -/
def roundDuo (r : Rnd) (x : FVal) : Nat :=
  match x with
  | .nan => 0x77
  | .inf n => if n then 0x88 else 0x00
  | .fin n m e _ =>
    -- the value in units of 2^-6 is num / den
    let k := e + 6
    let num := sgn n (m * 2 ^ k.toNat)
    let den : Int := 2 ^ (-k).toNat
    let vs := duoAll.map (·.1)
    if 128 * den ≤ num then 0x00
    else if num ≤ -128 * den then 0x88
    else
      let lo := (vs.filter fun v => v * den ≤ num).foldl max (-128)
      let hi := (vs.filter fun v => num ≤ v * den).foldl min 128
      if lo = hi then (duoCode lo).1
      else
        let dl := num - lo * den
        let dh := hi * den - num
        let v :=
          match r.rm with
          | 0 =>
            if dl < dh then lo else if dh < dl then hi
            else
              let tl := (duoCode lo).2
              let th := (duoCode hi).2
              if tl < th then lo else if th < tl then hi else if lo.natAbs ≤ hi.natAbs then lo else hi
          | 1 => if n then hi else lo
          | 2 => lo
          | 3 => hi
          | 4 => if dl < dh then lo else if dh < dl then hi else if lo.natAbs ≤ hi.natAbs then hi else lo
          | _ => if (r.rnd : Int) * (hi - lo) * den < dl * 2 ^ 16 then hi else lo
        (duoCode v).1

/-- The product of a DUO8 byte and an integer in units of 2^-6 (04 R91). -/
def duoMul (a : Int) (w : Nat) : Int := a * duoVal w

/-! ## Element types (01 R21) -/

/-- The elements of a type code. -/
inductive Elem where
  | int (signed : Bool) (n : Nat)
  | flt (f : FFmt)
  | duo
  deriving DecidableEq, Repr

/-- The element type of a type code (01 R21); RAW as unsigned 32 bits. -/
def elemOf (ty : Nat) : Elem :=
  match ty with
  | 1 => .int true 32
  | 3 => .flt fmtF32
  | 4 => .int true 16
  | 5 => .int false 16
  | 6 => .flt fmtF16
  | 7 => .flt fmtBF16
  | 8 => .int true 8
  | 9 => .int false 8
  | 10 => .flt fmtE4M3
  | 11 => .flt fmtE5M2
  | 12 => .duo
  | 13 => .int true 64
  | 14 => .int false 64
  | _ => .int false 32

/-- The integer of n bits, signed or not (04 R77). -/
def intOf (signed : Bool) (n b : Nat) : Int :=
  let x := b % 2 ^ n
  if signed ∧ 2 ^ (n - 1) ≤ x then (x : Int) - 2 ^ n else x

def intMin (signed : Bool) (n : Nat) : Int := if signed then -(2 ^ (n - 1)) else 0
def intMax (signed : Bool) (n : Nat) : Int := if signed then 2 ^ (n - 1) - 1 else 2 ^ n - 1

/-- The low n bits of an integer. -/
def wrapInt (n : Nat) (x : Int) : Nat := (x % 2 ^ n).toNat

def clampInt (signed : Bool) (n : Nat) (x : Int) : Int := max (intMin signed n) (min (intMax signed n) x)

/-- Reduce an exact integer to its type (04 R78). -/
def reduceInt (sat signed : Bool) (n : Nat) (x : Int) : Nat := wrapInt n (if sat then clampInt signed n x else x)

/-- The exact value of an element. -/
def Elem.value (t : Elem) (ftz : Bool) (b : Nat) : FVal :=
  match t with
  | .int s n => let x := intOf s n b; .fin (decide (x < 0)) x.natAbs 0 false
  | .flt f => f.input ftz b
  | .duo => let x := duoVal b; .fin (decide (x < 0)) x.natAbs (-6) false

/-- Round an exact value to an integer, clamped (04 R87). -/
def roundInt (r : Rnd) (signed : Bool) (n : Nat) (x : FVal) : Nat :=
  match x with
  | .nan => 0
  | .inf neg => wrapInt n (if neg then intMin signed n else intMax signed n)
  | .fin neg m e s => wrapInt n (clampInt signed n (sgn neg (roundUnits r neg m e 0 s)))

/-- Convert an element (04 R87). A DUO8 element is rounded to an integer, which R78 reduces or clamps. -/
def convert (src dst : Elem) (r : Rnd) (b : Nat) : Nat :=
  match src, dst with
  | .int s n, .int s' n' =>
    let x := intOf s n b
    if n < n' then wrapInt n' x else reduceInt r.sat s' n' x
  | .int .., .flt f => f.round r (src.value false b)
  | .int .., .duo => roundDuo r (src.value false b)
  | .flt g, .int s' n' => roundInt r s' n' (g.input r.ftz b)
  | .flt g, .flt f => f.round r (g.input r.ftz b)
  | .flt g, .duo => roundDuo r (g.input r.ftz b)
  | .duo, .int s' n' =>
    let x := duoVal b
    reduceInt r.sat s' n' (sgn (decide (x < 0)) (roundUnits r (decide (x < 0)) x.natAbs (-6) 0 false))
  | .duo, .flt f => f.round r (src.value false b)
  | .duo, .duo => roundDuo r (src.value false b)

end Sys2Proof.Machine
end

