-- ==== Sys2Proof/Machine/Flags.lean ====
section
/-! DEFINITION. The flags of format A on float sources and results (02 R43, 06 R148), the rounding of an element
(04 R85), carries and mask results. The machine has no sticky condition flags (00 R2). -/

namespace Sys2Proof.Machine

/-- The random bits and their width of element e (of `n`) of lane l (04 R85). R85 names 32-bit, x2 and x4 elements; the one 64-bit element of a
lane takes its bits as a 32-bit one does, w = 32 and rnd64[31:0] (DEDUCED, log 94). -/
def State.rndElem (s : State) (n l e : Nat) : Nat × Nat :=
  let r := s.rnd64 l
  if n = 1 then (nbits r 0 32, 32) else if n = 2 then (nbits r (32 * e) 32, 32) else (nbits r (16 * e) 16, 16)

/-- The rounding of element e of lane l of a result with `n` elements. -/
def State.rounding (s : State) (f : AFmt) (n l e : Nat) : Rnd :=
  let (r, w) := if f.rm = 5 then s.rndElem n l e else (0, 32)
  ⟨f.rm.toNat, f.flag flSat, f.flag flFtz, r, w⟩

/-- ABS on a source (06 R148 step 2). -/
def absIf (f : AFmt) (x : FVal) : FVal := if f.flag flAbs then x.abs else x

/-- NEGA on the first source, NEGC on the third (06 R148 step 3). -/
def negAIf (f : AFmt) (x : FVal) : FVal := if f.flag flNega then x.neg else x
def negCIf (f : AFmt) (x : FVal) : FVal := if f.flag flNegc then x.neg else x

/-- The float format of a type code: F32, F16 or BF16 (06 R149). -/
def fltOf (ty : Nat) : FFmt := match ty with | 6 => fmtF16 | 7 => fmtBF16 | 10 => fmtE4M3 | 11 => fmtE5M2 | _ => fmtF32

/-- A float source after FTZ and ABS. -/
def fsrc (f : AFmt) (g : FFmt) (x : Nat) : FVal := absIf f (g.input (f.flag flFtz) x)

/-- Bits of active lanes of a mask register (06 R140): the others keep their value. -/
def State.putMaskLanes (s : State) (md lat : Nat) (m : Lanes) (x : Lanes) : State :=
  s.addResult (.msk md) lat m [] (((s.rdM md &&& ~~~m) ||| (x &&& m)).setWidth 64) false

end Sys2Proof.Machine
end

