-- ==== Sys2Proof/Machine/VecInt.lean ====
section
/-! DEFINITION. Integer, logic, compare, select and move instructions on vectors, in formats A and B (06 R136 to R147). -/

namespace Sys2Proof.Machine

/-- Whether the elements of a type are signed (01 R21). -/
def tySigned (ty : Nat) : Bool := ty == 1 || ty == 4 || ty == 8 || ty == 13

/-- The latency of the plain integer instructions (06 R173). -/
def latInt (ty : Nat) : Nat := if isPairTy ty then 6 else 4

/-- The integers of elements of a type. -/
def eInt (ty x : Nat) : Int := intOf (tySigned ty) (elemBits ty) x

/-- A two-source instruction of format A with VD, VA and VB of type TY (06 R137): `g` acts on two elements. -/
def State.vec2 (s : State) (f : AFmt) (lat : Nat) (g : Nat → Nat → Nat → Nat) : Out :=
  let ty := f.ty.toNat
  s.runVec f.sw false (regsOf ty f.vd.toNat ++ regsOf ty f.va.toNat ++ regsB f ty) (rawokOf f)
    (checkOf ty f.va.toNat ++ chkB f ty) lat fun s =>
      s.elemOp f.msk.toNat f.vd.toNat ty lat [opA f, s.opB f] fun _ _ xs => g ty (xs.getD 0 0) (xs.getD 1 0)

/-- A one-source instruction of format A with VD and VA of type TY; `td` is the destination's tag. -/
def State.vec1 (s : State) (f : AFmt) (lat td : Nat) (g : Nat → Nat → Nat) : Out :=
  let ty := f.ty.toNat
  s.runVec f.sw false (regsOf td f.vd.toNat ++ regsOf ty f.va.toNat) (rawokOf f) (checkOf ty f.va.toNat) lat fun s =>
    s.elemOp f.msk.toNat f.vd.toNat td lat [opA f] fun _ _ xs => g ty (xs.getD 0 0)

/-- A two-source instruction of format B: VA and the immediate (06 R136). -/
def State.vecB (s : State) (f : BFmt) (lat : Nat) (g : Nat → Nat → Nat → Nat) : Out :=
  let ty := f.ty.toNat
  s.runVec f.sw false [f.vd.toNat, f.va.toNat] false (checkOf ty f.va.toNat) lat fun s =>
    s.elemOp f.msk.toNat f.vd.toNat ty lat [.reg f.va.toNat, .const f.imm.toNat] fun _ _ xs =>
      g ty (xs.getD 0 0) (xs.getD 1 0)

/-- An exact integer operation, reduced by R78. -/
def intOp (sat : Bool) (h : Int → Int → Int) (ty a b : Nat) : Nat :=
  reduceInt sat (tySigned ty) (elemBits ty) (h (eInt ty a) (eInt ty b))

/-- floor(a * b / 2^n) (06 R137). -/
def mulhElem (ty a b : Nat) : Nat := wrapInt (elemBits ty) (eInt ty a * eInt ty b / 2 ^ elemBits ty)

/-- floor((a + b + 1) / 2) (06 R137). -/
def avgElem (ty a b : Nat) : Nat := wrapInt (elemBits ty) ((eInt ty a + eInt ty b + 1) / 2)
def minElem (ty a b : Nat) : Nat := if eInt ty a ≤ eInt ty b then a else b
def maxElem (ty a b : Nat) : Nat := if eInt ty a ≤ eInt ty b then b else a
def andElem (_ty a b : Nat) : Nat := a &&& b
def orElem (_ty a b : Nat) : Nat := a ||| b
def xorElem (_ty a b : Nat) : Nat := a ^^^ b

/-- Shifts and rotation of an element by a count (06 R145). -/
def shlElem (ty a k : Nat) : Nat := if k < elemBits ty then a * 2 ^ k % 2 ^ elemBits ty else 0
def shrElem (ty a k : Nat) : Nat := if k < elemBits ty then a / 2 ^ k else 0
def sraElem (ty a k : Nat) : Nat := wrapInt (elemBits ty) (intOf true (elemBits ty) a / 2 ^ min k (elemBits ty - 1))
def rotElem (ty a k : Nat) : Nat :=
  let n := elemBits ty
  let r := k % n
  (a * 2 ^ r % 2 ^ n) + a / 2 ^ (n - r)

/-- VADD (06 R137). -/
def execVadd (f : AFmt) (s : State) : Out := s.vec2 f (latInt f.ty.toNat) (intOp (f.flag flSat) (· + ·))

/-- VSUB (06 R137). -/
def execVsub (f : AFmt) (s : State) : Out := s.vec2 f (latInt f.ty.toNat) (intOp (f.flag flSat) (· - ·))

/-- VMUL (06 R137). -/
def execVmul (f : AFmt) (s : State) : Out := s.vec2 f 5 (intOp (f.flag flSat) (· * ·))

/-- VMULH (06 R137). -/
def execVmulh (f : AFmt) (s : State) : Out := s.vec2 f 5 mulhElem

/-- VMIN (06 R137). -/
def execVmin (f : AFmt) (s : State) : Out := s.vec2 f (latInt f.ty.toNat) minElem

/-- VMAX (06 R137). -/
def execVmax (f : AFmt) (s : State) : Out := s.vec2 f (latInt f.ty.toNat) maxElem

/-- VAVG (06 R137). -/
def execVavg (f : AFmt) (s : State) : Out := s.vec2 f (latInt f.ty.toNat) avgElem

/-- VAND (06 R144). -/
def execVand (f : AFmt) (s : State) : Out := s.vec2 f (latInt f.ty.toNat) andElem

/-- VOR (06 R144). -/
def execVor (f : AFmt) (s : State) : Out := s.vec2 f (latInt f.ty.toNat) orElem

/-- VXOR (06 R144). -/
def execVxor (f : AFmt) (s : State) : Out := s.vec2 f (latInt f.ty.toNat) xorElem

/-- VADD with an immediate (06 R136). -/
def execVaddImm (f : BFmt) (s : State) : Out := s.vecB f 4 (intOp f.sat (· + ·))

/-- VSUB with an immediate (06 R136). -/
def execVsubImm (f : BFmt) (s : State) : Out := s.vecB f 4 (intOp f.sat (· - ·))

/-- VMUL with an immediate (06 R136). -/
def execVmulImm (f : BFmt) (s : State) : Out := s.vecB f 5 (intOp f.sat (· * ·))

/-- VAND with an immediate (06 R136). -/
def execVandImm (f : BFmt) (s : State) : Out := s.vecB f 4 andElem

/-- VOR with an immediate (06 R136). -/
def execVorImm (f : BFmt) (s : State) : Out := s.vecB f 4 orElem

/-- VXOR with an immediate (06 R136). -/
def execVxorImm (f : BFmt) (s : State) : Out := s.vecB f 4 xorElem

/-- VMIN with an immediate (06 R136). -/
def execVminImm (f : BFmt) (s : State) : Out := s.vecB f 4 minElem

/-- VMAX with an immediate (06 R136). -/
def execVmaxImm (f : BFmt) (s : State) : Out := s.vecB f 4 maxElem

/-- VSHL with an immediate (06 R136). -/
def execVshlImm (f : BFmt) (s : State) : Out := s.vecB f 4 shlElem

/-- VSHR with an immediate (06 R136). -/
def execVshrImm (f : BFmt) (s : State) : Out := s.vecB f 4 shrElem

/-- VSRA with an immediate (06 R136). -/
def execVsraImm (f : BFmt) (s : State) : Out := s.vecB f 4 sraElem

/-- VMAD (06 R137): one reduction of the exact a * b + c. -/
def execVmad (f : AFmt) (s : State) : Out :=
  let ty := f.ty.toNat
  s.runVec f.sw false ([f.vd.toNat, f.va.toNat] ++ regsB f ty ++ regsC f ty) (rawokOf f)
    (checkOf ty f.va.toNat ++ chkB f ty ++ chkC f ty) 6 fun s =>
      s.elemOp f.msk.toNat f.vd.toNat ty 6 [opA f, s.opB f, s.opC f] fun _ _ xs =>
        reduceInt (f.flag flSat) (tySigned ty) (elemBits ty)
          (eInt ty (xs.getD 0 0) * eInt ty (xs.getD 1 0) + eInt ty (xs.getD 2 0))

/-- VABS (06 R137). -/
def execVabs (f : AFmt) (s : State) : Out :=
  s.vec1 f (latInt f.ty.toNat) f.ty.toNat fun ty a => reduceInt (f.flag flSat) true (elemBits ty) (eInt ty a).natAbs

/-- VNEG (06 R137). -/
def execVneg (f : AFmt) (s : State) : Out :=
  s.vec1 f (latInt f.ty.toNat) f.ty.toNat fun ty a => reduceInt (f.flag flSat) true (elemBits ty) (-(eInt ty a))

/-- VNOT (06 R144). -/
def execVnot (f : AFmt) (s : State) : Out :=
  s.vec1 f (latInt f.ty.toNat) f.ty.toNat fun ty a => 2 ^ elemBits ty - 1 - a

/-- Add or subtract with a carry held in a mask register (06 R139): `h` gives the value before reduction. -/
def State.carryOp (s : State) (f : AFmt) (h : Int → Int → Int → Int) : Out :=
  let ty := f.ty.toNat
  s.runVec f.sw false ([f.vd.toNat, f.va.toNat] ++ regsB f ty) (rawokOf f) (checkOf ty f.va.toNat ++ chkB f ty) 4 fun s =>
    let m := s.effective f.msk.toNat
    let c := s.rdM f.vc.toNat
    let o := s.opB f
    let t := (lanesOf m).map fun l =>
      (l, h (s.opd 1 (opA f) l) (s.opd 1 o l) (c.getLsbD l).toNat)
    let out := maskOf ((t.filter fun p => p.2 < 0 || 2 ^ 32 ≤ p.2).map (·.1))
    (s.putTyped f.vd.toNat ty 4 m (t.map fun p => (p.1, wrapInt 32 p.2))).putMaskLanes f.vc.toNat 4 m out

/-- VADDC (06 R139). -/
def execVaddc (f : AFmt) (s : State) : Out := s.carryOp f fun a b c => a + b + c
/-- VSUBB (06 R139). -/
def execVsubb (f : AFmt) (s : State) : Out := s.carryOp f fun a b c => a - b - c

/-- VSAD (06 R138): the sum of absolute differences added to a 32-bit accumulator. -/
def execVsad (f : AFmt) (s : State) : Out :=
  let ty := f.ty.toNat
  s.runVec f.sw false ([f.vd.toNat, f.va.toNat, f.vb.toNat] ++ regsC f 2) (rawokOf f)
    (checkOf ty f.va.toNat ++ checkOf ty f.vb.toNat ++ chkC f 2) 6 fun s =>
      let m := s.effective f.msk.toNat
      let oc := s.opC f
      s.putTyped f.vd.toNat 2 6 m ((lanesOf m).map fun l =>
        let a := s.opd (elemCount ty) (opA f) l
        let b := s.opd (elemCount ty) (.reg f.vb.toNat) l
        let t := (List.range (elemCount ty)).foldl (fun x e =>
          x + (eInt ty (elemAt ty a e) - eInt ty (elemAt ty b e)).natAbs) (s.opd 1 oc l)
        (l, reduceInt (f.flag flSat) false 32 t))

/-- VCMP (06 R140): mask bits of the active lanes. -/
def execVcmp (f : AFmt) (s : State) : Out :=
  let ty := f.ty.toNat
  s.runVec f.sw false (regsOf ty f.va.toNat ++ regsB f ty) (rawokOf f) (checkOf ty f.va.toNat ++ chkB f ty) (latInt ty) fun s =>
    let m := s.effective f.msk.toNat
    let o := s.opB f
    s.putMaskLanes f.vd.toNat (latInt ty) m (maskOf ((lanesOf m).filter fun l =>
      condHolds f.rm.toNat (eInt ty (s.opd 1 (opA f) l)) (eInt ty (s.opd 1 o l))))

/-- VSEL (06 R141). -/
def execVsel (f : AFmt) (s : State) : Out :=
  let ty := f.ty.toNat
  s.runVec f.sw false (regsOf ty f.vd.toNat ++ regsOf ty f.va.toNat ++ regsB f ty) (rawokOf f)
    (checkOf ty f.va.toNat ++ chkB f ty) (latInt ty) fun s =>
      let c := s.rdM f.vc.toNat
      s.elemOp f.msk.toNat f.vd.toNat ty (latInt ty) [opA f, s.opB f] fun l _ xs =>
        if c.getLsbD l then xs.getD 0 0 else xs.getD 1 0

/-- VMOV (06 R142): with TY 0 the destination takes VA's tag. -/
def execVmov (f : AFmt) (s : State) : Out :=
  let ty := f.ty.toNat
  s.runVec f.sw false (regsOf ty f.vd.toNat ++ regsOf ty f.va.toNat) (rawokOf f) (checkOf ty f.va.toNat) (latInt ty) fun s =>
    let t := s.tagOfReg f.va.toNat
    let s1 := s.elemOp f.msk.toNat f.vd.toNat ty (latInt ty) [opA f] fun _ _ xs => xs.getD 0 0
    if ty = 0 then s1.setTag f.vd.toNat t else s1

/-- VMOVS (06 R143). -/
def execVmovs (f : AFmt) (s : State) : Out :=
  let ty := f.ty.toNat
  s.runVec f.sw false (regsOf ty f.vd.toNat) false [] (latInt ty) fun s =>
    s.elemOp f.msk.toNat f.vd.toNat ty (latInt ty) [s.opB f] fun _ _ xs => xs.getD 0 0

/-- VMOV of an immediate (06 R136). -/
def execVmovImm (f : BFmt) (s : State) : Out :=
  s.runVec f.sw false [f.vd.toNat] false [] 4 fun s =>
    s.elemOp f.msk.toNat f.vd.toNat f.ty.toNat 4 [.const f.imm.toNat] fun _ _ xs => xs.getD 0 0

/-- A shift of format A (06 R145): for a pair the count is one 32-bit register checked as N32, or a scalar's bits 31:0. -/
def State.shiftOp (s : State) (f : AFmt) (g : Nat → Nat → Nat → Nat) : Out :=
  let ty := f.ty.toNat
  if isPairTy ty then
    s.runVec f.sw false (regsOf ty f.vd.toNat ++ regsOf ty f.va.toNat ++ regsB f 2) (rawokOf f)
      (checkOf ty f.va.toNat ++ chkB f 2) 6 fun s =>
        let o := if f.flag flScb then s.scalarOpd 2 (f.vb.toNat % 64) else .reg f.vb.toNat
        s.elemOp f.msk.toNat f.vd.toNat ty 6 [opA f, o] fun _ _ xs => g ty (xs.getD 0 0) (xs.getD 1 0)
  else s.vec2 f 4 g

/-- VSHL (06 R145). -/
def execVshl (f : AFmt) (s : State) : Out := s.shiftOp f shlElem
/-- VSHR (06 R145). -/
def execVshr (f : AFmt) (s : State) : Out := s.shiftOp f shrElem
/-- VSRA (06 R145). -/
def execVsra (f : AFmt) (s : State) : Out := s.shiftOp f sraElem
/-- VROT (06 R145). -/
def execVrot (f : AFmt) (s : State) : Out := s.shiftOp f rotElem

/-- VCLZ (06 R146): the destination is tagged N32. -/
def execVclz (f : AFmt) (s : State) : Out := s.vec1 f 4 2 fun _ a => clzOf (BitVec.ofNat 32 a)
/-- VPOPC (06 R146): the destination is tagged N32. -/
def execVpopc (f : AFmt) (s : State) : Out := s.vec1 f 4 2 fun _ a => popc (BitVec.ofNat 32 a)

/-- Extract the field of position operand k (06 R147). -/
def vbfxElem (ty a k : Nat) : Nat :=
  let p := nbits k 0 5
  let w := min (nbits k 8 6) 32
  if w = 0 then 0
  else if ty = 1 then wrapInt 32 (intOf true w (wrapInt 32 (intOf true 32 a / 2 ^ p)))
  else a / 2 ^ p % 2 ^ w

/-- Insert into the field of position operand k (06 R147). -/
def vbfiElem (a b k : Nat) : Nat :=
  let p := nbits k 0 5
  let w := min (nbits k 8 6) (32 - p)
  a - nbits a p w * 2 ^ p + b % 2 ^ w * 2 ^ p

/-- VBFX (06 R147). -/
def execVbfx (f : AFmt) (s : State) : Out :=
  let ty := f.ty.toNat
  s.runVec f.sw false ([f.vd.toNat, f.va.toNat] ++ regsB f 2) (rawokOf f) (checkOf ty f.va.toNat ++ chkB f 2) 4 fun s =>
    s.elemOp f.msk.toNat f.vd.toNat ty 4 [opA f, s.opB f] fun _ _ xs => vbfxElem ty (xs.getD 0 0) (xs.getD 1 0)

/-- VBFI (06 R147). -/
def execVbfi (f : AFmt) (s : State) : Out :=
  let ty := f.ty.toNat
  s.runVec f.sw false ([f.vd.toNat, f.va.toNat] ++ regsB f ty ++ regsC f 2) (rawokOf f)
    (checkOf ty f.va.toNat ++ chkB f ty ++ chkC f 2) 4 fun s =>
      s.elemOp f.msk.toNat f.vd.toNat ty 4 [opA f, s.opB f, s.opC f] fun _ _ xs =>
        vbfiElem (xs.getD 0 0) (xs.getD 1 0) (xs.getD 2 0)

end Sys2Proof.Machine
end

