-- ==== Sys2Proof/Machine/VecFloat.lean ====
section
/-! DEFINITION. Float instructions on vectors (06 R148 to R156) and conversions (R157 to R161). -/

namespace Sys2Proof.Machine

/-- A float instruction of two sources (06 R149): `g` forms the exact result from the sources after FTZ, ABS and NEGA. -/
def State.float2 (s : State) (f : AFmt) (g : Nat → FVal → FVal → FVal) : Out :=
  let ty := f.ty.toNat
  let t := fltOf ty
  s.runVec f.sw (f.rm == 5) ([f.vd.toNat, f.va.toNat] ++ regsB f ty) (rawokOf f) (checkOf ty f.va.toNat ++ chkB f ty) 6 fun s =>
    s.elemOp f.msk.toNat f.vd.toNat ty 6 [opA f, s.opB f] fun l e xs =>
      t.round (s.rounding f (elemCount ty) l e) (g f.rm.toNat (negAIf f (fsrc f t (xs.getD 0 0))) (fsrc f t (xs.getD 1 0)))

/-- A float instruction of format B (06 R136): RNE, subnormals kept. -/
def State.floatB (s : State) (f : BFmt) (g : FFmt → FVal → FVal → Nat) (lat : Nat) : Out :=
  let t := fltOf f.ty.toNat
  s.vecB f lat fun _ a b => g t (t.decode a) (t.decode b)

def exAdd (rm : Nat) (a b : FVal) : FVal := FVal.sum rm [a, b]
def exSub (rm : Nat) (a b : FVal) : FVal := FVal.sum rm [a, b.neg]

/-- VFADD (06 R149). -/
def execVfadd (f : AFmt) (s : State) : Out := s.float2 f exAdd
/-- VFSUB (06 R149). -/
def execVfsub (f : AFmt) (s : State) : Out := s.float2 f exSub
/-- VFMUL (06 R149). -/
def execVfmul (f : AFmt) (s : State) : Out := s.float2 f fun _ a b => a.mul b
/-- VFADD with an immediate (06 R136). -/
def execVfaddImm (f : BFmt) (s : State) : Out := s.floatB f (fun t a b => t.round rndRne (exAdd 0 a b)) 6
/-- VFMUL with an immediate (06 R136). -/
def execVfmulImm (f : BFmt) (s : State) : Out := s.floatB f (fun t a b => t.round rndRne (a.mul b)) 6

/-- VFMA (06 R149): one rounding of the exact (a * b) + c. -/
def execVfma (f : AFmt) (s : State) : Out :=
  let ty := f.ty.toNat
  let t := fltOf ty
  s.runVec f.sw (f.rm == 5) ([f.vd.toNat, f.va.toNat] ++ regsB f ty ++ regsC f ty) (rawokOf f)
    (checkOf ty f.va.toNat ++ chkB f ty ++ chkC f ty) 6 fun s =>
      s.elemOp f.msk.toNat f.vd.toNat ty 6 [opA f, s.opB f, s.opC f] fun l e xs =>
        t.round (s.rounding f (elemCount ty) l e) (FVal.sum f.rm.toNat
          [negAIf f ((fsrc f t (xs.getD 0 0)).mul (fsrc f t (xs.getD 1 0))), negCIf f (fsrc f t (xs.getD 2 0))])

/-- The smaller (larger) operand, NaN-aware (06 R150). -/
def fminV (a b : FVal) : FVal := if a.isNan then b else if b.isNan then a else if a.ltEq b then a else b
def fmaxV (a b : FVal) : FVal := if a.isNan then b else if b.isNan then a else if a.ltEq b then b else a

/-- A minimum or maximum: the operand after the input steps, not rounded (06 R150). -/
def State.fpick (s : State) (f : AFmt) (g : FVal → FVal → FVal) : Out :=
  let ty := f.ty.toNat
  let t := fltOf ty
  s.vec2 f 4 fun _ a b => t.round rndRne (g (negAIf f (fsrc f t a)) (fsrc f t b))

/-- VFMIN (06 R150). -/
def execVfmin (f : AFmt) (s : State) : Out := s.fpick f fminV
/-- VFMAX (06 R150). -/
def execVfmax (f : AFmt) (s : State) : Out := s.fpick f fmaxV
/-- VFMIN with an immediate (06 R136). -/
def execVfminImm (f : BFmt) (s : State) : Out := s.floatB f (fun t a b => t.round rndRne (fminV a b)) 4
/-- VFMAX with an immediate (06 R136). -/
def execVfmaxImm (f : BFmt) (s : State) : Out := s.floatB f (fun t a b => t.round rndRne (fmaxV a b)) 4

/-- VFCMP (06 R151). -/
def execVfcmp (f : AFmt) (s : State) : Out :=
  s.runVec f.sw false (f.va.toNat :: regsB f 3) (rawokOf f) (checkOf 3 f.va.toNat ++ chkB f 3) 4 fun s =>
    let m := s.effective f.msk.toNat
    let o := s.opB f
    s.putMaskLanes f.vd.toNat 4 m (maskOf ((lanesOf m).filter fun l =>
      fcondHolds f.rm.toNat (negAIf f (fsrc f fmtF32 (s.opd 1 (opA f) l))) (fsrc f fmtF32 (s.opd 1 o l))))

/-- A dot product (06 R152): the elements of VA and VB, which FTZ does not flush, rounded once to F32. -/
def State.dotOp (s : State) (f : AFmt) (tyb : Nat) : Out :=
  let ty := f.ty.toNat
  let n := elemCount ty
  s.runVec f.sw (f.rm == 5) ([f.vd.toNat, f.va.toNat, f.vb.toNat] ++ regsC f 3) (rawokOf f)
    (checkOf ty f.va.toNat ++ checkOf tyb f.vb.toNat ++ chkC f 3) 6 fun s =>
      let m := s.effective f.msk.toNat
      let oc := s.opC f
      s.putTyped f.vd.toNat 3 6 m ((lanesOf m).map fun l =>
        let a := s.opd n (.reg f.va.toNat) l
        let b := s.opd n (.reg f.vb.toNat) l
        let prods := (List.range n).map fun e =>
          negAIf f ((absIf f ((fltOf ty).input false (elemAt ty a e))).mul (absIf f ((fltOf tyb).input false (elemAt ty b e))))
        (l, fmtF32.round (s.rounding f 1 l 0)
          (FVal.sum f.rm.toNat (prods ++ [negCIf f (fsrc f fmtF32 (s.opd 1 oc l))]))))

/-- VFDOT2 (06 R152). -/
def execVfdot2 (f : AFmt) (s : State) : Out := s.dotOp f f.ty.toNat
/-- VFDOT4 (06 R152): with XF, VB holds the other FP8 format. -/
def execVfdot4 (f : AFmt) (s : State) : Out := s.dotOp f (if f.flag flXf then 21 - f.ty.toNat else f.ty.toNat)

/-- The class bit of an F32 value (06 R156). -/
def fclass (x : Nat) : Nat :=
  match fmtF32.decode x with
  | .nan => 0
  | .inf n => if n then 1 else 8
  | .fin n m _ _ =>
    if m = 0 then (if n then 4 else 5)
    else if fmtF32.isSub x then (if n then 3 else 6)
    else if n then 2 else 7

/-- VFCLASS (06 R156): an N32 value with one bit set. -/
def execVfclass (f : AFmt) (s : State) : Out :=
  s.runVec f.sw false [f.vd.toNat, f.va.toNat] (rawokOf f) (checkOf 3 f.va.toNat) 4 fun s =>
    s.elemOp f.msk.toNat f.vd.toNat 2 4 [.reg f.va.toNat] fun _ _ xs => 2 ^ fclass (xs.getD 0 0)

/-- Round to an integral value of the same format (06 R153). -/
def roundIntegral (t : FFmt) (r : Rnd) (x : FVal) : Nat :=
  match x with
  | .fin n m e st => if 0 ≤ e then t.round rndRne x else t.round rndRne (.fin n (roundUnits r n m e 0 st) 0 false)
  | y => t.round rndRne y

/-- VFRND (06 R153); SR uses 32 bits for each element. -/
def execVfrnd (f : AFmt) (s : State) : Out :=
  let ty := f.ty.toNat
  let t := fltOf ty
  s.runVec f.sw (f.rm == 5) [f.vd.toNat, f.va.toNat] (rawokOf f) (checkOf ty f.va.toNat) 6 fun s =>
    s.elemOp f.msk.toNat f.vd.toNat ty 6 [opA f] fun l e xs =>
      roundIntegral t (s.rounding f (elemCount ty) l e) (t.input (f.flag flFtz) (xs.getD 0 0))

/-- A function of opcode 0x23 (06 R154): `g` rounds the exact value; each quad of the split is busy for 4 clk (R173). -/
def State.unaryOp (s : State) (f : AFmt) (g : State → Nat → FVal → Nat) : Out :=
  s.runVec f.sw (f.rm == 5) [f.vd.toNat, f.va.toNat] (rawokOf f) (checkOf 3 f.va.toNat) 20 fun s =>
    let w := s.curWarp
    let quads := ((lanesOf s.curSplit.lmask).map (· / 4)).eraseDups
    (s.elemOp f.msk.toNat f.vd.toNat 3 20 [.reg f.va.toNat] fun l _ xs =>
      g s l (negAIf f (fsrc f fmtF32 (xs.getD 0 0)))).modCore s.curBlock.ck fun c =>
        { c with trans := kputs c.trans (quads.map fun q => (16 * w.part + 8 * w.half + q, s.clk + 4)) }

/-- VFRCP (06 R154, R155): correctly rounded. -/
def execVfrcp (f : AFmt) (s : State) : Out := s.unaryOp f fun s l x => fmtF32.round (s.rounding f 1 l 0) (fRcp x)
/-- VFRSQ (06 R154, R155): correctly rounded. -/
def execVfrsq (f : AFmt) (s : State) : Out := s.unaryOp f fun s l x => fmtF32.round (s.rounding f 1 l 0) (fRsq x)
/-- VFSQRT (06 R154, R155): correctly rounded. -/
def execVfsqrt (f : AFmt) (s : State) : Out := s.unaryOp f fun s l x => fmtF32.round (s.rounding f 1 l 0) (fSqrt x)

/-- A faithful result (06 R155): the value when it is one of F32, else one of its two neighbours, left open (log 2). -/
def State.faithful (s : State) (f : AFmt) (l : Nat) (y : FVal) : Nat :=
  fmtF32.round ⟨if Config.faithfulUp s.free l then 3 else 2, false, f.flag flFtz, 0, 32⟩ y

/-- VFEXP2 (06 R154, R155): faithful. -/
def execVfexp2 (f : AFmt) (s : State) : Out := s.unaryOp f fun s l x => s.faithful f l (fExp2 x)
/-- VFLOG2 (06 R154, R155): faithful. -/
def execVflog2 (f : AFmt) (s : State) : Out := s.unaryOp f fun s l x => s.faithful f l (fLog2 x)
/-- VFSIN (06 R154, R155): faithful. -/
def execVfsin (f : AFmt) (s : State) : Out := s.unaryOp f fun s l x => s.faithful f l (fTurn false x)
/-- VFCOS (06 R154, R155): faithful. -/
def execVfcos (f : AFmt) (s : State) : Out := s.unaryOp f fun s l x => s.faithful f l (fTurn true x)

/-! ## Conversion -/

/-- VCVT (06 R157): VC holds the input type. -/
def execVcvt (f : AFmt) (s : State) : Out :=
  let ty := f.ty.toNat
  let ti := f.vc.toNat
  s.runVec f.sw (f.rm == 5) (regsOf ty f.vd.toNat ++ regsOf ti f.va.toNat) (rawokOf f) (checkOf ti f.va.toNat) 6 fun s =>
    let m := s.effective f.msk.toNat
    let o : VOpd := if isPairTy ti then .pair f.va.toNat else .reg f.va.toNat
    s.putTyped f.vd.toNat ty 6 m ((lanesOf m).map fun l =>
      let x := s.opd (elemCount ti) o l
      (l, packElems ty fun e => convert (elemOf ti) (elemOf ty) (s.rounding f (elemCount ty) l e) (elemAt ti x e)))

/-- VPACK (06 R158): `per` elements from each source. -/
def State.packOp (s : State) (f : AFmt) (per : Nat) : Out :=
  let ty := f.ty.toNat
  let ti := f.vc.toNat
  s.runVec f.sw (f.rm == 5) [f.vd.toNat, f.va.toNat, f.vb.toNat] (rawokOf f) (checkOf ti f.va.toNat ++ checkOf ti f.vb.toNat) 6
    fun s =>
      let m := s.effective f.msk.toNat
      s.putTyped f.vd.toNat ty 6 m ((lanesOf m).map fun l =>
        let a := s.opd per (.reg f.va.toNat) l
        let b := s.opd per (.reg f.vb.toNat) l
        (l, packElems ty fun e =>
          convert (elemOf ti) (elemOf ty) (s.rounding f (elemCount ty) l e)
            (elemAt ti (if e < per then a else b) (e % per))))

/-- VPACK of two 32-bit sources (06 R158). -/
def execVpackX2 (f : AFmt) (s : State) : Out := s.packOp f 1
/-- VPACK of two x2 sources (06 R158). -/
def execVpackX4 (f : AFmt) (s : State) : Out := s.packOp f 2

/-- VUNPK (06 R158): element e of a packed source. -/
def execVunpk (e : BitVec 4) (f : AFmt) (s : State) : Out :=
  let ty := f.ty.toNat
  let ti := f.vc.toNat
  s.runVec f.sw (f.rm == 5) [f.vd.toNat, f.va.toNat] (rawokOf f) (checkOf ti f.va.toNat) 6 fun s =>
    let m := s.effective f.msk.toNat
    s.putTyped f.vd.toNat ty 6 m ((lanesOf m).map fun l =>
      (l, convert (elemOf ti) (elemOf ty) (s.rounding f 1 l 0) (elemAt ti (s.opd (elemCount ti) (.reg f.va.toNat) l) e.toNat)))

/-- VTAG (06 R159): sets tags at issue for the whole warp, no bits. -/
def execVtag (f : AFmt) (s : State) : Out :=
  let ty := f.ty.toNat
  s.runVec f.sw false (regsOf ty f.vd.toNat) true [] 2 fun s =>
    let s1 := s.setTag f.vd.toNat f.ty
    if isPairTy ty then s1.setTag (f.vd.toNat + 1) 15 else s1

/-- VQDUO (06 R160): four F32 registers to one DUO8x4 register with a scalar exponent. -/
def execVqduo (f : AFmt) (s : State) : Out :=
  let va := f.va.toNat
  let src := [va, va + 1, va + 2, va + 3]
  s.runVec f.sw (f.rm == 5) (f.vd.toNat :: src) (rawokOf f) (src.flatMap (checkOf 3)) 6 fun s =>
    let m := s.effective f.msk.toNat
    let k := intOf true 16 (s.rdS (f.vc.toNat % 64)).toNat
    s.putTyped f.vd.toNat 12 6 m ((lanesOf m).map fun l =>
      (l, packElems 12 fun e =>
        roundDuo (s.rounding f 4 l e) ((fmtF32.input (f.flag flFtz) (s.opd 1 (.reg (va + e)) l)).scale (-k))))

/-- VSCALE (06 R161): the scale is read as I32 for F32 and as I16x2 for the x2 types. -/
def execVscale (f : AFmt) (s : State) : Out :=
  let ty := f.ty.toNat
  let tb := if ty = 3 then 1 else 4
  let t := fltOf ty
  s.runVec f.sw (f.rm == 5) ([f.vd.toNat, f.va.toNat] ++ regsB f tb) (rawokOf f) (checkOf ty f.va.toNat ++ chkB f tb) 6 fun s =>
    s.elemOp f.msk.toNat f.vd.toNat ty 6 [opA f, s.opB f] fun l e xs =>
      t.round (s.rounding f (elemCount ty) l e)
        ((t.input (f.flag flFtz) (xs.getD 0 0)).scale (intOf true (elemBits ty) (xs.getD 1 0)))

end Sys2Proof.Machine
end

