-- ==== Sys2Proof/Machine/Atomics.lean ====
section
/-! DEFINITION. Atomics (07 R190 to R193): the groups sent by an instruction, and the sequence that the home applies. -/

namespace Sys2Proof.Machine

/-- The check of DATA by the operation of an atomic (07 R190). -/
def atomChk (op : Nat) (f : MFmt) : List TagCheck :=
  let wide := f.sz.toNat = 3
  if op = 5 ∨ op = 6 then checkOf (if wide then 13 else 1) f.data.toNat
  else if op = 7 ∨ op = 8 then checkOf (if wide then 14 else 2) f.data.toNat
  else if 12 ≤ op ∧ op ≤ 14 then checkOf 3 f.data.toNat
  else []

/-- Lanes grouped by address, each group in ascending lane order (07 R192). -/
def groupLanes : List (Nat × Word) → List (Word × List Nat) → List (Word × List Nat)
  | [], acc => acc
  | (l, a) :: r, acc =>
    groupLanes r (if acc.any fun q => q.1 == a then acc.map fun q => if q.1 = a then (q.1, q.2 ++ [l]) else q else acc ++ [(a, [l])])

/-- The operand at a register of a lane: a pair for SZ 3. -/
def State.atomOpnd (s : State) (f : MFmt) (r l : Nat) : Word := if f.sz.toNat = 3 then s.rdPair r l else (s.rdV r l 1).setWidth 64

/-- The memory results of a fetching atomic: DATA keeps its tags (07 R190). -/
def State.atomDests (s : State) (lanes : Lanes) : List Nat → State × List Nat
  | [] => (s, [])
  | r :: rest =>
    let s1 := (s.addResult (.vec r) 0 lanes [] 0 true).setTag r (s.tagOfReg r)
    let (s2, ids) := s1.atomDests lanes rest
    (s2, s.nextId :: ids)

/-- Post the groups of an atomic (07 R192): `opnds` holds lane, operand and compare value. -/
def State.postGroups (s : State) (f : MFmt) (kind : ReqKind) (op : Nat) (ids : List Nat) (la : List (Nat × Word))
    (opnds : Nat → Word × Word) : State :=
  let seq := s.nextId
  let gs := groupLanes la []
  let slow := 4 + if gs.any fun g => decide (1 < g.2.length) then 18 else 0
  s.postAll (gs.map fun (g : Word × List Nat) =>
    { s.newReq kind (maskOf g.2) seq g.1 (szBytes f) f with
      slow := slow, op := op, regs := ids, opnds := g.2.map fun l => (l, (opnds l).1, (opnds l).2) })

/-- ATOM (07 R190). -/
def execAtom (op : BitVec 4) (f : MFmt) (s : State) : Out :=
  let la := s.laneAddrs f
  s.runMem f (dataRegs f ++ idxRegs f) (atomChk op.toNat f ++ idxChk f) (addrFault (la.map (·.2)) (szBytes f)) fun s =>
    let (s1, ids) := s.atomDests (s.effective f.msk.toNat) (dataRegs f)
    s1.postGroups f .atom op.toNat ids la fun l => (s.atomOpnd f f.data.toNat l, 0)

/-- ATOMC (07 R191): compare value at DATA, new value at the next register or pair. -/
def execAtomc (f : MFmt) (s : State) : Out :=
  let la := s.laneAddrs f
  let d := f.data.toNat
  let n := (dataRegs f).length
  s.runMem f ((List.range (2 * n)).map (d + ·) ++ idxRegs f) (idxChk f) (addrFault (la.map (·.2)) (szBytes f)) fun s =>
    let (s1, ids) := s.atomDests (s.effective f.msk.toNat) (dataRegs f)
    s1.postGroups f .atom 15 ids la fun l => (s.atomOpnd f (d + n) l, s.atomOpnd f d l)

/-- RED (07 R190): posted. -/
def execRed (op : BitVec 4) (f : MFmt) (s : State) : Out :=
  let la := s.laneAddrs f
  s.runMem f (dataRegs f ++ idxRegs f) (atomChk op.toNat f ++ idxChk f) (addrFault (la.map (·.2)) (szBytes f)) fun s =>
    s.postGroups f .red op.toNat [] la fun l => (s.atomOpnd f f.data.toNat l, 0)

/-- The new value of an operation on `n` bits (07 R190, R191); operation 15 is compare and exchange. -/
def atomNew (op n old b c : Nat) : Nat :=
  match op with
  | 0 => (old + b) % 2 ^ n
  | 1 => (old + 2 ^ n - b % 2 ^ n) % 2 ^ n
  | 2 => old &&& b
  | 3 => old ||| b
  | 4 => old ^^^ b
  | 5 => if intOf true n old ≤ intOf true n b then old else b
  | 6 => if intOf true n old ≤ intOf true n b then b else old
  | 7 => min old b
  | 8 => max old b
  | 9 => b
  | 10 => if b ≤ old then 0 else old + 1
  | 11 => if old = 0 ∨ b < old then b else old - 1
  | 12 => fmtF32.round rndRne (FVal.sum 0 [fmtF32.decode old, fmtF32.decode b])
  | 13 => fmtF32.round rndRne (fminV (fmtF32.decode old) (fmtF32.decode b))
  | 14 => fmtF32.round rndRne (fmaxV (fmtF32.decode old) (fmtF32.decode b))
  | _ => if old = c then b else old

/-- The contiguous sequence of a group (07 R192): the value left and each lane's old value. -/
def atomSeq (op n : Nat) : Nat → List (Nat × Word × Word) → Nat × List (Nat × Word)
  | x, [] => (x, [])
  | x, (l, b, c) :: r =>
    let (y, o) := atomSeq op n (atomNew op n x (b.toNat % 2 ^ n) (c.toNat % 2 ^ n)) r
    (y, (l, BitVec.ofNat 64 x) :: o)

end Sys2Proof.Machine
end

