-- ==== Sys2Proof/Machine/FaultQueue.lean ====
section
/-! DEFINITION. The driver's fault queue (16 R386, R389, R390), the signals of the firmware cores (16 R391) and the telemetry
counters (17 R406). -/

namespace Sys2Proof.Machine

/-- Causes of the records of the driver's fault queue (16 R386, R389). -/
abbrev fqLockcycle : Nat := 16
abbrev fqAlias : Nat := 17
abbrev fqCohlost : Nat := 18
abbrev fqCohfix : Nat := 19
abbrev fqTakeover : Nat := 20
abbrev fqJournal : Nat := 21
abbrev fqBumpdone : Nat := 22
abbrev fqXlate : Nat := 24
abbrev fqIfetch : Nat := 25

/-- Whether the fault queue has no room. -/
def FrontEnd.fqFull (f : FrontEnd) : Bool := decide (2 ^ f.fqlog ≤ ringCount f.fqprod f.fqcons)

/-- Write a record of 32 bytes, given as four words. -/
def State.fqWrite (s : State) (r : List Word) : State :=
  let s1 := s.feWrite s.drvAsid (s.fe.fqbase.toNat + 32 * (s.fe.fqprod % 2 ^ s.fe.fqlog)) (r.flatMap fun w => natBytes w.toNat 8)
  { s1 with fe := { s1.fe with fqprod := (s1.fe.fqprod + 1) % 2 ^ 32 } }

/-- Post a record: held, in order, while the queue is full. -/
def State.fqPost (s : State) (w0 w1 w2 w3 : Nat) : State :=
  let r : List Word := [w0, w1, w2, w3].map (BitVec.ofNat 64)
  if s.fe.fqHeld.isEmpty ∧ !s.fe.fqFull then s.fqWrite r else { s with fe := { s.fe with fqHeld := s.fe.fqHeld ++ [r] } }

/-- Write held records while there is room. -/
def State.fqFlush (s : State) : Nat → State
  | 0 => s
  | n + 1 =>
    match s.fe.fqHeld with
    | [] => s
    | r :: rest => if s.fe.fqFull then s else ({ s with fe := { s.fe with fqHeld := rest } }.fqWrite r).fqFlush n

/-- The 4 KiB page of an address. -/
def pageOf (va : Nat) : Nat := va % 2 ^ 57 / 4096 * 4096

/-- The record of a translation fault (16 R386). -/
def Ticket.post (t : Ticket) (s : State) : State :=
  s.fqWrite ([(if t.kind = akFetch then fqIfetch else fqXlate) + 2 ^ 8 * t.queue + 2 ^ 20 * t.asid + 2 ^ 36 * t.gen + 2 ^ 52 * t.num,
    t.page + t.kind, t.pkg + 2 ^ 9 * t.die, 0].map (BitVec.ofNat 64))

/-- The lowest ticket number not in use. -/
def State.freeTicket (s : State) : Option Nat := (List.range 4096).find? fun n => !(s.tickets.any fun t => t.2.num == n)

/-- Ask the driver for a page (16 R386): the requests join the record that is waiting, or a record is written; none while it cannot be,
for want of room on the fault queue or of a ticket. -/
def State.ask (s : State) (pkg die asid gen page kind queue : Nat) (reqs : List Nat) : Option State :=
  match s.tickets.find? fun t => t.2.pkg == pkg && t.2.asid == asid && t.2.page == page && t.2.kind == kind with
  | some (k, _) => some { s with tickets := kmod s.tickets k fun t => { t with reqs := t.reqs ++ reqs } }
  | none =>
    match s.freeTicket with
    | none => none
    | some n =>
      if s.fe.fqFull || !s.fe.fqHeld.isEmpty then none
      else
        let t : Ticket :=
          { num := n, pkg := pkg, die := die, asid := asid, gen := gen, page := page, kind := kind, queue := queue, reqs := reqs }
        some (t.post { s with tickets := kput s.tickets s.nextId t, nextId := s.nextId + 1 })

/-- Set a bit of SIG in every firmware core of a die (16 R391). -/
def State.signal (s : State) (dk bit : Nat) : State :=
  s.modDie dk fun d =>
    { d with fw := (List.range 4).foldl (fun m i =>
        let c := kgetD m i FwCore.reset
        kput m i { c with sig := c.sig ||| BitVec.ofNat 64 (2 ^ bit) }) d.fw }

/-- Offsets of telemetry counters, divided by 8 (17 R406). -/
abbrev tcStolen : Nat := 0
abbrev tcHomed : Nat := 1
abbrev tcCecc : Nat := 2
abbrev tcUecc : Nat := 3
abbrev tcLretry : Nat := 4
abbrev tcLdead : Nat := 5
abbrev tcMishome : Nat := 6
abbrev tcStale : Nat := 7
abbrev tcLockto : Nat := 8
abbrev tcProbe : Nat := 9

/-- Count an event: saturating at 2^64 - 1 (17 R406). -/
def State.count (s : State) (dk i : Nat) : State :=
  s.modDie dk fun d => { d with counters := kput d.counters i (min (2 ^ 64 - 1) (kgetD d.counters i 0 + 1)) }

/-- A read that reaches a poisoned sector aborts its launch (17 R402): POISON_READ. -/
def State.poisonRead (s : State) (wid : Nat) : State := s.abortLaunch (s.blockOf wid).launch

end Sys2Proof.Machine
end

