-- ==== Sys2Proof/Machine/LocalStore.lean ====
section
/-! DEFINITION. Local store and full-empty bits (07 R184 to R187, 11 R280, R281). -/

namespace Sys2Proof.Machine

/-- Sign- or zero-extension of the low bytes of a load (02 R56). -/
def extend (sx : Bool) (l : List Byte) (n : Nat) : Nat :=
  let x := bytesNat l
  let k := 8 * l.length
  if sx ∧ l.length < n ∧ 2 ^ (k - 1) ≤ x then x + 2 ^ (8 * n) - 2 ^ k else x

/-- Write the bytes that a lane fetched to the results of its registers (07 R181). -/
def State.landLane (s : State) (wid lane : Nat) (sx : Bool) : List Nat → List Byte → State
  | [], _ => s
  | id :: rest, l =>
    let v := extend sx (l.take 4) 4
    (s.landMem wid id (1#32 <<< lane) [(lane, BitVec.ofNat 32 v)] 0).landLane wid lane sx rest (l.drop 4)

/-- Send the bytes that a lane fetched to its registers, to arrive in a clk (07 R185). -/
def State.sendLane (s : State) (wid lane due : Nat) (sx : Bool) : List Nat → List Byte → State
  | [], _ => s
  | id :: rest, l =>
    (s.sendMem wid id due [(lane, BitVec.ofNat 32 (extend sx (l.take 4) 4))]).sendLane wid lane due sx rest (l.drop 4)

/-! ## The access to a granule -/

/-- Clk from a lane's issue to a granule's bank (07 R185, 11 R280). -/
def State.bankTime (s : State) (wid lane granule : Nat) : Nat :=
  let w := s.warpD wid
  let b := s.blockD w.block
  if 16 * w.part + 8 * w.half + lane / 4 = b.bank + 16 * granule / 393216 then 7 else 12

/-- The slowest of an access's lanes. -/
def State.accessTime (s : State) (a : FeAccess) : Nat :=
  (lanesOf a.lanes).foldl (fun t l => max t (s.bankTime a.wid l a.granule)) 7

/-- Whether the condition of an access holds (07 R184). -/
def feMet (qual : Nat) (full : Bool) : Bool :=
  match qual with
  | 1 | 2 => full
  | 5 => !full
  | _ => true

/-- The bit after the access (07 R184). -/
def feAfter (qual : Nat) (full : Bool) : Bool :=
  match qual with
  | 2 | 3 => false
  | 4 | 5 => true
  | _ => full

/-- Whether the accesses that must be made before this one have been made (11 R281, R301, 07 R208). -/
def State.feReady (s : State) (a : FeAccess) : Bool :=
  !s.acquireHolds a.wid a.seq a.own
    && s.fes.all fun q =>
      q.2.wid != a.wid || decide (a.seq ≤ q.2.seq)
        || !((a.qual == 4 || a.qual == 5)
          || (q.2.granule == a.granule
            && ((q.2.own &&& a.own) != 0 || q.2.qual == 0 || (s.warpD a.wid).synced q.2.seq a.seq q.2.own a.own)))

/-- Whether an access is one of a waiting form (09 R238). -/
def FeAccess.waits (a : FeAccess) : Bool := a.qual == 1 || a.qual == 2 || a.qual == 5

/-- The split that issued an access. -/
def State.feSplit (s : State) (a : FeAccess) : Option (Nat × Split) :=
  (s.warpD a.wid).table.find? fun t => t.2.span == a.span && (t.2.lmask &&& a.own) != 0

/-- A split's wait in FE-WAIT after lanes of it completed (07 R185). -/
def State.feProgress (s : State) (a : FeAccess) (lat : Nat) : State :=
  match s.feSplit a with
  | none => s
  | some (t, p) =>
    if p.eff = .feWait then
      let aux := p.waux &&& ~~~a.lanes
      let left := s.fes.filter fun q => q.2.wid == a.wid && q.2.seq == a.seq
      let lo := left.foldl (fun x q => min x (16 * q.2.granule)) (2 ^ 64)
      let s1 := s.modSplit a.wid t fun p =>
        { p with waux := aux, wobj := BitVec.ofNat 64 lo, rdy := max p.rdy (s.clk + lat) }
      if aux = 0 then s1.wake a.wid t (max p.rdy (s.clk + lat)) else s1
    else s.modSplit a.wid t fun p => { p with rdy := max p.rdy (s.clk + lat) }

/-- Make an access: data and the change of the bit in one step; the values of a load reach their lanes later (07 R177, R185). -/
def State.feMake (s : State) (id : Nat) (a : FeAccess) : State :=
  let b := s.blockOf a.wid
  let lat := s.accessTime a
  let bid := (s.warpD a.wid).block
  let full := b.isFull a.granule
  let s1 :=
    if a.store then
      s.modBlock bid fun b => (lanesOf a.lanes).foldl (fun b l => b.lsWrite (kgetD a.ofs l 0) (kgetD a.data l [])) b
    else (lanesOf a.lanes).foldl (fun s l =>
      s.sendLane a.wid l (s.clk + s.bankTime a.wid l a.granule) a.sext a.regs (b.lsRead (kgetD a.ofs l 0) a.size)) s
  let s2 := s1.modBlock bid fun b => b.setFull a.granule (feAfter a.qual full)
  { s2 with fes := kdel s2.fes id }.feProgress a lat

/-- The first present waiter of a granule whose condition holds (07 R186). -/
def State.feNext (s : State) (bid granule : Nat) : Option (Nat × FeAccess) :=
  let full := (s.blockD bid).isFull granule
  leastBy (fun q => q.2.order) (s.fes.filter fun q =>
    q.2.waiting && q.2.granule == granule && (s.warpD q.2.wid).block == bid && !(s.warpD q.2.wid).captured
      && feMet q.2.qual full)

/-- Test the waiters of a granule until none can proceed (07 R186). -/
def State.feCascade (s : State) (bid granule : Nat) : Nat → State
  | 0 => s
  | n + 1 =>
    match s.feNext bid granule with
    | none => s
    | some (id, a) => (s.feMake id a).feCascade bid granule n

def State.feWake (s : State) (bid granule : Nat) : State := s.feCascade bid granule (s.fes.length + 1)

/-- Engine writes to local store: granules become full and their waiters are tested in the same clk (07 R186). -/
def State.fillLocal (s : State) (bid o : Nat) (l : List Byte) : State :=
  if l.isEmpty then s
  else
    let s1 := s.modBlock bid fun b => b.lsFill o l
    (List.range ((o + l.length - 1) / 16 + 1 - o / 16)).foldl (fun s i => s.feWake bid (o / 16 + i)) s1

/-- Place of an access in the order in which a bank serves those that reach it (07 R186). -/
def State.feRank (s : State) (a : FeAccess) : Nat :=
  (a.reach * 256 + (s.warpD a.wid).slotNo) * 64 + a.slot

/-- FE_GRANULE_ACCESS (07 R185, R186): an access that has reached its bank is tested, and made or set waiting. -/
def execFeGranuleAccess (a : Nat) (s : State) : Out :=
  match kget? s.fes a with
  | none => .next s
  | some x =>
    let bid := (s.warpD x.wid).block
    let ready (q : FeAccess) : Bool :=
      !q.waiting && q.reach != 0 && decide (q.reach ≤ s.clk) && !(q.waits && (s.warpD q.wid).captured) && s.feReady q
    if !ready x then .next s
    else if s.fes.any fun q => q.1 != a && q.2.granule == x.granule && (s.warpD q.2.wid).block == bid && ready q.2
        && decide (s.feRank q.2 < s.feRank x) then .next s
    else if feMet x.qual ((s.blockD bid).isFull x.granule) then .next ((s.feMake a x).feWake bid x.granule)
    else .next { s with nextId := s.nextId + 1, fes := kmod s.fes a fun q => { q with waiting := true, order := s.nextId } }

/-! ## The instructions -/

/-- LSRANGE (07 R175). -/
def rangeFault (limit size : Nat) (l : List Word) : Option (Nat × Word) :=
  (l.find? fun a => decide (limit < a.toNat + size)).map fun a => (fcLsrange, a)

/-- The fault of local-store offsets: MISALIGN, then LSRANGE. -/
def localFault (limit size : Nat) (l : List Word) : Option (Nat × Word) :=
  match l.find? fun a => a.toNat % size != 0 with
  | some a => some (fcMisalign, a)
  | none => rangeFault limit size l

/-- Lanes grouped by granule (07 R185). -/
def groupGranules (la : List (Nat × Word)) : List (Word × List Nat) :=
  groupBy la []
where
  groupBy : List (Nat × Word) → List (Word × List Nat) → List (Word × List Nat)
  | [], acc => acc
  | (l, a) :: r, acc =>
    let g := BitVec.ofNat 64 (a.toNat / 16)
    groupBy r (if acc.any fun q => q.1 == g then acc.map fun q => if q.1 = g then (q.1, q.2 ++ [l]) else q else acc ++ [(g, [l])])

/-- Enter the accesses of an LDL or STL; `hold` keeps those of a waiting form until the span's results have returned. -/
def State.postFes (s : State) (f : MFmt) (la : List (Nat × Word)) (store hold : Bool) (regs : List Nat) (sx : Bool) : State :=
  let seq := s.nextId
  let p := s.curSplit
  (groupGranules la).foldl (fun s (g : Word × List Nat) =>
    let a : FeAccess :=
      { wid := s.cur.1, own := p.lmask, span := p.span, seq := seq, slot := s.cur.2, granule := g.1.toNat, lanes := maskOf g.2
        ofs := (la.filter fun q => g.2.contains q.1).map fun q => (q.1, q.2.toNat), size := szBytes f, store := store
        qual := f.fq.toNat, data := if store then g.2.map fun l => (l, s.storeData f l) else [], regs := regs, sext := sx
        reach := 0, waiting := false, order := 0 }
    let a := if hold then a else { a with reach := s.clk + s.accessTime a }
    { s with fes := kput s.fes s.nextId a, nextId := s.nextId + 1 }) s

/-- Whether the qualifier makes the instruction wait-type (09 R238). -/
def feWaits (f : MFmt) : Bool := f.fq == 1 || f.fq == 2 || f.fq == 5

end Sys2Proof.Machine
end

