-- ==== Sys2Proof/Machine/Sync.lean ====
section
/-! DEFINITION. What ends a wait: barriers (07 R202 to R205), counters (R206, R207), masked warp sync (R208), and how a split
goes on once the results of its span have returned or faulted (07 R179, 09 R239). -/

namespace Sys2Proof.Machine

/-! ## Barriers -/

/-- Key of a barrier of a warp or block. -/
def barKey (lvl num : Nat) : Nat := 16 * lvl + num

/-- A barrier of a block. -/
def Block.bar (b : Block) (key : Nat) : Barrier := kgetD b.bars key ⟨0, 0, 0, false, 0⟩

/-- The count of an arrival (07 R203): 0 stands for every warp of the block, a larger count for all of them. -/
def Block.barCount (b : Block) (count : Nat) : Nat := if count = 0 ∨ b.warps < count then b.warps else count


/-- Complete a BARWAIT: the phase word, an acquire, READY at PC + 1 (07 R205). -/
def State.barDone (s : State) (wid slot sd sc key : Nat) (word : Word) (lat : Nat) : State :=
  ((s.waitScalar wid key sd word lat).acquire wid sc).wake wid slot (s.clk + lat)

/-- Whether a warp waits for nothing more at a barrier (07 R205). -/
def Warp.barFree (w : Warp) (key : Nat) : Bool :=
  kgetD w.arrSet key 0 == 0 && !(w.arrPend.any fun a => a.1 == key) && !(kgetD w.wphase key (0, false)).2

/-- A BARWAIT in BAR-WAIT completes at once when its warp has no arrival that is in progress or unreleased (07 R205). -/
def State.barTest (s : State) (wid slot : Nat) : State :=
  match s.warp? wid, s.split? wid slot with
  | some w, some p =>
    match p.after with
    | .barWait sd sc lvl num key =>
      if p.eff = .barWait ∧ w.barFree (barKey lvl num) then
        s.barDone wid slot sd sc key (BitVec.ofNat 64 (kgetD w.wphase (barKey lvl num) (0, false)).1) (if lvl = 0 then 8 else 4)
      else s
    | _ => s
  | _, _ => s

/-- The phase of a barrier releases for one warp: its waiters at that barrier complete (07 R205). -/
def State.barReleaseWarp (s : State) (wid key : Nat) (excused : Bool) (lat : Nat) : State :=
  let w := s.warpD wid
  let (ph, un) := kgetD w.wphase key (0, false)
  if !un then s
  else
    let s1 := s.modWarp wid fun w => { w with wphase := kput w.wphase key (ph, false) }
    if kgetD w.arrSet key 0 ≠ 0 ∨ w.arrPend.any fun a => a.1 == key then s1
    else
      w.table.foldl (fun s (t : Nat × Split) =>
        match t.2.after with
        | .barWait sd sc lvl num k =>
          if t.2.eff = .barWait ∧ barKey lvl num = key then
            s.barDone wid t.1 sd sc k (BitVec.ofNat 64 (ph + 2 ^ 16 * excused.toNat)) lat
          else s
        | _ => s) s1

/-- Warp keys of a block that are still in the machine. -/
def State.warpsOf (s : State) (bid : Nat) : List Nat := (s.warps.filter fun q => q.2.block == bid).map (·.1)

/-- A barrier phase of a block releases (07 R204): the phase advances, and the warps that arrived go on. -/
def State.barRelease (s : State) (bid key : Nat) (excused : Bool) (lat : Nat) : State :=
  let s1 := s.modBlock bid fun b =>
    let x := b.bar key
    { b with bars := kput b.bars key { x with phase := x.phase + 1, count := 0, arrived := 0, blockArr := false } }
  (s1.warpsOf bid).foldl (fun s w => s.barReleaseWarp w key excused lat) s1

/-- A warp's arrival is observable (07 R203, R204): it counts in the phase, whose count the first arrival fixes; at block
level the phase releases when the count is reached: BLOCK_BARRIER_RELEASE. -/
def State.arrive (s : State) (wid key count : Nat) : State :=
  let bid := (s.warpD wid).block
  let b := s.blockD bid
  let x := b.bar key
  let n := if x.arrived = 0 then b.barCount count else x.count
  let full := decide (n ≤ x.arrived + 1)
  let y : Barrier :=
    { x with count := n, arrived := x.arrived + 1, blockArr := full && decide (16 ≤ key)
             lastKey := if full && !x.blockArr then s.clk else x.lastKey }
  let s1 := (s.modWarp wid fun w => { w with wphase := kput w.wphase key (x.phase.toNat, true) }).modBlock bid fun b =>
    { b with bars := kput b.bars key y }
  if full && decide (key < 16) then s1.barRelease bid key false 8 else s1

/-- A warp's arrival set is tested (07 R203): when it contains every live lane, the warp arrives; the arrival is a release,
observed only once the warp's earlier accesses are complete (11 R301). -/
def State.barCheck (s : State) (wid key : Nat) : State :=
  match s.warp? wid with
  | none => s
  | some w =>
    let a := kgetD w.arrSet key 0
    if a = 0 ∨ w.liveLanes &&& ~~~a ≠ 0 then s
    else
      let (count, sc) := kgetD w.arrCnt key (0, 0)
      let ph := ((s.blockD w.block).bar key).phase.toNat
      let s1 := s.modWarp wid fun w =>
        { w with arrSet := kdel w.arrSet key, arrCnt := kdel w.arrCnt key, wphase := kput w.wphase key (ph, true) }
      if s.releaseReady wid s.nextId sc then s1.arrive wid key count
      else s1.modWarp wid fun w => { w with arrPend := w.arrPend ++ [(key, count, sc, s.nextId)] }

/-- Arrivals whose release has become observable (11 R301). -/
def State.deliverArrivals (s : State) (wid : Nat) : State :=
  (s.warpD wid).arrPend.foldl (fun s a =>
    let (key, count, sc, seq) := a
    if s.releaseReady wid seq sc then
      (s.modWarp wid fun w => { w with arrPend := w.arrPend.erase a }).arrive wid key count
    else s) s

/-- Whether a grid-level barrier number is bound to a wire (07 R202, 15 R358). -/
def LaunchDesc.wire (d : LaunchDesc) (num : Nat) : Option Nat :=
  if d.cores && d.gbind.getLsbD (5 * num + 4) then some (nbits d.gbind.toNat (5 * num) 4) else none

/-- The fault of an arrival by the issuer: BARDUP, then BARNCR (07 R202, R203, R210). -/
def State.barFault (s : State) (lvl num : Nat) (arrives : Bool) : Option (Nat × Word) :=
  if arrives && (kgetD s.curWarp.arrSet (barKey lvl num) 0 &&& s.curSplit.lmask) != 0 then
    some (fcBardup, BitVec.ofNat 64 (lvl + 16 * num))
  else if lvl = 2 ∧ (s.curLaunch.desc.wire num).isNone then some (fcBarncr, BitVec.ofNat 64 (16 * num))
  else none

/-- Lanes of a warp join an arrival set (07 R203). -/
def State.barJoin (s : State) (wid : Nat) (m : Lanes) (lvl num count sc : Nat) : State :=
  let key := barKey lvl num
  (s.modWarp wid fun w =>
    { w with arrSet := kput w.arrSet key (kgetD w.arrSet key 0 ||| m)
             arrCnt := kput w.arrCnt key (count, max sc (kgetD w.arrCnt key (0, 0)).2) }).barCheck wid key

/-! ## Counters -/

/-- Whether a counter has reached a target (07 R207, 08 R223). -/
def counterMet (v : Word) (t : Nat) : Bool := decide ((v.toNat + 2 ^ 32 - t % 2 ^ 32) % 2 ^ 32 < 2 ^ 31)

/-- Wake the CWAITs of a block whose counter has reached their target (07 R207): CWAIT_WAKE. -/
def State.counterCheck (s : State) (bid n : Nat) : State :=
  let v := kgetD (s.blockD bid).counters n 0
  (s.warpsOf bid).foldl (fun s wid =>
    (s.warpD wid).table.foldl (fun s (t : Nat × Split) =>
      match t.2.after with
      | .cntWait sd sc m tgt key =>
        if t.2.eff = .cntWait ∧ m = n ∧ counterMet v tgt ∧ !(s.warpD wid).captured then
          ((s.waitScalar wid key sd v 4).acquire wid sc).wake wid t.1 (s.clk + 4)
        else s
      | _ => s) s) s

/-- An increment of a counter applies (07 R206, R207). -/
def State.counterAdd (s : State) (bid n inc : Nat) : State :=
  (s.modBlock bid fun b => { b with counters := kput b.counters n (kgetD b.counters n 0 + BitVec.ofNat 64 inc) }).counterCheck bid n

/-- Whether a task's dependence holds (08 R223). -/
def State.depMet (s : State) (e : Work) : Bool :=
  !e.a.msb || counterMet (kgetD (s.blockD e.block).counters (wf e.a 32 5) 0) (wf e.a 0 32)

/-- When the last warp of a block has ended, every tile task that still waits on its dependence goes (08 R217). -/
def State.discardTasks (s : State) (bid : Nat) : State :=
  if (s.warpsOf bid).any fun w => !(s.warpD w).ended then s
  else
    { s with works := s.works.filter fun (q : Nat × Work) =>
        !(q.2.block == bid && q.2.waiting && (q.2.kind == .task || q.2.kind == .taskOvr || q.2.kind == .taskCvt) && !s.depMet q.2) }

/-! ## Masked warp sync -/

/-- The splits of a warp that wait in WSYNC, with their masks. -/
def Warp.syncers (w : Warp) : List (Nat × Lanes) :=
  w.table.filterMap fun t => match t.2.after with | .wsync m => if t.2.eff = .barWait then some (t.1, m) else none | _ => none

/-- INFO of SYNCMASK (08 R237). -/
def syncInfo (own other : Lanes) : Word := other ++ own

/-- A release of WSYNC stands in the order of accesses between those of its lanes before it and after it, while any is under way
(07 R208). -/
def State.noteSync (s : State) (wid : Nat) (m : Lanes) : State :=
  let busy := (s.reqs.any fun q => q.2.wid == wid) || s.fes.any fun q => q.2.wid == wid
  { s with nextId := s.nextId + 1 }.modWarp wid fun w => { w with wsyncs := if busy then w.wsyncs ++ [(s.nextId, m)] else [] }

/-- Faults or releases the WSYNC waiters of a warp (07 R208): WSYNC_RELEASE. `arriver` has just arrived. -/
def State.syncCheck (s : State) (wid : Nat) (arriver : Option Nat) : State :=
  match s.warp? wid with
  | none => s
  | some w =>
    let l := w.syncers
    match l with
    | [] => s
    | (_, m) :: _ =>
      match arriver.bind fun a => l.find? fun q => q.1 == a with
      | some (a, own) =>
        match l.find? fun q => q.2 != own with
        | some (_, other) =>
          l.foldl (fun s q => s.raiseAt wid q.1 (.issue 1) fcSyncmask
            (syncInfo q.2 (if q.1 = a then other else own))) s
        | none => release w l own
      | none => release w l m
where
  /-- The waiters release when every live lane of the mask waits. -/
  release (w : Warp) (l : List (Nat × Lanes)) (m : Lanes) : State :=
    let here := l.foldl (fun x q => x ||| ((kget? w.table q.1).map Split.lmask).getD 0) (0 : Lanes)
    if m &&& w.liveLanes &&& ~~~here = 0 then (l.foldl (fun s q => s.wake wid q.1 (s.clk + 4)) s).noteSync wid m else s

/-! ## The end of a span -/

/-- A split enters what its instruction waits for (09 R239), its span's results having returned. -/
def State.enterAfter (s : State) (wid slot : Nat) : State :=
  match s.split? wid slot with
  | none => s
  | some p =>
    match p.after with
    | .none | .ended => (s.freshReady wid slot (max (max p.rdy p.notBefore) s.clk)).modWarp wid Warp.gc
    | .lock r =>
      match kget? s.reqs r with
      | none => s
      | some q => (s.enterWait wid slot .lockWait (lineWord (lineOf q.asid q.va.toNat q.size)) 0).start r
    | .fence .. => s.modSplit wid slot fun p => p.setEff .spanPark
    | .barWait _ _ lvl num _ => (s.enterWait wid slot .barWait (BitVec.ofNat 64 (32 * lvl + num)) 0).barTest wid slot
    | .barSync sd sc lvl num key count =>
      let s1 := (s.enterWait wid slot .barWait (BitVec.ofNat 64 (32 * lvl + num)) 0).modSplit wid slot fun p =>
        { p with after := .barWait sd sc lvl num key }
      -- a release may already have made the split READY; the test then finds it in no wait
      (s1.barJoin wid p.lmask lvl num count sc).barTest wid slot
    | .cntWait _ _ n tgt _ =>
      (s.enterWait wid slot .cntWait (BitVec.ofNat 64 n) (BitVec.ofNat 32 tgt)).counterCheck (s.warpD wid).block n
    | .join b _ => (s.enterWait wid slot .joinWait 0 (if b < 2 ^ 32 - 1 then p.waux else BitVec.allOnes 32)).joinCheck wid p.jgrp p.jpc
    | .regang m b => s.enterWait wid slot .joinWait (m.setWidth 64 ||| BitVec.ofNat 64 (2 ^ 63)) (BitVec.ofNat 32 b)
    | .wsync m => (s.enterWait wid slot .barWait (m.setWidth 64 ||| BitVec.ofNat 64 (2 ^ 63)) 0).syncCheck wid (some slot)
    | .fe =>
      let mine := s.fes.filter fun q => q.2.wid == wid && q.2.span == p.span && (q.2.own &&& p.lmask) != 0 && q.2.reach == 0
      let lanes := mine.foldl (fun a q => a ||| q.2.lanes) (0 : Lanes)
      let lo := mine.foldl (fun x q => min x (16 * q.2.granule)) (2 ^ 64)
      if lanes = 0 then s.wake wid slot (s.clk + 1)
      else
        let s1 := s.enterWait wid slot .feWait (BitVec.ofNat 64 lo) lanes
        mine.foldl (fun s q => { s with fes := kmod s.fes q.1 fun a => { a with reach := s.clk + s.accessTime a } }) s1
    | .clkrd sd key => (s.waitScalar wid key sd (s.clkRead (s.blockOf wid).ck) 4).wake wid slot (s.clk + 4)

/-- The requests of a split that wait for an answer (07 R179). -/
def State.stuckReqs (s : State) (wid : Nat) (p : Split) : List (Nat × Req) :=
  s.reqs.filter fun q => q.2.wid == wid && q.2.span == p.span && (q.2.lanes &&& p.lmask) != 0 && q.2.isResult && q.2.stuck

/-- Whether an outstanding result of a split waits only for faulted accesses. -/
def Result.covered (r : Result) (id : Nat) (p : Split) (l : List (Nat × Req)) : Bool :=
  match r.dest with
  | .vec _ =>
    r.mem && (r.pend &&& p.lmask &&& ~~~(l.foldl (fun a q => if q.2.regs.contains id then a ||| q.2.lanes else a) 0)) == 0
  | _ => r.mem && l.any fun q => q.2.regs.contains id

/-- Whether every outstanding result of a split has faulted. -/
def State.settled (s : State) (wid : Nat) (p : Split) : Bool :=
  let l := s.stuckReqs wid p
  (s.warpD wid).results.all fun q => !q.2.waits p || q.2.covered q.1 p l

/-- INFO of a completion fault's record (08 R237, 16 R385); `n` records in the group. -/
def Req.faultInfo (r : Req) (n : Nat) (last : Bool) : Word :=
  if r.fault = fcAccess then r.info ||| BitVec.ofNat 64 (4 * last.toNat + 8 * (n - 1)) else r.info

/-- Page and kind of a faulted access: its place in a group of records. -/
def Req.pagePair (r : Req) : Nat := r.va.toNat % 2 ^ 57 / 4096 * 4 + r.akind

/-- The first request of each page and kind, in ascending order of lowest lane, 32 at most (16 R385). -/
def groupRecords : List (Nat × Req) → List Nat → List Req
  | [], _ => []
  | (_, r) :: rest, seen => if seen.contains r.pagePair then groupRecords rest seen else r :: groupRecords rest (r.pagePair :: seen)

/-- Write the records of a split parked by completion faults, once no driver's answer is awaited (16 R385); the record of an
issue fault that stopped the span comes last (07 R179). -/
def State.postGroup (s : State) (wid slot : Nat) : State :=
  match s.split? wid slot with
  | none => s
  | some p =>
    let l := s.stuckReqs wid p
    match p.fault with
    | none => s
    | some f =>
      if f.recs ∨ l.any (fun q => q.2.phase == .xlate) ∨ (l.isEmpty && f.kind == .completion) then s
      else
        let recs := (groupRecords (sortBy (fun q : Nat × Req => ffs q.2.lanes) l) []).take 32
        let n := recs.length
        let s1 := s.modSplit wid slot fun p => { p with fault := some { f with recs := true } }
        let q := (s.launchOf wid).queue
        let s2 := (List.zip (List.range n) recs).foldl (fun s (x : Nat × Req) =>
          s.postExc q (s.excOf wid slot x.2.fault (x.2.faultInfo n (x.1 + 1 == n)) p.pc p.lmask (x.1 + 1 == n))) s1
        if f.kind = .completion then s2 else s2.postExc q (s2.excOf wid slot f.code f.info p.pc p.lmask true)

/-- A wait-type instruction that is not performed leaves nothing behind (07 R179, R195). -/
def State.dropAfter (s : State) (wid : Nat) (p : Split) : State :=
  match p.after with
  | .lock r =>
    match kget? s.reqs r with
    | none => s
    | some q => { s with reqs := kdel s.reqs r }.modWarp wid fun w => w.dropLock (lineOf q.asid q.va.toNat q.size)
  | .fe =>
    let mine (q : Nat × FeAccess) : Bool := q.2.wid == wid && q.2.span == p.span && q.2.reach == 0 && (q.2.own &&& p.lmask) != 0
    let ids := (s.fes.filter mine).flatMap fun q => q.2.regs
    { s with fes := s.fes.filter fun q => !mine q }.modWarp wid fun w =>
      { w with results := w.results.filter fun q => !ids.contains q.1 }
  | _ => s

/-- Divide a split by its faulted accesses (07 R179): COMPLETION_FAULT_DIVIDE. The unfinished lanes park FAULTED in the
split's place; the others form a READY split at the same PC. -/
def State.faultDivide (s : State) (wid slot : Nat) (p : Split) : State :=
  let l := s.stuckReqs wid p
  let bad := l.foldl (fun a q => a ||| q.2.lanes) 0 &&& p.lmask
  let good := p.lmask &&& ~~~bad
  let s1 := s.dropAfter wid p
  let old := p.fault
  let s2 := (s1.enterWait wid slot .faulted 0 0).modSplit wid slot fun p =>
    { p with lmask := bad, after := .none
             fault := some (match old with | some f => f | none => ⟨.completion, 0, 0, p.pc, noSeq, noSeq, false⟩) }
  let s3 :=
    if good = 0 then s2
    else
      match s2.warp? wid with
      | none => s2
      | some w =>
        match w.place { p with lmask := good, st := .ready, held := .ready, after := .none, fault := none, wobj := 0, waux := 0 } with
        | (w1, some t) => (s2.modWarp wid fun _ => w1).freshReady wid t (max p.rdy (s.clk + 1))
        | (_, none) => s2
  s3.postGroup wid slot

/-- A split in SPAN-PARK, or FAULTED by completion faults, goes on when no result is on its way (07 R179, 09 R239); the record of
an issue fault that waited for results is written. -/
def State.settle (s : State) (wid slot : Nat) : State :=
  match s.warp? wid, s.split? wid slot with
  | some w, some p =>
    let held : Bool := match p.fault with | some f => f.kind == .completion | none => false
    if !s.settled wid p then s
    else if p.eff = .spanPark then
      if !w.outstanding p then
        (match p.after with | .fence .. => s | _ => s.enterAfter wid slot)
      else s.faultDivide wid slot p
    else if p.eff = .faulted ∧ held then
      if !w.outstanding p then (s.freshReady wid slot (max p.rdy (s.clk + 1))).modWarp wid Warp.gc
      else if (s.stuckReqs wid p).foldl (fun a q => a ||| q.2.lanes) 0 &&& p.lmask ≠ p.lmask then s.faultDivide wid slot p
      else s.postGroup wid slot
    else if p.eff = .faulted then s.postGroup wid slot
    else s
  | _, _ => s

/-- Settle the splits of a warp that are parked by completion faults. -/
def State.settleFaulted (s : State) (wid : Nat) : State :=
  ((s.warpD wid).table.filter fun t => t.2.eff == .faulted).foldl (fun s t => s.settle wid t.1) s

/-- A wait-type instruction of the issuer (09 R238, R239): with nothing outstanding it enters its wait in its clk of issue,
else it waits in SPAN-PARK. -/
def State.beginWait (s : State) (a : After) (lat : Nat) : State :=
  let s1 := { s with free := s.free + 1 }.modCur fun p =>
    { p with len := p.len + 1, after := a, rdy := max p.rdy (s.clk + lat) }
  if s1.curWarp.outstanding s1.curSplit then s1.modCur fun p => p.setEff .spanPark else s1.enterAfter s1.cur.1 s1.cur.2

end Sys2Proof.Machine
end

