-- ==== Sys2Proof/Machine/MemEvents.lean ====
section
/-! DEFINITION. The steps of a request on its way: served, applied, acknowledged, answered (07 R179 to R193, 11 R284 to R295,
16 R378 to R381). A step whose condition does not hold leaves the state as it is (log 8). -/

namespace Sys2Proof.Machine

/-! ## Writes at the home -/

/-- Start the invalidations of a store applied at its home, with the place of its application (11 R288). -/
def State.sendInvals (s : State) (id : Nat) (r : Req) (leaf : Word) (place : Nat) : State :=
  let home := 128 * r.pkg + r.die
  let va := r.va.toNat
  let line := lineOf r.asid va (leafGrain leaf)
  let (p, d, _) := s.siteOf r.wid
  let dir := s.dirOf home line
  let dies := (List.range 128).filter fun x =>
    dir.groups.getLsbD (x / 4) && x != r.die && !(p == r.pkg && d == x)
  let toDie := dies.map fun x => (128 * r.pkg + x, false)
  let toAnchor := dir.anchors.filterMap fun q => (s.anchorDie q r.die).map fun a => (128 * q + a, true)
  let l := toDie ++ toAnchor
  let keep : BitVec 32 := if p = r.pkg ∧ d ≠ r.die then 1#32 <<< (d / 4) else 0
  let s1 := l.foldl (fun s (x : Nat × Bool) =>
    let due := s.clk + 24 * meshHops r.die (x.1 % 128) + 520 * (if x.1 / 128 = r.pkg then 0 else 1)
    let v : Inval := ⟨x.1, r.asid, lineVa line, leafGrain leaf, id, place, x.2, due⟩
    { s with invals := kput s.invals s.nextId v, nextId := s.nextId + 1 }) s
  if l.isEmpty then s1
  else s1.modDir home line fun x => { x with groups := x.groups &&& keep, anchors := x.anchors.filter (· == p) }

/-- Update a copy that holds the sector of a write. -/
def State.patchCopy (s : State) (place asid va : Nat) (l : List Byte) : State :=
  { s with copies := kmod s.copies (copyKey place asid (blkOf va)) fun c => if c.has va then c.write va l else c }

/-- The copies on the issuing core's path once a write of it has been applied (11 R287, R288, R294, R297): they take the bytes of a
store; for an atomic, whose value its core does not hold, they go, with every L1 copy of the die where that is not the home. -/
def State.ownCopies (s : State) (r : Req) (leaf : Word) (l : List Byte) : State :=
  let va := r.va.toNat
  let (p, d, _) := s.siteOf r.wid
  let dk := 128 * p + d
  let path := s.pathOf r.wid r.asid va r.pkg r.die
  if r.kind == .store then path.foldl (fun s pl => s.patchCopy pl r.asid va l) s
  else s.dropLineWhere r.asid va (leafGrain leaf) fun c =>
    c.tracked && (path.contains c.place || (dk != 128 * r.pkg + r.die && c.onDie dk))

/-- A write of whole 32-byte sectors clears their poison (17 R402). -/
def State.cleanSectors (s : State) (k n : Nat) : State :=
  { s with memPoison := s.memPoison.filter fun x => !(decide (k ≤ 32 * x) && decide (32 * x + 32 ≤ k + n)) }

/-- Apply the bytes of a write at the home copy (11 R287, R288, R294). -/
def State.applyWrite (s : State) (id : Nat) (r : Req) (leaf : Word) (l : List Byte) : State :=
  let key := r.key leaf
  let s1 := ({ s with mem := memWrite s.mem key l, nextId := s.nextId + 1 }.cleanSectors key l.length).modReq id fun r =>
    { r with place := s.nextId, wrote := some (key, memRead s.mem key l.length) }
  if leafTr leaf then
    let s2 := { s1 with wclock := s1.wclock + 1 }
    let s3 := s2.modCore (s.blockOf r.wid).ck fun c => { c with ltime := max c.ltime s2.wclock }
    (s3.ownCopies r leaf l).sendInvals id r leaf s.nextId
  else s1

/-! ## Untracked pages -/

/-- Move the dirty bytes of a line from one place to a lower one. -/
def State.moveDirty (s : State) (src : Nat) (dst : Option Nat) (asid va : Nat) (grain : Nat) (leaf : Word) (home : Nat) : State :=
  let key := copyKey src asid (blkOf va)
  match kget? s.copies key with
  | none => s
  | some c =>
    let l := c.dirtyBytes fun o => c.inLine va grain o
    let s1 := if l.1.isEmpty then s else s.putDirty levels dst asid c.blk leaf home l
    { s1 with copies := kmod s1.copies key fun c => { c with dirty := c.dirty.filter fun o => !c.inLine va grain o } }

/-- The copy that a scope shares, on a core's path (11 R286, R293); none: the home copy. -/
def State.sharedLevel (s : State) (r : Req) (hpkg hdie : Nat) : Option Nat :=
  let (p, d, _) := s.siteOf r.wid
  let path := s.pathOf r.wid r.asid r.va.toNat hpkg hdie
  let fused := (s.launchD (s.blockOf r.wid).launch).desc.kern.fuse
  let far := farPlace (128 * p + d)
  if r.scope = 0 ∨ (r.scope = 1 ∧ fused) then path.head?
  else if r.scope ≤ 2 then (if path.contains far then some far else none)
  else if r.scope ≤ 4 then (s.anchorPlaces p hpkg hdie).head?
  else none

/-- Write the dirty bytes of a line down to the level that a scope shares (07 R189, 11 R293); CINV then discards the
copies above it. -/
def State.maintainLine (s : State) (r : Req) (leaf : Word) (hpkg hdie : Nat) : State :=
  let va := r.va.toNat
  let path := s.pathOf r.wid r.asid va hpkg hdie
  let level := s.sharedLevel r hpkg hdie
  let above := match level with | some l => path.takeWhile (· != l) | none => path
  -- the bytes nearest the core are the newest: lower places first
  let s1 := above.reverse.foldl (fun s pl => s.moveDirty pl level r.asid va (leafGrain leaf) leaf (128 * hpkg + hdie)) s
  if r.kind = .cinv then
    { s1 with copies := s1.copies.map fun q =>
        if q.2.asid = r.asid ∧ q.2.blk = blkOf va ∧ above.contains q.2.place then (q.1, q.2.dropLine va (leafGrain leaf)) else q }
  else s1

/-- Clk until the bytes of a CWB have reached the level of its scope and the core knows (11 R294). -/
def State.maintainTime (s : State) (r : Req) (hpkg hdie : Nat) : Nat :=
  match s.sharedLevel r hpkg hdie with
  | some l => if l % 2 = 0 then 0 else 2 * s.timeTo r.wid r.asid r.va.toNat (l / 2)
  | none => 2 * s.timeTo r.wid r.asid r.va.toNat (128 * hpkg + hdie)

/-- A store to an untracked page (11 R293): into the L1, or for `.nol1` below it, an L1 copy then holding the bytes clean; acknowledged
at every stage. -/
def State.storeUntracked (s : State) (id : Nat) (r : Req) (leaf : Word) (hpkg hdie : Nat) : State :=
  let va := r.va.toNat
  let home := 128 * hpkg + hdie
  let r1 := { r with pkg := hpkg, die := hdie }
  if !s.homeTagOk r1 leaf then s.failPosted id r1 cbTagf
  else
    let path := s.pathOf r.wid r.asid va hpkg hdie
    let place := if r.hint = 3 then (path.drop 1).head? else path.head?
    let l := placed va r.data
    let s1 := match place with
      | some pl =>
        let s1 := (s.makeRoom pl r.asid (blkOf va) leaf).putDirty levels place r.asid (blkOf va) leaf home (l, 0)
        { s1 with copies := kmod s1.copies (copyKey pl r.asid (blkOf va)) fun c => { c with prio := hintPrio r.hint pl } }
      | none => s.putDirty levels none r.asid (blkOf va) leaf home (l, 0)
    let s2 := if r.hint ≠ 3 then s1 else
      match path.head? with
      | some pl => { s1 with copies := kmod s1.copies (copyKey pl r.asid (blkOf va)) fun c =>
          { c.write va r.data with dirty := c.dirty.filter fun o => !(l.any fun q => q.1 == o) } }
      | none => s1
    let s3 := { s2 with reqs := kdel s2.reqs id }
    if r.work.1 ≠ 0 then s3.pieceDone r (.ok []) else s3

/-! ## STORE_APPLY, ATOMIC_APPLY -/

/-- What a posted write or an atomic meets at its home: its failure's cause and completion fault, or the leaf. -/
inductive HomeMeet where
  | wait
  | fail (cause : Nat) (code : Nat)
  | go (leaf : Word)
  deriving DecidableEq, Repr

/-- The checks of an access under a leaf (10 R279, 07 R180, R193, 16 R375, R376, 11 R290). -/
def State.checkLeaf (s : State) (r : Req) (leaf : Word) : HomeMeet :=
  if !r.permitted leaf || s.readOnly r then .fail cbRefused fcAccess
  else if s.lineLost r leaf then .fail cbCohlost fcCohlost
  else if !s.homeTagOk r leaf then .fail cbTagf fcTagchk
  else .go leaf

/-- The checks of a write at its home (07 R180, R193, 11 R295). -/
def State.meetHome (s : State) (r : Req) : HomeMeet :=
  match s.homeState r with
  | .peer => if (s.pkg r.pkg).known then .fail cbDpeer fcPeerdead else .wait
  | .dead => .fail cbRefused fcAccess
  | .cut => .fail cbDlink fcPeerdead
  | .ok leaf => s.checkLeaf r leaf
  | _ => .wait

/-- The checks of a CWB or CINV of a mapped page, which acts in the core's caches (07 R180, R189). -/
def State.meetCaches (s : State) (r : Req) (leaf : Word) : HomeMeet :=
  if (s.pkg r.pkg).known then .fail cbDpeer fcPeerdead
  else if !(s.pkg r.pkg).failed && !s.dieLive (128 * r.pkg + r.die) then .fail cbRefused fcAccess
  else s.checkLeaf r leaf

/-- INFO of a completion fault (08 R237). -/
def State.meetInfo (s : State) (r : Req) (code : Nat) : Word :=
  let leaf := s.leafAt r.pkg r.asid r.va.toNat
  if code = fcAccess then pageInfo leaf r.va.toNat r.akind
  else if code = fcTagchk then
    BitVec.ofNat 64 (r.va.toNat % 2 ^ 57 + 2 ^ 60 * (match leaf with | some e => (s.tagOf (r.key e)).toNat | none => 0))
  else if code = fcPeerdead then BitVec.ofNat 64 r.pkg
  else BitVec.ofNat 64 (lineBase r.va.toNat (match leaf with | some e => leafGrain e | none => 32))

/-- Whether a request waits behind a flit that one of its Elpor links retries (17 R403). -/
def State.linkHolds (s : State) (r : Req) : Bool :=
  let (p, _, _) := s.siteOf r.wid
  r.plane != 128 && ((kget? s.links (512 * r.plane + p)).isSome || (kget? s.links (512 * r.plane + r.pkg)).isSome)

/-- Whether a request stands where it is served. -/
def State.arrived (s : State) (r : Req) : Bool := r.phase == .out && decide (r.arrive ≤ s.clk) && !s.linkHolds r

/-- The clk of a reply or acknowledgement. -/
def State.backTime (s : State) (r : Req) : Nat := s.clk + s.timeTo r.wid r.asid r.va.toNat (128 * r.pkg + r.die)

/-- Whether a request meets sectors that the home region does not hold, and has not yet been given the time of that miss. -/
def State.slowHome (s : State) (r : Req) : Bool := !r.filled && !s.homeHolds r

/-- A request has been accepted by a memory controller and waits for it (09 R255, 16 R383 step 3). -/
def State.waitHome (s : State) (id : Nat) (r : Req) (leaf : Word) : State :=
  s.modReq id fun x => { x with filled := true, tr := some leaf, arrive := s.clk + s.missTime r leaf }

/-- STORE_APPLY (11 R294): a store, RED, CWB or CINV. -/
def execStoreApply (id : Nat) (s : State) : Out :=
  match kget? s.reqs id with
  | none => .next s
  | some r =>
    let posted := r.kind == .store || r.kind == .red || r.kind == .cwb || r.kind == .cinv
    if !posted || !s.arrived r || !s.mayMake r then .next s
    else if r.op = 2 ∧ r.kind ≠ .red then
      let (p, _, _) := s.siteOf r.wid
      match s.lookup p r.asid r.va.toNat with
      | none => .next ((s.modReq id fun r => { r with op := 0 }).start id)
      | some (leaf, _, (hp, hd)) =>
        if r.kind = .store then .next (s.storeUntracked id r leaf hp hd)
        else
          let r1 := { r with pkg := hp, die := hd }
          match s.meetCaches r1 leaf with
          | .wait => .next s
          | .fail c _ => .next (s.refuseWrite id r1 c (s.clk + 2 * (s.backTime r1 - s.clk)))
          | .go _ =>
            if leafTr leaf then .next { s with reqs := kdel s.reqs id }
            else .next ((s.maintainLine r leaf hp hd).modReq id fun x =>
              { x with phase := .applied, arrive := s.clk + s.maintainTime r hp hd })
    else
      match s.meetHome r with
      | .wait => .next s
      | .fail c _ => .next (s.refuseWrite id r c (s.backTime r))
      | .go leaf =>
        if s.slowHome r then .next (s.waitHome id r leaf) else
        let s := s.homeFill r leaf
        let done (s : State) : State := s.modReq id fun r => { r with phase := .applied, arrive := s.backTime r + r.slow }
        match r.kind with
        | .store => .next (done (s.applyWrite id r leaf r.data))
        | .red =>
          if s.memPoison.contains (r.key leaf / 32) then .next (s.poisonRead r.wid)
          else
            let x := bytesNat (memRead s.mem (r.key leaf) r.size)
            .next (done (s.applyWrite id r leaf (natBytes (atomSeq r.op (8 * r.size) x r.opnds).1 r.size)))
        | _ => .next (done (if leafTr leaf then s else s.maintainLine r leaf r.pkg r.die))

/-- ATOMIC_APPLY (07 R192, R193): a group is applied at its home as one sequence. -/
def execAtomicApply (id : Nat) (s : State) : Out :=
  match kget? s.reqs id with
  | none => .next s
  | some r =>
    if r.kind ≠ .atom || !s.arrived r || !s.mayMake r then .next s
    else
      match s.meetHome r with
      | .wait => .next s
      | .fail _ code => .next (s.refuseRead id code (s.meetInfo r code) (s.backTime r))
      | .go leaf =>
        if s.slowHome r then .next (s.waitHome id r leaf) else
        let s := s.homeFill r leaf
        if s.memPoison.contains (r.key leaf / 32) then .next (s.poisonRead r.wid)
        else
          let x := bytesNat (memRead s.mem (r.key leaf) r.size)
          let (y, olds) := atomSeq r.op (8 * r.size) x r.opnds
          let s1 := s.applyWrite id r leaf (natBytes y r.size)
          .next (s1.modReq id fun r =>
            { r with phase := .reply, old := olds, arrive := s.backTime r + r.slow })

/-! ## HOME_SERVE_LOAD, LOAD_REPLY -/

/-- A copy serves a load (07 R175, R182, 16 R376, 17 R402): the answer, the fault of a LOST line or of a memory tag, or the abort of a
poisoned read. -/
def State.serveCopy (s : State) (id : Nat) (r : Req) (c : Copy) (back : Nat) (fill : Bool) : State :=
  let va := r.va.toNat
  let line := lineOf r.asid va c.grain
  if c.tracked && s.entryLost line then s.refuseRead id fcCohlost (BitVec.ofNat 64 (lineVa line)) (s.clk + back)
  else if c.has va && !c.tagOk r.va then
    s.refuseRead id fcTagchk (BitVec.ofNat 64 (va % 2 ^ 57 + 2 ^ 60 * c.tagFound va)) (s.clk + back)
  else if c.poison.getLsbD (sectorOf va) then s.poisonRead r.wid
  else
    let data := s.mergeNear r (some c.place) (c.read va r.size)
    let s1 := s.modReq id fun r => { r with phase := .reply, data := data, arrive := s.clk + back }
    if fill && c.has va then
      s1.fillPath r c.leaf (c.read (va / 32 * 32) 32) (kgetD c.tags (sectorOf va) 0) false (some c.place)
    else s1

/-- A prefetch at its home (07 R188): the sectors of its line go to the path's places. -/
def State.servePrf (s : State) (id : Nat) (r : Req) (leaf : Word) : State :=
  let base := r.key leaf / 32 * 32
  let s1 := (List.range (r.size / 32)).foldl (fun s i =>
    let k := base + 32 * i
    s.fillPath { r with va := r.va + BitVec.ofNat 64 (32 * i) } leaf (memRead s.mem k 32) (s.tagOf k) (s.memPoison.contains (k / 32)) none) s
  { s1 with reqs := kdel s1.reqs id }

/-- A load at its home (11 R286, R293): the answer, and the copies of its path. -/
def State.serveHome (s : State) (id : Nat) (r : Req) (leaf : Word) : State :=
  let key := r.key leaf
  let base := key / 32 * 32
  if s.memPoison.contains (key / 32) then s.poisonRead r.wid
  else
    let data := s.mergeNear r none (memRead s.mem key r.size)
    let s1 := s.modReq id fun r => { r with phase := .reply, data := data, arrive := s.backTime r }
    s1.fillPath r leaf (memRead s.mem base 32) (s.tagOf key) false none

/-- HOME_SERVE_LOAD (11 R286, 09 R255, 07 R182, R188, R199): a load, a prefetch or LKQRY. One that waited for room among its core's
misses is sent (00 R1). -/
def execHomeServeLoad (id : Nat) (s : State) : Out :=
  match kget? s.reqs id with
  | none => .next s
  | some r =>
    let mine := r.kind == .load || r.kind == .prf || r.kind == .lkqry
    if mine && r.phase == .held then .next (s.start id)
    else if !mine || !s.arrived r || !s.mayMake r then .next s
    else if r.kind = .load ∧ r.stage = 0 then
      match s.l1Hit r with
      | some (_, c) => .next (s.serveCopy id r c (if c.place = l1Place (s.blockOf r.wid).ck then 15 else 21) false)
      | none => if s.missRoom r then .next (s.sendOut id r true) else .next (s.modReq id fun r => { r with phase := .held })
    else if r.kind = .load ∧ r.stage = 1 then
      match s.nearHit r with
      | some (_, c) => .next (s.serveCopy id r c (s.timeTo r.wid r.asid r.va.toNat (c.place / 2)) true)
      | none => .next (s.sendHome id r r.pkg r.die false)
    else
      let drop (s : State) : Out := .next { s with reqs := kdel s.reqs id }
      match s.homeState r with
      | .peer =>
        if !(s.pkg r.pkg).known then .next s
        else if r.kind = .prf then drop s
        else .next (s.faultReq id fcPeerdead (BitVec.ofNat 64 r.pkg))
      | .dead =>
        if r.kind = .prf then drop s
        else .next (s.refuseRead id fcAccess (pageInfo none r.va.toNat r.akind) (s.backTime r))
      | .cut =>
        if r.kind = .prf then drop s
        else .next (s.faultReq id fcPeerdead (BitVec.ofNat 64 r.pkg))
      | .ok leaf =>
        if r.kind = .prf then
          if !r.permitted leaf || s.lineLost r leaf then drop s
          else if s.slowHome r then .next (s.waitHome id r leaf)
          else .next ((s.homeFill r leaf).servePrf id r leaf)
        else if r.kind = .lkqry then
          if !r.permitted leaf then .next (s.refuseRead id fcAccess (pageInfo (some leaf) r.va.toNat r.akind) (s.backTime r))
          else if !leafTr leaf then
            .next (s.refuseRead id fcLockuntr (BitVec.ofNat 64 (lineBase r.va.toNat (leafGrain leaf))) (s.backTime r))
          else
            let line := lineOf r.asid r.va.toNat (leafGrain leaf)
            let w := s.lockQuery (128 * r.pkg + r.die) line r.wid (s.lineLost r leaf)
            .next (s.modReq id fun r => { r with phase := .reply, data := natBytes w.toNat 8, arrive := s.backTime r })
        else
          match s.checkLeaf r leaf with
          | .fail _ code => .next (s.refuseRead id code (s.meetInfo r code) (s.backTime r))
          | .wait => .next s
          | .go _ =>
            if s.slowHome r then .next (s.waitHome id r leaf) else .next ((s.homeFill r leaf).serveHome id r leaf)
      | _ => .next s

/-- The destination of a result. -/
def State.resultDest (s : State) (wid id : Nat) : Dest := match kget? (s.warpD wid).results id with | some r => r.dest | none => .none

/-- The bytes that a load returns: an argument slot at or above NARG reads zero (10 R279). -/
def State.argBytes (s : State) (r : Req) : List Byte :=
  let d := (s.launchOf r.wid).desc
  let a := d.args.toNat % 2 ^ 57
  let va := r.va.toNat % 2 ^ 57
  if r.kind != .load then r.data
  else (List.zip (List.range r.data.length) r.data).map fun q =>
    if a + 8 * d.kern.narg ≤ va + q.1 ∧ va + q.1 < a + 2048 then 0 else q.2

/-- Write the registers of a request that has been answered (07 R181, R183, R190). -/
def State.landReq (s : State) (r : Req) : State :=
  match r.regs with
  | [] => s
  | id :: _ =>
    match s.resultDest r.wid id with
    | .vec _ =>
      if r.kind = .atom then r.old.foldl (fun s q => s.landLane r.wid q.1 false r.regs (natBytes q.2.toNat r.size)) s
      else s.landLane r.wid (ffs r.lanes) r.sext r.regs (s.argBytes r)
    | _ => s.landMem r.wid id (BitVec.allOnes 32) [] (BitVec.ofNat 64 (extend r.sext (s.argBytes r) 8))

/-- LOAD_REPLY (07 R182, R193): the value is written; an acquire takes effect; a split parked by completion faults may go on. A
completion fault comes back the same way (R179). -/
def execLoadReply (id : Nat) (s : State) : Out :=
  match kget? s.reqs id with
  | none => .next s
  | some r =>
    if s.clk < r.arrive then .next s
    else if r.phase = .failed ∧ r.isResult then .next ((s.faultReq id r.fault r.info).settleFaulted r.wid)
    else if r.phase ≠ .reply then .next s
    else
      let s1 := if r.work.1 ≠ 0 then { s with reqs := kdel s.reqs id }.pieceDone r (.ok (s.argBytes r))
        else { s with reqs := kdel s.reqs id }.landReq r
      let s2 := if r.ord = 2 ∨ r.ord = 4 then s1.acquire r.wid r.scope else s1
      .next (s2.settleFaulted r.wid)

/-- A request flit is lost (11 R295, 07 R182). No fault is a LOCK's: it waits on, until its withdraw finds no entry for it (12 R313);
what becomes of a LOCK.try is not stated (DESIGN CHOICE, log 48; unsafe). -/
def State.loseReq (s : State) (id : Nat) (r : Req) : State :=
  match r.kind with
  | .lock => { s with reqs := kdel s.reqs id }
  | .lockTry => s.lockFault id r fcPeerdead (BitVec.ofNat 64 r.pkg)
  | .load | .atom | .lkqry => (s.faultReq id fcPeerdead (BitVec.ofNat 64 r.pkg)).settleFaulted r.wid
  | .prf | .fetch => { s with reqs := kdel s.reqs id }
  | _ => s.failPosted id r cbDlink

/-! ## Acknowledgements and invalidations -/

/-- Whether an invalidation is one that the stages of a write wait for (11 R294): of its line, for that write or an earlier one. -/
def Inval.delays (v : Inval) (r : Req) : Bool :=
  v.asid == r.asid && v.line / v.grain == r.va.toNat % 2 ^ 57 / v.grain && decide (v.ord ≤ r.place)

/-- Whether the next stage of a write may return (11 R294). -/
def State.stageReady (s : State) (r : Req) : Bool :=
  let (p, _, _) := s.siteOf r.wid
  let pending (test : Nat → Bool) : Bool := s.invals.any fun v => v.2.delays r && test (v.2.dk / 128)
  match r.stage with
  | 0 | 1 | 2 => true
  | 3 => !pending (· == p)
  | 4 => !pending fun q => q / 2 == p / 2
  | _ => !pending fun _ => true

/-- STAGE_ACK (11 R294, 07 R180): the next stage of an applied write returns; the core stage of a store that the L1 holds
returns 2 clk after issue. The last stage ends the request. No stage returns from a package that has failed: the write fails with it
(R295); nor of a write that its home has refused: its failure comes back to the core (01 R32). A LOST mark adds its cause without a
count (R290). -/
def execStageAck (id : Nat) (s : State) : Out :=
  match kget? s.reqs id with
  | none => .next s
  | some r =>
    if r.isPosted ∧ r.phase = .failed ∧ r.arrive ≤ s.clk then .next (s.failPosted id r r.fault)
    else if r.isPosted ∧ r.phase = .applied ∧ r.arrive ≤ s.clk ∧ r.pkg ≠ (s.siteOf r.wid).1 ∧ (s.pkg r.pkg).failed then
      if (s.pkg r.pkg).known then .next (s.failPosted id r cbDpeer) else .next s
    else if r.isPosted ∧ r.phase = .applied ∧ r.arrive ≤ s.clk ∧ s.stageReady r then
      let due := r.mark != 0 && decide (r.mark ≤ r.stage + 1)
      let s0 := if r.work.1 ≠ 0 && r.stage == r.scope then s.pieceDone r (.ok []) else s
      let s1 := if due then s0.reportFail r.wid (1#8 <<< cbCohlost) 0 r.pkg r.die else s0
      if 5 ≤ r.stage then .next { s1 with reqs := kdel s1.reqs id }
      else .next (s1.modReq id fun r => { r with stage := r.stage + 1, mark := if due then 0 else r.mark })
    else if r.kind = .store ∧ r.op = 1 ∧ r.stage = 0 ∧ r.clk + 2 ≤ s.clk then
      let fused := (s.launchD (s.blockOf r.wid).launch).desc.kern.fuse
      let n := if fused then 2 else 1
      let s1 := if r.work.1 ≠ 0 && decide (r.scope < n) then s.pieceDone r (.ok []) else s
      .next (s1.modReq id fun r => { r with stage := n })
    else .next s

/-- Whether a die holds a copy of a line. -/
def State.dieHas (s : State) (v : Inval) : Bool :=
  s.copies.any fun q => q.2.onDie v.dk && q.2.asid == v.asid && q.2.blk == blkOf v.line && q.2.tracked && q.2.hasLine v.line v.grain

/-- The die that issued the store of an invalidation. -/
def State.invalSource (s : State) (v : Inval) : Option Nat :=
  (kget? s.reqs v.req).map fun r => let (p, d, _) := s.siteOf r.wid; 128 * p + d

/-- An anchor sends an invalidation on to the dies of its own groups (11 R288). -/
def State.forwardInval (s : State) (x : Inval) : State :=
  if !x.anchor then s
  else
    let own := s.invalSource x
    let line := lineOf x.asid x.line x.grain
    let dir := s.dirOf x.dk line
    let dies := (List.range 128).filter fun d =>
      dir.groups.getLsbD (d / 4) && 128 * (x.dk / 128) + d != x.dk && some (128 * (x.dk / 128) + d) != own
    let keep : BitVec 32 := match own with | some o => if o / 128 = x.dk / 128 then 1#32 <<< (o % 128 / 4) else 0 | none => 0
    (dies.foldl (fun s d =>
      let y : Inval := { x with dk := 128 * (x.dk / 128) + d, anchor := false, due := s.clk + 24 * meshHops (x.dk % 128) d }
      { s with invals := kput s.invals s.nextId y, nextId := s.nextId + 1 }) s).modDir x.dk line fun e =>
        { e with groups := e.groups &&& keep }

/-- INVALIDATION (11 R288): the die discards its far and L1 copies and acknowledges; an anchor invalidates its own groups. -/
def execInvalidation (v : Nat) (s : State) : Out :=
  match kget? s.invals v with
  | none => .next s
  | some x =>
    if s.clk < x.due || !s.dieHas x then .next s
    else
      let s1 := { s with invals := kdel s.invals v }
      let s2 := if s.invalSource x = some x.dk then s1 else s1.dropLineWhere x.asid x.line x.grain fun c => c.tracked && c.onDie x.dk
      .next (s2.forwardInval x)

/-- PROBE_ABSENT (11 R289): a die without a copy answers after 9 clk and counts the probe. -/
def execProbeAbsent (v : Nat) (s : State) : Out :=
  match kget? s.invals v with
  | none => .next s
  | some x =>
    if s.clk < x.due + 9 || s.dieHas x then .next s
    else .next (({ s with invals := kdel s.invals v }.count x.dk (tcProbe + x.asid / 4096 % 16)).forwardInval x)

/-- EVICTION_WRITEBACK (11 R293): a copy is evicted; its dirty bytes go one level down. -/
def execEvictionWriteback (c : Nat) (s : State) : Out := .next (s.evict c)

/-! ## Rejections and look-ups -/

/-- STALE (16 R381): the rejection goes back with the current generation; on its arrival the core takes that generation, its die
discards the older placement entries, and the request is sent again. -/
def execStale (id : Nat) (s : State) : Out :=
  match kget? s.reqs id with
  | none => .next s
  | some r =>
    let b := s.blockOf r.wid
    if r.phase = .rejStale then
      if s.clk < r.arrive then .next s
      else
        let s1 := s.modCore b.ck fun c => { c with gens := kput c.gens r.asid r.gen }
        let s2 := s1.modDie b.dk fun d => { d with plc := d.plc.filter fun e => e.2.asid != r.asid || e.2.gen == r.gen }
        .next (s2.sendOut id { r with resent := true } true)
    else if !s.arrived r || s.homeState r != .stale then .next s
    else
      let home := 128 * r.pkg + r.die
      .next ((s.count home tcStale).modReq id fun x =>
        { x with phase := .rejStale, gen := kgetD (s.die home).genReg r.asid 0, arrive := s.backTime r })

/-- MISHOME (16 R380): the rejection goes back; the issuing die discards its placement entry and the request is sent again after a
look-up. -/
def execMishome (id : Nat) (s : State) : Out :=
  match kget? s.reqs id with
  | none => .next s
  | some r =>
    if r.phase = .rejMis then
      if s.clk < r.arrive then .next s
      else
        let s1 := s.modDie (s.blockOf r.wid).dk fun d => { d with plc := kdel d.plc (tlbKey r.asid r.gen r.va.toNat) }
        .next (s1.sendOut id r true)
    else if !s.arrived r || s.homeState r != .mishome then .next s
    else .next ((s.count (128 * r.pkg + r.die) tcMishome).modReq id fun x => { x with phase := .rejMis, arrive := s.backTime r })

/-- PLC_MISS (16 R378): the issuing package's tables give the home fields; a request without a leaf goes to die 0 of the
issuing package. -/
def execPlcMiss (id : Nat) (s : State) : Out :=
  match kget? s.reqs id with
  | none => .next s
  | some r =>
    if r.phase ≠ .plc || decide (s.clk < r.arrive) then .next s
    else
      let b := s.blockOf r.wid
      match s.lookup b.pkg r.asid r.va.toNat with
      | some (leaf, _, (hp, hd)) => .next ((s.plcFill b.dk r.asid r.gen r.va.toNat leaf).sendHome id r hp hd true)
      | none => .next (s.sendHome id r b.pkg 0 false)

/-- The frame record of a TLB fill (16 R387): ALIAS is posted once for the frame. -/
def State.noteFrame (s : State) (dk asid va : Nat) (leaf : Word) : State :=
  let n := 4096 * pageFrames (leafSize leaf)
  let page := va % 2 ^ 57 / n * n
  let f := leafFrame leaf
  let d := s.die dk
  match kget? d.frames f with
  | none =>
    s.modDie dk fun d => { d with frames := kput d.frames f ⟨asid, page, leafTr leaf, !leafTr leaf, leafTr leaf && leafW leaf, false⟩ }
  | some x =>
    let y : FrameRec :=
      { x with tracked := x.tracked || leafTr leaf, untracked := x.untracked || !leafTr leaf
               writable := x.writable || (leafTr leaf && leafW leaf) }
    let mixed := y.tracked && y.untracked
    let syn := leafTr leaf && (x.asid != asid || x.page != page) && y.writable
    let post := !x.posted && (mixed || syn)
    let s1 := s.modDie dk fun d => { d with frames := kput d.frames f { y with posted := x.posted || post } }
    if post then
      s1.fqPost (fqAlias + 2 ^ 8 * 0xFFF + 2 ^ 20 * asid + 2 ^ 36 * mixed.toNat + 2 ^ 37 * syn.toNat)
        (dk % 128 + 2 ^ 7 * (dk / 128) + 2 ^ 16 * f) (x.asid + 2 ^ 16 * (x.page / 4096)) 0
    else s1

/-- A controller of a die walks for an address and fills its TLB (16 R379, R387): the clk that this takes. -/
def State.ctlMiss (s : State) (dk asid gen va : Nat) : State × Nat :=
  match s.ctlWalk dk asid gen va with
  | (some leaf, tables) => ((s.ctlFill dk asid gen va leaf tables).noteFrame dk asid va leaf, 320 * tables.length)
  | (none, tables) => (s, 320 * tables.length)

/-- TLB_MISS_WALK (16 R379): the home package's tables are walked, 320 clk for each level that the walk cache does not hold; the
request has been accepted (R383 step 3). -/
def execTlbMissWalk (id : Nat) (s : State) : Out :=
  match kget? s.reqs id with
  | none => .next s
  | some r =>
    if !s.arrived r || s.homeState r != .miss then .next s
    else
      let (s1, t) := s.ctlMiss (128 * r.pkg + r.die) r.asid r.gen r.va.toNat
      .next (s1.modReq id fun x =>
        { x with tr := match s1.homeState r with | .ok leaf => some leaf | _ => none
                 arrive := s.clk + t })

/-- XLATE (16 R386, 07 R179): recorded on the driver's fault queue, or added to the record that is waiting; while the queue is
full the request waits at its memory controller. A split parked by faults settles. -/
def execXlate (id : Nat) (s : State) : Out :=
  match kget? s.reqs id with
  | none => .next s
  | some r =>
    if !s.arrived r || s.homeState r != .absent then .next s
    else if r.kind = .prf then .next { s with reqs := kdel s.reqs id }
    else
      match s.ask r.pkg r.die r.asid r.gen (pageOf r.va.toNat) r.akind (s.launchOf r.wid).queue [id] with
      | none => .next s
      | some s1 => .next ((s1.modReq id fun r => { r with phase := .xlate }).settleFaulted r.wid)

/-! ## Lost directory entries -/

/-- LOST (11 R290): the entry is LOST; acknowledgements on their way return with a LOST mark; firmware is signalled. -/
def execLost (pkg die line : Nat) (s : State) : Out :=
  let dk := 128 * pkg + die
  if (s.dirOf dk line).lost then .next s
  else
    let mine (v : Inval) : Bool := v.asid == lineAsid line && v.line / v.grain == lineVa line / v.grain
    let gone := s.invals.filter fun q => mine q.2
    let s1 := { s with
      reqs := s.reqs.map fun (q : Nat × Req) =>
        let (p, _, _) := s.siteOf q.2.wid
        let mine := gone.filter fun (v : Nat × Inval) => q.2.phase == ReqPhase.applied && v.2.delays q.2
        let stages := mine.map fun (v : Nat × Inval) => if v.2.dk / 128 = p then 4 else if v.2.dk / 128 / 2 = p / 2 then 5 else 6
        match leastBy id stages with
        | some m => (q.1, { q.2 with mark := m })
        | none => q
      invals := s.invals.filter fun (q : Nat × Inval) => !mine q.2 }
    .next ((s1.modDir dk line fun d => { d with lost := true, lostClk := s.clk, recover := false, purge := [] }).signal dk 3)

/-- Queue a PURGE of a line at the lowest live core of every live die of the domain (16 R388). -/
def State.purgeAll (s : State) (asid va : Nat) : State × List Nat :=
  let dies := (List.range Config.packages).flatMap fun p => (s.liveDies p).map fun d => 128 * p + d
  let targets := dies.filterMap fun dk => ((List.range 48).find? fun c => s.coreLive (48 * dk + c)).map fun c => 48 * dk + c
  (targets.foldl (fun s ck => s.modCore ck fun c =>
    { c with cmds := c.cmds ++ [⟨1, BitVec.ofNat 64 asid, BitVec.ofNat 64 va, 0, 0, true⟩] }) s, targets.map (· / 48))

/-- COHLOST (16 R388): firmware posts COHLOST and starts the recovery of the entry. -/
def execCohlost (pkg die line : Nat) (s : State) : Out :=
  let dk := 128 * pkg + die
  let d := s.dirOf dk line
  if !d.lost || d.recover then .next s
  else
    let (s1, dies) := s.purgeAll (lineAsid line) (lineVa line)
    .next ((s1.modDir dk line fun d => { d with recover := true, purge := dies }).fqPost
      (fqCohlost + 2 ^ 8 * 0xFFF + 2 ^ 20 * lineAsid line) (lineVa line) (pkg + 2 ^ 9 * die) 0)

/-- COHFIX (16 R388): every die has acknowledged, or its package has been detected as failed; the manual bounds the time and
does not fix it. -/
def execCohfix (pkg die line : Nat) (s : State) : Out :=
  let dk := 128 * pkg + die
  let d := s.dirOf dk line
  let due := d.lostClk + Config.lostTime d.lostClk (lineKey dk line) % 120001
  if !d.lost || !d.recover || decide (s.clk < due) || (d.purge.any fun x => !(s.pkg (x / 128)).known) then .next s
  else
    let s1 := { s with dirs := kdel s.dirs (lineKey dk line) }
    .next (s1.fqPost (fqCohfix + 2 ^ 8 * 0xFFF + 2 ^ 20 * lineAsid line) (lineVa line)
      (pkg + 2 ^ 9 * die + 2 ^ 32 * ((s.clk - d.lostClk) % 2 ^ 32)) 0)

/-! ## Releases -/

/-- FENCE_COMPLETE (07 R200, 01 R31, R32): 2 clk after the last access that a FENCE waits for is complete, in one clk, it writes the
pending failure record to its scalar and to FSTAT and clears it. FENCEs that complete in one clk return the same record; FSTAT keeps
the word of the highest table slot (DESIGN CHOICE, log 77). -/
def execFenceComplete (wid slot : Nat) (s : State) : Out :=
  match s.warp? wid with
  | none => .next s
  | some w =>
    let due (t : Nat × Split) : Bool :=
      match t.2.after with
      | .fence _ _ _ _ c => t.2.eff == .spanPark && c != 0 && decide (c ≤ s.clk)
      | _ => false
    match kget? w.table slot with
    | none => .next s
    | some p =>
      match p.after with
      | .fence sd sc seq key 0 =>
        if p.eff == .spanPark && !w.outstanding p && s.priorDone wid seq sc then
          .next (s.modSplit wid slot fun p => { p with after := .fence sd sc seq key (max (max p.rdy (s.clk + 2)) 1) })
        else .next s
      | _ =>
        if !(w.table.filter due).any fun t => t.1 == slot then .next s
        else
          let s1 := (w.table.filter due).foldl (fun s (t : Nat × Split) =>
            match t.2.after with
            | .fence sd sc _ key _ =>
              let word := w.pfr.word sc
              ((s.modWarp wid fun w =>
                { w.putScalar key sd 0 true word with fstat := word, fenceSc := max w.fenceSc (sc + 1) }).acquire wid sc).wake wid t.1 s.clk
            | _ => s) s
          .next (s1.modWarp wid fun w => { w with pfr := FailRec.empty })

/-- UNLOCK_DEPART (07 R196, 11 R301): the unlock leaves its core once the earlier accesses are complete at its scope and the writes to
the line are applied at its home. -/
def execUnlockDepart (id : Nat) (s : State) : Out :=
  match kget? s.reqs id with
  | none => .next s
  | some r =>
    let line := s.reqs.any fun q => q.2.from r.wid && decide (q.2.seq < r.seq) && q.2.kind == .store && q.2.overlaps r && q.2.unmade
    if r.kind ≠ .unlock || r.phase ≠ .held || line || !s.signalReady r.wid r.seq r.scope then .next s
    else .next ((s.modReq id fun r => { r with clk := s.clk }).sendOut id { r with clk := s.clk } false)

/-- CSIG_APPLY (07 R207, 11 R301). -/
def execCsigApply (p : Nat) (s : State) : Out :=
  match kget? s.posts p with
  | none => .next s
  | some x =>
    if x.evnt || !s.signalReady x.wid x.seq x.scope then .next s
    else .next ({ s with posts := kdel s.posts p }.counterAdd (s.warpD x.wid).block x.num x.val)

end Sys2Proof.Machine
end

