-- ==== Sys2Proof/Machine/Answers.lean ====
section
/-! DEFINITION. The runtime's answers to exception records (07 R179, 15 R361, R362). -/

namespace Sys2Proof.Machine

/-- Send a held access again, as it was issued (07 R179). -/
def State.resend (s : State) (id : Nat) : State :=
  (s.modReq id fun r => { r with phase := .out, fault := 0, info := 0, gen := s.genOf (s.blockOf r.wid).ck r.asid }).start id

/-- Skip a held access: its lanes complete with their destinations unchanged (07 R179). -/
def State.skipReq (s : State) (id : Nat) : State :=
  match kget? s.reqs id with
  | none => s
  | some r => r.regs.foldl (fun s k => s.dropMem r.wid k r.lanes) { s with reqs := kdel s.reqs id }

/-- Where a FAULTED split goes on (15 R361): at its PC, at the next instruction, or past a TRAP, BKPT or HALTW. -/
def FaultKind.after (k : FaultKind) (skip : Bool) : Nat :=
  match k with
  | .issue n => if skip then n else 0
  | .stop _ => 1
  | .completion => 0

/-- Make or skip the accesses that a split holds (07 R179). -/
def State.answerHeld (s : State) (l : List (Nat × Req)) (skip : Bool) : State :=
  l.foldl (fun s q => if skip then s.skipReq q.1 else if q.2.phase == .faulted then s.resend q.1 else s) s

/-- Apply resume or skip to a split (15 R361): held accesses are made or skipped before it issues again. An answer to the
records of accesses held beside an issue fault makes or skips those, and the split stays. -/
def State.answerSplit (s : State) (wid slot seq : Nat) (skip : Bool) : State :=
  match s.split? wid slot with
  | none => s
  | some p =>
    match p.fault with
    | none => s
    | some f =>
      let stuck := s.stuckReqs wid p
      if f.accs = seq then
        (s.answerHeld stuck skip).modSplit wid slot fun p => { p with fault := some { f with accs := noSeq } }
      else
        let s1 := s.modWarp wid fun w => if f.kind = .stop true then { w with stopped := false } else w
        let s2 := s1.modSplit wid slot fun p =>
          { p with pc := p.pc + BitVec.ofNat 48 (f.kind.after skip), fault := some ⟨.completion, 0, 0, p.pc, noSeq, noSeq, false⟩
                   rdy := max p.rdy (s.clk + 1) }
        (s2.answerHeld stuck skip).settle wid slot

/-- The split that an answer acts on: the one whose record has this number. -/
def State.answered (s : State) (wid seq : Nat) : Option Nat :=
  ((s.warpD wid).table.find? fun t =>
    t.2.eff == .faulted && (match t.2.fault with | some f => f.recs && (f.group == seq || f.accs == seq) | none => false)).map (·.1)

/-- The waiting record that a write to EXANS names by the low 48 bits of its number (15 R361). -/
def State.excNamed (s : State) (q seq : Nat) : Option ExcRec :=
  (s.queueD q).waiting.find? fun r => r.seq % 2 ^ 48 == seq % 2 ^ 48

/-- A record that has been answered waits no longer. -/
def State.unwait (s : State) (q seq : Nat) : State := s.modQueue q fun x => { x with waiting := x.waiting.filter fun r => r.seq != seq }

/-- Resume or skip (15 R361): only the last record of a group acts; an answer to a split whose warp is captured is kept with the
launch. -/
def State.answer (s : State) (q seq : Nat) (skip : Bool) : State :=
  match s.excNamed q seq with
  | none => s
  | some r =>
    let s1 := s.unwait q r.seq
    if !r.last then s1
    else if (s.warpD r.wid).captured then s1.modLaunch r.launch fun l => { l with answers := l.answers ++ [(r.wid, r.seq, skip)] }
    else
      match s.answered r.wid r.seq with
      | none => s1
      | some slot => s1.answerSplit r.wid slot r.seq skip

/-- Apply the answers kept for a warp, before its first issue after a restore (15 R361). -/
def State.keptAnswers (s : State) (l wid : Nat) : State :=
  let mine := (s.launchD l).answers.filter fun a => a.1 == wid
  let s1 := s.modLaunch l fun x => { x with answers := x.answers.filter fun a => a.1 != wid }
  mine.foldl (fun s a => match s.answered wid a.2.1 with | some slot => s.answerSplit wid slot a.2.1 a.2.2 | none => s) s1

/-- EXANS_RESUME (15 R361). -/
def execExansResume (q seq : Nat) (s : State) : Out := .next (s.answer q seq false)

/-- EXANS_SKIP (15 R361). -/
def execExansSkip (q seq : Nat) (s : State) : Out := .next (s.answer q seq true)

/-- EXANS_ABORT (15 R361, R362): the whole launch ends, whichever record of it is answered. -/
def execExansAbort (q seq : Nat) (s : State) : Out :=
  match s.excNamed q seq with
  | none => .next s
  | some r => if r.last then .next ((s.unwait q r.seq).abortLaunch r.launch) else .next (s.unwait q r.seq)

end Sys2Proof.Machine
end

