-- ==== Sys2Proof/Machine/Control.lean ====
section
/-! DEFINITION. Control transfers, NOP and YIELD (05 R111 to R119, R124, R125). JOIN, REGANG and EXIT stand in
Machine/Wait.lean. -/

namespace Sys2Proof.Machine

/-- The branch conditions (02 R49). -/
def ccHolds (cc : Nat) (x : Word) : Bool :=
  match cc with
  | 0 => x == 0
  | 1 => x != 0
  | 2 => decide (x.toInt < 0)
  | 3 => decide (0 ≤ x.toInt)
  | 4 => decide (0 < x.toInt)
  | _ => decide (x.toInt ≤ 0)

/-- BRA (05 R116). -/
def execBra (f : JFmt) (s : State) : Out :=
  let p := s.curSplit
  .next (s.transfer f.sw 4 0 [(pcPlus p.pc f.bofs, p.lmask)])

/-- BRC (05 R116): not taken, the split keeps its span. -/
def execBrc (f : JFmt) (s : State) : Out :=
  let p := s.curSplit
  if ccHolds f.cc.toNat (s.rdS f.reg.toNat) then .next (s.transfer f.sw 4 0 [(pcPlus p.pc f.bofs, p.lmask)])
  else .next (s.retire f.sw 1 1)

/-- BRX (05 R117): divides the split by a mask register, all 32 bits read at issue. -/
def execBrx (f : JFmt) (s : State) : Out :=
  let p := s.curSplit
  let t := p.lmask &&& s.rdM f.reg.toNat
  let n := p.lmask &&& ~~~t
  if t = 0 then .next (s.retire f.sw 1 1)
  else if n = 0 then .next (s.transfer f.sw 4 0 [(pcPlus p.pc f.bofs, p.lmask)])
  else .next (s.transfer f.sw 4 f.jofs [(pcPlus p.pc f.bofs, t), (p.pc + 1, n)])

/-- The check of a target pair (05 R118): REGRANGE, then FMTTAG as N64 for every lane; the fault's code and INFO. -/
def State.pairFault (s : State) (r : Nat) (checked : Bool) : Option (Nat × Word) :=
  let b := s.curWarp.budget
  if b ≤ r then some (fcRegrange, regInfo r b)
  else if b ≤ r + 1 then some (fcRegrange, regInfo (r + 1) b)
  else if !checked then none
  else
    let te := s.tagOfReg r
    let todd := s.tagOfReg (r + 1)
    if te ≠ 0 ∧ te ≠ 14 then some (fcFmttag, BitVec.ofNat 64 (r + 2 ^ 8 * te.toNat + 2 ^ 12 * 14))
    else if todd ≠ 0 ∧ todd ≠ 15 then some (fcFmttag, BitVec.ofNat 64 (r + 1 + 2 ^ 8 * todd.toNat + 2 ^ 12 * 14))
    else none

/-- Each lane's target (05 R118). -/
def State.targets (s : State) (r : Nat) : List (BitVec 48 × Lanes) :=
  groupTargets ((lanesOf s.curSplit.lmask).map fun l => (l, (s.rdPair r l).setWidth 48))

/-- JMPI (05 R118). -/
def execJmpi (f : JFmt) (s : State) : Out :=
  match s.pairFault f.reg.toNat true with
  | some (c, i) => .next (s.raise 1 c i)
  | none => .next (s.transfer f.sw 8 f.jofs (s.targets f.reg.toNat))

/-- RET (05 R118). -/
def execRet (f : JFmt) (s : State) : Out :=
  match s.pairFault f.reg.toNat true with
  | some (c, i) => .next (s.raise 1 c i)
  | none => .next (s.transfer f.sw 8 f.jofs (s.targets f.reg.toNat))

/-- Write the return address to a pair in every lane of the split (05 R119). -/
def State.putReturn (s : State) (r lat : Nat) : State :=
  let p := s.curSplit
  s.putPair r lat p.lmask ((lanesOf p.lmask).map fun l => (l, (p.pc + 1).setWidth 64)) 14

/-- CALL (05 R119). -/
def execCall (f : JFmt) (s : State) : Out :=
  let p := s.curSplit
  match s.pairFault f.reg.toNat false with
  | some (c, i) => .next (s.raise 1 c i)
  | none => .next ((s.putReturn f.reg.toNat 4).transfer f.sw 4 0 [(pcPlus p.pc f.bofs, p.lmask)])

/-- CALL.ind (05 R119): the targets are read before the return address is written. A division at depth 31 takes
JDEPTH and changes nothing. -/
def execCallInd (f : JFmt) (s : State) : Out :=
  match s.pairFault f.reg.toNat true with
  | some (c, i) => .next (s.raise 1 c i)
  | none =>
    let t := s.targets f.reg.toNat
    if 1 < t.length ∧ f.jofs ≠ 0 ∧ s.curSplit.jgrp = 31 then .next (s.raise 1 fcJdepth 0)
    else .next ((s.putReturn f.reg.toNat 8).transfer f.sw 8 f.jofs t)

/-- NOP (05 R124). -/
def execNop (f : JFmt) (s : State) : Out := .next (s.retire f.sw 1 1)

/-- YIELD (05 R125): the span ends, the split stays READY with a yield mark. -/
def execYield (_f : JFmt) (s : State) : Out :=
  .next ((s.modCur fun p => { p with yield := true }).jumpTo (s.curSplit.pc + 1) 2)

end Sys2Proof.Machine
end

