-- ==== Sys2Proof/Machine/CrossLane.lean ====
section
/-! DEFINITION. Cross-lane instructions (06 R162 to R172). The participants are the lanes of the effective mask; a
lane that is no participant is never read. -/

namespace Sys2Proof.Machine

/-- A cross-lane move of 32-bit values with TY 0: `g` gives each participant's value; VD takes VA's tag. -/
def State.moveLanes (s : State) (f : AFmt) (regs : List Nat) (chk : List TagCheck) (g : State → Lanes → Nat → Nat) : Out :=
  s.runVec f.sw false ([f.vd.toNat, f.va.toNat] ++ regs) (rawokOf f) chk 8 fun s =>
    let m := s.effective f.msk.toNat
    let t := s.tagOfReg f.va.toNat
    s.putV f.vd.toNat 8 m ((lanesOf m).map fun l => (l, BitVec.ofNat 32 (g s m l))) t

/-- VA of a lane. -/
def laneA (s : State) (f : AFmt) (l : Nat) : Nat := s.opd 1 (.reg f.va.toNat) l

/-- A shuffle (06 R163): `src` gives the source lane from the lane, the amount and the segment width. -/
def State.shuffle (s : State) (f : AFmt) (src : Nat → Nat → Nat → Int) : Out :=
  s.moveLanes f (regsB f 0) (if f.flag flScb then [] else checkIndex f.vb.toNat) fun s m l =>
    let w := 2 ^ (f.vc.toNat % 8)
    let base := l - l % w
    let k := src l (s.opd 1 (s.opB f) l) w
    if (base : Int) ≤ k ∧ k < base + w ∧ m.getLsbD k.toNat then laneA s f k.toNat else laneA s f l

/-- VSHFL (06 R163). -/
def execVshfl (f : AFmt) (s : State) : Out := s.shuffle f fun l b w => ((l - l % w + b % w : Nat) : Int)
/-- VSHFL.up (06 R163). -/
def execVshflUp (f : AFmt) (s : State) : Out := s.shuffle f fun l b _ => (l : Int) - b
/-- VSHFL.down (06 R163). -/
def execVshflDown (f : AFmt) (s : State) : Out := s.shuffle f fun l b _ => (l : Int) + b
/-- VSHFL.xor (06 R163). -/
def execVshflXor (f : AFmt) (s : State) : Out := s.shuffle f fun l b w => ((l ^^^ (b % w) : Nat) : Int)

/-- VSHFLX (06 R164): VC is checked as N32 or RAW. -/
def execVshflx (f : AFmt) (s : State) : Out :=
  s.moveLanes f [f.vb.toNat, f.vc.toNat] [(f.vc.toNat, [0, 2], 2)] fun s m l =>
    let i := s.opd 1 (.reg f.vc.toNat) l
    let k := i % 32
    if m.getLsbD k then s.opd 1 (.reg (if nbits i 5 1 = 1 then f.vb.toNat else f.va.toNat)) k else laneA s f l

/-- VBCAST (06 R165): from a lane named by a scalar, or from the lowest participant. -/
def execVbcast (f : AFmt) (s : State) : Out :=
  s.moveLanes f [] [] fun s m l =>
    let k := if f.flag flXf then ffs m else (s.rdS (f.vb.toNat % 64)).toNat % 32
    if m.getLsbD k then laneA s f k else laneA s f l

/-- The identity of a reduction operator (06 R166). -/
def redIdentity (op ty : Nat) : Nat :=
  let n := elemBits ty
  match op with
  | 1 => wrapInt n (intMax (tySigned ty) n)
  | 2 => wrapInt n (intMin (tySigned ty) n)
  | 3 => 2 ^ n - 1
  | 6 => 0x80000000
  | 7 => 0x7F800000
  | 8 => 0xFF800000
  | _ => 0

/-- The reduction of a list of values (06 R166): add by the exact sum, fadd rounded at each step, the others applied
left to right. -/
def reduceList (f : AFmt) (op : Nat) (l : List Nat) : Nat :=
  let ty := f.ty.toNat
  let n := elemBits ty
  match l with
  | [] => redIdentity op ty
  | x :: xs =>
    match op with
    | 0 => reduceInt (f.flag flSat) (tySigned ty) n (l.foldl (fun a y => a + eInt ty y) 0)
    | 1 => xs.foldl (minElem ty) x
    | 2 => xs.foldl (maxElem ty) x
    | 3 => xs.foldl (· &&& ·) x
    | 4 => xs.foldl (· ||| ·) x
    | 5 => xs.foldl (· ^^^ ·) x
    | 6 =>
      let r : Rnd := ⟨f.rm.toNat, false, f.flag flFtz, 0, 32⟩
      let rd (y : Nat) : FVal := fmtF32.input (f.flag flFtz) y
      xs.foldl (fun a y => fmtF32.round r (exAdd f.rm.toNat (fmtF32.decode a) (rd y))) (fmtF32.round rndRne (rd x))
    | _ =>
      let rd (y : Nat) : FVal := fmtF32.input (f.flag flFtz) y
      let g := if op = 7 then fminV else fmaxV
      fmtF32.round rndRne (xs.foldl (fun a y => g a (rd y)) (rd x))

/-- The participants' values in ascending lane order. -/
def State.participants (s : State) (f : AFmt) (m : Lanes) : List (Nat × Nat) :=
  (lanesOf m).map fun l => (l, s.opd 1 (opA f) l)

/-- VRED (06 R166). -/
def execVred (op : BitVec 4) (f : AFmt) (s : State) : Out :=
  let ty := f.ty.toNat
  s.runVec f.sw false (regsOf ty f.va.toNat) (rawokOf f) (checkOf ty f.va.toNat) 14 fun s =>
    let r := reduceList f op.toNat ((s.participants f (s.effective f.msk.toNat)).map (·.2))
    s.putS (f.vd.toNat % 64) 14 (if ty = 1 then BitVec.ofInt 64 (intOf true 32 r) else BitVec.ofNat 64 r)

/-- The prefixes of a list, each with its last element's lane. -/
def prefixes : List (Nat × Nat) → List Nat → List (Nat × List Nat)
  | [], _ => []
  | (l, x) :: r, acc => (l, acc ++ [x]) :: prefixes r (acc ++ [x])

/-- VSCAN (06 R167): inclusive, or exclusive under XF. -/
def execVscan (op : BitVec 4) (f : AFmt) (s : State) : Out :=
  let ty := f.ty.toNat
  s.runVec f.sw false (regsOf ty f.vd.toNat ++ regsOf ty f.va.toNat) (rawokOf f) (checkOf ty f.va.toNat) 18 fun s =>
    let m := s.effective f.msk.toNat
    let ps := prefixes (s.participants f m) []
    s.putTyped f.vd.toNat ty 18 m (ps.map fun p =>
      (p.1, reduceList f op.toNat (if f.flag flXf then p.2.dropLast else p.2)))

/-- VFUNL (06 R168). -/
def execVfunl (f : AFmt) (s : State) : Out :=
  s.moveLanes f (regsB f 0) [] fun s m l =>
    let k := f.vc.toNat % 4
    let p :=
      if 0 < l then (if m.getLsbD (l - 1) then laneA s f (l - 1) else 0)
      else if f.flag flScb then s.opd 1 (s.opB f) 0
      else if m.getLsbD 31 then s.opd 1 (.reg f.vb.toNat) 31 else 0
    (laneA s f l * 2 ^ (8 * k) ||| p / 2 ^ (32 - 8 * k)) % 2 ^ 32

/-- VLUTN (06 R169): VD is tagged N8x4. -/
def execVlutn (f : AFmt) (s : State) : Out :=
  let ty := f.ty.toNat
  s.runVec f.sw false [f.vd.toNat, f.va.toNat] (rawokOf f) (checkOf ty f.va.toNat) 5 fun s =>
    let b := (s.rdS (f.vb.toNat % 64)).toNat
    let c := (s.rdS (f.vc.toNat % 64)).toNat
    let m := s.effective f.msk.toNat
    s.putTyped f.vd.toNat 9 5 m ((lanesOf m).map fun l =>
      let x := s.opd 4 (.reg f.va.toNat) l
      (l, packElems 9 fun i =>
        let n := nbits x (8 * i + if f.flag flXf then 4 else 0) 4
        if n < 8 then nbits b (8 * n) 8 else nbits c (8 * (n - 8)) 8))

/-- VBPERM (06 R170): VC is checked as N8x4. -/
def execVbperm (f : AFmt) (s : State) : Out :=
  s.runVec f.sw false [f.vd.toNat, f.va.toNat, f.vb.toNat, f.vc.toNat] (rawokOf f) (checkOf 9 f.vc.toNat) 5 fun s =>
    let m := s.effective f.msk.toNat
    let t := s.tagOfReg f.va.toNat
    s.putV f.vd.toNat 5 m ((lanesOf m).map fun l =>
      let a := laneA s f l
      let b := s.opd 1 (.reg f.vb.toNat) l
      let c := s.opd 4 (.reg f.vc.toNat) l
      (l, BitVec.ofNat 32 (packElems 9 fun i =>
        let q := nbits c (8 * i) 8
        if 128 ≤ q then 0 else if q % 8 < 4 then nbits a (8 * (q % 8)) 8 else nbits b (8 * (q % 8 - 4)) 8))) t

/-- VBALLOT (06 R171). -/
def execVballot (f : AFmt) (s : State) : Out :=
  s.runVec f.sw false [f.va.toNat] (rawokOf f) [] 4 fun s =>
    let m := s.effective f.msk.toNat
    s.putS (f.vd.toNat % 64) 4 ((maskOf ((lanesOf m).filter fun l => laneA s f l ≠ 0)).setWidth 64)

/-- VMATCH (06 R171): VD is one register, tagged N32. -/
def execVmatch (f : AFmt) (s : State) : Out :=
  let ty := f.ty.toNat
  s.runVec f.sw false (f.vd.toNat :: regsOf ty f.va.toNat) (rawokOf f) (checkOf ty f.va.toNat) 12 fun s =>
    let m := s.effective f.msk.toNat
    let ps := s.participants f m
    s.putV f.vd.toNat 12 m (ps.map fun p => (p.1, maskOf ((ps.filter fun q => q.2 == p.2).map (·.1)))) 2

/-- VCOMPR (06 R172): VD takes VA's tag or tags. -/
def execVcompr (f : AFmt) (s : State) : Out :=
  let ty := f.ty.toNat
  s.runVec f.sw false (regsOf ty f.vd.toNat ++ regsOf ty f.va.toNat) (rawokOf f) [] 10 fun s =>
    let m := s.effective f.msk.toNat
    let sel := s.rdM f.vb.toNat
    let q := (s.participants f m).filter fun p => sel.getLsbD p.1
    let vals := List.zip (lanesOf m) (q.map (·.2))
    let t0 := s.tagOfReg f.va.toNat
    let t1 := s.tagOfReg (f.va.toNat + 1)
    let s1 := s.putTyped f.vd.toNat ty 10 (maskOf (vals.map (·.1))) vals
    if isPairTy ty then (s1.setTag f.vd.toNat t0).setTag (f.vd.toNat + 1) t1 else s1.setTag f.vd.toNat t0

end Sys2Proof.Machine
end

