-- ==== Sys2Proof/Machine/Tiles.lean ====
section
/-! DEFINITION. Tiles: descriptors and layouts (01 R24, R25, R411, 08 R218), scale streams (04 R92, R93), block sums (R94,
R95), accumulation (R96, R97) and conversion (R98). -/

namespace Sys2Proof.Machine

/-! ## Descriptors -/

/-- A field of a descriptor (01 R24). -/
def tdField (d : BitVec 128) (lo n : Nat) : Nat := nbits d.toNat lo n

def tdBase (d : BitVec 128) : Nat := tdField d 0 27
def tdRows (d : BitVec 128) : Nat := tdField d 32 8 + 1
def tdCols (d : BitVec 128) : Nat := tdField d 40 8 + 1
/-- Bytes from line to line. -/
def tdPitch (d : BitVec 128) : Nat := 16 * tdField d 48 16
def tdTag (d : BitVec 128) : Nat := tdField d 64 4
def tdLayout (d : BitVec 128) : Nat := tdField d 68 2
def tdScaled (d : BitVec 128) : Bool := d.getLsbD 70
def tdExp (d : BitVec 128) : Int := intOf true 16 (tdField d 80 16)
def tdStream (d : BitVec 128) : Nat := tdField d 96 27
def tdValid (d : BitVec 128) : Bool := d.getLsbD 127

/-- A descriptor with another exponent. -/
def tdSetExp (d : BitVec 128) (e : Int) : BitVec 128 :=
  (d &&& ~~~((0xFFFF : BitVec 128) <<< 80)) ||| (BitVec.ofNat 128 (wrapInt 16 e) <<< 80)

/-- The reserved fields of a descriptor are zero. -/
def tdReserved (d : BitVec 128) : Bool := tdField d 27 5 == 0 && tdField d 71 9 == 0 && tdField d 123 4 == 0

/-- The tag codes of R25. -/
def tdTagOk (t : Nat) : Bool := t == 1 || t == 3 || (6 ≤ t && t ≤ 12) || t == 15

/-- Bytes of an element (08 R218). -/
def tagSize (t : Nat) : Nat := if 8 ≤ t ∧ t ≤ 12 then 1 else if t = 6 ∨ t = 7 then 2 else if t = 15 then 8 else 4

/-- Local-store offset of element (i, j) (08 R218). -/
def tdOfs (d : BitVec 128) (i j : Nat) : Nat :=
  let z := tagSize (tdTag d)
  let p := tdPitch d
  match tdLayout d with
  | 0 => tdBase d + i * p + j * z
  | 1 => tdBase d + j * p + i * z
  | _ =>
    let c := j * z
    tdBase d + i * p + (c - c % 128) + ((c % 128 / 16) ^^^ (i % 8)) * 16 + c % 16

/-- Lines of a tile and their length in bytes (08 R218). -/
def tdLines (d : BitVec 128) : Nat := if tdLayout d = 1 then tdCols d else tdRows d
def tdLen (d : BitVec 128) : Nat := (if tdLayout d = 1 then tdRows d else tdCols d) * tagSize (tdTag d)

/-- The runs of bytes of a line in element order: offset and length. -/
def tdRuns (d : BitVec 128) (l : Nat) : List (Nat × Nat) :=
  let n := tdLen d
  if tdLayout d ≤ 1 then [(tdBase d + l * tdPitch d, n)]
  else (List.range (cdiv n 16)).map fun k =>
    let c := 16 * k
    (tdBase d + l * tdPitch d + (c - c % 128) + ((c % 128 / 16) ^^^ (l % 8)) * 16, min 16 (n - c))

/-- The bytes from the lowest to past the highest of some runs. -/
def runSpan (l : List (Nat × Nat)) : Nat × Nat :=
  (((leastBy id (l.map (·.1))).getD 0), l.foldl (fun a r => max a (r.1 + r.2)) 0)

/-- The range of a tile (01 R411): from BASE to past its farthest element. In the swizzled layout one of the last 8 rows
holds it. -/
def tdRange (d : BitVec 128) : Nat × Nat :=
  let r := tdRows d
  let rows := match tdLayout d with
    | 0 => [r - 1]
    | 1 => [tdCols d - 1]
    | _ => (List.range (min r 8)).map fun k => r - 1 - k
  (tdBase d, rows.foldl (fun a l => max a (runSpan (tdRuns d l)).2) 0)

/-- Whether two ranges share a byte. -/
def rangesMeet (a b : Nat × Nat) : Bool := decide (a.1 < b.2) && decide (b.1 < a.2)

/-- The first check of TDESC that fails, counted from 1 in the order of R25; 0 when none does (08 R220). -/
def tdescCheck (d : BitVec 128) (usable : Nat) : Nat :=
  if !tdReserved d then 1
  else if !tdValid d then 0
  else if tdField d 0 4 ≠ 0 then 2
  else if tdField d 48 16 = 0 then 3
  else if tdLayout d = 3 then 4
  else if !tdTagOk (tdTag d) then 5
  else if usable < (tdRange d).2 then 6
  else if tdTag d ≠ 15 ∧ tdField d 80 16 ≠ 0 then 7
  else 0

/-- The operand pairs of R94. -/
def pairOk (a b : Nat) : Bool :=
  (a == 12 && (b == 8 || b == 9)) || (b == 12 && (a == 8 || a == 9))
    || ((a == 10 || a == 11) && (b == 10 || b == 11)) || (a == 7 && b == 7) || (a == 6 && b == 6)

/-- The first check of TASK that fails, counted from 1 in the order of R221; 0 when none does. `cvt` selects FN 2, with
its source in `a`. -/
def taskCheck (cvt : Bool) (d a b : BitVec 128) : Nat :=
  let srcs := if cvt then [a] else [a, b]
  if !(tdValid d && srcs.all tdValid) then 1
  else
    let c :=
      if cvt then
        if tdRows a ≠ tdRows d ∨ tdCols a ≠ tdCols d then 7
        else if tdScaled a ∨ tdScaled d then 8
        else if !tdTagOk (tdTag d) then 9 else 0
      else
        if tdTag d ≠ 15 then 2
        else if tdScaled d then 3
        else if tdCols a ≠ tdRows b ∨ tdRows a ≠ tdRows d ∨ tdCols b ≠ tdCols d then 4
        else if !pairOk (tdTag a) (tdTag b) then 5
        else if (tdScaled a || tdScaled b) && tdCols a % 32 != 0 then 6 else 0
    if c ≠ 0 then c else if srcs.any fun x => rangesMeet (tdRange x) (tdRange d) then 10 else 0

/-! ## Scale streams -/

/-- A stream under decoding: biased exponents so far (latest first), or the status that ends the task. -/
structure Sd4 where
  out  : List Nat
  pos  : Nat           -- next nibble, counted from the start of the stream
  code : Nat           -- 0; 1 SD4RANGE; 13 LSRANGE (08 R214)
  deriving DecidableEq, Repr

/-- A nibble of a stream; none at or above the limit. -/
def sd4Nibble (byte : Nat → Option Nat) (pos : Nat) : Option Nat :=
  (byte (1 + pos / 2)).map fun b => if pos % 2 = 0 then b % 16 else b / 16

/-- The next scale (04 R92, R93). -/
def Sd4.next (s : Sd4) (byte : Nat → Option Nat) : Sd4 :=
  if s.code ≠ 0 then s
  else
    match s.out with
    | [] =>
      match byte 0 with
      | none => { s with code := 13 }
      | some b => { s with out := [b] }
    | x :: _ =>
      match sd4Nibble byte s.pos with
      | none => { s with code := 13 }
      | some 8 =>
        match sd4Nibble byte (s.pos + 1), sd4Nibble byte (s.pos + 2) with
        | some a, some b => { s with out := (a + 16 * b) :: s.out, pos := s.pos + 3 }
        | _, _ => { s with code := 13 }
      | some d =>
        let y : Int := (x : Int) + (if 8 ≤ d then (d : Int) - 16 else d)
        if y < 0 ∨ 255 < y then { s with code := 1 } else { s with out := y.toNat :: s.out, pos := s.pos + 1 }

def Sd4.run (byte : Nat → Option Nat) : Nat → Sd4 → Sd4
  | 0, s => s
  | n + 1, s => Sd4.run byte n (s.next byte)

/-- The `n` scales of a stream, or the status that ends the task (04 R92, R93). -/
def sd4Decode (byte : Nat → Option Nat) (n : Nat) : Except Nat (List Nat) :=
  let s := Sd4.run byte n ⟨[], 0, 0⟩
  if s.code = 0 then .ok s.out.reverse else .error s.code

/-- Bytes that the stream of `n` scales takes. -/
def sd4Used (byte : Nat → Option Nat) (n : Nat) : Nat :=
  let s := Sd4.run byte n ⟨[], 0, 0⟩
  1 + cdiv s.pos 2

/-! ## Block sums -/

/-- A power of two below every operand of a tag (04 R79, R91). -/
def tagUnit (t : Nat) : Int := match t with | 12 => -6 | 10 | 11 => -16 | 7 => -133 | 6 => -24 | _ => 0

/-- The value of an operand element in units of 2^tagUnit; none for a NaN or an infinity. -/
def operandOf (t b : Nat) : Option Int :=
  match (elemOf t).value false b with
  | .fin n m e _ => some (sgn n m * 2 ^ (e - tagUnit t).toNat)
  | _ => none

/-- A dot product of operands; none when one of them is a NaN or an infinity. -/
def dotOf : List (Option Int) → List (Option Int) → Option Int
  | some a :: as, some b :: bs => (dotOf as bs).map fun x => a * b + x
  | none :: _, _ => none
  | _, none :: _ => none
  | _, _ => some 0

/-- A block sum: none for POISON, else a number and a power of two (04 R95). -/
abbrev BlockSum := Option (Int × Int)

/-- POISON (04 R96). -/
def poison48 : Int := -(2 ^ 47)

/-- round_rne(n * 2^k). -/
def rneShift (n k : Int) : Int := if 0 ≤ k then n * 2 ^ k.toNat else sgn (decide (n < 0)) (roundUnits rndRne (decide (n < 0)) n.natAbs k 0 false)

/-- The new mantissa for a shift of 8 t (04 R97); none: POISON. -/
def mantAt (e t m : Int) (p : BlockSum) : Option Int :=
  if m = poison48 then none
  else
    match p with
    | none => none
    | some (n, k) => some (rneShift m (-(8 * t)) + rneShift n (k - (e + 8 * t)))

/-- Whether a new mantissa may be committed (04 R96, R97). POISON marks a NaN or an infinity alone: a number that comes to -2^47 is none,
and lies out of range (DEDUCED, log 92). -/
def mantOk (m : Option Int) : Bool := match m with | none => true | some x => decide (-(2 ^ 46) ≤ x) && decide (x ≤ 2 ^ 46 - 1)

/-- The shift that brings every mantissa into range (04 R97). -/
def shiftFor (e : Int) (l : List (Int × BlockSum)) : Nat → Int → Int
  | 0, t => t
  | n + 1, t => if l.all fun q => mantOk (mantAt e t q.1 q.2) then t else shiftFor e l n (t + 1)

/-- Accumulate one k-block (04 R97): the new mantissas and exponent, or none for BFAOVF. -/
def bfaBlock (e : Int) (l : List (Int × BlockSum)) : Option (List Int × Int) :=
  let t := shiftFor e l 8300 0
  if 32767 < e + 8 * t then none else some (l.map fun q => (mantAt e t q.1 q.2).getD poison48, e + 8 * t)

/-! ## Tiles in local store -/

/-- The bits of an element. -/
def Block.elem (b : Block) (d : BitVec 128) (i j : Nat) : Nat := bytesNat (b.lsRead (tdOfs d i j) (tagSize (tdTag d)))

/-- The mantissas of a BFA48 tile, by rows (04 R96). -/
def Block.mants (b : Block) (d : BitVec 128) : List Int :=
  (List.range (tdRows d)).flatMap fun i => (List.range (tdCols d)).map fun j => intOf true 48 (b.elem d i j)

/-- The scales of a tile, by lines; the empty list for a tile without (04 R92). -/
def Block.scales (b : Block) (d : BitVec 128) (lines blocks : Nat) : Except Nat (List Nat) :=
  if tdScaled d then
    sd4Decode (fun i => if tdStream d + i < b.usable then some (kgetD b.ls (tdStream d + i) 0).toNat else none) (lines * blocks)
  else .ok []

/-- The power of two of a line's scale in a block. -/
def scaleOf (l : List Nat) (blocks line b : Nat) : Int := if l.isEmpty then 0 else (l.getD (line * blocks + b) 127 : Int) - 127

/-- The block sums of k-block `k` of A x B, by rows of D (04 R95). -/
def Block.sums (b : Block) (da db : BitVec 128) (sa sb : List Nat) (k : Nat) : List BlockSum :=
  let nb := cdiv (tdCols da) 32
  let ks := (List.range 32).filterMap fun i => if 32 * k + i < tdCols da then some (32 * k + i) else none
  let rowA := (List.range (tdRows da)).map fun i => ks.map fun x => operandOf (tdTag da) (b.elem da i x)
  let colB := (List.range (tdCols db)).map fun j => ks.map fun x => operandOf (tdTag db) (b.elem db x j)
  let u := tagUnit (tdTag da) + tagUnit (tdTag db)
  (List.zip (List.range rowA.length) rowA).flatMap fun (p : Nat × List (Option Int)) =>
    (List.zip (List.range colB.length) colB).map fun (q : Nat × List (Option Int)) =>
      (dotOf p.2 q.2).map fun n => (n, u + scaleOf sa nb p.1 k + scaleOf sb nb q.1 k)

/-- The bytes of a mantissa: bit 47 is copied above (04 R96). -/
def mantBytes (m : Int) : List Byte := natBytes (wrapInt 64 m) 8

/-! ## Conversion -/

/-- The value of a source element of TASK.cvt (04 R98). -/
def cvtValue (d : BitVec 128) (b : Nat) : FVal :=
  if tdTag d = 15 then
    let m := intOf true 48 b
    if m = poison48 then .nan else .fin (decide (m < 0)) m.natAbs (tdExp d) false
  else (elemOf (tdTag d)).value false b

/-- The code of a converted element (04 R98). -/
def cvtCode (t : Nat) (x : FVal) : Nat :=
  match elemOf t with
  | .int s n => roundInt rndRne s n x
  | .duo => roundDuo rndRne x
  | .flt f => f.round { rndRne with sat := t == 10 || t == 11 } x

/-- A source value as a block sum: POISON for a NaN or an infinity (04 R98). -/
def sumOf : FVal → BlockSum
  | .fin n m e _ => some (sgn n m, e)
  | _ => none

end Sys2Proof.Machine
end

