-- ==== Sys2Proof/Machine/Engines.lean ====
section
/-! DEFINITION. Engine commands (08 R211 to R231): their checks, their entry as work of the block, the accesses of that work
to global memory (11 R308), and its join. -/

namespace Sys2Proof.Machine

/-! ## Queues -/

def WorkKind.isHod (k : WorkKind) : Bool := k == .cpyIn || k == .cpyOut || k == .cpyLocal || k == .gather || k == .scatter
def WorkKind.isTask (k : WorkKind) : Bool := k == .task || k == .taskOvr || k == .taskCvt
def WorkKind.isSend (k : WorkKind) : Bool := k == .mcst || k == .msgx

/-- The core of engine work. -/
def State.workCore (s : State) (e : Work) : Nat := (s.blockD e.block).ck

/-- Work of a core that a test selects, in entry order. -/
def State.coreWork (s : State) (ck : Nat) (sel : WorkKind → Bool) : List (Nat × Work) :=
  s.works.filter fun q => sel q.2.kind && s.workCore q.2 == ck

/-- Whether the queue of a command at a core is full (08 R213). -/
def State.queueFull (s : State) (ck : Nat) (k : WorkKind) : Bool :=
  let n (sel : WorkKind → Bool) : Nat := (s.coreWork ck sel).length
  if k.isHod then decide (64 ≤ n WorkKind.isHod)
  else if k.isTask then decide (256 ≤ n WorkKind.isTask)
  else if k = .kmv then decide (32 ≤ n (· == .kmv))
  else decide (64 ≤ n WorkKind.isSend)

/-- The value of a descriptor that a command issued in this clk copies (08 R220). -/
def State.descOf (s : State) (n : Nat) : BitVec 128 :=
  let d := kgetD s.curBlock.descs n ⟨0, 0, 0, 0⟩
  if d.clk = s.clk + 1 then d.prev else d.val

/-! ## Entry -/

/-- The work of a command of the issuer. -/
def State.newWork (s : State) (kind : WorkKind) (f : EFmt) (td1 td2 td3 : BitVec 128) (a b : Word) : Work :=
  { kind := kind, wid := s.cur.1, block := s.curWarp.block, seq := s.nextId, clk := s.clk, pc := s.curSplit.pc
    td1 := td1, td2 := td2, td3 := td3, tdn := f.td1.toNat, a := a, b := b
    grp := f.td1.toNat * 256 + f.td2.toNat * 16 + f.td3.toNat, cnt := f.cnt.toNat, scope := f.sc.toNat, inc := f.imm.toNat
    sten := f.xw, stofs := f.ext.toNat % 2 ^ 27, phase := .queued, fork := 0, due := 0, engine := 4, next := 0, base := 0
    lines := [], etmp := tdExp td1, mant := [], fails := [], buf := [], snap := [], gen := 0, plane := 128, wait := [], wfail := FailRec.empty
    noStatus := false, denied := [], aborted := false }

/-- Words of a command. -/
def engWords (f : EFmt) : Nat := if f.xw then 2 else 1

/-- Enter a command's work (08 R211, R212): the issuer goes on. While its queue is full the command waits at issue (R213). -/
def State.enterWork (s : State) (f : EFmt) (e : Work) : Out :=
  if s.queueFull s.curBlock.ck e.kind then .next s
  else .next ({ s with works := kput s.works s.nextId e, nextId := s.nextId + 1 }.retire f.sw 2 (engWords f))

/-- A check of a command: the first fault of a list, then that of its status offset (08 R214). -/
def State.engineFault (s : State) (f : EFmt) (l : List (Bool × Nat × Word)) : Option (Nat × Word) :=
  match l.find? fun c => c.1 with
  | some c => some c.2
  | none => if f.xw ∧ s.curBlock.usable ≤ f.ext.toNat % 2 ^ 27 then some (fcLsrange, f.ext) else none

/-- A command with its checks. -/
def State.command (s : State) (kind : WorkKind) (f : EFmt) (td1 td2 td3 : BitVec 128) (l : List (Bool × Nat × Word)) : Out :=
  match s.engineFault f l with
  | some (c, i) => .next (s.raise (engWords f) c i)
  | none => s.enterWork f (s.newWork kind f td1 td2 td3 (s.rdS f.sa.toNat) (s.rdS f.sb.toNat))

/-- INFO of TDINVAL (08 R237). -/
def tdInfo (n c : Nat) : Word := BitVec.ofNat 64 (n + 2 ^ 8 * c)

/-- A local-store offset in a scalar. -/
def lsOfs (x : Word) : Nat := x.toNat % 2 ^ 27

/-- CPY in and out (08 R218). -/
def State.cpyOp (s : State) (kind : WorkKind) (f : EFmt) : Out :=
  let d := s.descOf f.td1.toNat
  let a := s.rdS f.sa.toNat
  let b := s.rdS f.sb.toNat
  let z := tagSize (tdTag d)
  s.command kind f d 0 0
    [(!tdValid d, fcTdinval, tdInfo f.td1.toNat 1), (wf a 57 3 != 0, fcAddrnc, a), (a.toNat % z != 0, fcMisalign, a),
     (b.toNat % z != 0, fcMisalign, b)]

/-- CPYG (08 R218). -/
def State.cpygOp (s : State) (kind : WorkKind) (f : EFmt) : Out :=
  let d := s.descOf f.td1.toNat
  let a := lsOfs (s.rdS f.sa.toNat)
  s.command kind f d 0 0
    [(!tdValid d, fcTdinval, tdInfo f.td1.toNat 1),
     (decide (s.curBlock.usable < a + 8 * tdLines d), fcLsrange, BitVec.ofNat 64 a),
     (a % 8 != 0, fcMisalign, BitVec.ofNat 64 a)]

/-- CPY (08 R218). -/
def execCpy (f : EFmt) (s : State) : Out := s.cpyOp .cpyIn f

/-- CPY.out (08 R218). -/
def execCpyOut (f : EFmt) (s : State) : Out := s.cpyOp .cpyOut f

/-- CPY between two tiles (08 R218). -/
def execCpyLocal (f : EFmt) (s : State) : Out :=
  let d1 := s.descOf f.td1.toNat
  let d2 := s.descOf f.td2.toNat
  let same := tdRows d1 == tdRows d2 && tdCols d1 == tdCols d2 && tdTag d1 == tdTag d2
  s.command .cpyLocal f d1 d2 0
    [(!tdValid d1, fcTdinval, tdInfo f.td1.toNat 1), (!tdValid d2, fcTdinval, tdInfo f.td2.toNat 1),
     (!same, fcTdinval, tdInfo f.td1.toNat 2)]

/-- CPYG (08 R218). -/
def execCpyg (f : EFmt) (s : State) : Out := s.cpygOp .gather f

/-- CPYG.scatter (08 R218). -/
def execCpygScatter (f : EFmt) (s : State) : Out := s.cpygOp .scatter f

/-- TDESC (08 R220, 01 R26): of the writes of one clk the lowest (stage, warp index, slot) stands. -/
def execTdesc (f : EFmt) (s : State) : Out :=
  let v : BitVec 128 := s.rdS f.sb.toNat ++ s.rdS f.sa.toNat
  let n := f.td1.toNat
  let w := s.curWarp
  let place := (32 * w.stage + w.widx) * 32 + s.cur.2
  let c := tdescCheck v s.curBlock.usable
  if c ≠ 0 then .next (s.raise 1 fcTdinval (tdInfo n c))
  else
    let s1 := s.modBlock w.block fun b =>
      let d := kgetD b.descs n ⟨0, 0, 0, 0⟩
      let y : Desc :=
        if d.clk = s.clk + 1 then (if d.writer < place then d else { d with val := v, writer := place })
        else ⟨v, d.val, s.clk + 1, place⟩
      { b with descs := kput b.descs n y }
    .next (s1.retire f.sw 2 1)

/-- The checks of TASK (08 R221): the descriptor named is the one with VALID 0, else D. -/
def State.taskOp (s : State) (kind : WorkKind) (f : EFmt) : Out :=
  let cvt := kind == .taskCvt
  let d := s.descOf f.td1.toNat
  let a := s.descOf f.td2.toNat
  let b := if cvt then 0 else s.descOf f.td3.toNat
  let c := taskCheck cvt d a b
  let n := if c = 1 ∧ tdValid d then (if tdValid a then f.td3.toNat else f.td2.toNat) else f.td1.toNat
  s.command kind f d a b [(c != 0, fcTdinval, tdInfo n c)]

/-- TASK (08 R221). -/
def execTask (f : EFmt) (s : State) : Out := s.taskOp .task f

/-- TASK.ovr (08 R221). -/
def execTaskOvr (f : EFmt) (s : State) : Out := s.taskOp .taskOvr f

/-- TASK.cvt (08 R221). -/
def execTaskCvt (f : EFmt) (s : State) : Out := s.taskOp .taskCvt f

/-- The check of a local-store operand that must be a multiple of 16 and lie below the usable limit (08 R226, R229, R230). -/
def State.lsCheck (s : State) (a n : Nat) : Bool × Nat × Word :=
  (a % 16 != 0 || decide (s.curBlock.usable < a + n), fcLsrange, BitVec.ofNat 64 a)

/-- KMV (08 R226). -/
def execKmv (f : EFmt) (s : State) : Out := s.command .kmv f 0 0 0 [s.lsCheck (lsOfs (s.rdS f.sa.toNat)) 64]

/-- MCST (08 R229). -/
def execMcst (f : EFmt) (s : State) : Out :=
  let b := s.rdS f.sb.toNat
  s.command .mcst f 0 0 0
    [s.lsCheck (lsOfs (s.rdS f.sa.toNat)) 256, (wf b 57 3 != 0, fcAddrnc, b), (b.toNat % 256 != 0, fcMisalign, b)]

/-- Payload bytes of MSGX (08 R230). -/
def msgLen (b : Word) : Nat := 16 * (wf b 32 4 + 1)

/-- MSGX (08 R230). -/
def execMsgx (f : EFmt) (s : State) : Out :=
  s.command .msgx f 0 0 0 [s.lsCheck (lsOfs (s.rdS f.sa.toNat)) (msgLen (s.rdS f.sb.toNat))]

/-! ## Global accesses of engine work -/

/-- The cause bit that a failed write adds (08 R215). -/
def writeCause (code : Nat) : Nat :=
  if code = ecTagchk then cbTagf else if code = ecDlink then cbDlink else if code = ecDpeer then cbDpeer
  else if code = ecCohlost then cbCohlost else cbRefused

/-- The address space of engine work. -/
def State.workAsid (s : State) (e : Work) : Nat := (s.launchD (s.blockD e.block).launch).asid

/-- An access of a line of engine work (11 R308): a load or a store of its core at the command's scope. -/
def State.engReq (s : State) (id : Nat) (e : Work) (kind : ReqKind) (l place : Nat) (va : Word) (n : Nat) (data : List Byte) : Req :=
  let b := s.blockD e.block
  let asid := s.workAsid e
  { kind := kind, wid := e.wid, own := 0, lanes := 0, span := 0, seq := e.seq, clk := s.clk, pc := e.pc, va := va, size := n
    scope := e.scope, ord := 1, hint := 0, op := 0, data := data, opnds := [], regs := [], sext := false, phase := .held
    asid := asid, gen := s.genOf b.ck asid, pkg := b.pkg, die := b.die, plane := 128, arrive := s.clk, old := [], filled := false
    tr := none, place := 0, slow := 0, resent := false, work := (id, l, place), wrote := none, stage := 0, mark := 0, fault := 0
    info := 0 }

/-- The pieces of a run of global bytes within aligned 32-byte sectors (11 R299): address, place in the run, length. -/
def sectorPieces (va : Word) (n : Nat) : List (Word × Nat × Nat) :=
  let o := va.toNat % 32
  (List.range (cdiv (o + n) 32)).map fun i =>
    let from_ := if i = 0 then 0 else 32 * i - o
    let upto := min n (32 * (i + 1) - o)
    (va + BitVec.ofNat 64 from_, from_, upto - from_)

/-- Whether engine work waits for the driver (08 R215). -/
def State.workStuck (s : State) (id : Nat) : Bool := s.tickets.any fun t => t.2.reqs.contains id

/-- A kiln request meets a page without a leaf (08 R215): it waits for the driver, with a record of its own or with one that is
waiting (16 R386). -/
def State.engMiss (s : State) (id : Nat) (e : Work) (pkg die va kind : Nat) : State :=
  let asid := s.workAsid e
  (s.ask pkg die asid (s.genOf (s.workCore e) asid) (pageOf va) kind (s.launchD (s.blockD e.block).launch).queue [id]).getD s

/-! ## Status and join -/

/-- Units of a command (08 R214): lines, members (counted in `base`), or one. -/
def Work.units (e : Work) : Nat :=
  if e.kind.isHod then tdLines e.td1
  else if e.kind = .mcst then e.base else 1

/-- The status word of a number of units with their failures (08 R214). -/
def statusWord (units : Nat) (fails : List (Nat × Nat × Nat × Nat)) : Nat :=
  match leastBy (fun f : Nat × Nat × Nat × Nat => f.1) fails with
  | none => 2 ^ 48 * min 65535 units
  | some (_, c, p, d) =>
    c + 2 ^ 16 * min 65535 fails.length + 2 ^ 32 * p + 2 ^ 41 * d + 2 ^ 48 * min 65535 (units - fails.length)

def Work.status (e : Work) : Nat := statusWord e.units e.fails

/-- Post ENGERR (08 R215, R237, 15 R360). -/
def State.postEngerr (s : State) (e : Work) (info : Nat) : State :=
  let r := s.excOf e.wid 0 fcEngerr (BitVec.ofNat 64 info) e.pc 0 false
  s.postExc (s.launchOf e.wid).queue { r with noans := true }

/-- Engine work has done its last unit; it joins at a clk. -/
def State.finishWork (s : State) (id due : Nat) : State := s.modWork id fun e => { e with phase := .finished, due := due }

/-- Record the failure of a unit. -/
def Work.failed (e : Work) (u c p d : Nat) : Work := { e with fails := e.fails ++ [(u, c, p, d)] }

/-- ENGINE_JOIN (08 R212 to R215): the failures of writes, the status word or ENGERR, and the increment, in one clk. Aborted
work joins without any of them (15 R362). -/
def execEngineJoin (id : Nat) (s : State) : Out :=
  match kget? s.works id with
  | none => .next s
  | some e =>
    if e.phase ≠ .finished || decide (s.clk < e.due) then .next s
    else
      let s1 := { s with works := kdel s.works id }
      if e.aborted then .next s1
      else
        let s2 := if e.wfail.has then s1.reportFail e.wid e.wfail.causes e.wfail.count e.wfail.pkg e.wfail.die else s1
        let word := e.status
        let s3 :=
          if e.noStatus then s2.postEngerr e (ecAddr + 2 ^ 16)
          else if e.sten then s2.fillLocal e.block e.stofs (natBytes word 8)
          else if e.kind != .kmv && word % 16 != 0 then s2.postEngerr e word
          else s2
        if e.inc = 0 then .next s3 else .next (s3.counterAdd e.block e.cnt e.inc)

end Sys2Proof.Machine
end

