-- ==== Sys2Proof/Machine/EngineEvents.lean ====
section
/-! DEFINITION. The steps of engine work: fork (08 R212), the hod's lines (R218, R412), tile tasks (R222 to R224, 12 R322), the
kiln (R226 to R228, 12 R324) and multicast stores (R229, 12 R325). -/

namespace Sys2Proof.Machine

/-- The package and die of a unit that failed without a home (08 R214): the manual states none. -/
def State.noHome (s : State) : Nat × Nat := ((Config.noHome s.free).1 % 512, (Config.noHome s.free).2 % 128)

/-- A unit of a work fails without a home. -/
def State.failUnit (s : State) (id u c : Nat) : State :=
  { s with free := s.free + 1 }.modWork id fun e => e.failed u c s.noHome.1 s.noHome.2

/-- Whether every split of a warp has halted for a save (09 R249 to R252). -/
def Warp.allHalted (w : Warp) : Bool := w.captured || (w.haltH != 0 && !w.ended && w.table.all fun t => t.2.halted)

/-- Whether a block has halted: its engine work goes to its save points (08 R216). -/
def State.blockHalted (s : State) (bid : Nat) : Bool :=
  let l := s.warps.filter fun q => q.2.block == bid
  (l.any fun q => q.2.allHalted) && l.all fun q => q.2.ended || q.2.allHalted

/-- Write runs of bytes to a block's local store: their granules become full and waiters are tested in the same clk (07 R186). -/
def State.fillRuns (s : State) (bid : Nat) (l : List (Nat × List Byte)) : State :=
  let s1 := s.modBlock bid fun b => l.foldl (fun b q => b.lsFill q.1 q.2) b
  let gs := l.foldl (fun (a : List Nat) q => (List.range (cdiv q.2.length 16 + 1)).foldl (fun a i =>
    if 16 * (q.1 / 16 + i) < q.1 + q.2.length then ninsert a (q.1 / 16 + i) else a) a) []
  gs.foldl (fun s g => s.feWake bid g) s1

/-- Cut bytes into runs of given lengths. -/
def cutRuns : List (Nat × Nat) → List Byte → List (Nat × List Byte)
  | [], _ => []
  | (o, n) :: rest, l => (o, l.take n) :: cutRuns rest (l.drop n)

/-! ## Kiln requests -/

/-- A field of a kiln request (08 R226). -/
def kvField (l : List Byte) (lo n : Nat) : Nat := nbits (bytesNat (l.take 64)) lo n

/-- Sizes and places of a kiln request. -/
def kvRows (l : List Byte) : Nat := kvField l 128 16 + 1
def kvK (l : List Byte) : Nat := 32 * (kvField l 144 12 + 1)
def kvRange (l : List Byte) (which : Nat) : Nat × Nat :=
  match which with
  | 0 => (kvField l 192 27, kvField l 192 27 + kvK l)
  | 1 => (kvField l 224 27, kvField l 224 27 + 8 * kvRows l)
  | _ => (kvField l 288 27, kvField l 288 27 + 16)

/-- Whether the result record of a request can be written (08 R226). -/
def kvRecordOk (l : List Byte) (usable : Nat) : Bool :=
  let r := kvRange l 2
  r.1 % 16 == 0 && decide (r.2 ≤ usable) && !rangesMeet r (kvRange l 0) && !rangesMeet r (kvRange l 1)

/-- Whether the rest of a request is well formed (08 R226). -/
def kvOk (l : List Byte) (usable : Nat) : Bool :=
  let v := kvRange l 0
  let o := kvRange l 1
  kvField l 156 4 == 0 && kvField l 222 2 == 0 && kvField l 251 5 == 0 && kvField l 272 16 == 0 && kvField l 315 197 == 0
    && kvField l 0 64 % 32 == 0 && kvField l 160 32 % 32 == 0 && decide (kvK l ≤ kvField l 160 32)
    && v.1 % 16 == 0 && o.1 % 16 == 0 && decide (v.2 ≤ usable) && decide (o.2 ≤ usable) && !rangesMeet v o

/-- Write the result record of a request and let it join (08 R227). -/
def State.kilnRecord (s : State) (id : Nat) (e : Work) (eout : Int) : State :=
  let e' := (kget? s.works id).getD e
  let r := natBytes e'.status 8 ++ natBytes (wrapInt 16 eout) 2 ++ natBytes 0 6
  (if e.aborted then s else s.fillRuns e.block [((kvRange e'.buf 2).1, r)]).finishWork id s.clk

/-- Clk of a request's way to its stack (08 R228). -/
def State.kilnWay (s : State) (e : Work) (pkg die : Nat) : Nat :=
  let b := s.blockD e.block
  if b.pkg = pkg then 24 * meshHops b.die die
  else
    let c := planeCol (livePlane (s.pkg b.pkg).live (planeOf (s.workAsid e) (kvField e.buf 0 64)))
    24 * (dist (dieX b.die) c + dist (dieX die) c) + 520

/-- The bytes of memory that a request forked now may read (12 R324): a write whose home stage has not returned is not seen. -/
def State.homeNow (s : State) : List Host.Cell :=
  let late := s.reqs.filter fun q => q.2.phase == .reply || (q.2.phase == .applied && decide (q.2.stage ≤ 2))
  (sortBy (fun q : Nat × Req => q.2.place) late).reverse.foldl (fun m q => match q.2.wrote with | some (k, l) => memWrite m k l | none => m)
    s.mem

/-- Send a kiln request to the stack that homes its matrix, by the placement cache of its die (16 R378); a page without a leaf keeps
it waiting for the driver. -/
def State.sendKmv (s : State) (id : Nat) (e : Work) : State :=
  let b := s.blockD e.block
  let asid := s.workAsid e
  let ma := kvField e.buf 0 64
  let gen := s.genOf b.ck asid
  let go (s : State) (leaf : Word) (t : Nat) : State :=
    match s.homeOf b.pkg asid leaf ma with
    | none => s
    | some (hp, hd) => s.modWork id fun e =>
        { e with phase := .sent, gen := gen, wait := [128 * hp + hd], due := s.clk + t + s.kilnWay e hp hd
                 plane := if hp = b.pkg then 128 else livePlane (s.pkg b.pkg).live (planeOf asid ma) }
  match kget? (s.die b.dk).plc (tlbKey asid gen ma) with
  | some t => go s t.leaf 0
  | none =>
    match s.lookup b.pkg asid ma with
    | some (leaf, _, _) => go (s.plcFill b.dk asid gen ma leaf) leaf (s.plcTime b.pkg b.die asid ma)
    | none =>
      if e.denied.contains (pageOf ma) then
        (s.modWork id fun e => e.failed 0 ecAccess b.pkg 0).kilnRecord id e (intOf true 16 (kvField e.buf 256 16))
      else (s.modWork id fun e => { e with phase := .queued }).engMiss id e b.pkg 0 ma akRead

/-- A kiln request forks (08 R226). -/
def State.forkKmv (s : State) (id : Nat) (e : Work) : State :=
  let b := s.blockD e.block
  let q := b.lsRead (lsOfs e.a) 64
  let s1 := s.modWork id fun e => { e with buf := q, fork := s.clk, phase := .forked }
  let e1 := { e with buf := q }
  let exp0 := intOf true 16 (kvField q 256 16)
  if !kvRecordOk q b.usable then
    ((s1.failUnit id 0 ecAddr).modWork id fun e => { e with noStatus := true }).finishWork id s.clk
  else if !kvOk q b.usable then (s1.failUnit id 0 ecAddr).kilnRecord id e1 exp0
  else
    (s1.modWork id fun e => { e with snap := s.homeNow }).sendKmv id e1

/-! ## ENGINE_FORK -/

/-- Whether what the fork of work waits for is done (08 R212). -/
def State.forkReady (s : State) (e : Work) : Bool :=
  (s.reqs.all fun q => !q.2.from e.wid || decide (e.seq ≤ q.2.seq) || !q.2.isPosted || q.2.completeAt e.scope)
    && (s.fes.all fun q => q.2.wid != e.wid || decide (e.seq ≤ q.2.seq))

/-- Whether an MCST to a line waits for earlier ones of its package that went out on another plane (17 R400). -/
def State.planeHeld (s : State) (id : Nat) (e : Work) : Bool :=
  let p := (s.blockD e.block).pkg
  let plane := livePlane (s.pkg p).live (planeOf (s.workAsid e) e.b.toNat)
  e.kind == .mcst && s.works.any fun q =>
    q.1 != id && q.2.kind == .mcst && (q.2.phase == .sent || q.2.phase == .running) && q.2.plane != plane
      && (s.blockD q.2.block).pkg == p && s.workAsid q.2 == s.workAsid e && blkOf q.2.b.toNat == blkOf e.b.toNat

/-- ENGINE_FORK (08 R212): the work may read from now on; sends and kiln requests read their data in this clk. -/
def execEngineFork (id : Nat) (s : State) : Out :=
  match kget? s.works id with
  | none => .next s
  | some e =>
    let saved := (e.kind.isHod || e.kind.isTask) && (s.warpD e.wid).captured
    if e.phase ≠ .queued || saved || s.workStuck id || !s.forkReady e then .next s
    else
      match e.kind with
      | .kmv => .next (s.forkKmv id e)
      | .mcst | .msgx =>
        if s.planeHeld id e then .next s else
        let b := s.blockD e.block
        let n := if e.kind = .mcst then 256 else msgLen e.b
        .next (s.modWork id fun e =>
          { e with phase := .sent, fork := s.clk, buf := b.lsRead (lsOfs e.a) n
                   plane := livePlane (s.pkg b.pkg).live (planeOf (s.workAsid e) e.b.toNat)
                   due := s.clk + if e.kind = .mcst then 260 else 540 })
      | _ => .next (s.modWork id fun e => { e with phase := .forked, fork := s.clk })

/-! ## The hod -/

/-- Whether a hod command is the first of its core that has lines to move: commands are performed one at a time, in entry
order (08 R218). -/
def State.hodHead (s : State) (id : Nat) (e : Work) : Bool :=
  (s.coreWork (s.workCore e) WorkKind.isHod).all fun q => decide (id ≤ q.1) || q.2.phase == .finished

/-- Whether a command of the hod takes its addresses from a list. -/
def WorkKind.listed (k : WorkKind) : Bool := k == .gather || k == .scatter
/-- Whether it writes local store. -/
def WorkKind.fillsLocal (k : WorkKind) : Bool := k == .cpyIn || k == .cpyLocal || k == .gather

/-- The global address of a line (08 R218). -/
def State.lineAddr (s : State) (e : Work) (l : Nat) : Word :=
  if e.kind.listed then BitVec.ofNat 64 (bytesNat ((s.blockD e.block).lsRead (lsOfs e.a + 8 * l) 8))
  else e.a + BitVec.ofNat 64 l * e.b

/-- The pieces of a line in global memory (11 R299). -/
def Work.pieces (e : Work) (va : Nat) : List (Word × Nat × Nat) := sectorPieces (BitVec.ofNat 64 va) (tdLen e.td1)

/-- The runs of a line in local store, as bytes. -/
def Block.lineBytes (b : Block) (d : BitVec 128) (l : Nat) : List Byte := (tdRuns d l).flatMap fun q => b.lsRead q.1 q.2

/-- Clk that a line takes in local store (08 R412). -/
def Work.moveTime (e : Work) : Nat := (if e.kind = .cpyLocal then 24 else 12) + cdiv (tdLen e.td1) 64

/-- Begin a line (08 R218, R412): a list entry that is not canonical or not aligned fails it at once; the loads of a line in leave now,
the stores of a line out when its bytes have been read. -/
def State.beginLine (s : State) (id : Nat) (e : Work) : State :=
  let l := e.next
  let va := s.lineAddr e l
  let z := tagSize (tdTag e.td1)
  let s1 := s.modWork id fun e => { e with next := l + 1 }
  if e.kind.listed ∧ (wf va 57 3 ≠ 0 ∨ va.toNat % z ≠ 0) then
    let s2 := s1.failUnit id l ecAddr
    if l + 1 = tdLines e.td1 ∧ e.lines.isEmpty then s2.finishWork id (s.clk + 1) else s2
  else
    let reads := e.kind == .cpyIn || e.kind == .gather
    let pieces := if e.kind = .cpyLocal then [] else e.pieces va.toNat
    let x : Line := { va := va.toNat, due := if reads then 0 else s.clk + e.moveTime, sent := reads || e.kind == .cpyLocal
                      left := pieces.length, got := [], fails := [] }
    let s2 := s1.modWork id fun e => { e with lines := kput e.lines l x }
    if reads then pieces.foldl (fun s p => s.postReq (s.engReq id e .load l p.2.1 p.1 p.2.2 [])) s2 else s2

/-- HOD_LINE_BEGIN (08 R412): the command starts, or its next line begins when bandwidth and room allow. -/
def execHodLineBegin (id : Nat) (s : State) : Out :=
  match kget? s.works id with
  | none => .next s
  | some e =>
    let live := e.kind.isHod && (e.phase == .forked || e.phase == .running)
    if !live || !s.hodHead id e then .next s
    else if e.aborted then (if e.lines.isEmpty then .next (s.finishWork id s.clk) else .next s)
    else if s.blockHalted e.block then .next s
    else
      let e1 := if e.phase = .forked then { e with phase := .running, fork := s.clk, base := e.next } else e
      let s1 := s.modWork id fun _ => e1
      let from_ := e1.fork + cdiv ((e1.next - e1.base) * tdLen e1.td1) 64 + if e1.kind.listed then 12 else 0
      if tdLines e1.td1 ≤ e1.next ∨ 16 ≤ e1.lines.length ∨ s.clk < from_ then .next s1 else .next (s1.beginLine id e1)

/-- Whether a line may write local store: no earlier line in flight writes a byte that it writes; lines of a local copy complete in
order (08 R218). -/
def Work.lineFree (e : Work) (l : Nat) : Bool :=
  !e.kind.fillsLocal || e.lines.all fun q => decide (l ≤ q.1)
    || !(e.kind == .cpyLocal || rangesMeet (runSpan (tdRuns e.td1 q.1)) (runSpan (tdRuns e.td1 l)))

/-- What a line in flight does next. -/
inductive LineStep where
  | send     -- its writes leave
  | timed    -- its last access has been answered
  | finish   -- it completes
  deriving DecidableEq, Repr, Inhabited

/-- The next step of a line, where one is due at a clk (08 R412). -/
def Work.lineStep (e : Work) (clk l : Nat) (x : Line) : Option LineStep :=
  if !x.sent then (if x.due ≤ clk then some .send else none)
  else if x.left ≠ 0 then none
  else if x.due = 0 then some .timed
  else if x.due ≤ clk ∧ (e.lineFree l || !x.fails.isEmpty) then some .finish
  else none

/-- A line ends: with the last one the command joins in the next clk (08 R412). -/
def State.endLine (s : State) (id l : Nat) : State :=
  let s1 := s.modWork id fun e => { e with lines := kdel e.lines l }
  match kget? s1.works id with
  | some e => if e.lines.isEmpty ∧ (tdLines e.td1 ≤ e.next ∨ e.aborted) then s1.finishWork id (s.clk + 1) else s1
  | none => s1

/-- The stores of a line out leave, with the bytes that local store holds now. -/
def State.sendLine (s : State) (id : Nat) (e : Work) (l : Nat) (x : Line) : State :=
  let data := (s.blockD e.block).lineBytes e.td1 l
  let s1 := s.modWork id fun e => { e with lines := kput e.lines l { x with sent := true, due := s.clk } }
  (e.pieces x.va).foldl (fun s p => s.postStore (s.engReq id e .store l p.2.1 p.1 p.2.2 ((data.drop p.2.1).take p.2.2))) s1

/-- A line completes (08 R214, R215, R218): its bytes go to local store, or its failure is noted. Of the accesses that failed the one at
the lowest place is the unit's; each write that failed is counted in the failure record. -/
def State.finishLine (s : State) (id : Nat) (e : Work) (l : Nat) (x : Line) : State :=
  let b := s.blockD e.block
  let runs := tdRuns e.td1 l
  match x.fails with
  | [] =>
    let bytes := if e.kind = .cpyLocal then b.lineBytes e.td2 l else x.got.flatMap Prod.snd
    ((if e.kind.fillsLocal && !e.aborted then s.fillRuns e.block (cutRuns runs bytes) else s).endLine id l)
  | (_, (c, p, d)) :: _ =>
    (s.modWork id fun e =>
      let e1 := e.failed l c p d
      if e.kind.fillsLocal then e1
      else { e1 with wfail := x.fails.foldl (fun r q => r.add (1#8 <<< writeCause q.2.1) 1 q.2.2.1 q.2.2.2) e.wfail }).endLine id l

/-- HOD_LINE_COMPLETE (08 R412): the first line in flight whose next step is due takes it. -/
def execHodLineComplete (id : Nat) (s : State) : Out :=
  match kget? s.works id with
  | none => .next s
  | some e =>
    match e.lines.findSome? fun q => (e.lineStep s.clk q.1 q.2).map fun a => (q.1, q.2, a) with
    | none => .next s
    | some (l, x, .send) => .next (s.sendLine id e l x)
    | some (l, x, .timed) =>
      let due := s.clk + if x.fails.isEmpty then e.moveTime else 0
      .next (s.modWork id fun e => { e with lines := kput e.lines l { x with due := due } })
    | some (l, x, .finish) => .next (s.finishLine id e l x)

/-! ## Tile tasks -/

/-- The ranges of a task's sources. -/
def Work.sources (e : Work) : List (Nat × Nat) :=
  if e.kind = .taskCvt then [tdRange e.td2] else [tdRange e.td2, tdRange e.td3]

/-- Whether an earlier task of the block stands in a task's way (08 R223). -/
def State.hazard (s : State) (id : Nat) (e : Work) : Bool :=
  s.works.any fun q =>
    decide (q.1 < id) && q.2.kind.isTask && q.2.block == e.block && q.2.phase != .finished
      && (rangesMeet (tdRange q.2.td1) (tdRange e.td1) || (e.sources.any fun r => rangesMeet (tdRange q.2.td1) r)
          || q.2.sources.any fun r => rangesMeet r (tdRange e.td1))

/-- Whether a task may start (08 R223). -/
def State.mayStart (s : State) (id : Nat) (e : Work) : Bool :=
  e.kind.isTask && e.phase == .forked && !s.blockHalted e.block && s.depMet e && !s.hazard id e

/-- The lowest free engine of a core (12 R322). -/
def State.freeEngine (s : State) (ck : Nat) : Option Nat :=
  (List.range 4).find? fun n => !((s.coreWork ck WorkKind.isTask).any fun q => q.2.phase == .running && q.2.engine == n)

/-- TASK_START (12 R322): the first startable task of a core takes the lowest free engine; TASK.ovr begins with zero
mantissas (04 R97). -/
def execTaskStart (id : Nat) (s : State) : Out :=
  match kget? s.works id with
  | none => .next s
  | some e =>
    let ck := s.workCore e
    match s.freeEngine ck with
    | none => .next s
    | some n =>
      if !s.mayStart id e || (s.coreWork ck WorkKind.isTask).any fun q => decide (q.1 < id) && s.mayStart q.1 q.2 then .next s
      else
        let m := if e.kind = .taskCvt then [] else if e.kind = .taskOvr ∧ e.next = 0 then List.replicate (tdRows e.td1 * tdCols e.td1) 0
          else (s.blockD e.block).mants e.td1
        .next (s.modWork id fun e => { e with phase := .running, engine := n, fork := s.clk, base := e.next, mant := m })

/-- K-blocks of a task, and products per clk (08 R224). -/
def Work.blocks (e : Work) : Nat := if e.kind = .taskCvt then 0 else cdiv (tdCols e.td2) 32
def Work.rate (e : Work) : Nat :=
  let t := tdTag e.td2
  if t = 8 ∨ t = 9 ∨ t = 12 then 4096 else if t = 10 ∨ t = 11 then 2048 else 1024

/-- The clk in which the k-blocks before `n` have ended (08 R224). -/
def Work.blockEnd (e : Work) (n : Nat) : Nat :=
  e.fork + 32 + cdiv (tdRows e.td1 * tdCols e.td1 * (min (32 * n) (tdCols e.td2) - 32 * e.base)) e.rate

/-- Bytes of a BFA48 tile, by elements. -/
def mantRuns (d : BitVec 128) (m : List Int) : List (Nat × List Byte) :=
  (List.zip (List.range m.length) m).map fun q => (tdOfs d (q.1 / tdCols d) (q.1 % tdCols d), mantBytes q.2)

/-- TASK_KBLOCK_COMMIT (04 R95, R97, 08 R224). For a save the task stops here, its mantissas in its destination (08 R216). Where the
scale streams of both operands fail, the first operand's status is the task's (04 R93 gives no order: DESIGN CHOICE, log 83). -/
def execTaskKblockCommit (id : Nat) (s : State) : Out :=
  match kget? s.works id with
  | none => .next s
  | some e =>
    if !e.kind.isTask || e.phase ≠ .running || !e.fails.isEmpty || decide (e.blocks ≤ e.next)
        || decide (s.clk < e.blockEnd (e.next + 1)) then .next s
    else
      let b := s.blockD e.block
      match b.scales e.td2 (tdRows e.td2) e.blocks, b.scales e.td3 (tdCols e.td3) e.blocks with
      | .error c, _ => .next (s.failUnit id 0 c)
      | .ok _, .error c => .next (s.failUnit id 0 c)
      | .ok sa, .ok sb =>
        match bfaBlock e.etmp (List.zip e.mant (b.sums e.td2 e.td3 sa sb e.next)) with
        | none => .next (s.failUnit id 0 ecOvf)
        | some (m, x) =>
          let s1 := s.modWork id fun e => { e with mant := m, etmp := x, next := e.next + 1 }
          if s.blockHalted e.block ∧ e.next + 1 < e.blocks then
            .next ((s1.modWork id fun e => { e with phase := .stopped, mant := [] }).fillRuns e.block (mantRuns e.td1 m))
          else .next s1

/-- The exponent of a task goes to the descriptor of its destination (01 R26, 08 R222); a descriptor rewritten since the
task's issue holds its new value, with or without the task's exponent. -/
def State.putExp (s : State) (e : Work) (x : Int) : State :=
  { s with free := s.free + 1 }.modBlock e.block fun b =>
    let d := kgetD b.descs e.tdn ⟨0, 0, 0, 0⟩
    if d.clk ≤ e.clk || Config.expLands s.free then { b with descs := kput b.descs e.tdn { d with val := tdSetExp d.val x } } else b

/-- The converted elements of a TASK.cvt into a format other than BFA48 (04 R98). -/
def Block.cvtRuns (b : Block) (d a : BitVec 128) : List (Nat × List Byte) :=
  let z := tagSize (tdTag d)
  (List.range (tdRows d)).flatMap fun i => (List.range (tdCols d)).map fun j =>
    (tdOfs d i j, natBytes (cvtCode (tdTag d) (cvtValue a (b.elem a i j))) z)

/-- TASK_END (08 R222): the destination, the exponent, and the join in one clk. -/
def execTaskEnd (id : Nat) (s : State) : Out :=
  match kget? s.works id with
  | none => .next s
  | some e =>
    if !e.kind.isTask || e.phase ≠ .running then .next s
    else if e.kind = .taskCvt then
      if s.clk < e.fork + 32 + cdiv (tdRows e.td1 * tdCols e.td1) 64 then .next s
      else
        let b := s.blockD e.block
        if e.aborted then .next (s.finishWork id s.clk)
        else if tdTag e.td1 = 15 then
          let sums := (List.range (tdRows e.td2)).flatMap fun i => (List.range (tdCols e.td2)).map fun j =>
            sumOf (cvtValue e.td2 (b.elem e.td2 i j))
          match bfaBlock (tdExp e.td1) (sums.map fun p => (0, p)) with
          | some (m, x) => .next (((s.fillRuns e.block (mantRuns e.td1 m)).putExp e x).finishWork id s.clk)
          | none =>
            let zero := mantRuns e.td1 (List.replicate sums.length 0)
            .next ((((s.fillRuns e.block zero).putExp e (tdExp e.td1)).failUnit id 0 ecOvf).finishWork id s.clk)
        else .next ((s.fillRuns e.block (b.cvtRuns e.td1 e.td2)).finishWork id s.clk)
    else if e.aborted then .next (s.finishWork id s.clk)
    else
      match e.fails with
      | [] =>
        if e.next < e.blocks then .next s
        else .next (((s.fillRuns e.block (mantRuns e.td1 e.mant)).putExp e e.etmp).finishWork id s.clk)
      | (_, c, _, _) :: _ =>
        if c = ecOvf then .next (((s.fillRuns e.block (mantRuns e.td1 e.mant)).putExp e e.etmp).finishWork id s.clk)
        else .next (s.finishWork id s.clk)

/-! ## The kiln -/

/-- The order of requests that reach a kiln in one clk: by die and core of the issuer (12 R324); packages break a tie (DESIGN CHOICE,
log 84). -/
def State.kilnRank (s : State) (e : Work) : Nat := let b := s.blockD e.block; (e.due * 2 ^ 16 + 48 * b.die + b.core) * 512 + b.pkg

/-- The leaf under which a request reads an address: what its stack's controllers have under its generation, else what their walk
gives (16 R379). -/
def State.kilnLeaf (s : State) (e : Work) (dk va : Nat) : Option Word :=
  match s.tlbHit dk (s.workAsid e) e.gen va with
  | some leaf => some leaf
  | none => (s.ctlWalk dk (s.workAsid e) e.gen va).1

/-- What the kiln reads at an address. -/
inductive KilnRead where
  | bytes (l : List Byte)
  | fail (code pkg die : Nat)
  | miss (va : Nat)          -- no leaf: the driver is asked
  | poison
  deriving DecidableEq, Repr, Inhabited

/-- Read within a sector for the kiln, at the home copies as of the fork (11 R308, 12 R324): every byte must be homed on the stack
(08 R226). -/
def State.kilnPiece (s : State) (e : Work) (dk : Nat) (va : Word) (n : Nat) : KilnRead :=
  let p := dk / 128
  let d := dk % 128
  let asid := s.workAsid e
  match s.kilnLeaf e dk va.toNat with
  | none => if e.denied.contains (pageOf va.toNat) then .fail ecAccess p d else .miss va.toNat
  | some leaf =>
    let k := frameKey dk leaf va.toNat
    if s.homeOf p asid leaf va.toNat ≠ some (p, d) then .fail ecHome p d
    else if !leafR leaf then .fail ecAccess p d
    else if leafTr leaf && s.entryLost (lineOf asid va.toNat (leafGrain leaf)) then .fail ecCohlost p d
    else if leafTe leaf && (s.tagOf k).toNat != wf va 60 4 then .fail ecTagchk p d
    else if s.memPoison.contains (k / 32) then .poison
    else .bytes (memRead e.snap k n)

/-- Read a run: the first piece without bytes decides. -/
def State.kilnRun (s : State) (e : Work) (dk : Nat) : List (Word × Nat × Nat) → KilnRead
  | [] => .bytes []
  | p :: rest =>
    match s.kilnPiece e dk p.1 p.2.2 with
    | .bytes l => match s.kilnRun e dk rest with | .bytes m => .bytes (l ++ m) | x => x
    | x => x

/-- A byte of the kiln's scale stream, 0 where no page maps it. -/
def State.kilnByte (s : State) (e : Work) (i : Nat) : Nat :=
  let dk := e.wait.headD 0
  let va := kvField e.buf 64 64 + i
  match s.kilnLeaf e dk va with | some leaf => (memGet e.snap (frameKey dk leaf va)).toNat | none => 0

/-- The runs that a request reads: its rows, and its scale stream. -/
def State.kilnRuns (s : State) (e : Work) : List (Word × Nat) :=
  let rows := (List.range (kvRows e.buf)).map fun i =>
    (BitVec.ofNat 64 (kvField e.buf 0 64 + i * kvField e.buf 160 32), kvK e.buf)
  if kvField e.buf 220 1 = 1 then
    rows ++ [(BitVec.ofNat 64 (kvField e.buf 64 64), sd4Used (fun i => some (s.kilnByte e i)) (kvRows e.buf * (kvK e.buf / 32)))]
  else rows

/-- The pages of a request's runs enter the TLBs of its stack's controllers (16 R379, R387). -/
def State.kilnFill (s : State) (e : Work) (dk : Nat) : State :=
  let pages := (s.kilnRuns e).foldl (fun a r => (List.range (cdiv (r.1.toNat % 4096 + r.2) 4096)).foldl (fun a i =>
    ninsert a (pageOf r.1.toNat + 4096 * i)) a) []
  pages.foldl (fun s va => if (s.tlbHit dk (s.workAsid e) e.gen va).isSome then s else (s.ctlMiss dk (s.workAsid e) e.gen va).1) s

/-- A rejected request goes back to its core, which sends it again under a generation (16 R380, R381). -/
def State.kilnReject (s : State) (id : Nat) (e : Work) (dk counter gen : Nat) : State :=
  (s.count dk counter).modWork id fun x => { x with phase := .forked, gen := gen, due := s.clk + s.kilnWay e (dk / 128) (dk % 128) }

/-- The rejection of a kiln request has come back: its core takes the generation, its die drops placement entries, and the request is
sent again (16 R380, R381). -/
def State.kilnResend (s : State) (id : Nat) (e : Work) : State :=
  let b := s.blockD e.block
  let asid := s.workAsid e
  let s1 := s.modCore b.ck fun c => { c with gens := kput c.gens asid e.gen }
  let s2 := s1.modDie b.dk fun d =>
    { d with plc := kdel (d.plc.filter fun x => x.2.asid != asid || x.2.gen == e.gen) (tlbKey asid e.gen (kvField e.buf 0 64)) }
  s2.sendKmv id e

/-- A kiln request is lost after link retry (08 R214): PEERDEAD. -/
def State.loseKmv (s : State) (id : Nat) (e : Work) : State :=
  let dk := e.wait.headD 0
  (s.modWork id fun e => e.failed 0 ecPeer (dk / 128) (dk % 128)).kilnRecord id e (intOf true 16 (kvField e.buf 256 16))

/-- KILN_REQUEST_ARRIVAL (12 R324): the request enters the stack's queue, and its time is fixed; a full kiln keeps it
waiting. A home that has failed answers no request (08 R214); an old generation or another home is rejected (16 R380, R381). -/
def execKilnRequestArrival (id : Nat) (s : State) : Out :=
  match kget? s.works id with
  | none => .next s
  | some e =>
    let dk := e.wait.headD 0
    let exp0 := intOf true 16 (kvField e.buf 256 16)
    let asid := s.workAsid e
    let gen := kgetD (s.die dk).genReg asid 0
    let first := s.works.all fun q => q.1 == id || q.2.kind != .kmv || q.2.phase != .sent || q.2.wait.headD 0 != dk
      || decide (s.kilnRank e ≤ s.kilnRank q.2)
    let ma := kvField e.buf 0 64
    let elsewhere := match s.kilnLeaf e dk ma with
      | some leaf => decide (s.homeOf (dk / 128) asid leaf ma ≠ some (dk / 128, dk % 128))
      | none => false
    if e.kind ≠ .kmv || s.clk < e.due then .next s
    else if e.phase = .forked then .next (s.kilnResend id e)
    else if e.phase ≠ .sent || !first then .next s
    else if (s.pkg (dk / 128)).failed then
      if (s.pkg (dk / 128)).known then
        .next ((s.modWork id fun e => e.failed 0 ecPeer (dk / 128) (dk % 128)).kilnRecord id e exp0)
      else .next s
    else if !s.dieLive dk then .next ((s.modWork id fun e => e.failed 0 ecAccess (dk / 128) (dk % 128)).kilnRecord id e exp0)
    else if s.noRoute (s.blockD e.block).pkg (s.blockD e.block).die (dk / 128) (dk % 128) e.plane then .next (s.loseKmv id e)
    else if gen ≠ e.gen then .next (s.kilnReject id e dk tcStale gen)
    else if elsewhere then .next (s.kilnReject id e dk tcMishome gen)
    else
      let d := s.die dk
      if 256 ≤ d.kiln.length then .next s
      else
        let m := kvRows e.buf
        let k := kvK e.buf
        let end_ := max e.due d.kilnFree + 400 + cdiv k 64 + cdiv (3 * m * k) 32000 + cdiv (8 * m) 64
        .next (((s.kilnFill e dk).modDie dk fun d => { d with kiln := d.kiln ++ [id], kilnFree := end_ }).modWork id fun e =>
          { e with phase := .running, due := end_ + s.kilnWay e (dk / 128) (dk % 128) })

/-- Accumulate the k-blocks of a kiln request (08 R227): mantissas and exponent, and whether the exponent ran over. -/
def kilnGo (rows : List (List Int)) (vec : List Int) (scales : List Nat) (nb : Nat) : Nat → Nat → List Int → Int → List Int × Int × Bool
  | 0, _, m, e => (m, e, false)
  | n + 1, b, m, e =>
    let v := (vec.drop (32 * b)).take 32
    let sums : List BlockSum := (List.zip (List.range rows.length) rows).map fun q =>
      some ((List.zip ((q.2.drop (32 * b)).take 32) v).foldl (fun a x => a + x.1 * x.2) 0, -6 + scaleOf scales nb q.1 b)
    match bfaBlock e (List.zip m sums) with
    | none => (m, e, true)
    | some (m1, e1) => kilnGo rows vec scales nb n (b + 1) m1 e1

/-- KILN_COMPLETE (08 R226, R227). -/
def execKilnComplete (id : Nat) (s : State) : Out :=
  match kget? s.works id with
  | none => .next s
  | some e =>
    let dk := e.wait.headD 0
    let exp0 := intOf true 16 (kvField e.buf 256 16)
    if e.kind ≠ .kmv || e.phase ≠ .running || decide (s.clk < e.due) || s.workStuck id then .next s
    else
      let gone (s : State) : State := s.modDie dk fun d => { d with kiln := d.kiln.filter (· != id) }
      if e.aborted then .next ((gone s).finishWork id s.clk)
      else
        let read := (s.kilnRuns e).map fun r => s.kilnRun e dk (sectorPieces r.1 r.2)
        match read.findSome? fun r => match r with | .miss va => some va | _ => none with
        | some va => .next (s.engMiss id e (dk / 128) (dk % 128) va akRead)
        | none =>
          if read.contains .poison then .next ((gone s).abortLaunch (s.blockD e.block).launch)
          else
            match read.findSome? fun r => match r with | .fail c p d => some (c, p, d) | _ => none with
            | some (c, p, d) => .next (((gone s).modWork id fun e => e.failed 0 c p d).kilnRecord id e exp0)
            | none =>
              let bytes := read.map fun r => match r with | .bytes l => l | _ => []
              let m := kvRows e.buf
              let nb := kvK e.buf / 32
              let scales : Except Nat (List Nat) :=
                if kvField e.buf 220 1 = 1 then sd4Decode (fun i => some (s.kilnByte e i)) (m * nb) else .ok []
              match scales with
              | .error c => .next (((gone s).failUnit id 0 c).kilnRecord id e exp0)
              | .ok sc =>
                let b := s.blockD e.block
                let vec := (b.lsRead (kvRange e.buf 0).1 (kvK e.buf)).map fun x => intOf (kvField e.buf 219 1 == 1) 8 x.toNat
                let m0 := (List.range m).map fun i =>
                  if kvField e.buf 221 1 = 1 then intOf true 48 (bytesNat (b.lsRead ((kvRange e.buf 1).1 + 8 * i) 8)) else 0
                let (m1, x, ovf) := kilnGo ((bytes.take m).map fun l => l.map fun y => duoVal y.toNat) vec sc nb nb 0 m0 exp0
                let s1 := (gone s).fillRuns e.block [((kvRange e.buf 1).1, m1.flatMap mantBytes)]
                let s2 := if ovf then s1.failUnit id 0 ecOvf else s1
                .next (s2.kilnRecord id e x)

/-! ## Multicast -/

/-- Clk within a member's package from its fabric column to the home slice of a line (08 R231). -/
def State.memberWay (s : State) (e : Work) (p : Nat) : Nat :=
  let asid := s.workAsid e
  match s.lookup p asid e.b.toNat with
  | some (_, _, (_, hd)) =>
    let c := planeCol e.plane
    40 + hopsFromFabric c hd (sliceOf asid (blkOf e.b.toNat)) + 24 * dist (dieX hd) c
  | none => 40

/-- Whether a package's port on a plane is dead (17 R403). -/
def State.portDead (s : State) (p plane : Nat) : Bool := (s.pkg p).deadPorts.any fun q => q.1 == plane

/-- MCST_REPLICATE (08 R229, 12 R325): the switch checks the group entry and sends the store to every member. -/
def execMcstReplicate (id : Nat) (s : State) : Out :=
  match kget? s.works id with
  | none => .next s
  | some e =>
    if e.kind ≠ .mcst || e.phase ≠ .sent || decide (s.clk < e.due) then .next s
    else
      let g := kgetD s.groups e.grp ⟨0, 0, false⟩
      if !g.valid || g.asid.toNat != s.workAsid e then
        .next ((s.modWork id fun e =>
          { e.failed 0 ecRefused 0 0 with base := 1, wfail := e.wfail.add (1#8 <<< cbRefused) 1 0 0 }).finishWork id (e.fork + 1040))
      else
        let l := (List.range 512).filter fun p => g.members.getLsbD p
        .next (s.modWork id fun e => { e with phase := .running, wait := l, base := l.length, next := 0 })

/-- The home die of a member for the destination (08 R229): by its own replica; where that has no leaf, by the leaf of the issuing
package (DESIGN CHOICE, log 85); where neither has one, free. -/
def State.memberDie (s : State) (e : Work) (p : Nat) : Nat :=
  let asid := s.workAsid e
  let va := e.b.toNat
  match s.lookup p asid va with
  | some (_, _, (_, hd)) => hd
  | none =>
    match (s.leafAt (s.blockD e.block).pkg asid va).bind fun leaf => s.homeOf p asid leaf va with
    | some (_, hd) => hd
    | none => s.noHome.2

/-- The reply of a member that does not write: its CODE and home die (08 R229); none when it writes, with the place. -/
def State.memberFail (s : State) (e : Work) (p : Nat) : Except (Nat × Nat) (Word × Nat × Nat) :=
  let asid := s.workAsid e
  let va := e.b.toNat
  if (s.pkg p).failed then .error (ecDpeer, 0)
  else if e.plane = 128 ∨ s.portDead p e.plane then .error (ecDlink, s.memberDie e p)
  else
    match s.lookup p asid va with
    | none => .error (ecRefused, s.memberDie e p)
    | some (leaf, _, (hp, hd)) =>
      if !leafW leaf || !s.dieLive (128 * hp + hd) then .error (ecRefused, hd)
      else if leafTr leaf && (List.range 8).any fun i => s.entryLost (lineOf asid (va + 32 * i) (leafGrain leaf)) then .error (ecCohlost, hd)
      else if leafTe leaf && (List.range 8).any fun i =>
          (s.tagOf (frameKey (128 * hp + hd) leaf (va + 32 * i))).toNat != wf e.b 60 4 then .error (ecTagchk, hd)
      else .ok (leaf, hp, hd)

/-- MCST_MEMBER_WRITE (08 R229): a member writes the 256 bytes, or replies why not; a failed member is answered for by the
switch once its failure is detected. -/
def execMcstMemberWrite (id p : Nat) (s : State) : Out :=
  match kget? s.works id with
  | none => .next s
  | some e =>
    let way := s.memberWay e p
    if e.kind ≠ .mcst || e.phase ≠ .running || !e.wait.contains p || decide (s.clk < e.fork + 520 + way) then .next s
    else if (s.pkg p).failed && !(s.pkg p).known then .next s
    else
      let s1 := { s with free := s.free + 1 }.modWork id fun e => { e with wait := e.wait.filter (· != p), next := max e.next (2 * way) }
      match s.memberFail e p with
      | .error (c, d) => .next (s1.modWork id fun e => e.failed p c p d)
      | .ok (leaf, hp, hd) =>
        let k := frameKey (128 * hp + hd) leaf e.b.toNat
        let gen := kgetD (s.die (128 * hp + hd)).genReg (s.workAsid e) 0
        let s2 := { s1 with mem := memWrite s1.mem k e.buf, wclock := s1.wclock + 1 }.cleanSectors k e.buf.length
        let s3 := if (s2.tlbHit (128 * hp + hd) (s.workAsid e) gen e.b.toNat).isSome then s2
          else (s2.ctlMiss (128 * hp + hd) (s.workAsid e) gen e.b.toNat).1
        .next (s3.dropCopies (s.workAsid e) e.b.toNat 256 false)

/-- MCST_ACK (08 R215, R229, R231): the replies become one acknowledgement. -/
def execMcstAck (id : Nat) (s : State) : Out :=
  match kget? s.works id with
  | none => .next s
  | some e =>
    if e.kind ≠ .mcst || e.phase ≠ .running || !e.wait.isEmpty || decide (s.clk < e.fork + 1040 + e.next) then .next s
    else
      let causes := e.fails.foldl (fun (c : BitVec 8) f => c ||| (1#8 <<< writeCause f.2.1)) 0
      let w := match leastBy (fun f : Nat × Nat × Nat × Nat => f.1) e.fails with
        | some (_, _, q, d) => e.wfail.add causes e.fails.length q d
        | none => e.wfail
      .next ((s.modWork id fun e => { e with wfail := w }).finishWork id s.clk)

end Sys2Proof.Machine
end

