-- ==== Sys2Proof/Machine/Wait.lean ====
section
/-! DEFINITION. The instructions that wait or signal: LDL and STL (07 R184), LOCK (R195), FENCE (R200), barriers (R202 to R205),
counters (R206, R207), WSYNC (R208), JOIN and REGANG (05 R120, R121, R130), and EXIT (05 R123). -/

namespace Sys2Proof.Machine

/-! ## Local store -/

/-- Results of a waiting LDL are no results of the span: the split waits for them in FE-WAIT. -/
def State.detach (s : State) (ids : List Nat) : State :=
  s.modCurWarp fun w => { w with results := w.results.map fun q => if ids.contains q.1 then (q.1, { q.2 with span := 0 }) else q }

/-- LDL and STL after their checks. -/
def State.runLocal (s : State) (f : MFmt) (la : List (Nat × Word)) (store : Bool) (dests : State → State × List Nat) (sx : Bool) : State :=
  let parked := s.curWarp.outstanding s.curSplit
  let (s1, ids) := dests s
  if feWaits f then
    let s2 := (s1.detach ids).postFes f la store true ids sx
    let s3 := { s2 with free := s2.free + 1 }.modCur fun p => { p with len := p.len + 1, after := .fe, rdy := max p.rdy (s.clk + 2) }
    if parked then s3.modCur fun p => p.setEff .spanPark else s3.enterAfter s.cur.1 s.cur.2
  else (s1.postFes f la store false ids sx).retire f.sw 2 1

/-- LDL (07 R184, R185). -/
def execLdl (ty : BitVec 4) (f : MFmt) (s : State) : Out :=
  let la := s.laneAddrs f
  match s.vecFault (dataRegs f ++ idxRegs f) false (idxChk f) with
  | some (c, i) => .next (s.raise 1 c i)
  | none =>
    match localFault s.curBlock.usable (szBytes f) (la.map (·.2)) with
    | some (c, i) => .next (s.raise 1 c i)
    | none =>
      .next (s.runLocal f la false (fun s => s.loadDests (s.effective f.msk.toNat) ty.toNat (dataRegs f) 0) (ty == 1))

/-- STL (07 R184, R185). -/
def execStl (ty : BitVec 4) (f : MFmt) (s : State) : Out :=
  let la := s.laneAddrs f
  match s.vecFault (dataRegs f ++ idxRegs f) false (dataChk ty.toNat f ++ idxChk f) with
  | some (c, i) => .next (s.raise 1 c i)
  | none =>
    match localFault s.curBlock.usable (szBytes f) (la.map (·.2)) with
    | some (c, i) => .next (s.raise 1 c i)
    | none => .next (s.runLocal f la true (fun s => (s, [])) false)

/-! ## Locks -/

/-- LOCK and LOCK.try (07 R195): the checks, the reservation of a slot, and the wait. -/
def State.lockOp (s : State) (f : MFmt) (kind : ReqKind) : Out :=
  let a := s.addrOnce f
  match addrFault [a] 0 with
  | some (c, i) => .next (s.raise 1 c i)
  | none =>
    let line := s.lockLine a
    let w := s.curWarp
    if w.liveLocks.any fun k => k.line == line then .next (s.raise 1 fcLockself (lineWord line))
    else if 4 ≤ w.liveLocks.length then .next (s.raise 1 fcLocklimit (lineWord line))
    else
      let t := (s.rdS f.data.toNat).toNat % 2 ^ 32
      let g := s.grainAt s.curBlock.pkg s.curLaunch.asid a.toNat
      let slot : LockSlot :=
        { line := line, held := false, live := true, scope := f.sc.toNat
          tleft := if kind = .lockTry then 0 else if t = 0 then (s.pkg s.curBlock.pkg).lockto else t
          sd := f.data.toNat, key := s.orderKey, withdrawn := kind == .lockTry }
      let r := s.newReq kind s.curSplit.lmask s.nextId (lineWord line) g f
      .next (((s.addReq r).modCurWarp fun w => { w with locks := w.locks ++ [slot] }).beginWait (.lock s.nextId) 1)

/-- LOCK (07 R195). -/
def execLock (f : MFmt) (s : State) : Out := s.lockOp f .lock

/-- LOCK.try (07 R195). -/
def execLockTry (f : MFmt) (s : State) : Out := s.lockOp f .lockTry

/-! ## Fences, barriers, counters -/

/-- Take a place in the order of accesses. -/
def State.place1 (s : State) : State := { s with nextId := s.nextId + 1 }

/-- FENCE (07 R200). -/
def execFence (f : XFmt) (s : State) : Out :=
  .next (s.place1.beginWait (.fence f.sd.toNat f.sc.toNat s.nextId s.orderKey 0) 4)

/-- BARARV (07 R203). -/
def execBararv (f : XFmt) (s : State) : Out :=
  match s.barFault f.lvl.toNat f.num.toNat true with
  | some (c, i) => .next (s.raise 1 c i)
  | none =>
    .next ((s.retire f.sw 2 1).barJoin s.cur.1 s.curSplit.lmask f.lvl.toNat f.num.toNat (f.imm.toNat % 64) f.sc.toNat)

/-- BARWAIT (07 R205). -/
def execBarwait (f : XFmt) (s : State) : Out :=
  match s.barFault f.lvl.toNat f.num.toNat false with
  | some (c, i) => .next (s.raise 1 c i)
  | none => .next (s.beginWait (.barWait f.sd.toNat f.sc.toNat f.lvl.toNat f.num.toNat s.orderKey) 1)

/-- BARSYNC (07 R205). -/
def execBarsync (f : XFmt) (s : State) : Out :=
  match s.barFault f.lvl.toNat f.num.toNat true with
  | some (c, i) => .next (s.raise 1 c i)
  | none =>
    .next (s.beginWait (.barSync f.sd.toNat f.sc.toNat f.lvl.toNat f.num.toNat s.orderKey (f.imm.toNat % 64)) 1)

/-- CSIG (07 R207): applied at once when nothing holds it back. -/
def execCsig (f : XFmt) (s : State) : Out :=
  let p : Post := ⟨s.cur.1, s.nextId, f.sc.toNat, false, f.num.toNat, f.imm.toNat⟩
  let s1 := s.retire f.sw 2 1
  if s.signalReady s.cur.1 s.nextId f.sc.toNat then .next (s1.place1.counterAdd s.curWarp.block f.num.toNat f.imm.toNat)
  else .next { s1 with posts := kput s1.posts s1.nextId { p with seq := s1.nextId }, nextId := s1.nextId + 1 }

/-- CWAIT (07 R207). -/
def execCwait (f : XFmt) (s : State) : Out :=
  .next (s.beginWait (.cntWait f.sd.toNat f.sc.toNat f.num.toNat ((s.rdS f.sa.toNat).toNat % 2 ^ 32) s.orderKey) 4)

/-- CRD (07 R207). -/
def execCrd (f : XFmt) (s : State) : Out :=
  .next (s.scalarOp f.sw f.sd.toNat 4 1 (kgetD s.curBlock.counters f.num.toNat 0))

/-- WSYNC (07 R208). -/
def execWsync (f : XFmt) (s : State) : Out :=
  let m : Lanes := (s.rdS f.sa.toNat).setWidth 32
  if s.curSplit.lmask &&& ~~~m ≠ 0 then .next (s.raise 1 fcSyncmask (syncInfo m 0))
  else .next (s.beginWait (.wsync m) 1)

/-! ## Joining, gathering, ending -/

/-- JOIN and JOIN.bnd (05 R120, R121): outside a group, or elsewhere than at its join PC, a NOP that ends the span (09 R238). -/
def State.joinOp (s : State) (f : JFmt) (bound : Nat) : Out :=
  let p := s.curSplit
  if p.jgrp = 0 ∨ p.pc ≠ p.jpc then .next (s.retire true 1 1)
  else .next ((s.modCur fun p => { p with waux := BitVec.ofNat 32 bound }).beginWait (.join bound f.jofs) 1)

/-- JOIN (05 R120). -/
def execJoin (f : JFmt) (s : State) : Out := s.joinOp f (2 ^ 32 - 1)

/-- JOIN.bnd (05 R121): the bound of BOFS counts from the clk of issue. -/
def execJoinBnd (f : JFmt) (s : State) : Out := s.joinOp f f.bofs.toNat

/-- REGANG (05 R130). A gathering that is complete, or has a bound of 0, releases once all of the clk's instructions have issued. -/
def execRegang (f : SFmt) (s : State) : Out :=
  .next (s.beginWait (.regang (s.rdM f.sa.toNat) (f.imm.toNat % 2 ^ 16)) 1)

/-- Lanes of a warp exit: their results from memory are discarded, their mask bits are cleared (05 R123, 01 R19). -/
def Warp.exitLanes (w : Warp) (slot : Nat) (p : Split) : Warp :=
  let w1 : Warp := { w with table := kdel w.table slot, m := kmap w.m fun _ (x : Lanes) => x &&& ~~~p.lmask }
  { w1 with results := w1.results.filterMap fun (q : Nat × Result) =>
      if q.2.mem ∧ q.2.span = p.span ∧ q.2.own &&& p.lmask ≠ 0 then
        if q.2.own &&& w1.liveLanes = 0 then none
        else some (q.1, { q.2 with pend := q.2.pend &&& ~~~p.lmask, done := q.2.done || (q.2.pend &&& ~~~p.lmask) == 0 })
      else some q }

/-- The barrier arrivals that the exit of lanes completes (07 R203). -/
def State.exitArrives (s : State) (wid : Nat) : State := (s.warpD wid).arrSet.foldl (fun s q => s.barCheck wid q.1) s

/-- What the exit of lanes can complete in its clk: join groups, barrier arrivals, WSYNC (05 R120, 07 R203, R208); gatherings
follow when the clk's instructions have issued (05 R130). -/
def State.afterExit (s : State) (wid : Nat) (p : Split) : State :=
  ((s.joinCheck wid p.jgrp p.jpc).exitArrives wid).syncCheck wid none

/-- EXIT (05 R123). -/
def execExit (_f : JFmt) (s : State) : Out :=
  let w := s.curWarp
  let p := s.curSplit
  let (wid, slot) := s.cur
  if w.table.length = 1 ∧ !w.heldLocks.isEmpty then .next (s.raise 1 fcLockexit (BitVec.ofNat 64 w.heldLocks.length))
  else
    let s1 := { s with free := s.free + 1 }.modWarp wid fun w => w.exitLanes slot p
    if (s1.warpD wid).table.isEmpty then
      .next (((s1.modWarp wid fun w => { w with ended := true, moves := [] }).exitArrives wid).discardTasks w.block)
    else .next (s1.afterExit wid p)

end Sys2Proof.Machine
end

