-- ==== Sys2Proof/Machine/System.lean ====
section
/-! DEFINITION. The event ring (15 R363) and the system instructions (08 R232 to R236). -/

namespace Sys2Proof.Machine

/-! ## The event ring -/

/-- Kinds of event records (15 R363). -/
abbrev evEvnt : Nat := 0
abbrev evPackage : Nat := 1
abbrev evTray : Nat := 2
abbrev evLaunch : Nat := 3
abbrev evHalted : Nat := 4
abbrev evSaved : Nat := 5
abbrev evResumed : Nat := 6
abbrev evPacket : Nat := 7
abbrev evRefused : Nat := 8

/-- Status values of event records (15 R363). -/
abbrev esDone : Nat := 0
abbrev esAborted : Nat := 1
abbrev esNofit : Nat := 2
abbrev esBadimage : Nat := 3
abbrev esHeld : Nat := 4

/-- Append a record to a queue's event ring (15 R363); a full ring drops it and counts (08 R234). -/
def State.postEvent (s : State) (q kind status tag launch node body : Nat) : State :=
  let x := s.queueD q
  if 2 ^ x.elog ≤ ringCount x.eprod x.econs then s.modQueue q fun x => { x with eovf := (x.eovf + 1) % 2 ^ 32 }
  else
    let phase := if x.eprod / 2 ^ x.elog % 2 = 0 then 2 ^ 127 else 0
    let bytes := natBytes (kind + 2 ^ 8 * status + 2 ^ 16 * q + 2 ^ 32 * tag) 8 ++ natBytes (launch + 2 ^ 16 * node) 8
      ++ natBytes (body % 2 ^ 127 + phase) 16
    (s.feWrite s.drvAsid (x.evr.toNat + 32 * (x.eprod % 2 ^ x.elog)) bytes).modQueue q fun x =>
      { x with eprod := (x.eprod + 1) % 2 ^ 32 }

/-- The body of an EVNT record (15 R363). -/
def evntBody (b : Block) (wblk n value : Nat) : Nat :=
  b.bx + 2 ^ 32 * b.by_ + 2 ^ 48 * b.bz + 2 ^ 64 * wblk + 2 ^ 69 * n + 2 ^ 74 * value

/-- Append the record of an EVNT (08 R234). -/
def State.appendEvnt (s : State) (wid n value : Nat) : State :=
  let b := s.blockOf wid
  let l := s.launchD b.launch
  s.postEvent l.queue evEvnt esDone l.tag b.launch 0 (evntBody b (s.warpD wid).wblk n value)

/-- EVNT_APPEND (08 R234). -/
def execEvntAppend (p : Nat) (s : State) : Out :=
  match kget? s.posts p with
  | none => .next s
  | some x =>
    if !x.evnt || !s.signalReady x.wid x.seq x.scope then .next s
    else .next ({ s with posts := kdel s.posts p }.appendEvnt x.wid x.num x.val)

/-! ## The instructions -/

/-- TRAP (08 R232). -/
def execTrap (f : XFmt) (s : State) : Out :=
  .next (s.raiseAt s.cur.1 s.cur.2 (.stop false) fcTrap (f.imm.setWidth 64))

/-- BKPT (08 R232): a trap when the launch is under debug. -/
def execBkpt (f : XFmt) (s : State) : Out :=
  if s.curLaunch.desc.debug then .next (s.raiseAt s.cur.1 s.cur.2 (.stop false) fcBkpt (f.imm.setWidth 64))
  else .next (s.retire f.sw 2 1)

/-- The entry of the checkpoint table for a PC (09 R249): the live scalars and vector registers. -/
def State.checkpoint (s : State) (l : Launch) (pc : BitVec 48) : Option (Word × BitVec 256) :=
  let rel := (pc.toNat + 2 ^ 48 - l.desc.code.toNat / 8 % 2 ^ 48) % 2 ^ 48
  let base := Config.kboBase l.asid l.desc.krec.toNat + l.desc.kern.ckofs
  ((List.range l.desc.kern.nckpt).find? fun i => s.feNat l.asid (base + 64 * i) 6 == rel).map fun i =>
    (BitVec.ofNat 64 (s.feNat l.asid (base + 64 * i + 8) 8), BitVec.ofNat 256 (s.feNat l.asid (base + 64 * i + 16) 32))

/-- CKPT (08 R233, 09 R250): the span ends; under a halt request the split halts at PC + 1, with the live set of its entry
or, without one, with the whole allocation. -/
def execCkpt (_f : XFmt) (s : State) : Out :=
  let p := s.curSplit
  let s1 := if s.curWarp.haltH = 0 then s else
    let s2 := s.modCur fun p => { p with halted := true }
    match s.checkpoint s.curLaunch p.pc with
    | some e => s2.modCurWarp fun w => { w with ckpts := w.ckpts ++ [e] }
    | none => s2.modCurWarp fun w => { w with whole := true }
  .next (s1.retire true 2 1)

/-- CLKRD (08 R232, R236). -/
def execClkrd (f : XFmt) (s : State) : Out := .next (s.beginWait (.clkrd f.sd.toNat s.orderKey) 4)

/-- EVNT (08 R234): appended at once when nothing holds it back. -/
def execEvnt (f : XFmt) (s : State) : Out :=
  let s1 := s.retire f.sw 2 1
  if s.signalReady s.cur.1 s.nextId f.sc.toNat then .next (s1.place1.appendEvnt s.cur.1 f.num.toNat f.imm.toNat)
  else
    let p : Post := ⟨s.cur.1, s1.nextId, f.sc.toNat, true, f.num.toNat, f.imm.toNat⟩
    .next { s1 with posts := kput s1.posts s1.nextId p, nextId := s1.nextId + 1 }

/-- HALTW (08 R235): the split parks and the whole warp stops. -/
def execHaltw (_f : XFmt) (s : State) : Out :=
  .next ((s.raiseAt s.cur.1 s.cur.2 (.stop true) fcHaltw 0).modCurWarp fun w => { w with stopped := true })

end Sys2Proof.Machine
end

