-- ==== Sys2Proof/Machine/Place.lean ====
section
/-! DEFINITION. Grids, clusters and placement (10 R257 to R269): sites, the fit of a block on a core, homes, the distributor
tree with its hand-downs and steals, and the start of blocks (R262). -/

namespace Sys2Proof.Machine

/-! ## Clusters -/

def LaunchDesc.csize (d : LaunchDesc) : Nat := csizeOf d.kern.shape
/-- Number of clusters of a grid (10 R258). -/
def LaunchDesc.clusters (d : LaunchDesc) : Nat := d.gx * d.gy * d.gz / d.csize

/-- Origins of the sites of a shape, in core-id order (10 R258). -/
def siteOrigins (shape : Nat) : List Nat :=
  (List.range 48).filter fun c =>
    match shape with
    | 0 => true
    | 1 => c % 12 % 2 == 0
    | 2 => c % 12 % 2 == 0 && c / 12 % 2 == 0
    | _ => c % 12 % 4 == 0 && c / 12 % 2 == 0

/-- Keys of the cores of a site. -/
def siteCores (dk shape origin : Nat) : List Nat := (List.range (csizeOf shape)).map fun r => 48 * dk + siteCore shape origin r

/-! ## The fit of a block on a core -/

/-- Blocks that hold resources of a core. -/
def State.coreBlocks (s : State) (ck : Nat) : List (Nat × Block) := s.blocks.filter fun q => !q.2.saved && q.2.ck == ck

/-- Banks that an allocation takes (11 R280). -/
def banksOf (local_ : Nat) : Nat := cdiv local_ 393216

/-- The lowest run of free banks (11 R280). -/
def State.freeBank (s : State) (ck n : Nat) : Option Nat :=
  let used := (s.coreBlocks ck).map fun q => (q.2.bank, q.2.bank + banksOf q.2.alloc)
  (List.range (193 - n)).find? fun b => !(used.any fun u => rangesMeet u (b, b + n))

/-- Use of the 24 halves of a core: warp slots and vector registers per lane. -/
def State.halfUse (s : State) (ck : Nat) : List (List Nat × Nat) :=
  let ids := (s.coreBlocks ck).map (·.1)
  let ws := s.warps.filter fun q => ids.contains q.2.block
  (List.range 24).map fun h =>
    let mine := ws.filter fun q => 2 * q.2.part + q.2.half == h
    (mine.map fun q => q.2.wslot, mine.foldl (fun a q => a + q.2.budget) 0)

/-- The half and slot that a warp takes (10 R261): the most free slots, the lowest half number on a tie. -/
def chooseHalf (use : List (List Nat × Nat)) (budget : Nat) : Option (Nat × Nat) :=
  let ok := (List.range 24).filter fun h =>
    let u := use.getD h ([], 0)
    decide (u.1.length < 8) && decide (u.2 + budget ≤ 1024)
  match leastBy (fun h => (use.getD h ([], 0)).1.length) ok with
  | none => none
  | some h => ((List.range 8).find? fun t => !(use.getD h ([], 0)).1.contains t).map fun t => (h, t)

/-- Places for warps of given budgets, in order. -/
def chooseHalves : List (List Nat × Nat) → List Nat → Option (List (Nat × Nat))
  | _, [] => some []
  | use, b :: rest =>
    match chooseHalf use b with
    | none => none
    | some (h, t) =>
      let u := use.getD h ([], 0)
      (chooseHalves (use.set h (t :: u.1, u.2 + b)) rest).map fun l => (h, t) :: l

/-- Warps of a kernel in the order of WBLK: stage, index, budget, entry (10 R260). -/
def KernelRec.warpList (k : KernelRec) : List (Nat × Nat × Nat × Nat) :=
  (List.zip (List.range k.stages.length) k.stages).flatMap fun (q : Nat × Nat × Nat × Nat) =>
    (List.range q.2.2.1).map fun i => (q.1, i, q.2.2.2, q.2.1)

/-- Where a block of a kernel fits on a core (10 R261): its first bank, and its warps' halves and slots. -/
def State.fitBlock (s : State) (ck : Nat) (k : KernelRec) : Option (Nat × List (Nat × Nat)) :=
  if !s.coreLive ck || decide (16 ≤ (s.coreBlocks ck).length) then none
  else
    match s.freeBank ck (banksOf k.local_), chooseHalves (s.halfUse ck) (k.warpList.map fun q => q.2.2.1) with
    | some b, some l => some (b, l)
    | _, _ => none

/-- Whether a core belongs to the site of a cluster of more than one block whose last block there has neither retired nor been saved
(10 R273): the cluster has the site's bits of the cluster wires (12 R318). -/
def State.siteHeld (s : State) (ck : Nat) : Bool :=
  s.blocks.any fun q =>
    let k := (s.launchD q.2.launch).desc.kern
    !q.2.saved && decide (1 < csizeOf k.shape) && (siteCores q.2.dk k.shape (q.2.origin k.shape)).contains ck

/-- Whether a site is free for a block of a kernel on every core (10 R258, R261, R273). Clusters of one block share a core by its resources,
also those of one launch (12 R319; log 87). -/
def State.siteFree (s : State) (dk : Nat) (k : KernelRec) (origin : Nat) : Bool :=
  s.dieLive dk && (s.die dk).update.isNone && (siteCores dk k.shape origin).all fun ck => !s.siteHeld ck && (s.fitBlock ck k).isSome

/-- The first free site after the one last used, wrapping (10 R264); `last` 48: search from core 0. -/
def State.nextSite (s : State) (dk : Nat) (k : KernelRec) (last : Nat) : Option Nat :=
  let os := siteOrigins k.shape
  let order := if last = 48 then os else (os.filter fun o => decide (last < o)) ++ os.filter fun o => decide (o ≤ last)
  order.find? fun o => s.siteFree dk k o

/-! ## Blocks and warps -/

/-- A warp at its start (01 R37, R30). Its swap epoch is 0, and its periods of 256 clk count from BLOCK_START and again from a restore (01 R36
gives neither: DESIGN CHOICE, log 82). -/
def newWarp (d : LaunchDesc) (bid blk : Nat) (wblk stage widx budget entry : Nat) (place : Nat × Nat) (clk : Nat) : Warp :=
  let seed := d.lseed ^^^ BitVec.ofNat 64 (blk * 2 ^ 7) ^^^ BitVec.ofNat 64 (stage * 2 ^ 5) ^^^ BitVec.ofNat 64 widx
  let p : Split :=
    { pc := BitVec.ofNat 48 (d.code.toNat / 8 + entry), age := 0, lmask := BitVec.allOnes 32, jpc := 0, jgrp := 0, st := .ready
      held := .ready, wobj := 0, waux := 0, span := 0, len := 0, after := .none, rdy := 0, notBefore := clk, yield := false
      halted := false, moving := false, arr := 0, fault := none }
  { block := bid, wblk := wblk, stage := stage, widx := widx, part := place.1 / 2, half := place.1 % 2, wslot := place.2
    budget := budget, v := [], tags := [], tagKey := [], sc := [], scKey := [], m := [(0, BitVec.allOnes 32)], seed := seed
    fstat := 0, pfr := FailRec.empty, table := [(0, p)], epoch := 0, epochClk := clk, swapPend := false, moves := [], lastLead := 7
    ended := false, results := [], arrSet := [], arrCnt := [], arrPend := [], wphase := [], locks := [], haltH := 0, ckpts := []
    whole := false, captured := false, stopped := false, acqAt := 0, fenceSc := 0, wsyncs := [], movedAt := 0 }

/-- The warps of a block, with their keys. -/
def newWarps (d : LaunchDesc) (bid blk clk : Nat) (places : List (Nat × Nat)) : List (Nat × Warp) :=
  let l := List.zip d.kern.warpList places
  (List.zip (List.range l.length) l).map fun q =>
    (32 * bid + q.1, newWarp d bid blk q.1 q.2.1.1 q.2.1.2.1 q.2.1.2.2.1 q.2.1.2.2.2 q.2.2 clk)

/-- A block at its start (10 R262), not yet resident. -/
def newBlock (d : LaunchDesc) (l k r ck bank : Nat) : Block :=
  let b := k * d.csize + r
  { launch := l, cluster := k, rank := r, bx := b % d.gx, by_ := b / d.gx % d.gy, bz := b / d.gx / d.gy, pkg := ck / 48 / 128
    die := ck / 48 % 128, core := ck % 48, alloc := d.kern.local_, bank := bank, warps := d.kern.warpList.length
    nstg := d.kern.nstg, ls := [], full := [], counters := [], descs := [], bars := [], rrec := FailRec.empty, aborted := false
    resident := false, saved := false }

/-- Place one block of a cluster on a core: it takes its resources. -/
def State.placeBlock (s : State) (l k r ck : Nat) : Option State :=
  let d := (s.launchD l).desc
  match s.fitBlock ck d.kern with
  | none => none
  | some (bank, places) =>
    let bid := s.nextId
    some ({ s with
      nextId := s.nextId + 1, blocks := kput s.blocks bid (newBlock d l k r ck bank)
      warps := kputs s.warps (newWarps d bid (k * d.csize + r) s.clk places) }.excuse ck clusterWire (s.core ck).dead)

/-- Place the blocks of a cluster at a site (10 R258). -/
def State.placeAll (l k dk shape origin : Nat) : Nat → State → Option State
  | 0, s => some s
  | n + 1, s =>
    match State.placeAll l k dk shape origin n s with
    | none => none
    | some s1 => s1.placeBlock l k n (48 * dk + siteCore shape origin n)

/-- Place a cluster at a site, counting whether it runs at home (10 R266, 17 R406). -/
def State.placeCluster (s : State) (l k dk origin : Nat) (home : Nat) : Option State :=
  let d := (s.launchD l).desc
  (State.placeAll l k dk d.kern.shape origin d.csize s).map fun s1 => s1.count dk (if home = dk then tcHomed else tcStolen)

/-! ## Homes -/

/-- Live packages of a launch's set. -/
def State.livePkgs (s : State) (l : Launch) : List Nat := l.pset.filter fun p => !(s.liveDies p).isEmpty

/-- The fallback home of a cluster (10 R263). -/
def State.fallbackHome (s : State) (l : Launch) (k : Nat) : Nat :=
  let ps := s.livePkgs l
  let p := ps.getD (k % ps.length) 0
  let ds := s.liveDies p
  128 * p + ds.getD (k / ps.length % ds.length) 0

/-- The placement address of a cluster (10 R263). -/
def LaunchDesc.placeAddr (d : LaunchDesc) (k : Nat) : Word := d.pbase + BitVec.ofNat 64 (k * d.csize) * d.pstride

/-- The leaf of a placement address, through the placement cache of the rack distributor (10 R263, 16 R378), which the model takes to be
that of die 0 of the primary package (DESIGN CHOICE, log 86). -/
def State.placeLeaf (s : State) (asid : Nat) (pa : Word) : Option Word :=
  let p := s.fe.primary
  match kget? (s.die (128 * p)).plc (tlbKey asid (wf (s.asidEntry p asid) 32 16) pa.toNat) with
  | some t => some t.leaf
  | none => s.leafAt p asid pa.toNat

/-- Look the home of a cluster up, as a die key (10 R263). -/
def State.findHome (s : State) (l : Launch) (k : Nat) : Nat :=
  let pa := l.desc.placeAddr k
  if l.desc.pbase = 0 ∨ wf pa 57 3 ≠ 0 then s.fallbackHome l k
  else
    match (s.placeLeaf l.asid pa).bind fun leaf => s.homeOf s.fe.primary l.asid leaf pa.toNat with
    | none => s.fallbackHome l k
    | some (p, h) =>
      if !(s.livePkgs l).contains p then s.fallbackHome l k
      else if s.dieLive (128 * p + h) then 128 * p + h
      else match s.nearestLive p h with | some x => 128 * p + x | none => s.fallbackHome l k

/-- The home of a cluster: as the rack distributor found it, once it has looked it up. -/
def State.clusterHome (s : State) (l : Launch) (k : Nat) : Nat := (kget? l.homes k).getD (s.findHome l k)

/-- The rack distributor looks up the home of every cluster of a launch, and keeps it (10 R263). -/
def State.findHomes (s : State) (l : Nat) : State :=
  let x := s.launchD l
  let hs := (List.range x.desc.clusters).map fun k => (k, s.findHome x k)
  let s1 := if x.desc.pbase = 0 then s else
    let gen := wf (s.asidEntry s.fe.primary x.asid) 32 16
    (List.range x.desc.clusters).foldl (fun s k =>
      let pa := x.desc.placeAddr k
      match s.placeLeaf x.asid pa with
      | some leaf => if wf pa 57 3 = 0 then s.plcFill (128 * s.fe.primary) x.asid gen pa.toNat leaf else s
      | none => s) s
  s1.modLaunch l fun y => { y with homes := kputs y.homes hs }

/-! ## The tree -/

/-- The list of a die's own pending clusters. -/
def ownList (dk : Nat) : Nat := 100000 + dk

/-- The child of a node that a cluster with a home enters, and at last the die's own list (10 R264, R265). -/
def State.childFor (s : State) (l : Launch) (node home : Nat) : Nat :=
  let p := home / 128
  if node = 0 then nodeTray p
  else if node < 2000 then
    let t := node - 1000
    let ms := (s.livePkgs l).filter fun q => q / 2 == t
    if ms.contains p then nodePkg p else if ms.contains (2 * t + p % 2) then nodePkg (2 * t + p % 2) else nodePkg (ms.headD p)
  else if node < 10000 then
    let q := node - 2000
    if s.dieLive (128 * q + home % 128) then nodeDie (128 * q + home % 128)
    else match s.nearestLive q (home % 128) with | some x => nodeDie (128 * q + x) | none => nodeDie home
  else ownList (node - 10000)

/-- A pending list. -/
def Launch.list (l : Launch) (node : Nat) : List Nat := kgetD l.pend node []

/-- Children of a node that keep lists. -/
def nodeChildren (node : Nat) : List Nat :=
  if node = 0 then (List.range 256).map fun t => 1000 + t
  else if node < 2000 then [nodePkg (2 * (node - 1000)), nodePkg (2 * (node - 1000) + 1)]
  else if node < 10000 then (List.range 128).map fun d => nodeDie (128 * (node - 2000) + d)
  else [ownList (node - 10000)]

/-- Pending clusters that a node holds, over every list that it keeps (10 R264). -/
def Launch.held (l : Launch) (node : Nat) : Nat := (nodeChildren node).foldl (fun a c => a + (l.list c).length) 0

/-- The parent of a node. -/
def nodeParent (node : Nat) : Nat :=
  if node < 2000 then 0 else if node < 10000 then nodeTray (node - 2000) else if node < 100000 then nodePkg ((node - 10000) / 128)
  else node - 90000

/-- The nodes of a pending cluster's path, from the node that its list is for. -/
def State.pendPath (s : State) (l : Launch) (home : Nat) : Nat → Nat → List Nat
  | 0, node => [node]
  | n + 1, node => if 100000 ≤ node then [] else node :: s.pendPath l home n (s.childFor l node home)

/-- The nodes that hold a pending cluster, the rack first (10 R274). -/
def State.pendNodes (s : State) (l : Launch) (node k : Nat) : List Nat :=
  let n := if 100000 ≤ node then node - 90000 else node
  let up := [nodeParent (nodeParent (nodeParent n)), nodeParent (nodeParent n), nodeParent n]
  (up.filter (· != n)) ++ s.pendPath l (s.clusterHome l k) 3 n

/-- A node's retire counter (10 R274): blocks assigned to its subtree that have not retired. -/
def State.nodeCount (s : State) (l node : Nat) : Nat :=
  let x := s.launchD l
  let pend := x.pend.foldl (fun a q => a + (q.2.filter fun k => node == 0 || (s.pendNodes x q.1 k).contains node).length) 0
  pend * x.desc.csize + (s.blocks.filter fun q => q.2.launch == l && q.2.path.contains node).length

/-- Insert clusters into a list, in ascending order. -/
def addPend (p : KMap (List Nat)) (node : Nat) (ks : List Nat) : KMap (List Nat) :=
  kput p node (ks.foldl ninsert (kgetD p node []))

def setPend (p : KMap (List Nat)) (node : Nat) (ks : List Nat) : KMap (List Nat) := if ks.isEmpty then kdel p node else kput p node ks

/-- Deal every cluster of a launch at the rack distributor (10 R263, R264). -/
def State.dealAll (s : State) (l : Nat) : State :=
  let s := s.findHomes l
  let x := s.launchD l
  s.modLaunch l fun y => { y with pend := (List.range x.desc.clusters).foldl (fun p k => addPend p (s.childFor x 0 (s.clusterHome x k)) [k]) y.pend }

/-- Whether the clusters of a launch may be moved and placed. -/
def Launch.dealing (l : Launch) : Bool := !l.aborted && !l.halting && !l.saved

/-- CLUSTER_HANDDOWN (10 R264): the head of the list kept for a child goes down to it when the child holds fewer than 16. -/
def execClusterHanddown (l node : Nat) (s : State) : Out :=
  match s.launch? l with
  | none => .next s
  | some x =>
    match x.list node with
    | [] => .next s
    | k :: rest =>
      if !x.dealing || x.desc.cores || decide (100000 ≤ node) || decide (16 ≤ x.held node) then .next s
      else
        let child := s.childFor x node (s.clusterHome x k)
        .next (s.modLaunch l fun y => { y with pend := addPend (setPend y.pend node rest) child [k] })

/-- Whether a launch's cluster fits on a free site of a die. -/
def State.dieRoom (s : State) (x : Launch) (dk : Nat) : Bool := (s.nextSite dk x.desc.kern 48).isSome

/-- Whether a die is idle for a launch (10 R265). -/
def State.dieIdle (s : State) (x : Launch) (dk : Nat) : Bool :=
  x.pset.contains (dk / 128) && s.dieLive dk && (x.list (nodeDie dk)).isEmpty && (x.list (ownList dk)).isEmpty && s.dieRoom x dk

/-- Whether a node is idle for a launch (10 R265). -/
def State.nodeIdle (s : State) (x : Launch) (node : Nat) : Bool :=
  (x.list node).isEmpty &&
    (if 10000 ≤ node then s.dieIdle x (node - 10000)
     else if 2000 ≤ node then (List.range 128).any fun d => s.dieIdle x (128 * (node - 2000) + d)
     else (List.range 256).any fun i => s.dieIdle x (256 * (node - 1000) + i))

/-- The pending list of a node that a sibling may steal from (10 R265): the list kept for it. What has been handed to a die is never stolen
from it (log 44). -/
def Launch.stealable (x : Launch) (node : Nat) : List Nat := x.list node

/-- Take clusters out of the list of a node. -/
def takePend (p : KMap (List Nat)) (node : Nat) (ks : List Nat) : KMap (List Nat) :=
  setPend p node ((kgetD p node []).filter fun k => !ks.contains k)

/-- CLUSTER_STEAL (10 R265): an idle node takes the upper half of its busiest sibling's pending list. -/
def execClusterSteal (l node : Nat) (s : State) : Out :=
  match s.launch? l with
  | none => .next s
  | some x =>
    let isChild := (1000 ≤ node && node < 1256) || (2000 ≤ node && node < 2512) || (10000 ≤ node && node < 75536)
    if !x.dealing || x.desc.cores || !isChild || !s.nodeIdle x node then .next s
    else
      let sibs := (nodeChildren (nodeParent node)).filter (· != node)
      let most := sibs.foldl (fun a c => max a (x.stealable c).length) 0
      match sibs.find? fun c => (x.stealable c).length == most with
      | none => .next s
      | some v =>
        let p := x.stealable v
        let n := p.length
        if n < 2 then .next s
        else
          let up := p.drop (n - n / 2)
          .next (s.modLaunch l fun y => { y with pend := addPend (takePend y.pend v up) node up })

/-- The launches with a cluster at the head of a die's own list that fits, the one to be placed first (15 R365). -/
def State.placeChoice (s : State) (dk : Nat) : Option (Nat × Launch) :=
  let l := s.launches.filter fun q =>
    q.2.dealing && !q.2.desc.cores && !(q.2.list (ownList dk)).isEmpty
      && (s.nextSite dk q.2.desc.kern (kgetD q.2.lastSite dk 48)).isSome
  leastBy (fun q : Nat × Launch => ((7 - q.2.prio) * 2 ^ 80 + q.2.startClk) * 2 ^ 16 + q.1) l

/-- CLUSTER_PLACE (10 R264, 15 R365). -/
def execClusterPlace (pkg die : Nat) (s : State) : Out :=
  let dk := 128 * pkg + die
  match s.placeChoice dk with
  | none => .next s
  | some (l, x) =>
    match x.list (ownList dk), s.nextSite dk x.desc.kern (kgetD x.lastSite dk 48) with
    | k :: rest, some o =>
      match s.placeCluster l k dk o (s.clusterHome x k) with
      | none => .next s
      | some s1 => .next (s1.modLaunch l fun y =>
          { y with pend := setPend y.pend (ownList dk) rest, lastSite := kput y.lastSite dk o })
    | _, _ => .next s

/-! ## Co-resident launches -/

/-- The die with a free site for a cluster of a home (10 R269): the home die, the nearest die of the home package, then the
other packages; its sites are taken in the order of R264. -/
def State.coSite (s : State) (x : Launch) (home : Nat) : Option (Nat × Nat) :=
  let near (p : Nat) : Option Nat :=
    leastBy (fun d => meshHops d (home % 128) * 128 + d) ((s.liveDies p).filter fun d => (s.nextSite (128 * p + d) x.desc.kern 48).isSome)
  let ps := (home / 128) :: (s.livePkgs x).filter (· != home / 128)
  match (ps.filterMap fun p => (near p).map fun d => 128 * p + d).head? with
  | none => none
  | some dk => (s.nextSite dk x.desc.kern (kgetD x.lastSite dk 48)).map fun o => (dk, o)

/-- Place clusters in ascending order; none when one does not fit. -/
def State.coPlace (l : Nat) : List Nat → State → Option State
  | [], s => some s
  | k :: rest, s =>
    let x := s.launchD l
    let home := s.clusterHome x k
    match s.coSite x home with
    | none => none
    | some (dk, o) =>
      match s.placeCluster l k dk o home with
      | none => none
      | some s1 => State.coPlace l rest (s1.modLaunch l fun y => { y with lastSite := kput y.lastSite dk o })

/-- The grid wires that a launch binds (15 R358). -/
def LaunchDesc.wires (d : LaunchDesc) : List Nat := (List.range 16).filterMap d.wire

/-- Whether a wire that a launch binds serves another one (15 R365). -/
def State.wireBusy (s : State) (l : Nat) (x : Launch) : Bool :=
  x.pset.any fun p => x.desc.wires.any fun w => match kget? (s.pkg p).wires w with | some y => y != l | none => false

/-- Whether a co-resident launch fits with nothing else resident (10 R269). -/
def State.coFits (s : State) (l : Nat) : Bool :=
  (State.coPlace l (List.range (s.launchD l).desc.clusters) { s with blocks := [], warps := [] }).isSome

/-- A launch takes its grid wires on its packages, with the masks of its region (12 R318, R319): every live core that holds one of its
blocks takes part. -/
def State.takeWires (s : State) (l : Nat) : State :=
  let x := s.launchD l
  let cks := (s.blocks.filter fun q => q.2.launch == l).foldl (fun a q => ninsert a q.2.ck) []
  let s1 := x.pset.foldl (fun s p => s.modPkg p fun y => { y with wires := kputs y.wires (x.desc.wires.map fun w => (w, l)) }) s
  let s2 := cks.foldl (fun s ck => x.desc.wires.foldl (fun s w => s.excuse ck w (s.core ck).dead) s) s1
  s2.modLaunch l fun y => { y with region := cks }

/-- CORESIDENT_PLACE (10 R269): the launch takes its wires and its region (12 R319). -/
def execCoresidentPlace (l : Nat) (s : State) : Out :=
  match s.launch? l with
  | none => .next s
  | some x =>
    if !x.desc.cores || x.placed || !x.dealing || s.wireBusy l x then .next s
    else
      match State.coPlace l (List.range x.desc.clusters) s with
      | none => .next s
      | some s1 =>
        .next ((s1.takeWires l).modLaunch l fun y => { y with placed := true })

/-- BLOCK_START (10 R262): the blocks of a cluster become resident in one clk. -/
def execBlockStart (l k : Nat) (s : State) : Out :=
  let mine (b : Block) : Bool := b.launch == l && b.cluster == k && !b.resident && !b.saved
  let ids := (s.blocks.filter fun q => mine q.2).map (·.1)
  let s1 : State := { s with
    blocks := kmap s.blocks fun _ (b : Block) => if mine b then { b with resident := true } else b
    warps := kmap s.warps fun _ (w : Warp) => if ids.contains w.block then { w with epochClk := s.clk } else w }
  .next (ids.foldl (fun s i => (s.warpsOf i).foldl (fun s w => s.acquire w 5) s) s1)

end Sys2Proof.Machine
end

