-- ==== Sys2Proof/Machine/Retire.lean ====
section
/-! DEFINITION. Retirement (10 R273 to R276), the completion of launches and packets (15 R357, R363, R364), and the barriers of
clusters and grids (12 R318 to R320, 09 R256). -/

namespace Sys2Proof.Machine

/-! ## Completion -/

/-- Raise the interrupt of a queue (15 R355, R358). -/
def State.raiseIrq (s : State) (q : Nat) : State :=
  let x := s.queueD q
  { s with fe := { s.fe with irqs := s.fe.irqs ++ [(x.ivec, x.itgt)] } }

/-- The body of a drain or completion record (15 R363). -/
def FailRec.body (r : FailRec) : Nat := r.causes.toNat + 2 ^ 8 * r.count + 2 ^ 24 * r.pkg + 2 ^ 33 * r.die

/-- A packet completes (15 R357). -/
def State.completePacket (s : State) (q idx status launch : Nat) : State :=
  match (s.queueD q).active.find? fun p => p.idx == idx with
  | none => s
  | some p =>
    let s1 := s.modQueue q fun x => { x with active := x.active.filter fun p => p.idx != idx }
    if p.evt then s1.postEvent q evPacket status p.tag launch 0 0 else s1

/-- An event of a package, tray or rack: a record, or the interrupt in its place (15 R358). -/
def State.drainEvent (s : State) (x : Launch) (kind status l node : Nat) (r : FailRec) : State :=
  if x.desc.irq then s.raiseIrq x.queue else s.postEvent x.queue kind status x.tag l node r.body

/-- LAUNCH of a record of a packet that names no launch (15 R363): the manual states none. -/
def State.noLaunch (s : State) : Nat := Config.recordLaunch s.free % 65536

/-- Whether every launch of a packet has been restored (15 R370). -/
def State.restored (s : State) (p : Packet) : Bool :=
  p.launches.all fun l => !(s.launchD l).halting && s.blocks.all fun b => b.2.launch != l || !b.2.saved

/-- Complete the RESUME packets whose launches have all been restored: KIND 6 (15 R363, R370). -/
def State.resumeCheck (s : State) : State :=
  s.queues.foldl (fun s (q : Nat × Queue) =>
    (q.2.active.filter fun p => p.opc == 9 && s.restored p).foldl (fun s p =>
      let l := if wf p.w1 0 2 = 0 then wf p.w2 0 16 else s.noLaunch
      ({ s with free := s.free + 1 }.postEvent q.1 evResumed esDone p.tag l 0 0).completePacket q.1 p.idx esDone l) s) s

/-- A launch completes in the clk in which its PREEMPT starts (15 R369): a kind-0 request applies to the next LAUNCH of the
launch's queue, and its packet completes; one of another kind goes on without it. -/
def State.haltMissed (s : State) (l queue : Nat) : State :=
  s.queues.foldl (fun s (q : Nat × Queue) =>
    (q.2.active.filter fun p => p.opc == 8 && p.clk == s.clk && p.launches.contains l && wf p.w1 0 2 == 0).foldl (fun s p =>
      (s.modQueue queue fun y => { y with heldNext := some (q.1, p.tag, l) }).completePacket q.1 p.idx esDone l) s) s

/-- A launch completes (10 R274, R275, 15 R358, R366): its record, its packet, its buffer and its wires. -/
def State.completeLaunch (s : State) (l status : Nat) : State :=
  match s.launch? l with
  | none => s
  | some x =>
    let r := kgetD x.rrec 0 FailRec.empty
    let s1 := s.drainEvent x evLaunch status l 0 r
    let s2 := match x.packet with | some idx => s1.completePacket x.queue idx status l | none => s1
    let s3 := match x.firing with
      | some (a, b) => { s2 with armed := kmod s2.armed a fun y => { y with busy := y.busy.filter (· != b) } }
      | none => s2
    let s4 : State := { s3 with
      launches := kdel s3.launches l
      phases := s3.phases.filter fun q => q.2.launch != l }
    ((s4.freeWires l).haltMissed l x.queue).resumeCheck

/-! ## Retirement -/

/-- Merge a retire record into a node's (10 R274). -/
def FailRec.merge (a b : FailRec) : FailRec :=
  { causes := a.causes ||| b.causes, count := min 65535 (a.count + b.count), pkg := if a.has then a.pkg else b.pkg
    die := if a.has then a.die else b.die, has := a.has || b.has }

/-- The mark ABORTED of a retire record (15 R362), in bit 7 of its causes. -/
abbrev cbAborted : Nat := 7

/-- The places below a copy on its way home, nearest first. -/
def State.lowerPlaces (s : State) (c : Copy) : List Nat :=
  match (s.below c).1 with
  | none => []
  | some p => match (s.below { c with place := p }).1 with | none => [p] | some q => [p, q]

/-- Write the dirty bytes of a copy to its home copy: those of the places below it first, which are older (11 R293). -/
def State.cleanCopy (s : State) (k : Nat) : State :=
  match kget? s.copies k with
  | none => s
  | some c =>
    let home := (s.below c).2
    let one (s : State) (place : Nat) : State :=
      match kget? s.copies (copyKey place c.asid c.blk) with
      | none => s
      | some x =>
        let s1 := s.putDirty levels none c.asid c.blk x.leaf home (x.dirtyBytes fun _ => true)
        { s1 with copies := kmod s1.copies (copyKey place c.asid c.blk) fun y => { y with dirty := [] } }
    ((s.lowerPlaces c).reverse ++ [c.place]).foldl one s

/-- Write the dirty untracked bytes of an address space in an L1 back (11 R284): to the home copies, or to the far or home copies of its die;
with `drop` its lines of the address space are discarded. -/
def State.flushL1 (s : State) (place asid : Nat) (toHome drop : Bool) : State :=
  let mine := s.copies.filter fun q => q.2.place == place && q.2.asid == asid && !q.2.tracked && !q.2.dirty.isEmpty
  let s1 := mine.foldl (fun s q =>
    if toHome then s.cleanCopy q.1
    else
      let down := s.below q.2
      let s1 := s.putDirty levels down.1 asid q.2.blk q.2.leaf down.2 (q.2.dirtyBytes fun _ => true)
      { s1 with copies := kmod s1.copies q.1 fun c => { c with dirty := [] } }) s
  if drop then { s1 with copies := s1.copies.filter fun q => q.2.place != place || q.2.asid != asid } else s1

/-- The L1s that hold what a block has stored (11 R284): its core's, or every slice of its fused cluster. -/
def Block.l1s (b : Block) (k : KernelRec) : List Nat :=
  if k.fuse then (siteCores b.dk k.shape (b.origin k.shape)).map l1Place else [l1Place b.ck]

/-- Whether a block may retire (10 R273, 08 R217). -/
def State.retireReady (s : State) (bid : Nat) (b : Block) : Bool :=
  let ws := s.warpsOf bid
  let rsc := (s.launchD b.launch).desc.rscope
  b.resident && (ws.all fun w => (s.warpD w).ended)
    && (s.works.all fun q => q.2.block != bid)
    && (s.posts.all fun q => !ws.contains q.2.wid)
    && s.reqs.all fun q => !ws.contains q.2.wid ||
        (if q.2.isPosted then q.2.completeAt rsc else q.2.kind != .atom || !q.2.unmade || q.2.stuck)

/-- A block's core is excused (12 R319): from its site's cluster wires, and from the launch's grid wires with its last block there. -/
def State.excuseRetired (s : State) (l : Nat) (b : Block) (gone : Bool) : State :=
  let s1 := if 1 < csizeOf (s.launchD l).desc.kern.shape then s.excuse b.ck clusterWire true else s
  if gone then ((s.pkg b.pkg).wires.filter fun w => w.2 == l).foldl (fun s w => s.excuse b.ck w.1 true) s1 else s1

/-- BLOCK_RETIRE (10 R273, R274): the record is merged on the way up; nodes whose counter reaches zero drain. -/
def execBlockRetire (bid : Nat) (s : State) : Out :=
  match s.block? bid with
  | none => .next s
  | some b =>
    if !s.retireReady bid b then .next s
    else
      let l := b.launch
      let x := s.launchD l
      let ws := s.warpsOf bid
      let r := if b.aborted then { b.rrec with causes := b.rrec.causes ||| (1#8 <<< cbAborted) } else b.rrec
      let last := !(s.blocks.any fun q => q.1 != bid && q.2.launch == l && q.2.cluster == b.cluster && !q.2.saved)
      let s1 := (b.l1s x.desc.kern).foldl (fun s p => s.flushL1 p x.asid true (x.desc.kern.fuse && last)) s
      let s2 := { s1 with
        blocks := kdel s1.blocks bid
        warps := s1.warps.filter fun q => q.2.block != bid
        reqs := s1.reqs.filter fun q => !ws.contains q.2.wid
        fes := s1.fes.filter fun q => !ws.contains q.2.wid }
      let gone := !(s2.blocks.any fun q => q.2.launch == l && q.2.ck == b.ck && !q.2.saved)
      let s3 := (s2.excuseRetired l b gone).modLaunch l fun y =>
        { y with rrec := b.path.foldl (fun m n => kput m n ((kgetD m n FailRec.empty).merge r)) y.rrec
                 excused := if !gone then y.excused else (s.clk + 1, if y.excused.1 = s.clk + 1 then y.excused.2 ++ [b.dk] else [b.dk]) }
      let due := b.path.filter fun n => s3.nodeCount l n == 0
      .next (s3.modLaunch l fun y => { y with drains := due.foldl ninsert y.drains })

/-- Whether the event of a node is enabled (10 R275, 15 R358). -/
def LaunchDesc.eventOn (d : LaunchDesc) (node : Nat) : Bool :=
  d.even.getLsbD (if node = 0 then 4 else if node < 2000 then 3 else if node < 10000 then 2 else if node < 200000 then 1 else 0)

/-- NODE_DRAIN (10 R274 to R276). The rack's drain completes the launch. -/
def execNodeDrain (l node : Nat) (s : State) : Out :=
  match s.launch? l with
  | none => .next s
  | some x =>
    if !x.drains.contains node then .next s
    else
      let s1 := s.modLaunch l fun y => { y with drains := y.drains.filter (· != node) }
      let r := kgetD x.rrec node FailRec.empty
      if node = 0 then .next (s1.completeLaunch l (if x.badImage then esBadimage else if x.aborted then esAborted else esDone))
      else if !x.desc.eventOn node then .next s1
      else if node < 2000 then .next (s1.drainEvent x evTray esDone l (node - 1000) r)
      else if node < 10000 then .next (s1.drainEvent x evPackage esDone l (node - 2000) r)
      else
        let dk := if node < 200000 then node - 10000 else (node - 200000) / 48
        .next ((s1.modDie dk fun d => { d with drains := d.drains ++ [(node, l, r)] }).signal dk (if node < 200000 then 1 else 0))

/-! ## Cluster and grid barriers -/

/-- The blocks of a launch that take part in a barrier of a region: of a cluster (`k` its index plus 1) or of the grid (0). -/
def State.partBlocks (s : State) (l k : Nat) : List (Nat × Block) :=
  s.blocks.filter fun q => q.2.launch == l && (k == 0 || q.2.cluster + 1 == k)

/-- Whether the phase of a barrier is on its way. -/
def State.phaseOf (s : State) (l k n : Nat) : Option (Nat × Phase) :=
  s.phases.find? fun q => q.2.launch == l && q.2.num == n && q.2.cluster == (if k = 0 then none else some (k - 1))

/-- The barrier key of a level. -/
def levelKey (k n : Nat) : Nat := barKey (if k = 0 then 2 else 1) n

/-- The wire that carries a barrier of a launch: a grid wire that it binds, or a cluster wire. -/
def Launch.wireOf (x : Launch) (k n : Nat) : Nat := if k = 0 then (x.desc.wire n).getD clusterWire else clusterWire

/-- Whether a core of a region has arrived or is excused (12 R319): every block of the launch resident on it has arrived. -/
def State.coreArrived (s : State) (l key ck wire : Nat) : Bool :=
  s.isExcused ck wire || (s.blocks.filter fun q => q.2.launch == l && q.2.ck == ck).all fun q => (q.2.bar key).blockArr

/-- Whether some core was excused in a phase of a package (12 R319): of the cluster's site, because its block has retired; of the dies of
its part of a grid region, inside it or outside. -/
def State.phaseExcused (s : State) (l k n pkg : Nat) : Bool :=
  let x := s.launchD l
  if k ≠ 0 then decide ((s.partBlocks l k).length < x.desc.csize)
  else
    let dies := (x.region.filter fun ck => ck / 48 / 128 == pkg).foldl (fun a ck => ninsert a (ck / 48)) []
    dies.any fun dk => s.excuseMask dk (x.wireOf k n) != 0

/-- The root time of a package whose last core has arrived, or was excused at the end of the clk before (09 R256, 12 R320). -/
def State.rootTime (s : State) (l k key pkg : Nat) : Nat :=
  let now := (s.partBlocks l k).filter fun q => q.2.pkg == pkg && (q.2.bar key).lastKey == s.clk
  let ex := (s.launchD l).excused
  let root (t : Nat) (dies : List Nat) : Nat := t + 6 + 9 * (dies.map fun d => bandOf d).foldl max 0
  if !now.isEmpty then root s.clk (now.map fun q => q.2.die)
  else if ex.1 = s.clk then root (s.clk - 1) ((ex.2.filter fun dk => dk / 128 == pkg).map (· % 128))
  else s.clk + 6

/-- MORTAR_ROOT_CLOSE (12 R319, 09 R256): every core of a package's part of the region has arrived or is excused, and one has
arrived. -/
def execMortarRootClose (l k n pkg : Nat) (s : State) : Out :=
  match s.launch? l with
  | none => .next s
  | some x =>
    let key := levelKey k n
    let part := (s.partBlocks l k).filter fun q => q.2.pkg == pkg
    let region := x.region.filter fun ck => ck / 48 / 128 == pkg
    let ready := if k = 0 then region.all fun ck => s.coreArrived l key ck (x.wireOf k n) else part.all fun q => (q.2.bar key).blockArr || s.isExcused q.2.ck clusterWire
    let any := (s.partBlocks l k).any fun q => (q.2.bar key).blockArr
    let old := s.phaseOf l k n
    let twice := match old with | some (_, f) => f.told || f.pkgs.contains pkg | none => false
    if !ready || !any || twice || (k = 0 && region.isEmpty) || (k != 0 && part.isEmpty) || part.any fun q => !q.2.resident then .next s
    else
      let root := s.rootTime l k key pkg
      let pkgs := if k = 0 then x.region.foldl (fun a ck => ninsert a (ck / 48 / 128)) [] else [pkg]
      let dies := (s.partBlocks l k).foldl (fun a q => ninsert a q.2.dk) []
      let single := pkgs.length == 1
      let f : Phase :=
        match old with
        | some (_, f) => { f with root := max f.root root, pkgs := f.pkgs ++ [pkg], excused := f.excused || s.phaseExcused l k n pkg }
        | none =>
          { launch := l, cluster := if k = 0 then none else some (k - 1), num := n, root := root, excused := s.phaseExcused l k n pkg
            pkgs := [pkg], told := single, dies := dies }
      match old with
      | some (i, _) => .next { s with phases := kput s.phases i f }
      | none => .next { s with phases := kput s.phases s.nextId f, nextId := s.nextId + 1 }

/-- MORTAR_PACKAGE_COMPLETION (12 R320): the root of the lowest package has every package's completion and sends the release;
root times become the latest one plus 1,040. -/
def execMortarPackageCompletion (l n pkg : Nat) (s : State) : Out :=
  match s.launch? l, s.phaseOf l 0 n with
  | some x, some (i, f) =>
    let pkgs := x.region.foldl (fun a ck => ninsert a (ck / 48 / 128)) []
    if f.told || pkgs.head? != some pkg || decide (s.clk < f.root) || (pkgs.any fun p => !f.pkgs.contains p) then .next s
    else
      let dies := (s.partBlocks l 0).foldl (fun a q => ninsert a q.2.dk) []
      .next { s with phases := kput s.phases i { f with told := true, root := f.root + 1040, dies := dies } }
  | _, _ => .next s

/-- MORTAR_DIE_RELEASE (09 R256, 12 R319): the die's blocks are released; BARWAITs complete 4 clk later. Blocks that are saved
keep the release for their restore (10 R270). -/
def execMortarDieRelease (l k n pkg die : Nat) (s : State) : Out :=
  let dk := 128 * pkg + die
  match s.phaseOf l k n with
  | none => .next s
  | some (i, f) =>
    let key := levelKey k n
    let here := (s.partBlocks l k).filter fun q => q.2.dk == dk
    if !f.told || !f.dies.contains dk || decide (s.clk < f.root + 14 + 9 * bandOf die) || here.any fun q => q.2.saved then .next s
    else
      let s1 := (here.filter fun q => (q.2.bar key).blockArr).foldl (fun s q => s.barRelease q.1 key f.excused 4) s
      let dies := f.dies.filter (· != dk)
      .next { s1 with phases := if dies.isEmpty then kdel s1.phases i else kput s1.phases i { f with dies := dies } }

end Sys2Proof.Machine
end

