-- ==== Sys2Proof/Machine/Image.lean ====
section
/-! DEFINITION. The context area (15 R370 to R372): its directory and slots, the image of a cluster, its checks, and the fields
that a restore takes from it. The offsets of the header fields and the place of the count word are the model's (log 45). -/

namespace Sys2Proof.Machine

/-! ## Sizes (15 R371) -/

/-- Rounding up to 4,096. -/
def page4k (n : Nat) : Nat := cdiv n 4096 * 4096

/-- Sizes of a warp's, a block's and a cluster's image. -/
def wsize (budget : Nat) : Nat := page4k (1280 + 128 * budget + 65536)
def KernelRec.blkSize (k : KernelRec) : Nat :=
  page4k (1024 + 320 * 64 + k.stages.foldl (fun a q => a + q.2.1 * wsize q.2.2) 0 + k.local_ + k.local_ / 128)
def KernelRec.slotSize (k : KernelRec) : Nat := page4k (256 + csizeOf k.shape * k.blkSize)

/-- The address of a slot: the slots follow the directory. -/
def Launch.slotAddr (x : Launch) (i : Nat) : Nat :=
  x.desc.ctxbase.toNat + page4k (8 * x.nslot) + i * x.desc.kern.slotSize

/-! ## Bytes -/

/-- Pack fields, each a width and a value, lowest first. -/
def packBits : List (Nat × Nat) → Nat
  | [] => 0
  | (w, v) :: r => v % 2 ^ w + 2 ^ w * packBits r

/-- Exactly `n` bytes: cut off, or filled with 0. -/
def padTo (n : Nat) (l : List Byte) : List Byte := l.take n ++ List.replicate (n - l.length) 0

/-- The little-endian number of `n` bytes of an image at an offset. -/
def imageAt (l : List Byte) (o n : Nat) : Nat := bytesNat ((l.drop o).take n)

/-- Bytes of sparse storage from an offset up. -/
def denseBytes : Nat → Nat → KMap Byte → List Byte
  | 0, _, _ => []
  | n + 1, o, [] => 0 :: denseBytes n (o + 1) []
  | n + 1, o, (k, b) :: r =>
    if k < o then denseBytes n o r
    else if k = o then b :: denseBytes n (o + 1) r
    else 0 :: denseBytes n (o + 1) ((k, b) :: r)

/-- The cells of a run of bytes: those that are not 0. -/
def runCells : Nat → List Byte → List Host.Cell
  | _, [] => []
  | a, b :: r => if b = 0 then runCells (a + 1) r else (a, b) :: runCells (a + 1) r

/-- Replace a run of memory. -/
def memRun (m : List Host.Cell) (a : Nat) (l : List Byte) : List Host.Cell :=
  (m.filter fun p => decide (p.1 < a)) ++ runCells a l ++ m.filter fun p => decide (a + l.length ≤ p.1)

/-- Write and read bytes of an address space at the homes, in pieces that lie in one tag block each (`va` a multiple of 512). -/
def State.areaWrite (asid : Nat) : Nat → Nat → List Byte → State → State
  | 0, _, _, s => s
  | n + 1, va, l, s =>
    if l.isEmpty then s
    else
      let s1 : State := match s.lookup s.fe.primary asid va with
        | some (e, _, (p, d)) => { s with mem := memRun s.mem (frameKey (128 * p + d) e va) (l.take 512) }
        | none => s
      State.areaWrite asid n (va + 512) (l.drop 512) s1

def State.areaRead (s : State) (asid : Nat) : Nat → Nat → List Byte
  | 0, _ => []
  | n + 1, va =>
    (match s.lookup s.fe.primary asid va with
     | some (e, _, (p, d)) =>
       let k := frameKey (128 * p + d) e va
       memRead (s.mem.filter fun q => decide (k ≤ q.1) && decide (q.1 < k + 512)) k 512
     | none => (List.range 512).map fun i => Config.frontByte s.clk (va + i)) ++ s.areaRead asid n (va + 512)

/-! ## The image of a warp (15 R372) -/

/-- The code of a state (01 R34). -/
def SplitState.code : SplitState → Nat
  | .ready => 0 | .spanPark => 1 | .lockWait => 2 | .barWait => 3 | .cntWait => 4 | .joinWait => 5 | .feWait => 6 | .faulted => 7
  | .dormant => 8 | .free => 15

def SplitState.ofCode : Nat → SplitState
  | 0 => .ready | 1 => .spanPark | 2 => .lockWait | 3 => .barWait | 4 => .cntWait | 5 => .joinWait | 6 => .feWait | 7 => .faulted
  | 8 => .dormant | _ => .free

/-- The 256 bits of an entry of the split table (01 R33). -/
def splitBits : Option Split → Nat
  | none => packBits [(152, 0), (4, 15)]
  | some p =>
    packBits [(48, p.pc.toNat), (16, p.age.toNat), (32, p.lmask.toNat), (48, p.jpc.toNat), (5, p.jgrp.toNat), (3, 0), (4, p.st.code)
             ,(4, if p.st = .dormant then p.held.code else 0), (64, p.wobj.toNat), (32, p.waux.toNat)]

/-- What a wait needs, as the words of an entry give it: WOBJ and WAUX name the object (01 R33). -/
def After.withWords (a : After) (wobj waux : Nat) : After :=
  match a with
  | .barWait sd sc _ _ key => .barWait sd sc (wobj / 32) (wobj % 32) key
  | .cntWait sd sc _ _ key => .cntWait sd sc wobj waux key
  | .wsync _ => .wsync (BitVec.ofNat 32 wobj)
  | .regang _ b => .regang (BitVec.ofNat 32 wobj) b
  | x => x

/-- An entry of the split table from its bits; `old` holds what the model keeps beside them. -/
def splitOfBits (old : Option Split) (x : Nat) : Option Split :=
  let f (lo n : Nat) : Nat := nbits x lo n
  if f 64 32 = 0 then none
  else
    let p := old.getD default
    let st := SplitState.ofCode (f 152 4)
    let held := SplitState.ofCode (f 156 4)
    let eff := if st = .dormant then held else st
    some { p with
      pc := BitVec.ofNat 48 (f 0 48), age := BitVec.ofNat 16 (f 48 16), lmask := BitVec.ofNat 32 (f 64 32)
      jpc := BitVec.ofNat 48 (f 96 48), jgrp := BitVec.ofNat 5 (f 144 5), st := st, held := held
      wobj := BitVec.ofNat 64 (f 160 64), waux := BitVec.ofNat 32 (f 224 32)
      after := if eff = p.eff then p.after.withWords (f 160 64) (f 224 32) else .none }

/-- The registers of a warp that its saved set holds (09 R251): those outside it are zero, and RAW. -/
def Warp.restoreSet (w : Warp) : Warp :=
  if w.whole || w.ckpts.isEmpty then w
  else
    let sl := w.ckpts.foldl (fun (a : Word) q => a ||| q.1) 0
    let vl := w.ckpts.foldl (fun (a : BitVec 256) q => a ||| q.2) 0
    { w with
      sc := w.sc.filter fun q => sl.getLsbD q.1
      v := w.v.filter fun q => vl.getLsbD (q.1 / 32)
      tags := w.tags.filter fun q => vl.getLsbD q.1 }

/-- The bits of a lock slot (12 R312). -/
def Warp.lockBits (w : Warp) (k : LockSlot) : Nat :=
  if !k.live then 0
  else
    let slot := match w.table.find? fun t => t.2.eff == .lockWait && t.2.wobj == lineWord k.line with | some (t, _) => t | none => 0
    packBits [(57, lineVa k.line), (1, k.held.toNat), (1, 1), (3, k.scope), (2, 0), (32, if k.held then 0 else k.tleft)
             ,(5, if k.held then 0 else slot)]

/-- A failure record in an image: its fence word with SCOPE 0, then 8 bytes of 0. -/
def FailRec.bits (r : FailRec) : Nat := (r.word 0).toNat

def failOfBits (x : Nat) : FailRec :=
  { causes := BitVec.ofNat 8 (nbits x 1 6 * 2), count := nbits x 16 16, pkg := nbits x 32 9, die := nbits x 41 7, has := nbits x 0 1 == 1 }

/-- The held accesses of a warp (07 R179). -/
def State.heldAccesses (s : State) (wid : Nat) : List (Nat × Req) := s.reqs.filter fun q => q.2.wid == wid && q.2.phase == .faulted

/-- The records of a held access, one for each lane: 48 bytes. -/
def State.heldRecords (s : State) (w : Warp) (r : Req) : List (List Byte) :=
  let word := s.feNat r.asid (8 * r.pc.toNat) 8
  let slot := match w.table.find? fun t => t.2.span == r.span && (t.2.lmask &&& r.lanes) != 0 with | some (t, _) => t | none => 0
  (lanesOf r.lanes).map fun l =>
    let data := match r.opnds.find? fun o => o.1 == l with
      | some (_, a, c) => a.toNat + 2 ^ 64 * c.toNat
      | none => if r.kind = .store then bytesNat r.data else 0
    natBytes (packBits [(64, word), (64, r.va.toNat), (5, l), (5, slot), (118, 0), (128, data)]) 48

/-- The image of a warp. -/
def State.warpImage (s : State) (wid : Nat) (w0 : Warp) : List Byte :=
  let w := w0.restoreSet
  let whole := w0.whole || w0.ckpts.isEmpty
  let held := (s.heldAccesses wid).flatMap fun q => s.heldRecords w0 q.2
  padTo (wsize w.budget)
    (padTo 64 ([w.wblk, w.stage, w.widx, w.budget, w.epoch.toNat, wid, whole.toNat].flatMap fun x => natBytes x 8)
      ++ padTo 512 ((List.range 63).flatMap fun i => natBytes (kgetD w.sc i 0).toNat 8)
      ++ ((List.range 8).flatMap fun i => natBytes (kgetD w.m i 0).toNat 4)
      ++ natBytes w.seed.toNat 8 ++ natBytes w.fstat.toNat 8 ++ natBytes w.pfr.bits 16
      ++ ((List.range 8).flatMap fun i => natBytes (splitBits (kget? w.table i)) 32)
      ++ padTo 64 (w.locks.flatMap fun k => natBytes (w.lockBits k) 16)
      ++ ((List.range 48).flatMap fun i => natBytes (kgetD w.arrSet i 0).toNat 4)
      ++ ((List.range 128).map fun i => (kgetD w.tags (2 * i + 1) 0) ++ (kgetD w.tags (2 * i) 0))
      ++ ((List.range (32 * w.budget)).flatMap fun i => natBytes (kgetD w.v i 0).toNat 4)
      ++ padTo 65520 held.flatten ++ natBytes held.length 8)

/-! ## The image of a block -/

/-- The copy record of a hod command (08 R219). -/
def State.copyBits (s : State) (e : Work) : Nat :=
  let kind := match e.kind with | .cpyIn => 0 | .cpyOut => 1 | .cpyLocal => 2 | .gather => 3 | _ => 4
  packBits [(128, e.td1.toNat), (128, if e.kind = .cpyLocal then e.td2.toNat else 0), (64, e.a.toNat)
           ,(64, if e.kind = .gather ∨ e.kind = .scatter then 0 else e.b.toNat), (3, kind), (5, e.cnt), (3, e.scope), (16, e.inc)
           ,(27, e.stofs), (1, e.sten.toNat), (9, e.next), (5, (s.warpD e.wid).wblk)]

/-- The tile-task record of a task (08 R225): STATE 2 for one that a save has stopped, 1 where nothing keeps it from starting. -/
def State.taskBits (s : State) (id : Nat) (e : Work) : Nat :=
  let kind := match e.kind with | .task => 0 | .taskOvr => 1 | _ => 2
  let ready := e.phase == .forked && s.depMet e && !s.hazard id e
  let st := if e.phase = .stopped ∨ e.phase = .running then 2 else if ready then 1 else 0
  packBits [(128, e.td1.toNat), (128, e.td2.toNat), (128, if e.kind = .taskCvt then 0 else e.td3.toNat), (2, kind), (1, wf e.a 63 1)
           ,(5, wf e.a 32 5), (5, e.cnt), (3, e.scope), (16, e.inc), (32, wf e.a 0 32), (27, e.stofs), (1, e.sten.toNat), (2, st)
           ,(4, e.next), (5, (s.warpD e.wid).wblk), (9, 0), (16, (BitVec.ofInt 16 e.etmp).toNat)]

/-- The saved engine work of a block, in queue order (08 R216). -/
def State.savedWorks (s : State) (bid : Nat) : List (Nat × Work) :=
  s.works.filter fun q => q.2.block == bid && q.2.phase != .finished && (q.2.kind.isHod || q.2.kind.isTask)

/-- The warps of a block that have arrived in a phase and are not released, as bits by WBLK (07 R203). -/
def State.arrivedBits (s : State) (bid key : Nat) : Nat :=
  ((s.warpsOf bid).filter fun w =>
    (kgetD (s.warpD w).wphase key (0, false)).2 && !((s.warpD w).arrPend.any fun a => a.1 == key)).foldl
    (fun a w => a + 2 ^ (s.warpD w).wblk) 0

/-- Whether the release of a phase is on its way (10 R270). -/
def State.latched (s : State) (l : Nat) (c : Option Nat) (num : Nat) : Bool :=
  s.phases.any fun q => q.2.launch == l && q.2.cluster == c && q.2.num == num && q.2.told

/-- The 64 bits of a barrier of a block. -/
def State.barBits (s : State) (bid : Nat) (b : Block) (key : Nat) : Nat :=
  let x := b.bar key
  let latch := match key / 16 with | 0 => false | 1 => s.latched b.launch (some b.cluster) (key % 16) | _ => s.latched b.launch none (key % 16)
  packBits [(16, x.phase.toNat), (6, x.count), (1, x.blockArr.toNat), (1, latch.toNat), (8, 0), (32, s.arrivedBits bid key)]

/-- A local store with the overflow areas of its warps (01 R27, R33). -/
def withOverflow (alloc : Nat) (ws : List Warp) (ls : KMap Byte) : KMap Byte :=
  ws.foldl (fun m w => (List.range 24).foldl (fun m i =>
    let o := alloc - 1536 * (w.wblk + 1) + 64 * i
    let l := natBytes (splitBits (kget? w.table (8 + i))) 64
    (List.zip (List.range 64) l).foldl (fun m q => if q.2 = 0 then m else kput m (o + q.1) q.2) m) m) ls

/-- The image of a block. -/
def State.blockImage (s : State) (bid : Nat) (b : Block) (k : KernelRec) : List Byte :=
  let works := s.savedWorks bid
  let ws := k.warpList.map fun q => wsize q.2.2.1
  let lsOfs := 0x5400 + ws.foldl (· + ·) 0
  padTo k.blkSize
    (padTo 64 (natBytes b.bx 4 ++ natBytes b.by_ 4 ++ natBytes b.bz 8 ++ natBytes b.warps 8 ++ natBytes b.alloc 8
        ++ natBytes (b.rrec.body + 2 ^ 40 * b.rrec.has.toNat + 2 ^ 41 * b.aborted.toNat) 8 ++ natBytes works.length 8 ++ natBytes lsOfs 8)
      ++ ((List.range 32).flatMap fun i => natBytes (kgetD b.counters i 0).toNat 8)
      ++ ((List.range 16).flatMap fun i => natBytes (match kget? b.descs i with | some d => d.val.toNat | none => 0) 16)
      ++ padTo 448 ((List.range 48).flatMap fun i => natBytes (s.barBits bid b i) 8)
      ++ padTo 20480 (works.flatMap fun q => natBytes (if q.2.kind.isHod then s.copyBits q.2 else s.taskBits q.1 q.2) 64)
      ++ (((List.zip (List.range ws.length) ws)).flatMap fun q =>
            match s.warp? (32 * bid + q.1) with
            | some w => s.warpImage (32 * bid + q.1) w
            | none => List.replicate q.2 0)
      ++ denseBytes b.alloc 0 (withOverflow b.alloc ((s.warpsOf bid).map s.warpD) b.ls)
      ++ ((List.range (cdiv b.alloc 128)).map fun i => BitVec.ofNat 8 ((List.range 8).foldl (fun a j => a + (b.isFull (8 * i + j)).toNat * 2 ^ j) 0)))

/-! ## The image of a cluster -/

/-- The blocks of a launch's cluster that are saved, in CRANK order. -/
def State.savedBlocks (s : State) (l k : Nat) : List (Nat × Block) :=
  sortBy (fun q : Nat × Block => q.2.rank) (s.blocks.filter fun q => q.2.launch == l && q.2.cluster == k && q.2.saved)

/-- The clusters of a launch that are saved. -/
def State.savedClusters (s : State) (l : Nat) : List Nat :=
  (s.blocks.filter fun q => q.2.launch == l && q.2.saved).foldl (fun a q => ninsert a q.2.cluster) []

/-- The 16 cluster barriers of an image. -/
def State.cbarBits (s : State) (l k : Nat) (bs : List (Nat × Block)) (num : Nat) : Nat :=
  let phase := match bs with | [] => 0 | (_, b) :: _ => (b.bar (16 + num)).phase.toNat
  let n := (bs.filter fun q => (q.2.bar (16 + num)).blockArr).length
  packBits [(16, phase), (8, n), (1, (s.latched l (some k) num).toNat)]

/-- The image of a saved cluster; the place of a block that has retired holds 0 (10 R271). -/
def State.clusterImage (s : State) (l k gen : Nat) : List Byte :=
  let x := s.launchD l
  let kern := x.desc.kern
  let bs := s.savedBlocks l k
  padTo kern.slotSize
    (padTo 256 (natBytes (packBits [(32, k), (4, x.desc.csize), (1, kern.fuse.toNat)]) 8 ++ natBytes gen 8
        ++ (List.range 16).flatMap fun n => natBytes (s.cbarBits l k bs n) 8)
      ++ (List.range x.desc.csize).flatMap fun r =>
          match bs.find? fun q => q.2.rank == r with
          | some (bid, b) => s.blockImage bid b kern
          | none => List.replicate kern.blkSize 0)

/-- The directory of a context area: the cluster of each occupied slot, all ones for a free one (15 R371). -/
def Launch.directory (x : Launch) : List Byte :=
  (List.range x.nslot).flatMap fun i =>
    match x.images.find? fun q => q.2.used && q.2.slot == i with
    | some (k, _) => natBytes k 8
    | none => List.replicate 8 (BitVec.allOnes 8)

def State.writeDirectory (s : State) (l : Nat) : State :=
  let x := s.launchD l
  let d := x.directory
  (State.areaWrite x.asid (d.length / 512 + 1) x.desc.ctxbase.toNat d s).dropCopies x.asid x.desc.ctxbase.toNat d.length true

/-- Write the image of a saved cluster into the lowest free slot. -/
def State.writeImage (l : Nat) (s : State) (k : Nat) : State :=
  let x := s.launchD l
  match (List.range x.nslot).find? fun i => !(x.images.any fun q => q.2.used && q.2.slot == i) with
  | none => s
  | some i =>
    let g := match kget? x.images k with | some (m : Image) => m.gen + 1 | none => 1
    let img := s.clusterImage l k g
    let s1 := (State.areaWrite x.asid (img.length / 512) (x.slotAddr i) img s).dropCopies x.asid (x.slotAddr i) img.length true
    s1.modLaunch l fun y => { y with images := kput y.images k { gen := g, slot := i, used := true } }

/-- Write the images of saved clusters, then the directory. -/
def State.writeImages (s : State) (l : Nat) (ks : List Nat) : State := (ks.foldl (State.writeImage l) s).writeDirectory l

/-- The slot of a restored cluster is free again. -/
def State.freeSlots (s : State) (l : Nat) (ks : List Nat) : State :=
  (s.modLaunch l fun y =>
    { y with images := kmap y.images fun k (m : Image) => if ks.contains k then { m with used := false } else m }).writeDirectory l

/-! ## The checks of a restore (15 R370) -/

/-- Whether entries of a split table pass: their codes, their lanes, their reserved bits. -/
def splitsOk (l : List Nat) : Bool :=
  (l.all fun x => !(decide (9 ≤ nbits x 152 4) && decide (nbits x 152 4 ≤ 14)) && decide (nbits x 156 4 ≤ 7)
      && nbits x 149 3 == 0 && nbits x 256 256 == 0)
    && (l.foldl (fun (a : Nat × Bool) x => (a.1 ||| nbits x 64 32, a.2 && (a.1 &&& nbits x 64 32) == 0)) (0, true)).2

/-- Whether the home of a line holds an entry for a warp, as its holder or in its queue (12 R311). -/
def State.lockMatches (s : State) (wid line : Nat) (held : Bool) : Bool :=
  let e := s.lockEntry (s.lockHome wid line) line
  if held then e.holder == some wid else e.queue.any fun q => q.key == wid

/-- The entries of a warp's split table in the images of the warp and of the local store. -/
def tableBits (img ls : List Byte) (alloc wblk : Nat) : List Nat :=
  ((List.range 8).map fun i => imageAt img (0x280 + 32 * i) 32)
    ++ (List.range 24).map fun i => imageAt ls (alloc - 1536 * (wblk + 1) + 64 * i) 64

/-- The address space of a warp. -/
def State.warpAsid (s : State) (wid : Nat) : Nat := (s.launchD (s.blockOf wid).launch).asid

/-- Where the held accesses of a warp begin in its image, and how many records there are room for. -/
def heldOfs (budget : Nat) : Nat := 0x500 + 128 * budget
abbrev heldRoom : Nat := 1365

/-- The count word of the held accesses of a warp's image. -/
def heldCount (img : List Byte) (budget : Nat) : Nat := min heldRoom (imageAt img (heldOfs budget + 65520) 8)

/-- Whether a warp's image passes. A lane that a mask register names is live (05 R123), and must lie in a split. -/
def State.warpImageOk (s : State) (img ls : List Byte) (alloc wid : Nat) (w : Warp) : Bool :=
  let t := tableBits img ls alloc w.wblk
  let lanes := t.foldl (fun a x => a ||| nbits x 64 32) 0
  let masks := (List.range 8).foldl (fun a i => a ||| imageAt img (0x240 + 4 * i) 4) 0
  splitsOk t && masks ||| lanes == lanes && imageAt img 0x238 8 == 0 && imageAt img 56 8 == 0
    && ((List.range (heldCount img w.budget)).all fun i => nbits (imageAt img (heldOfs w.budget + 48 * i) 48) 138 118 == 0)
    && (List.range 4).all fun i =>
      let x := imageAt img (0x380 + 16 * i) 16
      nbits x 62 2 == 0 && nbits x 101 27 == 0
        && (nbits x 58 1 == 0 || s.lockMatches wid (s.warpAsid wid * 2 ^ 57 + nbits x 0 57) (nbits x 57 1 == 1))

/-- Whether a barrier, a descriptor and an engine record have no reserved bit set (15 R372, 01 R24, 08 R219, R225). -/
def blockImageOk (img : List Byte) (works : List (Nat × Work)) : Bool :=
  ((List.range 48).all fun i => nbits (imageAt img (0x240 + 8 * i) 8) 24 8 == 0) && imageAt img 0x3C0 64 == 0
    && ((List.range 16).all fun i => let x := imageAt img (0x140 + 16 * i) 16; nbits x 27 5 == 0 && nbits x 71 9 == 0 && nbits x 123 4 == 0)
    && (List.zip (List.range works.length) works).all fun q =>
      let x := imageAt img (0x400 + 64 * q.1) 64
      if q.2.2.kind.isHod then nbits x 453 59 == 0 else nbits x 487 9 == 0

/-! ## The fields that a restore takes (15 R370: an image changed in a way that passes is restored as changed) -/

/-- A warp from its image. What identifies it stays: WBLK, STAGE, WIDX, budget and key. -/
def warpOfImage (img ls : List Byte) (alloc asid : Nat) (w0 : Warp) : Warp :=
  let w := w0.restoreSet
  let n (o k : Nat) : Nat := imageAt img o k
  { w with
    epoch := BitVec.ofNat 16 (n 32 8), whole := true, ckpts := []
    sc := (List.range 63).map fun i => (i, BitVec.ofNat 64 (n (0x40 + 8 * i) 8))
    m := (List.range 8).map fun i => (i, BitVec.ofNat 32 (n (0x240 + 4 * i) 4))
    seed := BitVec.ofNat 64 (n 0x260 8), fstat := BitVec.ofNat 64 (n 0x268 8), pfr := failOfBits (n 0x270 8)
    table := (List.zip (List.range 32) (tableBits img ls alloc w.wblk)).filterMap fun q =>
      (splitOfBits (kget? w.table q.1) q.2).map fun p => (q.1, p)
    locks := (List.range 4).filterMap fun i =>
      let x := n (0x380 + 16 * i) 16
      if nbits x 58 1 = 0 then none
      else
        some { w.locks.getD i default with
          line := asid * 2 ^ 57 + nbits x 0 57, held := nbits x 57 1 == 1, live := true, scope := nbits x 59 3, tleft := nbits x 64 32 }
    arrSet := ((List.range 48).map fun i => (i, BitVec.ofNat 32 (n (0x3C0 + 4 * i) 4))).filter fun q => q.2 != 0
    tags := (List.range w.budget).map fun i => (i, BitVec.ofNat 4 (n (0x480 + i / 2) 1 / 16 ^ (i % 2)))
    v := (List.range (32 * w.budget)).map fun i => (i, BitVec.ofNat 32 (n (0x500 + 4 * i) 4)) }

/-- A held access from the record of its first lane, and the operands of an atomic from the records of its lanes. -/
def reqOfRecords (recs : List Nat) (r : Req) : Req :=
  { r with
    va := BitVec.ofNat 64 (nbits (recs.headD 0) 64 64)
    data := if r.kind = .store then natBytes (nbits (recs.headD 0) 256 128) r.data.length else r.data
    opnds := r.opnds.map fun o =>
      match recs.find? fun x => nbits x 128 5 == o.1 with
      | some x => (o.1, BitVec.ofNat 64 (nbits x 256 64), BitVec.ofNat 64 (nbits x 320 64))
      | none => o }

/-- The held accesses of a warp from the `count` records of its image, in their order there. -/
def reqsOfImage (img : List Byte) (base count : Nat) : List (Nat × Req) → List (Nat × Req)
  | [] => []
  | (id, r) :: rest =>
    let n := (lanesOf r.lanes).length
    if count < n then []
    else
      (id, reqOfRecords ((List.range n).map fun i => imageAt img (base + 48 * i) 48) r)
        :: reqsOfImage img (base + 48 * n) (count - n) rest

/-- Take the held accesses of a warp from its image: those whose records the count word leaves out are dropped, with their results. -/
def State.loadHeld (s : State) (img : List Byte) (wid : Nat) : State :=
  let old := s.heldAccesses wid
  let budget := (s.warpD wid).budget
  let new := reqsOfImage img (heldOfs budget) (heldCount img budget) old
  let gone := old.drop new.length
  let s1 := gone.foldl (fun s q => q.2.regs.foldl (fun s k => s.dropMem wid k q.2.lanes) { s with reqs := kdel s.reqs q.1 }) s
  { s1 with reqs := kputs s1.reqs new }

/-- A hod command or a task from its record. -/
def workOfRecord (x : Nat) (e : Work) : Work :=
  let f (lo n : Nat) : Nat := nbits x lo n
  if e.kind.isHod then
    { e with td1 := BitVec.ofNat 128 (f 0 128), td2 := if e.kind = .cpyLocal then BitVec.ofNat 128 (f 128 128) else e.td2
             a := BitVec.ofNat 64 (f 256 64), b := if e.kind = .gather ∨ e.kind = .scatter then e.b else BitVec.ofNat 64 (f 320 64)
             cnt := f 387 5, scope := f 392 3, inc := f 395 16, stofs := f 411 27, sten := f 438 1 == 1, next := f 439 9 }
  else
    { e with td1 := BitVec.ofNat 128 (f 0 128), td2 := BitVec.ofNat 128 (f 128 128)
             td3 := if e.kind = .taskCvt then e.td3 else BitVec.ofNat 128 (f 256 128)
             a := BitVec.ofNat 64 (f 416 32 + 2 ^ 32 * f 387 5 + 2 ^ 63 * f 386 1), cnt := f 392 5, scope := f 397 3, inc := f 400 16
             stofs := f 448 27, sten := f 475 1 == 1, next := f 478 4, etmp := (BitVec.ofNat 16 (f 496 16)).toInt }

/-- A block from its image. What identifies it stays: its coordinates, warp count and allocation. -/
def blockOfImage (img ls full : List Byte) (b : Block) : Block :=
  let n (o k : Nat) : Nat := imageAt img o k
  let r := n 0x20 8
  { b with
    rrec := { causes := BitVec.ofNat 8 (nbits r 0 8), count := nbits r 8 16, pkg := nbits r 24 9, die := nbits r 33 7, has := nbits r 40 1 == 1 }
    counters := (List.range 32).map fun i => (i, BitVec.ofNat 64 (n (0x40 + 8 * i) 8))
    descs := (List.range 16).map fun i =>
      let d := BitVec.ofNat 128 (n (0x140 + 16 * i) 16)
      (i, { (kgetD b.descs i default) with val := d, prev := d })
    bars := (List.range 48).map fun i =>
      let x := n (0x240 + 8 * i) 8
      (i, { (b.bar i) with phase := BitVec.ofNat 16 (nbits x 0 16), count := nbits x 16 6, blockArr := nbits x 22 1 == 1
                           arrived := popc (BitVec.ofNat 32 (nbits x 32 32)) })
    ls := ((List.zip (List.range b.usable) ls).filter fun q => q.2 != 0)
    full := (List.range (b.alloc / 16)).filter fun g => (full.getD (g / 8) 0).getLsbD (g % 8) }

/-- Check the image of a block, and restore the fields that it changes; none when the image is refused. -/
def State.loadBlock (s : State) (img : List Byte) (bid : Nat) (b : Block) (k : KernelRec) : Option State :=
    let ws := k.warpList.map fun q => wsize q.2.2.1
    let lsOfs := 0x5400 + ws.foldl (· + ·) 0
    let ls := (img.drop lsOfs).take b.alloc
    let full := img.drop (lsOfs + b.alloc)
    let works := s.savedWorks bid
    let place (i : Nat) : Nat := 0x5400 + (ws.take i).foldl (· + ·) 0
    let wimg (w : Nat) : List Byte := (img.drop (place (w % 32))).take (ws.getD (w % 32) 0)
    if !blockImageOk img works || (s.warpsOf bid).any fun w => !s.warpImageOk (wimg w) ls b.alloc w (s.warpD w) then none
    else if img = s.blockImage bid b k then some s
    else
      let s1 := (s.warpsOf bid).foldl (fun s w =>
        (s.loadHeld (wimg w) w).modWarp w (warpOfImage (wimg w) ls b.alloc (s.warpAsid w))) s
      let s2 := (List.zip (List.range works.length) works).foldl (fun s q =>
        { s with works := kput s.works q.2.1 (workOfRecord (imageAt img (0x400 + 64 * q.1) 64) q.2.2) }) s1
      some (s2.modBlock bid (blockOfImage img ls full))

/-- Restore the fields of a cluster that its image changes. -/
def State.loadBlocks (img : List Byte) (k : KernelRec) : List (Nat × Block) → State → Option State
  | [], s => some s
  | (bid, b) :: rest, s =>
    match s.loadBlock ((img.drop (256 + b.rank * k.blkSize)).take k.blkSize) bid b k with
    | none => none
    | some s1 => State.loadBlocks img k rest s1

/-- Take the cluster barriers of a changed image: the phase, and whether a release is latched. The number of blocks arrived is that of the
blocks' own bits (log 45). -/
def State.loadCbar (s : State) (l k : Nat) (bs : List (Nat × Block)) (num x : Nat) : State :=
  if x = s.cbarBits l k bs num then s
  else
    let s1 := bs.foldl (fun s q => s.modBlock q.1 fun b =>
      { b with bars := kput b.bars (16 + num) { (b.bar (16 + num)) with phase := BitVec.ofNat 16 (nbits x 0 16) } }) s
    if nbits x 24 1 = 0 then
      { s1 with phases := s1.phases.filter fun f => !(f.2.launch == l && f.2.cluster == some k && f.2.num == num && f.2.told) }
    else if s.latched l (some k) num then s1
    else
      let f : Phase := { launch := l, cluster := some k, num := num, root := s.clk, excused := false, pkgs := [], told := true, dies := [] }
      { s1 with phases := kput s1.phases s1.nextId f, nextId := s1.nextId + 1 }

/-- Take the header of a cluster's image (15 R372). -/
def State.loadHeader (s : State) (l k : Nat) (m : Image) (img : List Byte) : State :=
  let bs := s.savedBlocks l k
  let s1 := (List.range 16).foldl (fun s n => s.loadCbar l k bs n (imageAt img (16 + 8 * n) 8)) s
  s1.modLaunch l fun y => { y with images := kput y.images k { m with gen := imageAt img 8 8 } }

/-- Check the images of a launch, and take what they hold; none when one is refused. -/
def State.loadImages (l : Nat) : List Nat → State → Option State
  | [], s => some s
  | k :: rest, s =>
    let x := s.launchD l
    match kget? x.images k with
    | none => State.loadImages l rest s
    | some m =>
      let img := s.areaRead x.asid (x.desc.kern.slotSize / 512) (x.slotAddr m.slot)
      let head := imageAt img 0 8
      if nbits head 37 27 ≠ 0 ∨ imageAt img 0x90 112 ≠ 0 ∨ (List.range 16).any fun n => nbits (imageAt img (16 + 8 * n) 8) 25 39 != 0 then none
      else
        match State.loadBlocks img x.desc.kern (s.savedBlocks l k) s with
        | none => none
        | some s1 => State.loadImages l rest (s1.loadHeader l k m img)

end Sys2Proof.Machine
end

