-- ==== Sys2Proof/Machine/Preempt.lean ====
section
/-! DEFINITION. Pre-emption (09 R250 to R253, 10 R270 to R272, 15 R368 to R370): the halt of warps, their capture, the save
and the restore of clusters. A saved cluster keeps its blocks and warps, marked saved and captured (log 30). -/

namespace Sys2Proof.Machine

/-! ## The halt -/

/-- Whether a split is in a wait state (01 R34). -/
def Split.inWait (p : Split) : Bool :=
  p.st == .lockWait || p.st == .barWait || p.st == .cntWait || p.st == .joinWait || p.st == .feWait || p.st == .faulted

/-- Whether a HALTW has stopped a split: a READY one of its warp stops at its next issue boundary (08 R235). -/
def Warp.haltsAt (w : Warp) (p : Split) : Bool := w.stopped && p.st == .ready && p.len == 0

/-- A halt request reaches a warp (09 R250): splits in wait states, dormant ones and those that a HALTW has stopped halt, with the
whole allocation. -/
def Warp.haltAt (w : Warp) (clk : Nat) : Warp :=
  let stops (p : Split) : Bool := p.inWait || p.st == .dormant || w.haltsAt p
  { w with
    haltH := clk + 1
    whole := w.whole || w.table.any fun t => stops t.2
    table := kmap w.table fun _ (p : Split) => { p with halted := p.halted || stops p } }

/-- The splits of a warp under a halt request that a HALTW stops after the request (08 R235, 09 R250): they halt, with the whole
allocation. -/
def Warp.haltStopped (w : Warp) : Warp :=
  if w.haltH ≠ 0 ∧ w.table.any fun t => w.haltsAt t.2 && !t.2.halted then
    { w with whole := true, table := kmap w.table fun _ (p : Split) => { p with halted := p.halted || w.haltsAt p } }
  else w

/-- The warps of a launch on a core that live and are resident. -/
def State.warpsOn (s : State) (l ck : Nat) : List Nat :=
  (s.warps.filter fun q => !q.2.ended && (let b := s.blockD q.2.block; b.launch == l && b.ck == ck && b.resident)).map (·.1)

/-- Whether a block's die is updated, or one on which its co-resident launch, which is halted whole, has a block (16 R395, 10 R269). -/
def State.updating (s : State) (b : Block) : Bool :=
  (s.die b.dk).update.isSome || ((s.launchD b.launch).desc.cores &&
    s.blocks.any fun q => q.2.launch == b.launch && !q.2.saved && (s.die q.2.dk).update.isSome)

/-- HALT_REQUEST_ARRIVAL (09 R250, 15 R368). -/
def execHaltRequestArrival (l pkg die core : Nat) (s : State) : Out :=
  let ck := 48 * (128 * pkg + die) + core
  if (s.launchD l).halting || s.blocks.any fun q => q.2.launch == l && q.2.ck == ck && s.updating q.2 then
    .next ((s.warpsOn l ck).foldl (fun s w => s.modWarp w fun x => if x.haltH = 0 then x.haltAt s.clk else x) s)
  else .next s

/-- CHECKPOINT_BUDGET_EXPIRY (09 R252): splits that have not halted stop, and the whole context is saved. -/
def execCheckpointBudgetExpiry (w : Nat) (s : State) : Out :=
  match s.warp? w with
  | none => .next s
  | some x =>
    if x.haltH = 0 ∨ s.clk + 1 < x.haltH + 4800 ∨ x.captured ∨ x.table.all fun t => t.2.halted then .next s
    else .next (s.modWarp w fun x =>
      { x with whole := true, table := kmap x.table fun _ (p : Split) => { p with halted := true } })

/-- Whether the engine work of a launch on a core has reached its save points (08 R216): no line in flight, no running task. -/
def State.workAtRest (s : State) (l ck : Nat) : Bool :=
  (s.coreWork ck fun k => k.isHod || k.isTask).all fun q =>
    (s.blockD q.2.block).launch != l ||
      (q.2.phase != .finished && q.2.lines.isEmpty && !(q.2.kind.isTask && q.2.phase == .running))

/-- Whether the halt of a launch on a core is complete (09 R252). -/
def State.haltDone (s : State) (l ck : Nat) : Bool :=
  ((s.warpsOn l ck).all fun w => (s.warpD w).allHalted) && s.workAtRest l ck

/-- A split at its capture: one whose instruction still waits for earlier results of its span has not performed it, and is
saved at its PC (07 R201, 09 R253). -/
def State.captureSplit (s : State) (wid : Nat) (t : Nat × Split) : State :=
  if t.2.eff = .spanPark then (s.dropAfter wid t.2).modSplit wid t.1 fun p => { p with after := .none, moving := false }
  else s.modSplit wid t.1 fun p => { p with moving := false }

/-- WARP_CAPTURE (09 R252): the warp is absent from this clk. Its block's hod command goes back to its record (08 R219). -/
def execWarpCapture (w : Nat) (s : State) : Out :=
  match s.warp? w with
  | none => .next s
  | some x =>
    let b := s.blockD x.block
    if x.captured || x.ended || x.haltH == 0 || !b.resident || !s.haltDone b.launch b.ck then .next s
    else
      let s1 := x.table.foldl (fun s t => s.captureSplit w t) s
      let s2 := s1.modWarp w fun y => { y with captured := true, moves := [], swapPend := false, movedAt := s.clk }
      .next { s2 with works := kmap s2.works fun _ (e : Work) =>
        if e.block = x.block ∧ e.kind.isHod ∧ e.phase = .running then { e with phase := .forked } else e }

/-! ## The save -/

/-- A packet by its reference: queue + 4096 * index. -/
def State.packetOf (s : State) (p opc : Nat) : Option Packet :=
  (s.queueD (p % 4096)).active.find? fun x => x.idx == p / 4096 && x.opc == opc

/-- The launch that records of a PREEMPT or RESUME name. -/
def State.packetLaunch (s : State) (x : Packet) : Nat := if wf x.w1 0 2 = 0 then wf x.w2 0 16 else s.noLaunch

/-- Warps of the launches of a packet that live in resident blocks. -/
def State.haltWarps (s : State) (x : Packet) : List Nat :=
  (s.warps.filter fun q => !q.2.ended && (let b := s.blockD q.2.block; b.resident && x.launches.contains b.launch)).map (·.1)

/-- HALT_COMPLETE (15 R368 step 4): every warp of the chosen launches is captured; KIND 4. -/
def execHaltComplete (p : Nat) (s : State) : Out :=
  match s.packetOf p 8 with
  | none => .next s
  | some x =>
    if x.step ≠ 0 ∨ (s.haltWarps x).any fun w => !(s.warpD w).captured then .next s
    else
      let s1 := s.modQueue (p % 4096) fun q =>
        { q with active := q.active.map fun (y : Packet) => if y.idx = x.idx then { y with step := 4 } else y }
      .next ({ s1 with free := s1.free + 1 }.postEvent (p % 4096) evHalted esDone x.tag (s.packetLaunch x) 0 0)

/-- Whether nothing of a captured warp is on its way (09 R252, 08 R216): only held accesses, waits of full-empty accesses and
waits for locks remain. -/
def State.quiet (s : State) (wid : Nat) : Bool :=
  (s.reqs.all fun q => !q.2.from wid || q.2.phase == .faulted || q.2.phase == .done || (q.2.isPosted && q.2.stage == 6)
      || ((q.2.kind == .lock || q.2.kind == .lockTry) && q.2.phase == .applied))
    && (s.fes.all fun q => q.2.wid != wid || q.2.waits)
    && (s.posts.all fun q => q.2.wid != wid)
    && (s.grants.all fun q => q.2.wid != wid)
    && (s.withdraws.all fun q => q.2.wid != wid)
    && ((s.warpD wid).arrPend.isEmpty && ((s.warpD wid).results.all fun q => q.2.done || (q.2.mem && q.2.coming.isEmpty))
      && (s.warpD wid).table.all fun t => t.2.eff != .spanPark || (s.warpD wid).outstanding t.2)

/-- Whether a save takes a block (10 R271): one of its warps has been captured. A block whose warps have all ended retires. -/
def State.toSave (s : State) (l : Nat) (q : Nat × Block) : Bool :=
  q.2.launch == l && q.2.resident && (s.warpsOf q.1).any fun w => (s.warpD w).captured && !(s.warpD w).ended

/-- Whether the write-back of a launch's images may end: every write of the warps and of the engine work of its captured blocks has been
acknowledged or has failed, and their kiln requests and sends have joined (15 R368 step 5, 08 R216). -/
def State.saveReady (s : State) (l : Nat) : Bool :=
  (s.blocks.filter (s.toSave l)).all fun q =>
    ((s.warpsOf q.1).all fun w => (s.warpD w).ended || s.quiet w)
      && (s.works.all fun e => e.2.block != q.1 || e.2.kind.isHod || e.2.kind.isTask)
      && s.reqs.all fun r => (s.warpD r.2.wid).block != q.1 || !r.2.isPosted || r.2.stage == 6

/-- The clusters of a launch that a save takes. -/
def State.halted (s : State) (l : Nat) : List Nat :=
  (s.blocks.filter (s.toSave l)).foldl (fun a q => ninsert a q.2.cluster) []

/-- The clusters of a launch that no die has placed. -/
def Launch.pending (x : Launch) : Nat := x.pend.foldl (fun a q => a + q.2.length) 0

/-- Save a launch: its clusters leave their sites, its grid wires go (15 R368 step 5, 11 R284). -/
def State.saveLaunch (s : State) (l : Nat) : State :=
  let x := s.launchD l
  let ks := s.halted l
  let mine := s.blocks.filter (s.toSave l)
  let s1 := if !x.desc.kern.fuse then s else
    mine.foldl (fun s q => (q.2.l1s x.desc.kern).foldl (fun s p => s.flushL1 p x.asid false true) s) s
  let s2 : State := { s1 with
    blocks := kmap s1.blocks fun i (b : Block) => if mine.any fun q => q.1 == i then { b with resident := false, saved := true } else b }
  ((s2.freeWires l).modLaunch l fun y => { y with halting := false, saved := true }).writeImages l ks

/-- Resume a saved launch (15 R370): its images are checked and read; a refused image aborts it. -/
def State.resumeLaunch (s : State) (l : Nat) : State :=
  match State.loadImages l (s.savedClusters l) s with
  | some s1 => s1.modLaunch l fun x => { x with saved := false }
  | none => (s.modLaunch l fun x => { x with badImage := true }).abortLaunch l

/-- Whether a RESUME that started during the save of a launch waits for it (log 47). -/
def State.resumeWaits (s : State) (l : Nat) : Bool :=
  s.queues.any fun q => q.2.active.any fun p => p.opc == 9 && p.launches.contains l

/-- SAVE_COMPLETE (15 R368 step 5): the images are complete, the sites are free, KIND 5 carries the counts, the packet
completes. -/
def execSaveComplete (p : Nat) (s : State) : Out :=
  match s.packetOf p 8 with
  | none => .next s
  | some x =>
    if x.step ≠ 4 ∨ x.launches.any fun l => !s.saveReady l then .next s
    else
      let ls := x.launches.filter fun l => (s.launchD l).halting
      let saved := ls.foldl (fun a l => a + (s.halted l).length) 0
      let left := ls.foldl (fun a l => a + (s.launchD l).pending) 0
      let s1 := ls.foldl State.saveLaunch s
      let n := s.packetLaunch x
      let s2 := { s1 with free := s1.free + 1 }.postEvent (p % 4096) evSaved esDone x.tag n 0 (2 ^ 32 * saved + 2 ^ 64 * left)
      let s3 := s2.completePacket (p % 4096) x.idx esDone n
      .next ((ls.foldl (fun s l => if s.resumeWaits l then s.resumeLaunch l else s) s3).resumeCheck)

/-! ## The restore -/

/-- A warp at its restore, in its new place. -/
def Warp.restored (w : Warp) (place : Nat × Nat) (clk : Nat) : Warp :=
  { w.restoreSet with
    part := place.1 / 2, half := place.1 % 2, wslot := place.2, haltH := 0, ckpts := [], whole := false, captured := false
    epochClk := clk, movedAt := clk, lastLead := 7
    table := kmap w.table fun _ (p : Split) =>
      { p with halted := false, notBefore := max clk p.notBefore
               after := if p.eff = .spanPark then .none else if p.st = .dormant ∧ p.held = .ready ∧ p.len ≠ 0 then .ended else p.after
               st := if p.st = .ready ∧ p.len ≠ 0 then .spanPark else p.st } }

/-- Move a saved block to a core: its warps take places there. -/
def State.moveBlock (s : State) (bid : Nat) (b : Block) (ck : Nat) : Option State :=
  match s.fitBlock ck (s.launchD b.launch).desc.kern with
  | none => none
  | some (bank, places) =>
    let s1 := s.modBlock bid fun b =>
      { b with pkg := ck / 48 / 128, die := ck / 48 % 128, core := ck % 48, bank := bank, saved := false, resident := true }
    let s2 := s1.excuse ck clusterWire (s1.core ck).dead
    let s2 := { s2 with works := kmap s2.works fun _ (e : Work) => if e.block = bid ∧ e.phase = .stopped then { e with phase := .forked } else e }
    some ((s1.warpsOf bid).foldl (fun s w => s.modWarp w fun x =>
      let place := places.getD x.wblk (0, 0)
      if x.captured then x.restored place s.clk else { x with part := place.1 / 2, half := place.1 % 2, wslot := place.2 }) s2)

/-- Move the blocks of a saved cluster to a site. -/
def State.moveAll (dk shape origin : Nat) : List (Nat × Block) → State → Option State
  | [], s => some s
  | (bid, b) :: rest, s =>
    match s.moveBlock bid b (48 * dk + siteCore shape origin b.rank) with
    | none => none
    | some s1 => State.moveAll dk shape origin rest s1

/-- Place saved clusters, in ascending order (10 R272), counting whether each runs at home (R266); none when one does not fit. -/
def State.moveClusters (l : Nat) : List Nat → State → Option State
  | [], s => some s
  | k :: rest, s =>
    let x := s.launchD l
    match s.coSite x (s.clusterHome x k) with
    | none => none
    | some (dk, o) =>
      match State.moveAll dk x.desc.kern.shape o (s.savedBlocks l k) s with
      | none => none
      | some s1 => State.moveClusters l rest (s1.count dk (if s.clusterHome x k = dk then tcHomed else tcStolen))

/-- What follows a restore before the first issue (07 R179, R186, R207): parked splits settle, waiters are tested again. -/
def State.wakeRestored (s : State) (bid : Nat) : State :=
  let ws := s.warpsOf bid
  let s1 := ws.foldl (fun s w =>
    (s.warpD w).table.foldl (fun s (t : Nat × Split) => if t.2.eff = .spanPark ∨ t.2.eff = .faulted then s.settle w t.1 else s) s) s
  let gs := (s1.fes.filter fun q => ws.contains q.2.wid && q.2.waiting).foldl (fun a q => ninsert a q.2.granule) []
  let s2 := gs.foldl (fun s g => s.feWake bid g) s1
  let s3 := (List.range 32).foldl (fun s n => s.counterCheck bid n) s2
  ws.foldl (fun s w => s.keptAnswers (s.blockD bid).launch w) s3

/-- A released phase goes to the dies of the launch's new sites (12 R320). -/
def State.rewire (s : State) (l k : Nat) : State :=
  { s with phases := kmap s.phases fun _ (f : Phase) =>
      let here := match f.cluster with | some c => c == k | none => true
      if f.launch == l && here && f.told then
        { f with dies := (s.partBlocks l (match f.cluster with | some c => c + 1 | none => 0)).foldl (fun a q => ninsert a q.2.dk) [] }
      else f }

/-- CLUSTER_RESTORE (10 R272, 12 R319): a saved cluster restarts on a free site, a co-resident launch on all of its sites at
once, with its grid region as it then lies. -/
def execClusterRestore (l k : Nat) (s : State) : Out :=
  match s.launch? l with
  | none => .next s
  | some x =>
    let ks := if x.desc.cores then s.savedClusters l else [k]
    if !x.dealing || (s.savedBlocks l k).isEmpty || (x.desc.cores && s.wireBusy l x) then .next s
    else
      match State.moveClusters l ks s with
      | none => .next s
      | some s1 =>
        let back (q : Nat × Block) : Bool := q.2.launch == l && ks.contains q.2.cluster && q.2.resident
        let s2 := (s1.blocks.filter back).foldl (fun s q => ((s.warpsOf q.1).foldl (fun s w => s.acquire w 5) s).wakeRestored q.1) s1
        let s3 := ks.foldl (fun s k => s.rewire l k) s2
        let s4 := if x.desc.cores then s3.takeWires l else s3
        .next (s4.freeSlots l ks).resumeCheck

end Sys2Proof.Machine
end

