-- ==== Sys2Proof/Machine/Validate.lean ====
section
/-! DEFINITION. Packets and the validator (15 R355 to R359): reading a packet, a launch descriptor, a kernel record and a queue
descriptor; the checks, in their order. -/

namespace Sys2Proof.Machine

/-! ## Reading -/

/-- Little-endian 64-bit words of some bytes. -/
def wordsFrom (n : Nat) (l : List Byte) : List Word := (List.range n).map fun i => BitVec.ofNat 64 (bytesNat ((l.drop (8 * i)).take 8))

/-- Opcodes (15 R357). -/
abbrev pkNop : Nat := 0
abbrev pkLaunch : Nat := 1
abbrev pkArm : Nat := 2
abbrev pkDisarm : Nat := 3
abbrev pkWaitmem : Nat := 4
abbrev pkSignalmem : Nat := 5
abbrev pkPreempt : Nat := 8
abbrev pkResume : Nat := 9
abbrev pkAbort : Nat := 10
abbrev pkQctl : Nat := 11
abbrev pkSteer : Nat := 12

/-- The words of the packet at the head of a queue; the ring lies in the driver's address space (15 R355). -/
def State.headWords (s : State) (x : Queue) : List Word :=
  wordsFrom 8 (s.feRead s.drvAsid (x.ring.toNat + 64 * (x.qhead % 2 ^ x.rlog)) 64)

/-- A kernel record (03 R72). -/
def kernelOf (l : List Byte) : KernelRec :=
  let x := bytesNat (l.take 64)
  { nstg := nbits x 32 2, shape := nbits x 34 2, fuse := nbits x 36 1 == 1, narg := nbits x 40 9, nckpt := nbits x 49 15
    local_ := nbits x 64 27, ckofs := nbits x 384 64
    stages := (List.range (nbits x 32 2 + 1)).map fun i =>
      (nbits x (128 + 64 * i) 48, nbits x (176 + 64 * i) 5 + 1, 8 * (nbits x (181 + 64 * i) 5 + 1)) }

/-- Code length of a kernel record, in words. -/
def codeLen (l : List Byte) : Nat := bytesNat (l.take 4)

/-- A launch descriptor (15 R358) with its kernel record. -/
def launchDescOf (x : Nat) (k : KernelRec) : LaunchDesc :=
  let w (lo : Nat) : Word := BitVec.ofNat 64 (nbits x lo 64)
  { krec := w 0, code := w 64, args := w 128, gx := nbits x 192 32, gy := nbits x 224 16, gz := nbits x 240 16, pbase := w 256
    pstride := w 320, lseed := w 384, rscope := nbits x 448 3, cores := nbits x 451 1 == 1, debug := nbits x 452 1 == 1
    even := BitVec.ofNat 5 (nbits x 453 5), irq := nbits x 458 1 == 1, pset := w 512, ctxbase := w 576, ctxsize := w 640
    gbind := BitVec.ofNat 80 (nbits x 704 80), kern := k }

/-- The package set that a descriptor names at a clk (15 R358). -/
def State.psetOf (s : State) (asid : Nat) (d : LaunchDesc) : List Nat :=
  if d.pset = 0 then (List.range 512).filter fun p => s.pkgLive p
  else
    let m := s.feNat asid d.pset.toNat 64
    (List.range 512).filter fun p => m.testBit p

/-! ## Sizes of the context area (15 R371) -/

/-- The number of slots: sites of the shape on the live dies of the package set. -/
def State.nslot (s : State) (k : KernelRec) (pset : List Nat) : Nat :=
  (siteOrigins k.shape).length * pset.foldl (fun a p => a + (s.liveDies p).length) 0

/-! ## The checks -/

/-- The bits of words 1 to 7 that a packet of an opcode may set (15 R357). -/
def bodyMask (opc : Nat) : List Nat :=
  let all := 2 ^ 64 - 1
  match opc with
  | 1 => [all]
  | 2 => [all, 2 ^ 26 - 1, all, 2 ^ 24 - 1]
  | 3 => [0, 2 ^ 26 - 1]
  | 4 => [all, all, all, 7]
  | 5 => [all, all, 1]
  | 8 | 9 | 10 => [3, all]
  | 11 => [2 ^ 12 - 1, 7, all]
  | 12 => [0x3F03, 0x81FFFFFFFFFFFFFF, all, all]
  | _ => []

/-- The first word of a packet with a reserved bit set. -/
def packetRes (l : List Word) (opc : Nat) : Option Word :=
  let masks := 0xFFFFFFFF000003FF :: bodyMask opc
  ((List.range 8).map fun i => (l.getD i 0, masks.getD i 0)).findSome? fun q =>
    if q.1 &&& ~~~(BitVec.ofNat 64 q.2) ≠ 0 then some q.1 else none

/-- Reserved fields of a descriptor: the first word that holds a reserved bit that is set. -/
def descRes (x : Nat) (fields : List (Nat × Nat)) : Option Word :=
  (fields.find? fun f => nbits x f.1 f.2 != 0).map fun f => BitVec.ofNat 64 (nbits x (f.1 / 64 * 64) 64)

def launchRes : List (Nat × Nat) := [(459, 53), (784, 240), (1024, 1024)]
def queueRes : List (Nat × Nat) := [(73, 7), (126, 2), (197, 59), (325, 59), (451, 61)]

/-- Whether an address lies with its extent in one range entry with a permission: r, w, x. -/
def Queue.allows (x : Queue) (a : Word) (n : Nat) (r w e : Bool) : Bool :=
  n == 0 || x.ranges.any fun q =>
    decide (q.1.toNat ≤ a.toNat) && decide (a.toNat + n ≤ q.1.toNat + 4096 * q.2.1)
      && (!r || q.2.2.1) && (!w || q.2.2.2.1) && (!e || q.2.2.2.2)

/-- An address of a packet: where, extent, read, write, execute. -/
abbrev Need := Word × Nat × Bool × Bool × Bool

/-- The checks 5 and 7 to 9 of a launch descriptor (15 R359): cause and value. -/
def State.launchChecks (s : State) (d : LaunchDesc) (asid : Nat) : List (Bool × Nat × Nat) :=
  let k := d.kern
  let bound := (List.range 16).filter fun n => d.gbind.getLsbD (5 * n + 4)
  let wires := bound.map fun n => nbits d.gbind.toNat (5 * n) 4
  let warps := k.warpList.length
  [(d.code.toNat % 8 != 0, 5, d.code.toNat), (d.args.toNat % 64 != 0, 5, d.args.toNat), (d.gx == 0, 5, 0), (d.gy == 0, 5, 0)
  ,(d.gz == 0, 5, 0), (decide (d.rscope < 3) || decide (5 < d.rscope), 5, d.rscope)
  ,(d.ctxbase.toNat % 4096 != 0, 5, d.ctxbase.toNat)
  ,(decide (32 < warps) || decide (k.local_ < 1536 * warps) || decide (75497472 < k.local_), 6, d.krec.toNat)
  ,(d.gx % csizeOf k.shape != 0, 7, d.gx)
  ,(let n := s.nslot k (s.psetOf asid d); decide (d.ctxsize.toNat < 8 * n + n * k.slotSize), 8, d.ctxsize.toNat)
  ,(if d.cores then !(wires.all fun w => (wires.filter (· == w)).length == 1) else d.gbind != 0, 9, nbits d.gbind.toNat 0 64)]

/-- The launch descriptor of a packet, with its kernel record and the code length. -/
def State.readLaunch (s : State) (asid : Nat) (a : Word) : Nat × LaunchDesc × Nat :=
  let x := s.feNat asid a.toNat 256
  let rec_ := s.feRead asid (nbits x 0 64) 64
  (x, launchDescOf x (kernelOf rec_), codeLen rec_)

/-- The addresses that a launch descriptor names. -/
def LaunchDesc.needs (d : LaunchDesc) (a : Word) (len : Nat) : List Need :=
  [(a, 256, true, false, false), (d.krec, 64, true, false, false), (d.code, 8 * len, false, false, true)
  ,(d.args, 8 * d.kern.narg, true, false, false), (d.pset, if d.pset = 0 then 0 else 64, true, false, false)
  ,(d.ctxbase, d.ctxsize.toNat, true, true, false)]

/-- The key of an armed launch, from w2 of ARM and DISARM. -/
def armKey (w2 : Word) : Nat := 2 ^ 17 * wf w2 17 9 + wf w2 0 17

/-- Buffers and their length, from w4 of ARM. -/
def armBufs (w4 : Word) : Nat × Nat := (wf w4 0 16 + 1, 256 * (wf w4 16 8 + 1))

/-- The fields of a packet that are out of range (15 R357). -/
def State.fieldChecks (s : State) (opc : Nat) (l : List Word) : List (Bool × Nat × Nat) :=
  let w (i : Nat) : Word := l.getD i 0
  let bad (b : Bool) (i : Nat) : Bool × Nat × Nat := (b, 5, (w i).toNat)
  match opc with
  | 1 => [bad ((w 1).toNat % 256 != 0) 1]
  | 2 =>
    let pkg := wf (w 2) 17 9
    let full := decide (256 ≤ (s.armed.filter fun q => q.1 / 2 ^ 17 == pkg).length) && (kget? s.armed (armKey (w 2))).isNone
    [bad ((w 3).toNat % 256 != 0) 3, bad full 2]
  | 4 => [bad ((w 1).toNat % 8 != 0) 1, bad (decide (3 < wf (w 4) 0 3)) 4]
  | 5 => [bad ((w 1).toNat % 8 != 0) 1]
  | 8 | 9 =>
    let k := wf (w 1) 0 2
    [bad (k == 3) 1, bad (k == 0 && decide (65535 < (w 2).toNat) || k == 1 && decide (4095 < (w 2).toNat)) 2]
  | 10 => [bad (wf (w 1) 0 2 != 0) 1, bad (decide (65535 < (w 2).toNat)) 2]
  | _ => []

/-- A queue descriptor, as a number. -/
def State.readQueue (s : State) (a : Word) (asid : Nat) : Nat := s.feNat asid a.toNat 64

/-- The entries of a queue descriptor's range table (15 R355, R359). -/
def State.readRanges (s : State) (x : Nat) : List Nat :=
  (List.range (nbits x 448 3 + 1)).map fun i => s.feNat s.drvAsid (nbits x 384 64 + 16 * i) 16

/-- A range entry with a reserved bit set. -/
def rangeRes (l : List Nat) : Option Word := (l.find? fun r => nbits r 115 13 != 0).map fun r => BitVec.ofNat 64 (nbits r 64 64)

/-- Fields of a queue descriptor that are out of range (15 R355). -/
def queueChecks (x : Nat) : List (Bool × Nat × Nat) :=
  let page (lo : Nat) : Bool × Nat × Nat := (nbits x lo 64 % 4096 != 0, 5, nbits x lo 64)
  let log (lo hi : Nat) : Bool × Nat × Nat := (decide (nbits x lo 5 < 4) || decide (hi < nbits x lo 5), 5, nbits x lo 5)
  [page 0, log 64 20, (nbits x 124 2 == 3, 5, 3), page 128, log 192 16, page 256, log 320 16]

/-- The first failed check of a list. -/
def firstBad (l : List (Bool × Nat × Nat)) : Option (Nat × Nat) := (l.find? fun q => q.1).map fun q => q.2

/-- The first address that no range entry allows. -/
def Queue.rangeBad (x : Queue) (l : List Need) : Option (Nat × Nat) :=
  (l.find? fun q => !x.allows q.1 q.2.1 q.2.2.1 q.2.2.2.1 q.2.2.2.2).map fun q => (4, q.1.toNat)

/-- The validator's checks on the packet at the head of a queue (15 R359): the first cause with its value. -/
def State.validate (s : State) (x : Queue) (l : List Word) : Option (Nat × Nat) :=
  let w (i : Nat) : Word := l.getD i 0
  let opc := wf (w 0) 0 8
  let named := opc ≤ 5 || (8 ≤ opc && opc ≤ 12)
  if !named then some (1, opc)
  else if !x.opmask.getLsbD opc || (8 ≤ opc && !x.kq) then some (2, opc)
  else
    let create := opc == 11 && wf (w 2) 0 2 == 0
    let (raw, d, len) := s.readLaunch x.asid (w 1)
    let qd := s.readQueue (w 3) x.asid
    let launch := opc == 1 || opc == 2
    let res := (packetRes l opc).orElse fun _ =>
      if launch then descRes raw launchRes
      else if create then (descRes qd queueRes).orElse fun _ => rangeRes (s.readRanges qd)
      else none
    match res with
    | some v => some (3, v.toNat)
    | none =>
      let needs : List Need :=
        match opc with
        | 1 => d.needs (w 1) len
        | 2 => d.needs (w 1) len ++ [(w 3, (armBufs (w 4)).1 * (armBufs (w 4)).2, true, false, false)]
        | 4 => [(w 1, 8, true, false, false)]
        | 5 => [(w 1, 8, false, true, false)]
        | _ => if create then [(w 3, 64, true, false, false)] else []
      (x.rangeBad needs).orElse fun _ =>
        firstBad (s.fieldChecks opc l ++ (if launch then s.launchChecks d x.asid else []) ++ if create then queueChecks qd else [])

/-! ## The front end's own accesses -/

/-- The first page without a leaf among byte ranges: address space, address, bytes. -/
def State.feAbsent (s : State) (l : List (Nat × Nat × Nat)) : Option (Nat × Nat) :=
  l.findSome? fun q =>
    ((List.range (cdiv (q.2.1 % 4096 + q.2.2) 4096)).find? fun i => (s.lookup s.fe.primary q.1 (q.2.1 + 4096 * i)).isNone).map fun i =>
      (q.1, pageOf (q.2.1 + 4096 * i))

/-- What the front end reads to examine the packet at the head of a queue, first things first (15 R355, R358, R359): what the
queue's ranges do not allow is not asked for. -/
def State.examined (s : State) (x : Queue) (l : List Word) : List (Nat × Nat × Nat) :=
  let opc := wf (l.getD 0 0) 0 8
  let may (a : Word) (n : Nat) : List (Nat × Nat × Nat) := if x.allows a n true false false then [(x.asid, a.toNat, n)] else []
  let slot := (s.drvAsid, x.ring.toNat + 64 * (x.qhead % 2 ^ x.rlog), 64)
  slot ::
    if opc = pkLaunch ∨ opc = pkArm then
      let d := (s.readLaunch x.asid (l.getD 1 0)).2.1
      may (l.getD 1 0) 256 ++ may d.krec 64 ++ if d.pset = 0 then [] else may d.pset 64
    else if opc = pkQctl ∧ wf (l.getD 2 0) 0 2 = 0 then
      let qd := s.readQueue (l.getD 3 0) x.asid
      may (l.getD 3 0) 64 ++ [(s.drvAsid, nbits qd 384 64, 16 * (nbits qd 448 3 + 1))]
    else []

/-- The front end asks the driver for a page that it needs, and waits (15 R359, 16 R386, log 90). -/
def State.askFront (s : State) (q asid page kind : Nat) : State :=
  (s.ask s.fe.primary 0 asid (wf (s.asidEntry s.fe.primary asid) 32 16) page kind q []).getD s

/-- Whether the front end may make an access of a kind to the 8 bytes at an address (16 R375 to R377, 11 R290, 17 R402); none: no page
is there. -/
def State.feGrant (s : State) (asid : Nat) (va : Word) (kind : Nat) : Option Bool :=
  match s.lookup s.fe.primary asid va.toNat with
  | none => none
  | some (e, _, (p, d)) =>
    let key := frameKey (128 * p + d) e va.toNat
    some (s.dieLive (128 * p + d) && permits e kind && !(leafTr e && s.entryLost (lineOf asid va.toNat (leafGrain e)))
      && (!leafTe e || (s.tagOf key).toNat == wf va 60 4) && (kind == akWrite || !s.memPoison.contains (key / 32)))

/-! ## The head of a queue -/

/-- A refused packet (15 R359): the queue stops and the driver is told. -/
def State.refusePacket (s : State) (q cause value : Nat) : State :=
  let s1 := s.modQueue q fun x => { x with qstate := 2, qcause := cause }
  s1.fqPost (cause + 2 ^ 8 * q + 2 ^ 20 * (s.queueD q).qhead) value 0 0

/-- The producer index that the front end goes by: with a standby, the one that has been streamed (16 R397). -/
def State.tailOf (s : State) (q : Nat) : Nat :=
  let x := s.queueD q
  if s.fe.standby.isSome then (kgetD s.fe.mirror q (0, 0)).1 else x.qtail

/-- Whether the start of the packet at the head has been announced to the standby, when there is one (16 R397). -/
def State.announced (s : State) (q : Nat) : Bool :=
  let x := s.queueD q
  s.fe.standby.isNone || (kgetD s.fe.mirror q (0, 0)).2 == (x.qhead + 1) % 2 ^ x.rlog

/-- The validator examines the packet at the head of a queue in RUN and keeps it until it starts (15 R358, R359); what it must read on
an absent page it asks the driver for first. -/
def State.examine (s : State) (q : Nat) : State :=
  let x := s.queueD q
  if x.qstate ≠ 1 ∨ x.head.isSome ∨ x.qhead = s.tailOf q then s
  else
    let l := s.headWords x
    match s.feAbsent (s.examined x l), s.validate x l with
    | some (asid, page), _ => s.askFront q asid page akRead
    | none, some (c, v) => s.refusePacket q c v
    | none, none =>
      let opc := wf (l.getD 0 0) 0 8
      let d := if opc = 1 ∨ opc = 2 then some (s.readLaunch x.asid (l.getD 1 0)).2.1 else none
      let qd := if opc = 11 then some (s.readQueue (l.getD 3 0) x.asid) else none
      s.modQueue q fun x => { x with head := some ⟨l, d, qd⟩ }

/-- Whether the validated packet at the head of a queue may start (15 R357, R364). -/
def State.headReady (s : State) (q : Nat) (opc : Nat) : Option Head :=
  let x := s.queueD q
  match x.head with
  | none => none
  | some h =>
    let w0 := h.words.getD 0 0
    let order := w0.getLsbD 8
    if wf w0 0 8 ≠ opc ∨ x.qstate ≠ 1 ∨ !s.announced q ∨ (order ∧ !x.active.isEmpty) ∨ x.active.any (fun p => p.opc == pkWaitmem) then none
    else if opc = pkLaunch ∧ (64 ≤ s.launches.length ∨ s.fe.startedL = s.clk + 1) then none
    else if opc ≠ pkLaunch ∧ s.fe.startedP = s.clk + 1 then none
    else some h

/-- Start the packet at the head of a queue: it becomes active, QHEAD advances, the pointer of its priority moves (15 R364). -/
def State.startPacket (s : State) (q : Nat) (h : Head) : State × Packet :=
  let x := s.queueD q
  let w (i : Nat) : Word := h.words.getD i 0
  let p : Packet :=
    { idx := x.npkt, opc := wf (w 0) 0 8, tag := wf (w 0) 32 32, evt := (w 0).getLsbD 9, w1 := w 1, w2 := w 2, w3 := w 3, w4 := w 4
      launches := [], clk := s.clk, step := 0 }
  let s1 := s.modQueue q fun x =>
    { x with head := none, npkt := x.npkt + 1, qhead := (x.qhead + 1) % 2 ^ x.rlog, active := x.active ++ [p] }
  let l := decide (p.opc = pkLaunch)
  ({ s1 with fe := { s1.fe with
      ptrs := kput s1.fe.ptrs x.prio q
      startedL := if l then s.clk + 1 else s1.fe.startedL
      startedP := if l then s1.fe.startedP else s.clk + 1 } }, p)

/-- Change an active packet. -/
def State.modPacket (s : State) (q idx : Nat) (f : Packet → Packet) : State :=
  s.modQueue q fun x => { x with active := x.active.map fun p => if p.idx = idx then f p else p }

/-- Complete a packet that names no launch. -/
def State.packetDone (s : State) (q idx : Nat) : State := { s with free := s.free + 1 }.completePacket q idx esDone s.noLaunch

/-- A packet whose effect is made as it starts: the validator examines the head, and it starts when it may. -/
def State.onHead (s : State) (q opc : Nat) (f : State → Head → Packet → State) : Out :=
  let s1 := s.examine q
  match s1.headReady q opc with
  | none => .next s1
  | some h => let (s2, p) := s1.startPacket q h; .next (f s2 h p)

end Sys2Proof.Machine
end

