-- ==== Sys2Proof/Machine/Queues.lean ====
section
/-! DEFINITION. The command front end (15 R355 to R370): launches, armed launches, waits and signals in memory, pre-emption
packets, the control of queues, steering rules, doorbells and registers. -/

namespace Sys2Proof.Machine

/-! ## Starting a launch -/

/-- The launch id after the one assigned last (15 R364). -/
def State.freeLaunch (s : State) : Nat :=
  (((List.range 65536).map fun i => (s.fe.lastLaunch + 1 + i) % 65536).find? fun l => (s.launch? l).isNone).getD 0

/-- Start a launch (15 R364, R365): its package set is fixed; its clusters are dealt; one that is co-resident and cannot fit
completes with NOFIT. -/
def State.startLaunch (s : State) (queue asid tag : Nat) (d : LaunchDesc) (packet : Option Nat) (firing : Option (Nat × Nat)) : State :=
  let l := s.freeLaunch
  let pset := s.psetOf asid d
  let x : Launch :=
    { queue := queue, tag := tag, desc := d, asid := asid, pset := pset, nslot := s.nslot d.kern pset, startClk := s.clk
      prio := (s.queueD queue).prio, pend := [], drains := [], excused := (0, []), rrec := [], aborted := false, badImage := false
      halting := false, saved := false, packet := packet, homes := [], lastSite := [], placed := false, images := [], answers := []
      firing := firing, region := [] }
  -- the instruction caches of its packages are invalidated (02 R65)
  let fresh (ck : Nat) (c : Core) : Core := if pset.contains (ck / 48 / 128) then { c with icache := [] } else c
  let s1 : State := { s with
    launches := kput s.launches l x, fe := { s.fe with lastLaunch := l }, cores := kmap s.cores fresh }
  if d.cores then (let s2 := s1.findHomes l; if s2.coFits l then s2 else s2.completeLaunch l esNofit) else s1.dealAll l

/-- A kind-0 halt that missed its launch holds the queue at its next LAUNCH (15 R369): KIND 4, STATUS HELD. -/
def State.heldLaunch (s : State) (q : Nat) : Option State :=
  match (s.queueD q).heldNext with
  | none => none
  | some (pq, tag, l) => some ((s.modQueue q fun x => { x with qstate := 3, heldNext := none }).postEvent pq evHalted esHeld tag l 0 0)

/-- Whether the packet at the head of a queue is a validated LAUNCH that a halt holds back. -/
def State.atLaunch (s : State) (q : Nat) : Bool :=
  (s.queueD q).qstate == 1 &&
    match (s.queueD q).head with | some h => wf (h.words.getD 0 0) 0 8 == pkLaunch | none => false

/-- LAUNCH (15 R364, R365). -/
def execLaunch (q : Nat) (s : State) : Out :=
  let s1 := s.examine q
  match (if s1.atLaunch q then s1.heldLaunch q else none) with
  | some s2 => .next s2
  | none =>
    s.onHead q pkLaunch fun s h p =>
      match h.desc with
      | some d => s.startLaunch q (s.queueD q).asid p.tag d (some p.idx) none
      | none => s

/-- PACKET_NOP (15 R357). -/
def execPacketNop (q : Nat) (s : State) : Out := s.onHead q pkNop fun s _ p => s.packetDone q p.idx

/-! ## Armed launches -/

/-- An ARM that is to start is refused when its package accepts 256 armed tags by now (15 R366): cause FIELD. -/
def State.recheckArm (s : State) (q : Nat) : State :=
  match s.headReady q pkArm with
  | none => s
  | some h =>
    match firstBad (s.fieldChecks pkArm h.words) with
    | none => s
    | some (c, v) => (s.modQueue q fun x => { x with head := none }).refusePacket q c v

/-- ARM (15 R366). -/
def execArm (q : Nat) (s : State) : Out :=
  ((s.examine q).recheckArm q).onHead q pkArm fun s h p =>
    match h.desc with
    | none => s
    | some d =>
      let (n, len) := armBufs p.w4
      let a : Armed :=
        { queue := q, desc := d, asid := (s.queueD q).asid, src := wf p.w2 16 1, tag := wf p.w2 0 16, pkg := wf p.w2 17 9
          base := p.w3.toNat, nbuf := n, blen := len, busy := [], next := 0, last := 0, ptag := p.tag, disarm := false, waiting := [] }
      { s with armed := kput s.armed (armKey p.w2) a }.packetDone q p.idx

/-- DISARM (15 R357): no further message is accepted. -/
def execDisarm (q : Nat) (s : State) : Out :=
  s.onHead q pkDisarm fun s _ p => { s with armed := kmod s.armed (armKey p.w2) fun a => { a with disarm := true } }

/-- DISARM_COMPLETE (15 R357): every firing has completed; the tag is free. -/
def execDisarmComplete (q : Nat) (s : State) : Out :=
  match (s.queueD q).active.find? fun p => p.opc == pkDisarm with
  | none => .next s
  | some p =>
    match kget? s.armed (armKey p.w2) with
    | none => .next (s.packetDone q p.idx)
    | some a =>
      if !a.disarm || !a.busy.isEmpty || !a.waiting.isEmpty then .next s
      else .next ({ s with armed := kdel s.armed (armKey p.w2) }.packetDone q p.idx)

/-! ## Words in memory -/

/-- WAITMEM (15 R357): it holds every later packet of its queue. -/
def execWaitmem (q : Nat) (s : State) : Out := s.onHead q pkWaitmem fun s _ _ => s

/-- The conditions of WAITMEM. -/
def waitHolds (cond : Nat) (x v : Word) : Bool :=
  match cond with
  | 0 => x == v
  | 1 => x != v
  | 2 => decide (v.toNat ≤ x.toNat)
  | _ => decide (x.toNat < v.toNat)

/-- WAITMEM_SATISFIED (15 R357): the word is read as a load would read it; while its page is absent the driver is asked, and a word that
may not be read satisfies nothing (DESIGN CHOICE, log 90). -/
def execWaitmemSatisfied (q : Nat) (s : State) : Out :=
  match (s.queueD q).active.find? fun p => p.opc == pkWaitmem with
  | none => .next s
  | some p =>
    let asid := (s.queueD q).asid
    let x : Word := BitVec.ofNat 64 (s.feNat asid p.w1.toNat 8)
    match s.feGrant asid p.w1 akRead with
    | none => .next (s.askFront q asid (pageOf p.w1.toNat) akRead)
    | some ok => if ok && waitHolds (wf p.w4 0 3) (x &&& p.w3) p.w2 then .next (s.packetDone q p.idx) else .next s

/-- A SIGNALMEM that has started, when every earlier packet of its queue has completed. -/
def State.signalDue (s : State) (q : Nat) : Option Packet :=
  (s.queueD q).active.find? fun p => p.opc == pkSignalmem && (s.queueD q).active.all fun y => decide (p.idx ≤ y.idx)

/-- SIGNALMEM (15 R357): it starts, and once every earlier packet has completed its word is written and acknowledged. It waits for
an absent page; a write that is refused is acknowledged as a posted one is, with no effect (DESIGN CHOICE, log 90). -/
def execSignalmem (q : Nat) (s : State) : Out :=
  match s.onHead q pkSignalmem fun s _ _ => s with
  | .next s1 =>
    match s1.signalDue q with
    | none => .next s1
    | some p =>
      let asid := (s1.queueD q).asid
      let old := s1.feNat asid p.w1.toNat 8
      let add := p.w3.getLsbD 0
      let v := if add then old + p.w2.toNat else p.w2.toNat
      let kind := if add then akRmw else akWrite
      match s1.feGrant asid p.w1 kind with
      | none => .next (s1.askFront q asid (pageOf p.w1.toNat) kind)
      | some ok => .next ((if ok then s1.feWrite asid p.w1.toNat (natBytes v 8) else s1).packetDone q p.idx)
  | o => o

/-! ## Pre-emption -/

/-- The launches that a PREEMPT or RESUME names (15 R368). -/
def State.named (s : State) (p : Packet) : List Nat :=
  let k := wf p.w1 0 2
  (s.launches.filter fun q =>
    if k = 0 then q.1 == p.w2.toNat else if k = 1 then q.2.queue == p.w2.toNat else true).map (·.1)

/-- Whether a PREEMPT or RESUME that queue `own` carries concerns a queue (15 R368): a pre-emption of the domain does not hold the queue
that carries it, since no packet could then ever resume it (DEDUCED, log 34). -/
def concerns (p : Packet) (own q : Nat) : Bool :=
  match wf p.w1 0 2 with
  | 1 => p.w2.toNat == q
  | 2 => q != own
  | _ => false

/-- PREEMPT (15 R368 step 1, R369): placement of the chosen launches stops; their queues are held. One that names a launch that
has completed does nothing more. -/
def execPreempt (q : Nat) (s : State) : Out :=
  s.onHead q pkPreempt fun s _ p =>
    let ls := (s.named p).filter fun l => let x := s.launchD l; !x.aborted && !x.halting && !x.saved
    if wf p.w1 0 2 = 0 ∧ ls.isEmpty then s.packetDone q p.idx
    else
      let s1 := ls.foldl (fun s l => s.modLaunch l fun x => { x with halting := true }) s
      let hold (i : Nat) (x : Queue) : Queue := if concerns p q i && (x.qstate == 1 || x.qstate == 2) then { x with qstate := 3 } else x
      { s1 with queues := kmap s1.queues hold }.modPacket q p.idx fun y => { y with launches := ls }

/-- RESUME (15 R370): each image is checked; the queues of kinds 1 and 2 run again; a halt that still waits for a LAUNCH of
theirs is cancelled (R369). A launch whose save is under way is resumed once it is saved (log 47). -/
def execResume (q : Nat) (s : State) : Out :=
  s.onHead q pkResume fun s _ p =>
    let ls := (s.named p).filter fun l => (s.launchD l).saved || (s.launchD l).halting
    let s1 := (ls.filter fun l => (s.launchD l).saved).foldl State.resumeLaunch s
    let back (i : Nat) (x : Queue) : Queue :=
      if concerns p q i || wf p.w1 0 2 == 2 then { x with qstate := if x.qstate = 3 then 1 else x.qstate, heldNext := none } else x
    let s2 : State := { s1 with queues := kmap s1.queues back }
    (s2.modPacket q p.idx fun y => { y with launches := ls.filter fun l => !(s2.launchD l).aborted }).resumeCheck

/-- ABORT (15 R362). -/
def execAbort (q : Nat) (s : State) : Out := s.onHead q pkAbort fun s _ p => (s.abortLaunch p.w2.toNat).packetDone q p.idx

/-! ## Control of queues -/

/-- A queue that runs, from its descriptor (15 R355). -/
def newQueue (x : Nat) (ranges : List Nat) : Queue :=
  let w (lo : Nat) : Word := BitVec.ofNat 64 (nbits x lo 64)
  { ring := w 0, rlog := nbits x 64 5, prio := nbits x 69 3, kq := nbits x 72 1 == 1, asid := nbits x 80 16
    opmask := BitVec.ofNat 16 (nbits x 96 16), ivec := nbits x 112 12, itgt := nbits x 124 2, exq := w 128, xlog := nbits x 192 5
    evr := w 256, elog := nbits x 320 5
    ranges := ranges.map fun r =>
      (BitVec.ofNat 64 r, nbits r 64 48, nbits r 112 1 == 1, nbits r 113 1 == 1, nbits r 114 1 == 1)
    qtail := 0, qhead := 0, qstate := 1, qcause := 0, xprod := 0, xcons := 0, eprod := 0, econs := 0, eovf := 0, seq := 0
    ovf := false, heldRecs := [], waiting := [], npkt := 0, head := none, active := [], heldNext := none }

/-- A QCTL of an operation. -/
def State.qctl (s : State) (q op : Nat) (f : State → Head → Packet → State) : Out :=
  let s1 := s.examine q
  match s1.headReady q pkQctl with
  | none => .next s1
  | some h =>
    if wf (h.words.getD 2 0) 0 2 ≠ op then .next s1
    else let (s2, p) := s1.startPacket q h; .next ((f s2 h p).packetDone q p.idx)

/-- QCTL_CREATE (15 R355). -/
def execQctlCreate (q : Nat) (s : State) : Out :=
  s.qctl q 0 fun s h p =>
    match h.qdesc with
    | none => s
    | some x => { s with queues := kput s.queues (wf p.w1 0 12) (newQueue x (s.readRanges x)) }

/-- QCTL_STOP (15 R357). -/
def execQctlStop (q : Nat) (s : State) : Out :=
  s.qctl q 1 fun s _ p => s.modQueue (wf p.w1 0 12) fun x => { x with qstate := 2, head := none }

/-- QCTL_RESTART (15 R359): a STOPPED queue runs again; with skip QHEAD first advances past the refused packet. -/
def execQctlRestart (q : Nat) (s : State) : Out :=
  s.qctl q 2 fun s _ p => s.modQueue (wf p.w1 0 12) fun x =>
    if x.qstate = 2 then
      { x with qstate := 1, head := none, qhead := if p.w2.getLsbD 2 then (x.qhead + 1) % 2 ^ x.rlog else x.qhead }
    else x

/-- QCTL_DESTROY (15 R357): the queue is ABSENT; launches in flight from it go on. -/
def execQctlDestroy (q : Nat) (s : State) : Out :=
  s.qctl q 3 fun s _ p => s.modQueue (wf p.w1 0 12) fun x => { x with qstate := 0, head := none }

/-- STEER (15 R367). -/
def execSteer (q : Nat) (s : State) : Out :=
  s.onHead q pkSteer fun s _ p =>
    let r : Steer :=
      { etype := wf p.w2 0 16, mofs := wf p.w2 16 8, pofs := wf p.w2 24 8, tag := wf p.w2 32 16, pkg := wf p.w2 48 9
        en := p.w2.getLsbD 63, mval := p.w3, mmask := p.w4, queue := q, ptag := p.tag }
    { s with steers := kput s.steers (64 * wf p.w1 0 2 + wf p.w1 8 6) r }.packetDone q p.idx

/-! ## Registers -/

/-- QTAIL (15 R356). -/
def execQtail (q v : Nat) (s : State) : Out := .next (s.modQueue q fun x => { x with qtail := v % 2 ^ 21 % 2 ^ x.rlog })

/-- The register blocks of the Jerad die: the queues' (15 R356) and the driver's (16 R390). -/
abbrev queueRegs : Nat := 0x01000000
abbrev driverRegs : Nat := 0x00F00000

/-- REGISTER_WRITE (00 R9, 15 R356, 16 R390, 17 R409): fields without behaviour of their own; a write to any other address is
ignored. The address is that of a package's Jerad die: 2^32 * package + offset; the queues' and the driver's registers are the
primary's. -/
def execRegisterWrite (addr v : Nat) (s : State) : Out :=
  let pkg := addr / 2 ^ 32 % 512
  let o := addr % 2 ^ 32
  if 0x02041000 ≤ o ∧ o < 0x02041040 then
    let l := (List.zip (List.range 8) (natBytes v 8)).map fun q => (o / 8 * 8 - 0x02041000 + q.1, q.2)
    .next (s.modPkg pkg fun p => { p with nonce := kputs p.nonce l })
  else if o = 0x02041040 then .next (s.modPkg pkg fun p => { p with abuf := BitVec.ofNat 64 v })
  else if pkg ≠ s.fe.primary then .next s
  else if queueRegs ≤ o ∧ o < queueRegs + 64 * 4096 then
    let q := (o - queueRegs) / 64
    match o % 64 with
    | 0x24 => .next (s.modQueue q fun x => { x with xcons := v % 2 ^ 32 })
    | 0x2C => .next (s.modQueue q fun x => { x with econs := v % 2 ^ 32 })
    | 0x30 => .next (s.modQueue q fun x => { x with eovf := x.eovf - (x.eovf &&& v) })
    | _ => .next s
  else if o = driverRegs then .next { s with fe := { s.fe with fqbase := BitVec.ofNat 64 v } }
  else if o = driverRegs + 0x08 then .next { s with fe := { s.fe with fqlog := v % 32 } }
  else if o = driverRegs + 0x14 then
    let s1 : State := { s with fe := { s.fe with fqcons := v % 2 ^ 32 } }
    .next (s1.fqFlush s1.fe.fqHeld.length)
  else if o = driverRegs + 0x30 then
    let s1 : State := { s with fe := { s.fe with lockto := v % 2 ^ 32 } }
    .next ((List.range Config.packages).foldl (fun s p => s.modPkg p fun y => { y with lockto := v % 2 ^ 32 }) s1)
  else .next s

end Sys2Proof.Machine
end

