-- ==== Sys2Proof/Machine/Firing.lean ====
section
/-! DEFINITION. Triggered launches (08 R230, 10 R277, R278, 15 R366, R367): messages and frames are accepted into buffers or
refused, and fire launches. -/

namespace Sys2Proof.Machine

/-- Write bytes of an address space as a package's die homes them; no copy keeps older ones (10 R278). -/
def State.pkgWrite (s : State) (pkg asid va : Nat) (l : List Byte) : State :=
  let s1 := (List.zip (List.range l.length) l).foldl (fun s q => s.homeByte pkg asid (va + q.1) q.2) s
  if l.isEmpty then s1 else s1.dropCopies asid va l.length true

/-- The next free buffer of a ring, after the one filled last (10 R277). -/
def Armed.freeBuf (a : Armed) : Option Nat :=
  ((List.range a.nbuf).map fun i => (a.last + i) % a.nbuf).find? fun b => !a.busy.contains b

/-- Key of an armed launch. -/
def armedKey (pkg src tag : Nat) : Nat := 2 ^ 17 * pkg + 2 ^ 16 * src + tag

/-- A message is refused: its record is to be posted (15 R366). -/
def State.refuse (s : State) (pkg tag queue ptag : Nat) : State :=
  { s with msgs := kput s.msgs s.nextId ⟨pkg, tag, queue, ptag⟩, nextId := s.nextId + 1 }

/-- Offer a message to an armed launch (10 R277): the new state, or the CODE of the refusal. -/
def State.accept (s : State) (key : Nat) (data : List Byte) (slot1 : Nat) : Except (Nat × Option Armed) State :=
  match kget? s.armed key with
  | none => .error (ecNotrig, none)
  | some a =>
    if a.disarm then .error (ecRefused, some a)
    else
      match a.freeBuf with
      | none => .error (ecRefused, some a)
      | some b =>
        let x := data.take a.blen
        let s1 := s.pkgWrite a.pkg a.asid (a.base + b * a.blen) x
        let a1 : Armed :=
          { a with busy := a.busy ++ [b], next := (a.next + 1) % 2 ^ 64, last := (b + 1) % a.nbuf
                   waiting := a.waiting ++ [(b, x.length % 2 ^ 16 + slot1, a.next)] }
        .ok { s1 with armed := kput s1.armed key a1 }

/-- An MSGX fails at its destination (08 R214, R215). -/
def State.failMsg (s : State) (id : Nat) (e : Work) (c pkg : Nat) : State :=
  let d := s.noHome.2
  { s with free := s.free + 1 }.modWork id fun x =>
    { x.failed 0 c pkg d with wfail := e.wfail.add (1#8 <<< writeCause c) 1 pkg d }

/-- MSGX_DELIVERY (08 R230, R231, 10 R277). A message to a package that has failed waits for its detection. -/
def execMsgxDelivery (id : Nat) (s : State) : Out :=
  match kget? s.works id with
  | none => .next s
  | some e =>
    if e.kind ≠ .msgx || e.phase ≠ .sent || decide (s.clk < e.due) then .next s
    else
      let dst := wf e.b 0 9
      let tag := wf e.b 16 16
      let due := max s.clk (e.fork + 1080)
      let src := (s.blockD e.block).pkg
      if e.aborted then .next (s.finishWork id s.clk)
      else if (s.pkg dst).failed then
        if (s.pkg dst).known then .next ((s.failMsg id e ecDpeer dst).finishWork id due) else .next s
      else if e.plane = 128 ∧ src ≠ dst then .next ((s.failMsg id e ecDlink dst).finishWork id due)
      else
        match s.accept (armedKey dst 0 tag) e.buf (2 ^ 20 * src + 2 ^ 32 * tag) with
        | .ok s1 => .next (s1.finishWork id due)
        | .error (c, a) =>
          let l := s.launchD (s.blockD e.block).launch
          let s1 := match a with | some x => s.refuse dst tag x.queue x.ptag | none => s.refuse dst tag l.queue l.tag
          .next ((s1.failMsg id e c dst).finishWork id due)

/-- Whether a rule takes a frame (15 R367): `bytes` follow the EtherType. -/
def Steer.takes (r : Steer) (etype : Nat) (bytes : List Byte) : Bool :=
  r.en && r.etype == etype && decide (r.mofs + 8 ≤ bytes.length)
    && (BitVec.ofNat 64 (bytesNat ((bytes.drop r.mofs).take 8)) &&& r.mmask) == r.mval

/-- ETHERNET_FRAME (15 R366, R367): the first rule that matches takes the frame; without one the Jerad cores have it. The refusal of a tag that
is not armed is posted to the queue whose STEER wrote the rule (DESIGN CHOICE, log 89). -/
def execEthernetFrame (port etype : Nat) (bytes : List Byte) (s : State) : Out :=
  match s.steers.find? fun q => q.1 / 64 == port && q.2.takes etype bytes with
  | none => .next s
  | some (k, r) =>
    match s.accept (armedKey r.pkg 1 r.tag) (bytes.drop r.pofs) (2 ^ 16 + 2 ^ 29 * port + 2 ^ 32 * (k % 64)) with
    | .ok s1 => .next s1
    | .error (_, some a) => .next (s.refuse r.pkg r.tag a.queue a.ptag)
    | .error (_, none) => .next (s.refuse r.pkg r.tag r.queue r.ptag)

/-- The armed launch of a package's tag, with its source in bit 16, if it may fire (15 R366): its queue runs and a launch slot is free. -/
def State.mayFire (s : State) (pkg tag : Nat) : Option (Nat × Armed) :=
  s.armed.find? fun q =>
    q.1 == 2 ^ 17 * pkg + tag && !q.2.waiting.isEmpty && (s.queueD q.2.queue).qstate == 1
      && decide (s.launches.length < 64) && decide (s.fe.startedL ≠ s.clk + 1)

/-- Write the argument area of a firing (10 R278); its address. -/
def State.argArea (s : State) (key : Nat) (a : Armed) (buf slot1 seq : Nat) : State × Word :=
  let at_ := Config.argCopy key buf
  let slots := natBytes (a.base + buf * a.blen) 8 ++ natBytes slot1 8 ++ natBytes seq 8
  let rest := (s.feRead a.asid (a.desc.args.toNat + 24) (8 * (a.desc.kern.narg - 3)))
  let bytes := slots.take (8 * a.desc.kern.narg) ++ rest
  ((s.feWrite a.asid at_ bytes).dropCopies a.asid at_ bytes.length true, BitVec.ofNat 64 at_)

/-- FIRING (10 R277, R278, 15 R364, R366): the oldest accepted message starts a launch. -/
def execFiring (pkg tag : Nat) (s : State) : Out :=
  match s.mayFire pkg tag with
  | none => .next s
  | some (key, a) =>
    match a.waiting with
    | [] => .next s
    | (buf, slot1, seq) :: rest =>
      let (s1, at_) := s.argArea key a buf slot1 seq
      let a1 : Armed := { a with waiting := rest }
      let s2 : State := { s1 with
        armed := kput s1.armed key a1
        fe := { s1.fe with startedL := s.clk + 1, ptrs := kput s1.fe.ptrs (s.queueD a.queue).prio a.queue } }
      .next (s2.startLaunch a.queue a.asid a.ptag { a.desc with args := at_ } none (some (key, buf)))

/-- FIRING_REFUSED (15 R366): KIND 8. -/
def execFiringRefused (pkg tag : Nat) (s : State) : Out :=
  match s.msgs.find? fun q => q.2.pkg == pkg && q.2.tag == tag with
  | none => .next s
  | some (i, m) =>
    .next ({ s with msgs := kdel s.msgs i, free := s.free + 1 }.postEvent m.queue evRefused esDone m.ptag s.noLaunch 0 0)

end Sys2Proof.Machine
end

