-- ==== Sys2Proof/Machine/Firmware.lean ====
section
/-! DEFINITION. Firmware cores: the Xkarb instructions and the commands they send (16 R391 to R393). The issuer is the firmware
core that the second part of `cur` numbers: 4 * die key + core. -/

namespace Sys2Proof.Machine

def State.fwCore (s : State) (n : Nat) : FwCore := kgetD (s.die (n / 4)).fw (n % 4) FwCore.reset
def State.modFw (s : State) (n : Nat) (f : FwCore → FwCore) : State :=
  s.modDie (n / 4) fun d => { d with fw := kput d.fw (n % 4) (f (kgetD d.fw (n % 4) FwCore.reset)) }

/-- A register: x0 reads zero and discards writes (log 6). -/
def FwCore.reg (c : FwCore) (r : Nat) : Word := if r = 0 then 0 else kgetD c.x r 0
def FwCore.setReg (c : FwCore) (r : Nat) (v : Word) : FwCore := if r = 0 then c else { c with x := kput c.x r v }

/-- Bytes of SRAM as a number. -/
def FwCore.ram (c : FwCore) (a n : Nat) : Nat := bytesNat ((List.range n).map fun i => kgetD c.sram (a + i) 0)

/-- An exception of a firmware core (16 R392, log 6): it enters machine mode at its trap vector. -/
def FwCore.trap (c : FwCore) (cause : Nat) (val : Word) : FwCore :=
  { c with mcause := BitVec.ofNat 64 cause, mtval := val, mepc := c.pc, mpp := c.user, user := false, mpie := c.mie, mie := false
           pc := c.mtvec &&& ~~~(3 : Word), wait := none }

/-- Causes of R392. -/
abbrev fwIllegal : Nat := 2
abbrev fwRfetch : Nat := 24
abbrev fwKbfx : Nat := 25
abbrev fwSig : Nat := 26
abbrev fwDisp : Nat := 27

/-- Result of an instruction that completes. -/
def FwCore.done (c : FwCore) (rd : Nat) (v : Word) : FwCore := { c.setReg rd v with pc := c.pc + 4, wait := none, disp := none }

/-- RFETCH (16 R393). -/
def execRfetch (f : RFmt) (s : State) : Out :=
  let c := s.fwCore s.cur.2
  let a := c.reg f.rs1.toNat
  let p := a.toNat
  if p % 32 ≠ 0 ∨ 524288 ≤ p ∨ 20 < c.ram (p + 16) 8 % 32 then .next (s.modFw s.cur.2 fun c => c.trap fwRfetch a)
  else
    let head := c.ram (p + 8) 4
    if head = c.ram (p + 12) 4 then .next (s.modFw s.cur.2 fun c => c.done f.rd.toNat 0)
    else
      let v := BitVec.ofNat 64 (c.ram p 8 + 64 * (head % 2 ^ (c.ram (p + 16) 8 % 32)))
      .next (s.modFw s.cur.2 fun c =>
        { c.done f.rd.toNat v with
          sram := kputs c.sram ((List.zip (List.range 4) (natBytes (head + 1) 4)).map fun q => (p + 8 + q.1, q.2)) })

/-- KBFX (16 R392). -/
def execKbfx (f : RFmt) (s : State) : Out :=
  let c := s.fwCore s.cur.2
  let b := c.reg f.rs2.toNat
  let p := wf b 0 6
  let w := wf b 6 7
  if w = 0 ∨ 64 < p + w ∨ wf b 13 51 ≠ 0 then .next (s.modFw s.cur.2 fun c => c.trap fwKbfx b)
  else .next (s.modFw s.cur.2 fun c => c.done f.rd.toNat (BitVec.ofNat 64 (nbits (c.reg f.rs1.toNat).toNat p w)))

/-- A SIGWAIT whose signal is there: the selected bits are returned and cleared (16 R392). -/
def FwCore.takeSig (c : FwCore) (rd : Nat) (mask : Word) : FwCore :=
  { c.done rd (c.sig &&& mask) with sig := c.sig &&& ~~~mask }

/-- SIGWAIT (16 R392). -/
def execSigwait (f : RFmt) (s : State) : Out :=
  let c := s.fwCore s.cur.2
  let a := c.reg f.rs1.toNat
  let b := c.reg f.rs2.toNat
  if a = 0 ∨ 64 ≤ a.toNat then .next (s.modFw s.cur.2 fun c => c.trap fwSig a)
  else if c.sig &&& a ≠ 0 then .next (s.modFw s.cur.2 fun c => c.takeSig f.rd.toNat a)
  else .next (s.modFw s.cur.2 fun c => { c with wait := some (f.rd.toNat, a, if b = 0 then 0 else s.clk + b.toNat) })

/-- SIGWAIT_WAKE (16 R392). -/
def execSigwaitWake (pkg die fw : Nat) (s : State) : Out :=
  let n := 4 * (128 * pkg + die) + fw
  match (s.fwCore n).wait with
  | some (rd, mask, _) => if (s.fwCore n).sig &&& mask ≠ 0 then .next (s.modFw n fun c => c.takeSig rd mask) else .next s
  | none => .next s

/-- SIGWAIT_TIMEOUT (16 R392). -/
def execSigwaitTimeout (pkg die fw : Nat) (s : State) : Out :=
  let n := 4 * (128 * pkg + die) + fw
  match (s.fwCore n).wait with
  | some (rd, mask, dl) =>
    if dl ≠ 0 ∧ dl ≤ s.clk ∧ (s.fwCore n).sig &&& mask = 0 then .next (s.modFw n fun c => c.done rd 0) else .next s
  | none => .next s

/-! ## DISPATCH -/

/-- The cores that a DISPATCH names on a die: one core, or every live core (16 R393). -/
def State.dispCores (s : State) (dk n : Nat) : List Nat :=
  ((if n = 63 then List.range 48 else [n]).map fun c => 48 * dk + c).filter fun ck => s.coreLive ck

/-- The dies that a remote DISPATCH names. -/
def State.dispDies (s : State) (b : Word) : List Nat :=
  let pkgs := if b.getLsbD 24 then (List.range Config.packages).filter s.pkgLive else [wf b 13 9]
  pkgs.flatMap fun p => if b.getLsbD 23 then (s.liveDies p).map fun d => 128 * p + d else [128 * p + wf b 6 7]

/-- The exceptions of DISPATCH, with the operand at fault (16 R393). -/
def State.dispFault (s : State) (n : Nat) (a b : Word) (opc : Nat) : Option Word :=
  let t := wf b 0 6
  let remote := b.getLsbD 22
  if a.toNat % 64 ≠ 0 then some a
  else if (48 ≤ t ∧ t ≤ 62) ∨ (!remote ∧ t < 48 ∧ !s.coreLive (48 * (n / 4) + t)) then some b
  else if !remote ∧ wf b 6 19 ≠ 0 then some b
  else if wf b 25 39 ≠ 0 then some b
  else if opc = 0 ∨ 4 < opc then some a
  else if opc = 2 ∧ remote then some a
  else none

/-- Queue a command at cores. -/
def State.queueCmd (s : State) (l : List Nat) (x : FwCmd) : State :=
  l.foldl (fun s ck => s.modCore ck fun c => { c with cmds := c.cmds ++ [x] }) s

/-- DISPATCH (16 R393). -/
def execDispatch (f : RFmt) (s : State) : Out :=
  let n := s.cur.2
  let c := s.fwCore n
  let a := c.reg f.rs1.toNat
  let b := c.reg f.rs2.toNat
  let p := a.toNat
  let opc := c.ram p 1
  match s.dispFault n a b opc with
  | some v => .next (s.modFw n fun c => c.trap fwDisp v)
  | none =>
    let x : FwCmd := ⟨opc, BitVec.ofNat 64 (c.ram (p + 8) 8), BitVec.ofNat 64 (c.ram (p + 16) 8), BitVec.ofNat 64 (c.ram (p + 24) 8), 0, false⟩
    let t := wf b 0 6
    if !b.getLsbD 22 then
      let l := s.dispCores (n / 4) t
      if l.any fun ck => decide (Config.cmdRoom ≤ (s.core ck).cmds.length) then .next (s.modFw n fun c => c.done f.rd.toNat 1)
      else .next ((s.queueCmd l x).modFw n fun c => c.done f.rd.toNat 0)
    else
      let dies := s.dispDies b
      let live := dies.filter s.dieLive
      let s1 := s.queueCmd (live.flatMap fun dk => s.dispCores dk t) { x with src := s.nextId }
      .next ({ s1 with nextId := s1.nextId + 1 }.modFw n fun c =>
        { c with disp := some (f.rd.toNat, s.nextId, s.clk + 24000, live.length != dies.length) })

/-- DISPATCH_COMPLETE (16 R393): every target has reported, or one is dead or late. -/
def execDispatchComplete (pkg die fw : Nat) (s : State) : Out :=
  let n := 4 * (128 * pkg + die) + fw
  match (s.fwCore n).disp with
  | none => .next s
  | some (rd, id, dl, dead) =>
    let late := s.cores.filter fun q => q.2.cmds.any fun x => x.src == id
    if late.all fun q => !s.dieLive (q.1 / 48) then
      .next (s.modFw n fun c => c.done rd (if dead || !late.isEmpty then 2 else 0))
    else if dl ≤ s.clk then .next (s.modFw n fun c => c.done rd 2)
    else .next s

/-! ## Commands at a core -/

/-- The command at the head of a core's queue, when it has an opcode. -/
def State.headCmd (s : State) (ck op : Nat) : Option FwCmd :=
  match (s.core ck).cmds with
  | x :: _ => if x.op = op then some x else none
  | [] => none

def State.popCmd (s : State) (ck : Nat) : State := s.modCore ck fun c => { c with cmds := c.cmds.drop 1 }

/-- PURGE (16 R393): the L1 and far copies of a line are discarded. In the recovery of a LOST entry the die then acknowledges
(R388); there the purge covers the whole die. -/
def execPurge (pkg die core : Nat) (s : State) : Out :=
  let dk := 128 * pkg + die
  let ck := 48 * dk + core
  match s.headCmd ck 1 with
  | none => .next s
  | some x =>
    let asid := x.a.toNat % 2 ^ 16
    let va := x.b.toNat % 2 ^ 57
    let mine (c : Copy) : Bool := if x.lost then c.onDie dk else c.place == l1Place ck || c.place == farPlace dk
    let s1 := { (s.popCmd ck) with copies := s.copies.map fun (q : Nat × Copy) =>
      if q.2.asid = asid ∧ q.2.blk = blkOf va ∧ mine q.2 then (q.1, q.2.dropLine va q.2.grain) else q }
    if x.lost then
      .next { s1 with dirs := kmap s1.dirs fun k (d : Dir) =>
        if d.recover ∧ k % 2 ^ 73 = lineOf asid va 1 then { d with purge := d.purge.filter (· != dk) } else d }
    else .next s1

/-- MASK (16 R393): the core is dead, and excused on every wire. -/
def execMask (pkg die core : Nat) (s : State) : Out :=
  let ck := 48 * (128 * pkg + die) + core
  match s.headCmd ck 2 with
  | none => .next s
  | some _ => .next ((s.popCmd ck).maskCore ck)

/-- GENSET (16 R393, R381). -/
def execGenset (pkg die core : Nat) (s : State) : Out :=
  let ck := 48 * (128 * pkg + die) + core
  match s.headCmd ck 3 with
  | none => .next s
  | some x => .next ((s.popCmd ck).modCore ck fun c => { c with gens := kput c.gens (x.a.toNat % 2 ^ 16) (x.b.toNat % 2 ^ 16) })

/-- REBIND (16 R393, 12 R313): the locks that a warp holds learn its new location, given as the DISPATCH targets are: core,
die, package. -/
def execRebind (pkg die core : Nat) (s : State) : Out :=
  let ck := 48 * (128 * pkg + die) + core
  match s.headCmd ck 4 with
  | none => .next s
  | some x =>
    let move (e : LockEntry) : LockEntry :=
      if e.holder = some x.a.toNat then { e with saved := false, hcore := wf x.b 0 6, hdie := wf x.b 6 7, hpkg := wf x.b 13 9 } else e
    let s1 := s.popCmd ck
    .next { s1 with lockTab := kmap s1.lockTab fun _ e => move e }

/-- MAILBOX_MESSAGE (16 R391). -/
def execMailboxMessage (pkg die fw : Nat) (s : State) : Out :=
  if 4 ≤ fw then .next s else .next (s.modFw (4 * (128 * pkg + die) + fw) fun c => { c with sig := c.sig ||| 16 })

end Sys2Proof.Machine
end

