-- ==== Sys2Proof/Machine/SplitEvents.lean ====
section
/-! DEFINITION. The steps of splits: results, ends of spans, bounds, merges, the overflow area (09 R238 to R248), instruction
fetch (02 R65, 16 R381, R386), and exception records that were held (15 R360). -/

namespace Sys2Proof.Machine

/-- REGISTER_RESULT_RETURN (01 R18, 09 R239): a result is produced after its latency and written. -/
def execRegisterResultReturn (w k : Nat) (s : State) : Out := .next (s.landDue w k)

/-- SPAN_PARK_END (09 R239, 07 R179). -/
def execSpanParkEnd (w slot : Nat) (s : State) : Out :=
  match s.split? w slot with
  | some p => if p.eff = .spanPark then .next (s.settle w slot) else .next s
  | none => .next s

/-- JOIN_BOUND_EXPIRY (05 R121). -/
def execJoinBoundExpiry (w slot : Nat) (s : State) : Out :=
  match s.split? w slot with
  | some p =>
    match p.after with
    | .join b _ => if p.inJoin ∧ b < 2 ^ 32 - 1 ∧ p.waux = 0 then .next (s.joinExpire w slot) else .next s
    | _ => .next s
  | none => .next s

/-- REGANG_BOUND_EXPIRY (05 R130): the first arrival's bound has expired, or a member arrived with bound 0. -/
def execRegangBoundExpiry (w slot : Nat) (s : State) : Out :=
  match s.warp? w, s.split? w slot with
  | some x, some p =>
    if !p.inRegang then .next s
    else
      let l := x.gathering p.pc
      let now := l.any fun q => match q.2.after with | .regang _ b => b == 0 | _ => false
      let first := match firstArrival l with | some (_, f) => f.waux == 0 | none => false
      if now || first then .next (s.regangRelease w p.pc) else .next s
  | _, _ => .next s

/-- REGANG_MERGE (09 R247). -/
def execRegangMerge (w : Nat) (s : State) : Out := .next (s.mergeBoundary w 8)

/-- SWAP_EPOCH_ADVANCE (01 R36, 09 R246): every 256 clk of a resident warp; a pending swap is dropped, and a new one is due when a
dormant split with HELD READY can come in. -/
def execSwapEpochAdvance (w : Nat) (s : State) : Out :=
  match s.warp? w with
  | none => .next s
  | some x =>
    if x.captured || x.ended || decide (s.clk < x.epochClk + 256) then .next s
    else .next (s.modWarp w fun w => { w with epoch := w.epoch + 1, epochClk := s.clk, swapPend := w.swapDue })

/-- SPLIT_SWAP (09 R246). -/
def execSplitSwap (w : Nat) (s : State) : Out :=
  if (s.warpD w).captured then .next s else .next (s.startSwap w)

/-- SPLIT_SWAP_DONE (09 R246). -/
def execSplitSwapDone (w : Nat) (s : State) : Out := .next (s.finishMoves w false)

/-- SPLIT_FILL (09 R246). -/
def execSplitFill (w : Nat) (s : State) : Out :=
  if (s.warpD w).captured then .next s else .next (s.startFill w)

/-- SPLIT_FILL_DONE (09 R246). -/
def execSplitFillDone (w : Nat) (s : State) : Out := .next (s.finishMoves w true)

/-- EXCEPTION_RECORD_HELD (15 R360): a held record is written when the queue has room. -/
def execExceptionRecordHeld (q : Nat) (s : State) : Out :=
  let x := s.queueD q
  match x.heldRecs with
  | [] => .next s
  | r :: rest =>
    if 2 ^ x.xlog ≤ ringCount x.xprod x.xcons then .next s
    else .next ((s.modQueue q fun x => { x with heldRecs := rest }).writeExc q r)

/-! ## Instruction fetch -/

/-- Key of a word in an instruction cache. -/
def icKey (asid : Nat) (pc : BitVec 48) : Nat := asid * 2 ^ 48 + pc.toNat

/-- The words of the next instruction of a split that its core's instruction cache holds; none for a word it lacks, with its PC. A word
stays until the next launch begins: no room is made for others, so one written during its launch is fetched in the form in which the core
first met it (02 R65 leaves the form open: DESIGN CHOICE, log 80). -/
def State.fetched (s : State) (wid : Nat) (pc : BitVec 48) : Except (BitVec 48) (Word × Word) :=
  let b := s.blockOf wid
  let asid := (s.launchD b.launch).asid
  let ic := (s.core b.ck).icache
  match kget? ic (icKey asid pc) with
  | none => .error pc
  | some w =>
    if hasExt w then
      match kget? ic (icKey asid (pc + 1)) with
      | none => .error (pc + 1)
      | some e => .ok (w, e)
    else .ok (w, 0)

/-- Fill an instruction cache with the four words of a 32-byte sector (02 R65 gives no size: DESIGN CHOICE, log 80). -/
def State.fillCode (s : State) (ck asid : Nat) (pc : BitVec 48) (bytes : List Byte) : State :=
  let base := pc.toNat / 4 * 4
  s.modCore ck fun c => { c with icache := (List.range 4).foldl (fun m i =>
    kput m (icKey asid (BitVec.ofNat 48 (base + i))) (BitVec.ofNat 64 (bytesNat ((bytes.drop (8 * i)).take 8)))) c.icache }

/-- The 32 bytes of code at an address: the home copy, with what a copy of the fetching package that its cores share holds dirty
(02 R65, 11 R293). -/
def State.codeBytes (s : State) (pkg asid va : Nat) (leaf : Word) (hpkg hdie : Nat) : List Byte :=
  let base := va / 32 * 32
  let home := memRead s.mem (frameKey (128 * hpkg + hdie) leaf base) 32
  match (s.anchorPlaces pkg hpkg hdie).findSome? fun pl => s.copy? pl asid va with
  | none => home
  | some c => (List.zip (List.range 32) home).map fun q => if c.dirty.contains (base % 512 + q.1) then kgetD c.data (base % 512 + q.1) 0 else q.2

/-- The home of a fetch, by the placement cache of its die (16 R378). -/
def State.fetchHome (s : State) (b : Block) (asid gen va : Nat) : State × Option (Nat × Nat) :=
  match kget? (s.die b.dk).plc (tlbKey asid gen va) with
  | some t => (s, s.homeOf b.pkg asid t.leaf va)
  | none =>
    match s.lookup b.pkg asid va with
    | some (leaf, _, h) => (s.plcFill b.dk asid gen va leaf, some h)
    | none => (s, none)

/-- What a fetch meets under the leaf of its home (16 R375, R380, R386). -/
def State.fetchLeaf (s : State) (wid slot : Nat) (pc : BitVec 48) (gen hp hd : Nat) (leaf : Word) : State :=
  let b := s.blockOf wid
  let asid := (s.launchD b.launch).asid
  let va := 8 * pc.toNat
  if s.homeOf hp asid leaf va ≠ some (hp, hd) then
    (s.count (128 * hp + hd) tcMishome).modDie b.dk fun d => { d with plc := kdel d.plc (tlbKey asid gen va) }
  else if leafX leaf then s.fillCode b.ck asid pc (s.codeBytes b.pkg asid va leaf hp hd)
  else s.raiseAt wid slot (.issue 1) fcIaccess (BitVec.ofNat 64 va)

/-- INSTRUCTION_FETCH (09 R241, 02 R65): a fetch that missed completes, in no time (log 81): the cache is filled, the fetch is refused
(IACCESS; so is one whose home works no more: DESIGN CHOICE, log 81), its generation is rejected (16 R381), or an absent page goes to the
driver (IFETCH, 16 R386). -/
def execInstructionFetch (wid slot : Nat) (s : State) : Out :=
  match s.split? wid slot with
  | none => .next s
  | some p =>
    if p.st ≠ .ready then .next s
    else
      match s.fetched wid p.pc with
      | .ok _ => .next s
      | .error pc =>
        let b := s.blockOf wid
        let asid := (s.launchD b.launch).asid
        let va := 8 * pc.toNat
        let gen := s.genOf b.ck asid
        match s.fetchHome b asid gen va with
        | (s1, none) => .next (miss s1 wid b.pkg 0 asid va)
        | (s1, some (hp, hd)) =>
          let home := 128 * hp + hd
          let now := kgetD (s1.die home).genReg asid 0
          if (s1.pkg hp).failed && !(s1.pkg hp).known then .next s
          else if !s1.dieLive home then .next (s1.raiseAt wid slot (.issue 1) fcIaccess (BitVec.ofNat 64 va))
          else if now ≠ gen then
            let s2 := (s1.count home tcStale).modCore b.ck fun c => { c with gens := kput c.gens asid now }
            .next (s2.modDie b.dk fun d => { d with plc := d.plc.filter fun e => e.2.asid != asid || e.2.gen == now })
          else
            match s1.tlbHit home asid gen va with
            | some leaf => .next (s1.fetchLeaf wid slot pc gen hp hd leaf)
            | none =>
              match (s1.ctlWalk home asid gen va).1 with
              | some leaf => .next ((s1.ctlMiss home asid gen va).1.fetchLeaf wid slot pc gen hp hd leaf)
              | none => .next (miss s1 wid hp hd asid va)
where
  /-- The record of a fetch fault; while the queue is full the request waits. -/
  miss (s : State) (wid pkg die asid va : Nat) : State :=
    (s.ask pkg die asid (s.genOf (s.blockOf wid).ck asid) (pageOf va) akFetch (s.launchOf wid).queue []).getD s

end Sys2Proof.Machine
end

