-- ==== Sys2Proof/Machine/Driver.lean ====
section
/-! DEFINITION. The driver's answers to translation faults (16 R386), generation bumps (R383) and frame records (R387). -/

namespace Sys2Proof.Machine

/-- The record that an answer names. -/
def State.ticketOf (s : State) (num pkg : Nat) : Option (Nat × Ticket) :=
  s.tickets.find? fun t => t.2.num == num && t.2.pkg == pkg

/-- Send a request that waited for the driver again, under the generation of its core (16 R386). -/
def State.replay (s : State) (id : Nat) : State :=
  match kget? s.reqs id with
  | none => s
  | some r => if r.phase = .xlate then s.sendOut id { r with phase := .out, gen := s.genOf (s.blockOf r.wid).ck r.asid } true else s

/-- TFANS_REPLAY (16 R386). Engine work and fetches that wait go on by themselves. -/
def execTfansReplay (ticket pkg : Nat) (s : State) : Out :=
  match s.ticketOf ticket pkg with
  | none => .next s
  | some (k, t) => .next (t.reqs.foldl State.replay { s with tickets := kdel s.tickets k })

/-- An access declared invalid (16 R385, 07 R180): ACCESS, a REFUSED write, or a LOCK that faults. -/
def State.denyReq (s : State) (id : Nat) : State :=
  match kget? s.reqs id with
  | none => s
  | some r =>
    if r.phase ≠ .xlate then s
    else
      let info := pageInfo none r.va.toNat r.akind
      match r.kind with
      | .lock | .lockTry => s.lockFault id r fcAccess (info ||| 4)
      | .load | .atom | .lkqry => (s.faultReq id fcAccess info).settleFaulted r.wid
      | _ => s.failPosted id r cbRefused

/-- The splits whose next instruction lies on the page of a fetch record. -/
def State.fetchers (s : State) (t : Ticket) : List (Nat × Nat) :=
  s.warps.flatMap fun (q : Nat × Warp) =>
    let b := s.blockD q.2.block
    if b.resident && (s.launchD b.launch).asid == t.asid then
      (q.2.table.filter fun p => p.2.st == .ready && decide (p.1 < 8) &&
        (match s.fetched q.1 p.2.pc with
         | .ok _ => false
         | .error pc => 8 * pc.toNat / 4096 * 4096 == t.page)).map fun p => (q.1, p.1)
    else []

/-- TFANS_INVALID (16 R385, R386): accesses become ACCESS, REFUSED or IACCESS; engine work is refused the page. -/
def execTfansInvalid (ticket pkg : Nat) (s : State) : Out :=
  match s.ticketOf ticket pkg with
  | none => .next s
  | some (k, t) =>
    let s1 : State := { s with tickets := kdel s.tickets k }
    if t.kind = akFetch then
      .next ((s1.fetchers t).foldl (fun s q => s.raiseAt q.1 q.2 (.issue 1) fcIaccess (BitVec.ofNat 64 (8 * (s.splitD q.1 q.2).pc.toNat))) s1)
    else
      .next (t.reqs.foldl (fun s id => { s.denyReq id with works := kmod (s.denyReq id).works id fun e =>
        { e with denied := ninsert e.denied t.page } }) s1)

/-! ## Generation bumps -/

/-- Whether an address lies in the ranges of a bump. -/
def Bump.covers (b : Bump) (va : Nat) : Bool := b.ranges.any fun r => decide (r.1 ≤ va) && decide (va < r.1 + 4096 * r.2)

/-- The bump request at a physical address (16 R383): its ASID and ranges. -/
def State.readBump (s : State) (addr : Nat) : Nat × List (Nat × Nat) :=
  let x := bytesNat (memRead s.mem (Config.physByte addr) 64)
  (nbits x 0 16, (List.range (nbits x 16 5)).map fun i => (nbits x (64 + 128 * i) 64, nbits x (128 + 128 * i) 64))

/-- Discard a copy's lines in the ranges of a bump: a dirty byte goes to its home frame first (16 R383 step 2). -/
def State.bumpCopy (s : State) (b : Bump) (asid dk : Nat) (q : Nat × Copy) : State :=
  if q.2.asid ≠ asid || !q.2.onDie dk || !b.covers (512 * q.2.blk) then s
  else
    { s with copies := kdel s.copies q.1 }.putDirty levels none asid q.2.blk q.2.leaf (s.below q.2).2 (q.2.dirtyBytes fun _ => true)

/-- A die takes the next generation: its register for the ASID, and the copies, home copies and frame records of the ranges, which go
(16 R383 steps 1 and 2, R387). The requests that its controllers have accepted go on under their own leaf (step 3). -/
def State.switchDie (s : State) (b : Bump) (asid dk : Nat) : State :=
  let s1 := s.modDie dk fun d =>
    { d with genReg := kput d.genReg asid b.gen
             frames := d.frames.filter fun f => !(f.2.asid == asid && b.covers f.2.page) }
  let gone (k : Nat) : Bool := k / 2 ^ 64 == dk && k / 2 ^ 48 % 2 ^ 16 == asid && b.covers (512 * (k % 2 ^ 48))
  let s2 := s1.copies.foldl (fun s q => s.bumpCopy b asid dk q) s1
  { s2 with homes := s2.homes.filter fun q => !gone q.1 }

/-- Start a bump (16 R383): GEN of every replica takes the next generation, and at a multiple of 256 every core's table is written by
GENSET; the live dies follow. -/
def State.startBump (s : State) (addr : Nat) : State :=
  let (asid, ranges) := s.readBump addr
  let g := (wf (s.asidEntry s.fe.primary asid) 32 16 + 1) % 65536
  let pkgs := (List.range Config.packages).filter fun p => s.pkgLive p
  let dies := pkgs.flatMap fun p => (s.liveDies p).map fun d => 128 * p + d
  let s1 := pkgs.foldl (fun s p => { s with mem := memWrite s.mem (asidKey p asid + 4) (natBytes g 2) }) s
  let s2 := if g % 256 = 0 then
      s1.queueCmd (dies.flatMap fun dk => s1.dispCores dk 63) ⟨3, BitVec.ofNat 64 asid, BitVec.ofNat 64 g, 0, 0, false⟩
    else s1
  { s2 with bumps := kput s2.bumps asid { addr := addr, gen := g, ranges := ranges, clk := s.clk, dies := dies } }

/-- The dies that take the next generation by now: the manual gives no time for it, and each has its own (DESIGN CHOICE, log 59). -/
def State.switching (s : State) (b : Bump) : List Nat :=
  b.dies.filter fun dk => !s.dieLive dk || decide (b.clk + Config.bumpDelay b.clk dk ≤ s.clk)

/-- Whether an access that an earlier generation gave its translation, issued by the clk of the last die's change, is still under way
(16 R383 step 3, R384). -/
def State.oldAccess (s : State) (b : Bump) (asid : Nat) : Bool :=
  (s.reqs.any fun q =>
    let r := q.2
    r.asid == asid && r.gen != b.gen && decide (r.clk ≤ b.clk) && b.covers (r.va.toNat % 2 ^ 57)
      && (r.phase == .reply || r.phase == .applied || (r.phase == .out && r.tr.isSome)))
    || s.works.any fun q => q.2.kind == .kmv && s.workAsid q.2 == asid && q.2.gen != b.gen && q.2.phase == .running

/-- Whether a bump has something to do: a die that changes now, or its end. -/
def State.bumpDue (s : State) (asid : Nat) : Bool :=
  match kget? s.bumps asid with
  | none => false
  | some b => !(s.switching b).isEmpty || (b.dies.isEmpty && !s.oldAccess b asid)

/-- GENCMD (16 R383): a bump starts only after the previous bump of its ASID has ended. -/
def execGencmd (addr : Nat) (s : State) : Out :=
  if (kget? s.bumps (s.readBump addr).1).isSome then .next { s with bumpReqs := s.bumpReqs ++ [addr] }
  else .next (s.startBump addr)

/-- BUMPDONE (16 R383): dies whose time has come change to the new generation; once all have, and no access of an older one is under
way, the record is posted and the next request for the ASID starts. -/
def execBumpdone (asid : Nat) (s : State) : Out :=
  match kget? s.bumps asid with
  | none => .next s
  | some b =>
    let now := s.switching b
    if !now.isEmpty then
      let left := b.dies.filter fun dk => !now.contains dk
      let s1 := (now.filter fun dk => s.dieLive dk).foldl (fun s dk => s.switchDie b asid dk) s
      .next { s1 with bumps := kput s1.bumps asid { b with dies := left, clk := if left.isEmpty then s.clk else b.clk } }
    else if !b.dies.isEmpty || s.oldAccess b asid then .next s
    else
      let s1 := { s with bumps := kdel s.bumps asid }.fqPost
        (fqBumpdone + 2 ^ 8 * 0xFFF + 2 ^ 20 * asid + 2 ^ 36 * b.gen) b.addr 0 0
      match s1.bumpReqs.find? fun a => (s1.readBump a).1 == asid with
      | none => .next s1
      | some a => .next ({ s1 with bumpReqs := s1.bumpReqs.erase a }.startBump a)

/-- FRAMEFREE (16 R387, R390). -/
def execFramefree (v : Nat) (s : State) : Out :=
  .next (s.modDie (128 * nbits v 7 9 + nbits v 0 7) fun d => { d with frames := kdel d.frames (nbits v 16 24) })

end Sys2Proof.Machine
end

