-- ==== Sys2Proof/Machine/LockEvents.lean ====
section
/-! DEFINITION. The steps of line locks: requests at the home, grants, timeouts, wait-for records and the save and restore of
holders and waiters (12 R311 to R317, 16 R389). -/

namespace Sys2Proof.Machine

/-- A lock request waits for an entry that its slice keeps in HBM (12 R311). -/
def State.waitEntry (s : State) (id dk line : Nat) : State :=
  s.modReq id fun x => { x with filled := true, arrive := s.clk + s.rowTime (dk * 2 ^ 36 + lineVa line % 2 ^ 36) }

/-- A LOCK or LOCK.try at its home (07 R195, 12 R313); its completion fault comes back to the core as a status would (07 R179). -/
def State.lockAtHome (s : State) (id : Nat) (kind : ReqKind) : Out :=
  match kget? s.reqs id with
  | none => .next s
  | some r =>
    let line := lineOf r.asid r.va.toNat r.size
    let dk := 128 * r.pkg + r.die
    if r.kind = kind ∧ r.phase = .failed ∧ r.arrive ≤ s.clk then .next (s.lockFault id r r.fault r.info)
    else if r.kind ≠ kind || !s.arrived r || !s.mayMake r then .next s
    else if s.lockFar dk line && !r.filled then .next (s.waitEntry id dk line)
    else
      match s.homeState r with
      | .peer => if (s.pkg r.pkg).known then .next (s.sendGrant r.wid line 4 0 dk s.clk) else .next s
      | .dead => .next (s.refuseRead id fcAccess (pageInfo none r.va.toNat akRmw ||| 4) (s.backTime r))
      | .cut => .next (s.loseReq id r)
      | .ok leaf =>
        if !r.permitted leaf then .next (s.refuseRead id fcAccess (pageInfo (some leaf) r.va.toNat akRmw ||| 4) (s.backTime r))
        else if !leafTr leaf then .next (s.refuseRead id fcLockuntr (lineWord line) (s.backTime r))
        else if s.lineLost r leaf then .next (s.refuseRead id fcCohlost (lineWord line) (s.backTime r))
        else
          let s1 := s.modReq id fun r => { r with phase := .applied }
          .next (s1.lockArrive dk line r.wid (kind == .lockTry) (s.timeTo r.wid r.asid r.va.toNat dk + 4))
      | _ => .next s

/-- LOCK_REQUEST (12 R313). -/
def execLockRequest (r : Nat) (s : State) : Out := s.lockAtHome r .lock

/-- LOCK_TRY_REQUEST (12 R313). -/
def execLockTryRequest (r : Nat) (s : State) : Out := s.lockAtHome r .lockTry

/-- UNLOCK_REQUEST (12 R313, 07 R196): the home grants the first present waiter or frees the line. A LOST directory entry
does not hold the lock back; the data that would have travelled to the waiter is a write to a LOST line, dropped and reported as
COHLOST (16 R388, 07 R180; DEDUCED, log 79). -/
def execUnlockRequest (id : Nat) (s : State) : Out :=
  match kget? s.reqs id with
  | none => .next s
  | some r =>
    let line := lineOf r.asid r.va.toNat r.size
    let dk := 128 * r.pkg + r.die
    if r.kind ≠ .unlock || !s.arrived r || !s.mayMake r then .next s
    else if s.lockFar dk line && !r.filled then .next (s.waitEntry id dk line)
    else
      match s.homeState r with
      | .peer => if (s.pkg r.pkg).known then .next (s.failPosted id r cbDpeer) else .next s
      | .dead => .next (s.refuseWrite id r cbRefused (s.backTime r))
      | .cut => .next (s.failPosted id r cbDlink)
      | .ok leaf =>
        if !r.permitted leaf then .next (s.refuseWrite id r cbRefused (s.backTime r))
        else
          let e := s.lockEntry dk line
          let travels := e.holder == some r.wid && e.queue.any (·.present)
          let s1 := s.unlockArrive dk line r.wid r.clk
          if travels && s.lineLost r leaf then .next (s1.refuseWrite id r cbCohlost (s.backTime r))
          else
            .next ({ s1 with nextId := s1.nextId + 1 }.modReq id fun r =>
              { r with phase := .applied, arrive := s.backTime r, place := s1.nextId })
      | _ => .next s

/-- LOCK_GRANT (07 R196, R197): a status reaches the waiter. -/
def execLockGrant (g : Nat) (s : State) : Out :=
  match kget? s.grants g with
  | none => .next s
  | some x =>
    if s.clk < x.due then .next s
    else
      let leaf := (s.lookup (x.dk / 128) (lineAsid x.line) (lineVa x.line)).map (·.1)
      let s1 := { s with grants := kdel s.grants g }
      let s2 := if x.code = 2 then s1.count (s1.blockOf x.wid).dk tcLockto else s1
      .next (s2.lockAnswer x leaf)

/-- LOCK_TIMEOUT_EXPIRY (12 R315): TLEFT has reached zero and the core sends a withdraw; the wait goes on. -/
def execLockTimeoutExpiry (wid k : Nat) (s : State) : Out :=
  match s.warp? wid with
  | none => .next s
  | some w =>
    match w.locks[k]? with
    | none => .next s
    | some x =>
      let sent := w.table.any fun t => t.2.eff == .lockWait && t.2.wobj == lineWord x.line
      if x.held || x.withdrawn || x.tleft ≠ 0 || !sent || w.captured then .next s
      else
        let dk := s.lockHome wid x.line
        let d : Withdraw := ⟨wid, x.line, dk, s.clk + s.timeTo wid (lineAsid x.line) (lineVa x.line) dk, false⟩
        let s1 := { s with withdraws := kput s.withdraws s.nextId d, nextId := s.nextId + 1 }
        .next (s1.modWarp wid fun w =>
          { w with locks := w.locks.map fun q => if q.line = x.line then { q with withdrawn := true } else q })

/-- Whether the request that a withdraw follows on its channel has still to reach the entry (12 R315, R327). -/
def State.lockUnderWay (s : State) (x : Withdraw) : Bool :=
  s.reqs.any fun q => q.2.wid == x.wid && q.2.kind == .lock && q.2.unmade && lineOf q.2.asid q.2.va.toNat q.2.size == x.line

/-- WITHDRAW (12 R313, R315). -/
def execWithdraw (d : Nat) (s : State) : Out :=
  match kget? s.withdraws d with
  | none => .next s
  | some x =>
    if s.clk < x.due || (s.pkg (x.dk / 128)).failed || s.lockUnderWay x then .next s
    else if s.lockFar x.dk x.line && !x.slow then
      .next { s with withdraws := kmod s.withdraws d fun x =>
        { x with slow := true, due := s.clk + s.rowTime (x.dk * 2 ^ 36 + lineVa x.line % 2 ^ 36) } }
    else .next ({ s with withdraws := kdel s.withdraws d }.withdrawArrive x.dk x.line x.wid)

/-- The chain of waiters from a record back to a first waiter (16 R389). -/
def cycleFrom (recs : List WaitFor) (start : Nat) : Nat → WaitFor → Option (List WaitFor)
  | 0, _ => none
  | n + 1, r =>
    if r.hkey = start then some [r]
    else (recs.filter fun q => q.key == r.hkey).findSome? fun q => (cycleFrom recs start n q).map (r :: ·)

/-- Place of a record in the order of members (16 R389). -/
def WaitFor.rank (r : WaitFor) : Nat := (128 * r.pkg + r.die) * 2 ^ 64 + r.key

/-- A cycle from its lowest member on. -/
def rotateLow (l : List WaitFor) : List WaitFor :=
  match leastBy WaitFor.rank l with
  | none => l
  | some m => l.dropWhile (fun q => q.rank != m.rank) ++ l.takeWhile fun q => q.rank != m.rank

/-- LOCKCYCLE (16 R389): one record for each member of a new cycle. -/
def State.reportCycle (s : State) (r : WaitFor) : State :=
  let recs := s.dies.flatMap fun d => d.2.waits
  match cycleFrom recs r.key (recs.length + 1) r with
  | none => s
  | some l =>
    if l.all (·.told) then s
    else
      let m := (rotateLow l).take 255
      let s1 := (List.zip (List.range m.length) m).foldl (fun s (x : Nat × WaitFor) =>
        s.fqPost (fqLockcycle + 2 ^ 8 * 0xFFF + 2 ^ 20 * lineAsid x.2.line + 2 ^ 36 * m.length + 2 ^ 44 * x.1)
          (lineVa x.2.line) (x.2.pkg + 2 ^ 9 * x.2.die) x.2.key) s
      { s1 with dies := kmap s1.dies fun _ (d : Die) =>
          { d with waits := d.waits.map fun w => if l.any (fun q => q.key == w.key && q.line == w.line) then { w with told := true } else w } }

/-- WAIT_FOR_RECORD (12 R315): the record reaches the waiter's die controller and sets SIG bit 2. -/
def execWaitForRecord (n : Nat) (s : State) : Out :=
  match kget? s.waitFors n with
  | none => .next s
  | some r =>
    if s.clk < r.clk then .next s
    else
      let dk := 128 * r.pkg + r.die
      let r := { r with clk := s.clk }
      let s1 := { s with waitFors := kdel s.waitFors n }.modDie dk fun d => { d with waits := d.waits ++ [r] }
      .next ((s1.signal dk 2).reportCycle r)

/-- WAIT_FOR_RECORD_AGE_OUT (16 R389): records older than 24,000,000 clk are dropped. -/
def execWaitForRecordAgeOut (pkg die : Nat) (s : State) : Out :=
  .next (s.modDie (128 * pkg + die) fun d => { d with waits := d.waits.filter fun r => decide (s.clk ≤ r.clk + 24000000) })

/-- A lock slot of a warp and its home, where the warp is saved or not as asked and word of its last move has reached the home
(14 R347). -/
def State.slotOf (s : State) (wid k : Nat) (saved held : Bool) : Option (Nat × Nat) :=
  match s.warp? wid with
  | none => none
  | some w =>
    match w.locks[k]? with
    | none => none
    | some x =>
      let dk := s.lockHome wid x.line
      if w.captured = saved ∧ x.held = held ∧ w.movedAt + s.timeTo wid (lineAsid x.line) (lineVa x.line) dk ≤ s.clk then some (dk, x.line)
      else none

/-- HOLDER_SAVED (12 R313). -/
def execHolderSaved (wid k : Nat) (s : State) : Out :=
  match s.slotOf wid k true true with
  | some (dk, line) => .next (s.holderSaved dk line wid)
  | none => .next s

/-- HOLDER_RESTORED (12 R313). -/
def execHolderRestored (wid k : Nat) (s : State) : Out :=
  match s.slotOf wid k false true with
  | some (dk, line) => .next (s.holderRestored dk line wid)
  | none => .next s

/-- WAITER_SAVED (12 R313). -/
def execWaiterSaved (wid k : Nat) (s : State) : Out :=
  match s.slotOf wid k true false with
  | some (dk, line) => .next (s.waiterSaved dk line wid)
  | none => .next s

/-- WAITER_RESTORED (12 R313). -/
def execWaiterRestored (wid k : Nat) (s : State) : Out :=
  match s.slotOf wid k false false with
  | some (dk, line) => .next (s.waiterRestored dk line wid)
  | none => .next s

/-- Whether the holder of an entry has ended fatally (12 R314): its warp has been aborted, or the core, die or package that it runs on is
known to be lost; a saved holder runs on none. -/
def State.holderGone (s : State) (e : LockEntry) : Bool :=
  match e.holder with
  | none => e.lostHolder
  | some w =>
    let dk := 128 * e.hpkg + e.hdie
    match s.warp? w with
    | none => true
    | some x => (s.blockD x.block).aborted
        || (!e.saved && ((s.pkg e.hpkg).known || (s.die dk).dead || (s.core (48 * dk + e.hcore)).dead))

/-- HOLDER_FATAL_END (12 R314): the home learns that a holder's warp has ended or that its unit is lost. -/
def execHolderFatalEnd (pkg die line : Nat) (s : State) : Out :=
  let dk := 128 * pkg + die
  if s.holderGone (s.lockEntry dk line) then .next (s.holderFatal dk line) else .next s

end Sys2Proof.Machine
end

