-- ==== Sys2Proof/Machine/Links.lean ====
section
/-! DEFINITION. Links and planes (17 R399 to R404, 11 R295) and soft errors (R402). -/

namespace Sys2Proof.Machine

/-! ## Planes -/

/-- The compute die that manages an Elpor port (17 R406). -/
def portDie (pkg plane : Nat) : Nat := 128 * pkg + 16 * (plane % 64 / 8) + (if plane < 64 then 0 else 15)

/-- Set or clear a plane of a live-plane mask. -/
def setPlane (m : BitVec 128) (plane : Nat) (on : Bool) : BitVec 128 :=
  if on then m ||| (1#128 <<< plane) else m &&& ~~~(1#128 <<< plane)

/-- The switch reports a plane to every other package, which adopts it within 12,000 clk (17 R400, R404). -/
def State.announcePlane (s : State) (pkg plane : Nat) (on : Bool) : State :=
  ((List.range Config.packages).filter fun p => s.pkgLive p && p != pkg).foldl (fun s p =>
    s.modPkg p fun x => { x with adopt := x.adopt ++ [(plane, on, s.clk + Config.adoptDelay p s.clk % 12001)] }) s

/-- A plane leaves the mask of its package at once (17 R403). -/
def State.dropPlane (s : State) (pkg plane : Nat) : State :=
  (s.modPkg pkg fun x => { x with live := setPlane x.live plane false }).announcePlane pkg plane false

/-- A plane rejoins (17 R404): the group table has been sent on it. -/
def State.rejoinPlane (s : State) (pkg plane : Nat) : State :=
  (s.modPkg pkg fun x => { x with live := setPlane x.live plane true, rejoins := (x.rejoins + 1) % 2 ^ 64 }).announcePlane pkg plane true

/-- PLANE_MASK_ADOPT (17 R400, R404): a package adopts the reports that are due. -/
def execPlaneMaskAdopt (pkg : Nat) (s : State) : Out :=
  let due := (s.pkg pkg).adopt.filter fun a => decide (a.2.2 ≤ s.clk)
  .next (s.modPkg pkg fun x =>
    { x with
      adopt := x.adopt.filter fun a => !decide (a.2.2 ≤ s.clk)
      live := due.foldl (fun m a =>
        setPlane m a.1 (a.2.1 && x.planeen.getLsbD a.1 && !x.deadPorts.any fun d => d.1 == a.1)) x.live })

/-- PLANEEN (17 R404): cleared bits remove planes as dead ports do, set ones let a plane with a live port rejoin. -/
def execPlaneen (pkg : Nat) (v : BitVec 128) (s : State) : Out :=
  let old := (s.pkg pkg).planeen
  let s1 := s.modPkg pkg fun x => { x with planeen := v }
  let s2 := ((List.range 128).filter fun p => old.getLsbD p && !v.getLsbD p).foldl (fun s p => s.dropPlane pkg p) s1
  .next (((List.range 128).filter fun p => !old.getLsbD p && v.getLsbD p && !s.portDead pkg p).foldl (fun s p => s.rejoinPlane pkg p) s2)

/-- PORT_RETRAIN (17 R404): a dead port trains again every 1,200,000 clk. -/
def execPortRetrain (pkg plane : Nat) (good : Bool) (s : State) : Out :=
  match (s.pkg pkg).deadPorts.find? fun d => d.1 == plane with
  | none => .next s
  | some (_, t) =>
    if s.clk < t + 1200000 then .next s
    else
      let s1 := s.modPkg pkg fun x => { x with deadPorts := x.deadPorts.filter fun d => d.1 != plane }
      if !good then .next (s1.modPkg pkg fun x => { x with deadPorts := x.deadPorts ++ [(plane, s.clk)] })
      else if (s.pkg pkg).planeen.getLsbD plane then .next (s1.rejoinPlane pkg plane)
      else .next s1

/-- MCAST_GROUP_WRITE (12 R325, 17 R401): every live plane has the entry. -/
def execMcastGroupWrite (g : Nat) (members : BitVec 512) (asid : BitVec 16) (valid : Bool) (s : State) : Out :=
  .next { s with groups := kput s.groups (g % 4096) ⟨members, asid, valid⟩ }

/-! ## Retry -/

/-- The die whose counters count a link's events (17 R406). -/
def linkDie (link : Nat) : Nat := if link < 2 ^ 20 then portDie (link % 512) (link / 512) else (link - 2 ^ 20) / 4

/-- A flit is sent again (17 R403, R406). -/
def State.retryFlit (s : State) (link : Nat) (x : Link) : State :=
  { s with links := kput s.links link { x with retries := x.retries + 1, sent := s.clk } }.count (linkDie link) tcLretry

/-- Whether there is such a link: no die-to-die link leaves the mesh (00 R4). -/
def linkExists (link : Nat) : Bool :=
  if link < 2 ^ 20 then decide (link / 512 < 128)
  else
    let d := (link - 2 ^ 20) / 4 % 128
    match (link - 2 ^ 20) % 4 with | 0 => dieX d != 0 | 1 => dieX d != 15 | 2 => dieY d != 0 | _ => dieY d != 7

/-- FLIT_CRC_FAIL (17 R403): the receiver drops the flit and asks for it again. -/
def execFlitCrcFail (link : Nat) (s : State) : Out :=
  let x : Link := (kget? s.links link).getD ⟨0, s.clk, s.clk⟩
  if linkExists link && decide (x.retries < 16) then .next (s.retryFlit link x) else .next s

/-- FLIT_RETRY_TIMER (17 R403): 128 clk after its sending the flit is sent again, or it has been acknowledged. -/
def execFlitRetryTimer (link : Nat) (s : State) : Out :=
  match kget? s.links link with
  | none => .next s
  | some x =>
    if s.clk < x.sent + 128 then .next s
    else if Config.flitAck link x.sent then .next { s with links := kdel s.links link }
    else if x.retries < 16 then .next (s.retryFlit link x)
    else .next s

/-- Whether a link is to be declared dead (17 R403). -/
def State.linkLost (s : State) (link : Nat) : Bool :=
  match kget? s.links link with
  | none => false
  | some x =>
    decide (x.first + 2400 ≤ s.clk)
      || (decide (16 ≤ x.retries) && decide (x.sent + 128 ≤ s.clk) && !Config.flitAck link x.sent)

/-- An invalidation whose acknowledgement is lost puts its line's entry in LOST (11 R290). -/
def State.loseInval (s : State) (v : Inval) : State :=
  match kget? s.reqs v.req with
  | none => s
  | some r =>
    match execLost r.pkg r.die (lineOf v.asid v.line v.grain) s with
    | .next s1 => s1
    | _ => s

/-- Engine work on a lost plane: an MSGX goes to its destination as lost; no member of an MCST writes; a kiln request is lost. -/
def State.loseWork (s : State) (id : Nat) (e : Work) : State :=
  match e.kind with
  | .mcst =>
    let l := (List.range 512).filter fun p => (kgetD s.groups e.grp ⟨0, 0, false⟩).members.getLsbD p
    { s with free := s.free + 1 }.modWork id fun x =>
      { x with phase := .running, wait := [], base := l.length, next := 0, fails := l.map fun p => (p, ecDlink, p, s.memberDie e p) }
  | .kmv => s.loseKmv id e
  | _ => s.modWork id fun x => { x with plane := 128 }

/-- LINK_DEAD (17 R403, 11 R295). An Elpor port takes its plane from its package's mask; the flits that have waited to cross it are
lost. Traffic goes around a dead die-to-die link; where no route is left it is lost, which a request meets at its arrival
(`State.noRoute`). -/
def execLinkDead (link : Nat) (s : State) : Out :=
  if !s.linkLost link then .next s
  else
    let dk := linkDie link
    let since := match kget? s.links link with | some x => x.first | none => s.clk
    let s1 := ({ s with links := kdel s.links link }.count dk tcLdead).signal dk 5
    if link < 2 ^ 20 then
      let pkg := link % 512
      let plane := link / 512
      let mine := s.reqs.filter fun q =>
        q.2.phase == .out && q.2.tr.isNone && decide (since < q.2.arrive) && q.2.plane == plane
          && ((s.siteOf q.2.wid).1 == pkg || q.2.pkg == pkg)
      let acks := s.invals.filter fun q =>
        match kget? s.reqs q.2.req with
        | some r => planeOf q.2.asid q.2.line == plane && r.pkg != q.2.dk / 128 && (r.pkg == pkg || q.2.dk / 128 == pkg)
        | none => false
      let works := s.works.filter fun q => (q.2.kind.isSend || q.2.kind == .kmv) && q.2.phase == .sent && q.2.plane == plane
        && decide (since < q.2.due)
        && ((s.blockD q.2.block).pkg == pkg || (q.2.kind == .msgx && wf q.2.b 0 9 == pkg)
          || (q.2.kind == .kmv && q.2.wait.headD 0 / 128 == pkg))
      let s2 := (s1.modPkg pkg fun x => { x with deadPorts := x.deadPorts ++ [(plane, s.clk)] }).dropPlane pkg plane
      let s3 := mine.foldl (fun s q => s.loseReq q.1 q.2) s2
      let s4 := acks.foldl (fun s q => s.loseInval q.2) s3
      .next (works.foldl (fun s q => s.loseWork q.1 q.2) s4)
    else
      let dir := (link - 2 ^ 20) % 4
      let peer := match dir with | 0 => dk - 1 | 1 => dk + 1 | 2 => dk - 16 | _ => dk + 16
      let back := match dir with | 0 => 1 | 1 => 0 | 2 => 3 | _ => 2
      .next ((s1.modDie dk fun d => { d with deadLinks := ninsert d.deadLinks dir }).modDie peer fun d =>
        { d with deadLinks := ninsert d.deadLinks back })

/-! ## Soft errors -/

/-- ECC_CORRECTABLE (17 R402): corrected, and counted. -/
def execEccCorrectable (pkg die : Nat) (s : State) : Out := .next (s.count (128 * pkg + die) tcCecc)

/-- The die that an uncorrectable error is counted on. -/
def State.eccDie (s : State) (e : EccSite) : Nat :=
  match e with
  | .register w => (s.blockOf w).dk
  | .localStore b => (s.blockD b).dk
  | .copy c => let p := c / 2 ^ 64; if p % 2 = 1 then p / 2 else p / 2 / 48
  | .hbm p d _ => 128 * p + d
  | .directory p d _ => 128 * p + d
  | .lockHolder p d _ => 128 * p + d
  | .lockWaiter p d _ _ => 128 * p + d
  | .tlb p d _ => 128 * p + d

/-- An uncorrectable error in a copy (17 R402): a clean sector is discarded, a dirty one is poisoned; the model takes the whole
copy, as one error says no sector. -/
def State.eccCopy (s : State) (c : Nat) : State :=
  match kget? s.copies c with
  | none => s
  | some x =>
    let bad := someSectors x.dirty
    if bad = 0 then { s with copies := kdel s.copies c }
    else { s with copies := kput s.copies c { x with valid := x.valid &&& bad, poison := x.poison ||| bad } }

/-- ECC_UNCORRECTABLE (17 R402). -/
def execEccUncorrectable (e : EccSite) (s : State) : Out :=
  let s1 := s.count (s.eccDie e) tcUecc
  match e with
  | .register w => .next (match s1.warp? w with | some x => s1.abortLaunch (s1.blockD x.block).launch | none => s1)
  | .localStore b => .next (match s1.block? b with | some x => s1.abortLaunch x.launch | none => s1)
  | .copy c => .next (s1.eccCopy c)
  | .hbm p d sector => .next { s1 with memPoison := ninsert s1.memPoison ((128 * p + d) * 2 ^ 31 + sector % 2 ^ 31) }
  | .directory p d line => execLost p d line s1
  | .lockHolder p d line =>
    let dk := 128 * p + d
    let x := s1.lockEntry dk line
    if x.holder.isNone then .next s1
    else .next (({ s1 with lockTab := kput s1.lockTab (lineKey dk line) { x with holder := none, saved := false, lostHolder := true } }).holderFatal dk line)
  | .lockWaiter p d line key =>
    let dk := 128 * p + d
    let x := s1.lockEntry dk line
    .next (s1.setLock dk line { x with queue := x.queue.filter fun w => w.key != key })
  | .tlb p d key => .next (s1.modDie (128 * p + d) fun x => { x with tlb := kdel x.tlb key })

end Sys2Proof.Machine
end

