-- ==== Sys2Proof/Machine/Fleet.lean ====
section
/-! DEFINITION. The fleet: units that fail (17 R405), telemetry (R406), power states (R407, R408), attestation (R409), start and
update of dies (16 R394 to R396), and the redundant host pair (R397). -/

namespace Sys2Proof.Machine

/-! ## Failing units -/

/-- Abort every launch that holds a block that a test selects (17 R405). -/
def State.abortWhere (s : State) (test : Block → Bool) : State :=
  ((s.blocks.filter fun q => !q.2.saved && test q.2).foldl (fun a q => ninsert a q.2.launch) []).foldl State.abortLaunch s

/-- CORE_FAIL (17 R405, 16 R393): the core is masked at once; every launch that holds a block on it is aborted. -/
def execCoreFail (pkg die core : Nat) (s : State) : Out :=
  let ck := 48 * (128 * pkg + die) + core
  .next ((s.maskCore ck).abortWhere fun b => b.ck == ck)

/-- DIE_HEARTBEAT (17 R405). -/
def execDieHeartbeat (pkg die : Nat) (s : State) : Out :=
  let dk := 128 * pkg + die
  if (s.die dk).beating && !(s.die dk).dead then .next (s.modDie dk fun d => { d with lastBeat := s.clk }) else .next s

/-- The mesh neighbours of a die. -/
def neighbours (d : Nat) : List Nat := (List.range 128).filter fun x => meshHops x d == 1

/-- DIE_LOST (17 R405): a die silent for 12,000 clk is masked with its cores; its launches are aborted; its neighbours know. -/
def execDieLost (pkg die : Nat) (s : State) : Out :=
  let dk := 128 * pkg + die
  if (s.die dk).dead || decide (s.clk < (s.die dk).lastBeat + 12000) then .next s
  else
    let s1 := (s.modDie dk fun d => { d with dead := true, beating := false, masks := [] }).abortWhere fun b => b.dk == dk
    .next ((neighbours die).foldl (fun s x => s.signal (128 * pkg + x) 5) s1)

/-- PACKAGE_HEARTBEAT (17 R405). -/
def execPackageHeartbeat (pkg : Nat) (s : State) : Out :=
  if (s.pkg pkg).failed then .next s else .next (s.modPkg pkg fun p => { p with lastBeat := s.clk })

/-- The waiters of locks homed in a package that has failed receive DEADHOME (12 R314, 07 R197); its lock entries, directories
and copies are gone. -/
def State.dropHome (s : State) (pkg : Nat) : State :=
  let at_ (key : Nat) : Bool := key / 2 ^ 73 / 128 == pkg
  let s1 := (s.lockTab.filter fun q => at_ q.1).foldl (fun s q =>
    q.2.queue.foldl (fun s w => s.sendGrant w.key (q.1 % 2 ^ 73) 4 0 (q.1 / 2 ^ 73) s.clk) s) s
  { s1 with
    lockTab := s1.lockTab.filter fun q => !at_ q.1
    dirs := s1.dirs.filter fun q => !at_ q.1
    homes := s1.homes.filter fun q => q.1 / 2 ^ 64 / 128 != pkg
    copies := s1.copies.filter fun q => (if q.2.place % 2 = 1 then q.2.place / 2 else q.2.place / 2 / 48) / 128 != pkg
    mem := s1.mem.filter fun q => q.1 / 2 ^ 36 / 128 != pkg
    memPoison := s1.memPoison.filter fun x => x / 2 ^ 31 / 128 != pkg }

/-- PACKAGE_DEAD (17 R405): a package that no plane has heard for 12,000 clk is declared dead; launches with a cluster there are
aborted. -/
def execPackageDead (pkg : Nat) (s : State) : Out :=
  let p := s.pkg pkg
  if p.known || !p.failed || decide (s.clk < p.lastBeat + 12000) then .next s
  else
    let s1 := ((s.modPkg pkg fun p => { p with known := true }).abortWhere fun b => b.pkg == pkg).dropHome pkg
    .next (((List.range 128).map fun d => 128 * s.fe.primary + d).foldl (fun s dk => s.signal dk 5) s1)

/-! ## Telemetry -/

/-- CLEAR (17 R406): each 1 clears a counter. -/
def execClear (pkg die v : Nat) (s : State) : Out :=
  .next (s.modDie (128 * pkg + die) fun d => { d with counters := d.counters.filter fun q => !(decide (q.1 < 25) && v.testBit q.1) })

/-! ## Power states -/

/-- The cap of a state, in watts (17 R408). -/
def capOf (st : Nat) : Nat := match st with | 0 => 18000 | 1 => 14000 | 2 => 10000 | _ => 2500

/-- Whether a package holds a block of a launch in flight or a launch may place one there. -/
def State.inFlight (s : State) (pkg : Nat) : Bool := s.launches.any fun l => l.2.pset.contains pkg

/-- PSTATE (17 R407, R408): PS1 and PS2 are entered at once, PS3 only with no launch in flight; a way out takes its time. PS4 turns
the package off: its memory is lost. -/
def execPstate (pkg v : Nat) (s : State) : Out :=
  let v := v % 8
  let p := s.pkg pkg
  if 5 ≤ v then .next s
  else
    let s1 := s.modPkg pkg fun p => { p with pstate := v, above := 0, below := 0, pExit := 0 }
    if v = 4 then .next (s1.modPkg pkg fun p => { p with pnow := 4, failed := true })
    else if p.pnow = 4 then .next s1   -- only a full start leaves PS4
    else if v = 3 then (if s.inFlight pkg then .next s1 else .next (s1.modPkg pkg fun p => { p with pnow := 3 }))
    else if p.pnow = 3 then .next (s1.modPkg pkg fun p => { p with pExit := s.clk + 120000 })
    else if v = 0 ∧ p.pnow ≠ 0 then .next (s1.modPkg pkg fun p => { p with pExit := s.clk + 1200 })
    else .next (s1.modPkg pkg fun p => { p with pnow := v })

/-- POWER_CAP_DOWN (17 R408): after two averages above the cap, the limits of the next state down; PS3 only with no launch in
flight. -/
def execPowerCapDown (pkg : Nat) (s : State) : Out :=
  let p := s.pkg pkg
  if p.above < 2 ∨ 3 ≤ p.pnow ∨ (p.pnow = 2 ∧ s.inFlight pkg) then .next s
  else .next (s.modPkg pkg fun p => { p with pnow := p.pnow + 1, above := 0, below := 0 })

/-- POWER_CAP_RESTORE (17 R408): after two averages below the requested state's cap, that state. -/
def execPowerCapRestore (pkg : Nat) (s : State) : Out :=
  let p := s.pkg pkg
  if p.below < 2 ∨ p.pnow ≤ p.pstate then .next s
  else .next (s.modPkg pkg fun p => { p with pnow := p.pstate, above := 0, below := 0 })

/-- The averages of a clk that is a multiple of 1,200, the energy in uJ (17 R407, R408), and the ways out that have ended. -/
def Pkg.powerClk (p : Pkg) (pkg clk : Nat) : Pkg :=
  let p1 : Pkg := if p.pExit ≠ 0 ∧ p.pExit ≤ clk then { p with pnow := p.pstate, pExit := 0 } else p
  if clk % 1200 = 0 then
    let w := Config.power pkg clk
    { p1 with
      energy := (p1.energy + w) % (1000 * 2 ^ 64)
      above := if capOf p1.pnow < w then p1.above + 1 else 0
      below := if p1.pstate < p1.pnow ∧ w < capOf p1.pstate then p1.below + 1 else 0 }
  else p1

/-- Whether the state in force grants tile-task starts in a clk, and vector issue (17 R408, log 41). -/
def powerTasks (st clk : Nat) : Bool := match st with | 0 => true | 1 => decide (clk % 8 < 6) | 2 => decide (clk % 8 < 3) | _ => false
def powerVector (st clk : Nat) : Bool := match st with | 0 => true | 1 => decide (clk % 8 < 7) | 2 => decide (clk % 8 < 5) | _ => false

/-! ## Attestation -/

/-- SHA-512 of a text (17 R409). -/
def sha (l : List Byte) : List Byte := (List.range 64).map (Config.sha512 l)

/-- The dies of a package that are masked. -/
def State.deadDies (s : State) (pkg : Nat) : List Nat := (List.range 128).filter fun d => (s.die (128 * pkg + d)).dead

/-- Bytes 0 to 287 of a report (17 R409). -/
def State.reportBody (s : State) (pkg : Nat) : List Byte :=
  let p := s.pkg pkg
  let dead := s.deadDies pkg
  let image (n : Nat) : List Byte := (List.range 64).map (Config.imageHash n)
  let dies := (List.range 128).flatMap fun d => if dead.contains d then List.replicate 64 0 else image (d + 1)
  natBytes (1 + 2 ^ 8 * pkg + 2 ^ 24 * (pkg / 2)) 8
  ++ (List.range 64).map (fun i => kgetD p.nonce i 0)
  ++ sha (image 0) ++ sha dies ++ sha (p.journal.flatMap fun e => natBytes e.toNat 16)
  ++ natBytes (dead.foldl (fun a d => a + 2 ^ d) 0) 16
  ++ natBytes s.clk 8

/-- ATTEST_REQUEST (17 R409). -/
def execAttestRequest (pkg v : Nat) (s : State) : Out :=
  if v % 2 = 1 then .next (s.modPkg pkg fun p => { p with attest := true, attestDone := false }) else .next s

/-- ATTEST_COMPLETE (17 R409): the report is in its buffer. -/
def execAttestComplete (pkg : Nat) (s : State) : Out :=
  let p := s.pkg pkg
  if !p.attest then .next s
  else
    let body := s.reportBody pkg
    let l := body ++ (List.range 132).map (Config.signature body)
    .next ((s.feWrite s.drvAsid p.abuf.toNat l).modPkg pkg fun p => { p with attest := false, attestDone := true })

/-! ## Starting a die -/

/-- Outcomes of a journal entry (16 R394). -/
abbrev joDone : Nat := 0
abbrev joFailed : Nat := 1
abbrev joSkipped : Nat := 2
abbrev joOther : Nat := 3

/-- The entries of a die and step in a journal. -/
def Pkg.entries (p : Pkg) (die step : Nat) : List (BitVec 128) :=
  p.journal.filter fun e => nbits e.toNat 0 8 == step && nbits e.toNat 8 8 == die

/-- Whether a step of a die has a failed entry; for a link or a core, one with that detail. -/
def Pkg.failedBefore (p : Pkg) (die step : Nat) (detail : Option Nat) : Bool :=
  (p.entries die step).any fun e => nbits e.toNat 16 8 == joFailed &&
    match detail with | some d => nbits e.toNat 32 32 == d | none => true

/-- Append an entry; a failure posts JOURNAL (16 R389, R394). -/
def State.journalEntry (s : State) (pkg die step outcome detail : Nat) : State :=
  let n := ((s.pkg pkg).entries die step).length + 1
  let e := BitVec.ofNat 128 (step + 2 ^ 8 * die + 2 ^ 16 * outcome + 2 ^ 24 * (n % 256) + 2 ^ 32 * detail + 2 ^ 64 * s.clk)
  let s1 := s.modPkg pkg fun p => { p with journal := p.journal ++ [e] }
  if outcome = joFailed then
    s1.fqPost (fqJournal + 2 ^ 8 * 0xFFF + 2 ^ 20 * step + 2 ^ 28 * die + 2 ^ 35 * outcome) detail 0 0
  else s1

/-- Take the other image bank. -/
def State.otherBank (s : State) (dk : Nat) : State := s.modDie dk fun d => { d with banks := (1 - d.banks.1, d.banks.2.1, d.banks.2.2) }

/-- The protocol versions of the bank in use. -/
def Die.versions (d : Die) : Nat × Nat := if d.banks.1 = 0 then d.banks.2.1 else d.banks.2.2

def State.maskDie (s : State) (dk : Nat) : State := s.modDie dk fun d => { d with dead := true, masks := [] }

/-- Write zero to the tag region of a stack (16 R376, R394). -/
def State.zeroTags (s : State) (dk : Nat) : State :=
  { s with mem := s.mem.filter fun q => q.1 / 2 ^ 36 != dk || decide (q.1 % 2 ^ 36 < tagFrame * 4096) }

/-- A step of a start that is skipped or masks its die when it fails (16 R394 steps 2 and 5). -/
def State.maskStep (s : State) (pkg die step : Nat) (bad : Bool) (good : State → State) : State :=
  let dk := 128 * pkg + die
  if (s.pkg pkg).failedBefore die step none then (s.journalEntry pkg die step joSkipped 0).maskDie dk
  else if bad then (s.journalEntry pkg die step joFailed 0).maskDie dk
  else (good s).journalEntry pkg die step joDone 0

/-- Step 3: a core with a failing quad is masked; step 4: a link that does not train is dead (16 R394). `details` fail now. -/
def State.partStep (s : State) (pkg die step n : Nat) (details : List Nat) (mask : State → Nat → State) : State :=
  let skip := (List.range n).filter fun i => (s.pkg pkg).failedBefore die step (some i)
  let now := details.filter fun i => decide (i < n) && !skip.contains i
  let s1 := skip.foldl (fun s i => mask (s.journalEntry pkg die step joSkipped i) i) s
  let s2 := now.foldl (fun s i => mask (s.journalEntry pkg die step joFailed i) i) s1
  if skip.isEmpty ∧ now.isEmpty then s2.journalEntry pkg die step joDone 0 else s2

/-- The boot steps of a die (16 R394). `fails` names what fails now: 64 * step, plus the core of step 3 or the link of step 4. -/
def State.boot (s : State) (pkg die : Nat) (fails : List Nat) : State :=
  let dk := 128 * pkg + die
  let bad (step : Nat) : Bool := fails.contains (64 * step)
  let parts (step : Nat) : List Nat := (fails.filter fun f => f / 64 == step).map fun f => f % 64
  if (s.pkg pkg).darkForGood.contains die then s
  else
    -- masks of earlier starts and of service stand until the operator has cleared the die's entries
    let clean := (s.die dk).cleared
    let s0 := (if clean then (List.range 48).foldl (fun s c => s.modCore (48 * dk + c) fun x => { x with dead := false }) s else s).modDie dk
      fun d => { d with dead := d.dead && !clean && !d.beating, cleared := false, beating := true, lastBeat := s.clk, joined := false
                        deadLinks := if clean then [] else d.deadLinks }
    if bad 0 then
      let s1 := (s0.journalEntry pkg die 0 joFailed 0).modDie dk fun d => { d with dead := true, beating := false }
      if (s.pkg pkg).failedBefore die 0 none then s1.modPkg pkg fun p => { p with darkForGood := ninsert p.darkForGood die } else s1
    else
      let s1 := s0.journalEntry pkg die 0 joDone 0
      let s2 := if (s1.pkg pkg).failedBefore die 1 none then (s1.otherBank dk).journalEntry pkg die 1 joOther 0
        else if bad 1 then (s1.journalEntry pkg die 1 joFailed 0).otherBank dk
        else s1.journalEntry pkg die 1 joDone 0
      let s3 := s2.maskStep pkg die 2 (bad 2) fun s => s.zeroTags dk
      let s4 := s3.partStep pkg die 3 48 (parts 3) fun s c => s.maskCore (48 * dk + c)
      let s5 := s4.partStep pkg die 4 4 (parts 4) fun s i => s.modDie dk fun d => { d with deadLinks := ninsert d.deadLinks i }
      let s6 := s5.maskStep pkg die 5 (bad 5) id
      let again := (s6.pkg pkg).failedBefore die 6 none
      let s7 := if again then s6.otherBank dk else s6
      let v := (s7.die dk).versions
      if bad 6 || decide ((s7.pkg pkg).pver < v.1) || decide (v.2 < (s7.pkg pkg).pver) then
        (s7.journalEntry pkg die 6 joFailed 0).otherBank dk
      else
        (s7.journalEntry pkg die 6 (if again then joOther else joDone) 0).modDie dk fun d => { d with joined := true }

/-- BOOT_START (16 R394). A package that was off runs again with its first die (17 R408). -/
def execBootStart (pkg die : Nat) (fails : List Nat) (s : State) : Out :=
  let s1 := if (s.pkg pkg).failed then
      s.modPkg pkg fun p => { p with failed := false, known := false, lastBeat := s.clk, cold := s.clk, pnow := if p.pnow = 4 then 0 else p.pnow
                                     pstate := if p.pnow = 4 then 0 else p.pstate }
    else s
  .next (s1.boot pkg die fails)

/-- JOURNAL_CLEAR (16 R394): the operator clears a die's entries. -/
def execJournalClear (pkg die : Nat) (s : State) : Out :=
  .next ((s.modPkg pkg fun p =>
    { p with journal := p.journal.filter fun e => nbits e.toNat 8 8 != die, darkForGood := p.darkForGood.filter (· != die) }).modDie
      (128 * pkg + die) fun d => { d with cleared := true })

/-! ## Updating a die -/

/-- PVER rises to the highest version common to every live die (16 R396). -/
def State.raisePver (s : State) (pkg : Nat) : State :=
  match (s.liveDies pkg).map fun d => (s.die (128 * pkg + d)).versions with
  | [] => s
  | v :: rest =>
    let hi := rest.foldl (fun a w => min a w.2) v.2
    let lo := rest.foldl (fun a w => max a w.1) v.1
    if lo ≤ hi ∧ (s.pkg pkg).pver < hi then s.modPkg pkg fun p => { p with pver := hi } else s

/-- The resident blocks of a die. -/
def State.dieBlocks (s : State) (dk : Nat) : List (Nat × Block) := s.blocks.filter fun q => q.2.dk == dk && q.2.resident

/-- The launches with a block on a die. -/
def State.dieLaunches (s : State) (dk : Nat) : List Nat := (s.dieBlocks dk).foldl (fun a q => ninsert a q.2.launch) []

/-- Whether the blocks of a die may be saved (16 R395): each has been captured, those that have ended have retired, and the write-back of
their launches' images may end; a co-resident launch has been captured whole (10 R269). -/
def State.dieQuiet (s : State) (dk : Nat) : Bool :=
  let captured (q : Nat × Block) : Bool := (s.warpsOf q.1).all fun w => (s.warpD w).ended || (s.warpD w).captured
  ((s.dieBlocks dk).all fun q => s.toSave q.2.launch q && captured q)
    && (s.dieLaunches dk).all fun l => s.saveReady l
      && (!(s.launchD l).desc.cores || (s.blocks.filter fun q => q.2.launch == l && q.2.resident).all captured)

/-- Save the clusters of a die for its update (16 R395); a co-resident launch is saved whole. They restart on other dies. -/
def State.vacate (s : State) (dk : Nat) : State :=
  (s.dieLaunches dk).foldl (fun s l =>
    let old := (s.launchD l).halting
    (s.saveLaunch l).modLaunch l fun x => { x with saved := false, halting := old }) s

/-- DIE_UPDATE (16 R395). First the die takes no more clusters and its resident ones are pre-empted; when they are saved the image
is written to the inactive bank and the die starts from it. A die that fails returns to its old bank. -/
def execDieUpdate (pkg die pmin pmax : Nat) (good : Bool) (s : State) : Out :=
  let dk := 128 * pkg + die
  let busy := (List.range 128).any fun d => d != die && (s.die (128 * pkg + d)).update.isSome
  if busy then .next s
  else if (s.die dk).update ≠ some (pmin, pmax, good) then
    .next (s.modDie dk fun d => { d with update := some (pmin, pmax, good) })
  else if !s.dieQuiet dk then .next s
  else
    let s1 := (s.vacate dk).modDie dk fun d =>
      { d with update := none
               banks := (1 - d.banks.1, if d.banks.1 = 0 then d.banks.2.1 else (pmin, pmax)
                        ,if d.banks.1 = 0 then (pmin, pmax) else d.banks.2.2) }
    let s2 := s1.boot pkg die (if good then [] else [64])
    .next (if (s2.die dk).joined ∧ good then s2.raisePver pkg else s2)

/-! ## The host pair -/

/-- HOST_HEARTBEAT (16 R397). -/
def execHostHeartbeat (s : State) : Out :=
  if (s.pkg s.fe.primary).failed then .next s else .next { s with fe := { s.fe with lastBeat := s.clk } }

/-- STREAM_RECORD (16 R397): the standby acknowledges every doorbell and the start of every validated packet. -/
def execStreamRecord (s : State) : Out :=
  if (s.pkg s.fe.primary).failed || s.fe.standby.isNone then .next s
  else
    let m := s.queues.map fun (q : Nat × Queue) =>
      (q.1, q.2.qtail, if q.2.head.isSome then (q.2.qhead + 1) % 2 ^ q.2.rlog else q.2.qhead)
    .next { s with fe := { s.fe with mirror := m, lastBeat := s.clk } }

/-- TAKEOVER (16 R397, R398): the standby becomes primary and resumes every queue from its mirrored QHEAD; a doorbell that was not
streamed is lost. -/
def execTakeover (s : State) : Out :=
  match s.fe.standby with
  | none => .next s
  | some p =>
    if !(s.pkg s.fe.primary).failed || decide (s.clk < s.fe.lastBeat + 24000) then .next s
    else
      let tail (i : Nat) (x : Queue) : Queue := { x with qtail := (kgetD s.fe.mirror i (x.qtail, 0)).1, head := none }
      let s1 : State := { s with queues := kmap s.queues tail, fe := { s.fe with primary := p, standby := none, lastBeat := s.clk } }
      .next (s1.fqPost (fqTakeover + 2 ^ 8 * 0xFFF + 2 ^ 20 * p) s.clk 0 0)

end Sys2Proof.Machine
end

