-- ==== Sys2Proof/Machine/Mask.lean ====
section
/-! DEFINITION. The mask instructions of opcode 0x18 but REGANG (05 R126 to R129). -/

namespace Sys2Proof.Machine

/-- A mask instruction's result and its advance: written in the lanes of the split, after 2 clk (05 R126). -/
def State.maskOp (s : State) (sw : Bool) (md : Nat) (x : Lanes) : State := (s.putM md 2 x).retire sw 2 1

/-- MAND (05 R127). -/
def execMand (f : SFmt) (s : State) : Out := .next (s.maskOp f.sw f.sd.toNat (s.rdM f.sa.toNat &&& s.rdM f.sb.toNat))
/-- MOR (05 R127). -/
def execMor (f : SFmt) (s : State) : Out := .next (s.maskOp f.sw f.sd.toNat (s.rdM f.sa.toNat ||| s.rdM f.sb.toNat))
/-- MXOR (05 R127). -/
def execMxor (f : SFmt) (s : State) : Out := .next (s.maskOp f.sw f.sd.toNat (s.rdM f.sa.toNat ^^^ s.rdM f.sb.toNat))
/-- MNOT (05 R127). -/
def execMnot (f : SFmt) (s : State) : Out := .next (s.maskOp f.sw f.sd.toNat (~~~ s.rdM f.sa.toNat))
/-- MMOV (05 R127). -/
def execMmov (f : SFmt) (s : State) : Out := .next (s.maskOp f.sw f.sd.toNat (s.rdM f.sa.toNat))

/-- MPOPC (05 R127). -/
def execMpopc (f : SFmt) (s : State) : Out :=
  .next (s.scalarOp f.sw f.sd.toNat 2 1 (BitVec.ofNat 64 (popc (s.rdM f.sa.toNat &&& s.curSplit.lmask))))

/-- MFFS (05 R127). -/
def execMffs (f : SFmt) (s : State) : Out :=
  .next (s.scalarOp f.sw f.sd.toNat 2 1 (BitVec.ofNat 64 (ffs (s.rdM f.sa.toNat &&& s.curSplit.lmask))))

/-- MSETEM (05 R128): keeps the old execution mask in M[SD], unless SD is 0, and narrows it by M[SA], which holds the old mask by
then when SA is SD. -/
def execMsetem (f : SFmt) (s : State) : Out :=
  let old := s.rdM 0
  let by_ := if f.sd = 0 ∨ f.sa ≠ f.sd then s.rdM f.sa.toNat else old
  let s1 := if f.sd = 0 then s else s.putM f.sd.toNat 2 old
  .next (s1.maskOp f.sw 0 (old &&& by_))

/-- MSAVE (05 R127): all 32 bits. -/
def execMsave (f : SFmt) (s : State) : Out := .next (s.scalarOp f.sw f.sd.toNat 2 1 ((s.rdM f.sa.toNat).setWidth 64))

/-- MREST (05 R127). -/
def execMrest (f : SFmt) (s : State) : Out := .next (s.maskOp f.sw f.sd.toNat ((s.rdS f.sa.toNat).setWidth 32))

/-- SPLITQ (05 R129): the live lanes of the warp, and those of the issuer's join group. -/
def execSplitq (f : SFmt) (s : State) : Out :=
  let w := s.curWarp
  let p := s.curSplit
  let g := (w.groupOf p.jgrp p.jpc).foldl (fun a q => a ||| q.2.lmask) (0 : Lanes)
  .next (s.scalarOp f.sw f.sd.toNat 2 1 (g ++ w.liveLanes))

end Sys2Proof.Machine
end

