-- ==== Sys2Proof/Machine/Dispatch.lean ====
section
/-! DEFINITION. The meaning of each instruction and step. -/

namespace Sys2Proof.Machine

/-- What an instruction does. -/
def exec (i : Instr) (s : State) : Host.Outcome State Fault Refusal :=
  match i with
  | .sadd f => Sys2Proof.Machine.execSadd f s
  | .ssub f => Sys2Proof.Machine.execSsub f s
  | .smul f => Sys2Proof.Machine.execSmul f s
  | .smulh f => Sys2Proof.Machine.execSmulh f s
  | .sdiv f => Sys2Proof.Machine.execSdiv f s
  | .sand f => Sys2Proof.Machine.execSand f s
  | .sor f => Sys2Proof.Machine.execSor f s
  | .sxor f => Sys2Proof.Machine.execSxor f s
  | .sshl f => Sys2Proof.Machine.execSshl f s
  | .sshr f => Sys2Proof.Machine.execSshr f s
  | .ssra f => Sys2Proof.Machine.execSsra f s
  | .smin f => Sys2Proof.Machine.execSmin f s
  | .smax f => Sys2Proof.Machine.execSmax f s
  | .smov f => Sys2Proof.Machine.execSmov f s
  | .spopc f => Sys2Proof.Machine.execSpopc f s
  | .sclz f => Sys2Proof.Machine.execSclz f s
  | .saddImm f => Sys2Proof.Machine.execSaddImm f s
  | .ssubImm f => Sys2Proof.Machine.execSsubImm f s
  | .smulImm f => Sys2Proof.Machine.execSmulImm f s
  | .smulhImm f => Sys2Proof.Machine.execSmulhImm f s
  | .sdivImm f => Sys2Proof.Machine.execSdivImm f s
  | .sandImm f => Sys2Proof.Machine.execSandImm f s
  | .sorImm f => Sys2Proof.Machine.execSorImm f s
  | .sxorImm f => Sys2Proof.Machine.execSxorImm f s
  | .sshlImm f => Sys2Proof.Machine.execSshlImm f s
  | .sshrImm f => Sys2Proof.Machine.execSshrImm f s
  | .ssraImm f => Sys2Proof.Machine.execSsraImm f s
  | .sminImm f => Sys2Proof.Machine.execSminImm f s
  | .smaxImm f => Sys2Proof.Machine.execSmaxImm f s
  | .smovImm f => Sys2Proof.Machine.execSmovImm f s
  | .smulhU f => Sys2Proof.Machine.execSmulhU f s
  | .sdivU f => Sys2Proof.Machine.execSdivU f s
  | .sminU f => Sys2Proof.Machine.execSminU f s
  | .smaxU f => Sys2Proof.Machine.execSmaxU f s
  | .scmp f => Sys2Proof.Machine.execScmp f s
  | .scmpU f => Sys2Proof.Machine.execScmpU f s
  | .ssel f => Sys2Proof.Machine.execSsel f s
  | .sbfx f => Sys2Proof.Machine.execSbfx f s
  | .sbfxU f => Sys2Proof.Machine.execSbfxU f s
  | .sbfi f => Sys2Proof.Machine.execSbfi f s
  | .slea f => Sys2Proof.Machine.execSlea f s
  | .sldi f ext => Sys2Proof.Machine.execSldi f ext s
  | .srd f => Sys2Proof.Machine.execSrd f s
  | .swr f => Sys2Proof.Machine.execSwr f s
  | .bra f => Sys2Proof.Machine.execBra f s
  | .brc f => Sys2Proof.Machine.execBrc f s
  | .brx f => Sys2Proof.Machine.execBrx f s
  | .jmpi f => Sys2Proof.Machine.execJmpi f s
  | .call f => Sys2Proof.Machine.execCall f s
  | .callInd f => Sys2Proof.Machine.execCallInd f s
  | .ret f => Sys2Proof.Machine.execRet f s
  | .exit f => Sys2Proof.Machine.execExit f s
  | .nop f => Sys2Proof.Machine.execNop f s
  | .yield f => Sys2Proof.Machine.execYield f s
  | .join f => Sys2Proof.Machine.execJoin f s
  | .joinBnd f => Sys2Proof.Machine.execJoinBnd f s
  | .joinBoundExpiry w slot => Sys2Proof.Machine.execJoinBoundExpiry w slot s
  | .mand f => Sys2Proof.Machine.execMand f s
  | .mor f => Sys2Proof.Machine.execMor f s
  | .mxor f => Sys2Proof.Machine.execMxor f s
  | .mnot f => Sys2Proof.Machine.execMnot f s
  | .mmov f => Sys2Proof.Machine.execMmov f s
  | .mpopc f => Sys2Proof.Machine.execMpopc f s
  | .mffs f => Sys2Proof.Machine.execMffs f s
  | .msetem f => Sys2Proof.Machine.execMsetem f s
  | .msave f => Sys2Proof.Machine.execMsave f s
  | .mrest f => Sys2Proof.Machine.execMrest f s
  | .splitq f => Sys2Proof.Machine.execSplitq f s
  | .regang f => Sys2Proof.Machine.execRegang f s
  | .regangBoundExpiry w slot => Sys2Proof.Machine.execRegangBoundExpiry w slot s
  | .vadd f => Sys2Proof.Machine.execVadd f s
  | .vsub f => Sys2Proof.Machine.execVsub f s
  | .vmul f => Sys2Proof.Machine.execVmul f s
  | .vmulh f => Sys2Proof.Machine.execVmulh f s
  | .vmad f => Sys2Proof.Machine.execVmad f s
  | .vmin f => Sys2Proof.Machine.execVmin f s
  | .vmax f => Sys2Proof.Machine.execVmax f s
  | .vabs f => Sys2Proof.Machine.execVabs f s
  | .vneg f => Sys2Proof.Machine.execVneg f s
  | .vaddc f => Sys2Proof.Machine.execVaddc f s
  | .vsubb f => Sys2Proof.Machine.execVsubb f s
  | .vsad f => Sys2Proof.Machine.execVsad f s
  | .vavg f => Sys2Proof.Machine.execVavg f s
  | .vcmp f => Sys2Proof.Machine.execVcmp f s
  | .vsel f => Sys2Proof.Machine.execVsel f s
  | .vmov f => Sys2Proof.Machine.execVmov f s
  | .vand f => Sys2Proof.Machine.execVand f s
  | .vor f => Sys2Proof.Machine.execVor f s
  | .vxor f => Sys2Proof.Machine.execVxor f s
  | .vnot f => Sys2Proof.Machine.execVnot f s
  | .vshl f => Sys2Proof.Machine.execVshl f s
  | .vshr f => Sys2Proof.Machine.execVshr f s
  | .vsra f => Sys2Proof.Machine.execVsra f s
  | .vrot f => Sys2Proof.Machine.execVrot f s
  | .vclz f => Sys2Proof.Machine.execVclz f s
  | .vpopc f => Sys2Proof.Machine.execVpopc f s
  | .vbfx f => Sys2Proof.Machine.execVbfx f s
  | .vbfi f => Sys2Proof.Machine.execVbfi f s
  | .vmovs f => Sys2Proof.Machine.execVmovs f s
  | .vfadd f => Sys2Proof.Machine.execVfadd f s
  | .vfsub f => Sys2Proof.Machine.execVfsub f s
  | .vfmul f => Sys2Proof.Machine.execVfmul f s
  | .vfma f => Sys2Proof.Machine.execVfma f s
  | .vfmin f => Sys2Proof.Machine.execVfmin f s
  | .vfmax f => Sys2Proof.Machine.execVfmax f s
  | .vfcmp f => Sys2Proof.Machine.execVfcmp f s
  | .vfdot2 f => Sys2Proof.Machine.execVfdot2 f s
  | .vfdot4 f => Sys2Proof.Machine.execVfdot4 f s
  | .vfclass f => Sys2Proof.Machine.execVfclass f s
  | .vfrnd f => Sys2Proof.Machine.execVfrnd f s
  | .vfrcp f => Sys2Proof.Machine.execVfrcp f s
  | .vfrsq f => Sys2Proof.Machine.execVfrsq f s
  | .vfsqrt f => Sys2Proof.Machine.execVfsqrt f s
  | .vfexp2 f => Sys2Proof.Machine.execVfexp2 f s
  | .vflog2 f => Sys2Proof.Machine.execVflog2 f s
  | .vfsin f => Sys2Proof.Machine.execVfsin f s
  | .vfcos f => Sys2Proof.Machine.execVfcos f s
  | .vaddImm f => Sys2Proof.Machine.execVaddImm f s
  | .vsubImm f => Sys2Proof.Machine.execVsubImm f s
  | .vmulImm f => Sys2Proof.Machine.execVmulImm f s
  | .vandImm f => Sys2Proof.Machine.execVandImm f s
  | .vorImm f => Sys2Proof.Machine.execVorImm f s
  | .vxorImm f => Sys2Proof.Machine.execVxorImm f s
  | .vshlImm f => Sys2Proof.Machine.execVshlImm f s
  | .vshrImm f => Sys2Proof.Machine.execVshrImm f s
  | .vsraImm f => Sys2Proof.Machine.execVsraImm f s
  | .vminImm f => Sys2Proof.Machine.execVminImm f s
  | .vmaxImm f => Sys2Proof.Machine.execVmaxImm f s
  | .vmovImm f => Sys2Proof.Machine.execVmovImm f s
  | .vfaddImm f => Sys2Proof.Machine.execVfaddImm f s
  | .vfmulImm f => Sys2Proof.Machine.execVfmulImm f s
  | .vfminImm f => Sys2Proof.Machine.execVfminImm f s
  | .vfmaxImm f => Sys2Proof.Machine.execVfmaxImm f s
  | .vcvt f => Sys2Proof.Machine.execVcvt f s
  | .vpackX2 f => Sys2Proof.Machine.execVpackX2 f s
  | .vpackX4 f => Sys2Proof.Machine.execVpackX4 f s
  | .vunpk e f => Sys2Proof.Machine.execVunpk e f s
  | .vtag f => Sys2Proof.Machine.execVtag f s
  | .vqduo f => Sys2Proof.Machine.execVqduo f s
  | .vscale f => Sys2Proof.Machine.execVscale f s
  | .vshfl f => Sys2Proof.Machine.execVshfl f s
  | .vshflUp f => Sys2Proof.Machine.execVshflUp f s
  | .vshflDown f => Sys2Proof.Machine.execVshflDown f s
  | .vshflXor f => Sys2Proof.Machine.execVshflXor f s
  | .vshflx f => Sys2Proof.Machine.execVshflx f s
  | .vbcast f => Sys2Proof.Machine.execVbcast f s
  | .vred op f => Sys2Proof.Machine.execVred op f s
  | .vscan op f => Sys2Proof.Machine.execVscan op f s
  | .vfunl f => Sys2Proof.Machine.execVfunl f s
  | .vlutn f => Sys2Proof.Machine.execVlutn f s
  | .vbperm f => Sys2Proof.Machine.execVbperm f s
  | .vballot f => Sys2Proof.Machine.execVballot f s
  | .vmatch f => Sys2Proof.Machine.execVmatch f s
  | .vcompr f => Sys2Proof.Machine.execVcompr f s
  | .ld ty f => Sys2Proof.Machine.execLd ty f s
  | .st ty f => Sys2Proof.Machine.execSt ty f s
  | .lds f => Sys2Proof.Machine.execLds f s
  | .ldsSx f => Sys2Proof.Machine.execLdsSx f s
  | .sts f => Sys2Proof.Machine.execSts f s
  | .ldl ty f => Sys2Proof.Machine.execLdl ty f s
  | .stl ty f => Sys2Proof.Machine.execStl ty f s
  | .prf f => Sys2Proof.Machine.execPrf f s
  | .prfL2 f => Sys2Proof.Machine.execPrfL2 f s
  | .cwb f => Sys2Proof.Machine.execCwb f s
  | .cinv f => Sys2Proof.Machine.execCinv f s
  | .atom op f => Sys2Proof.Machine.execAtom op f s
  | .atomc f => Sys2Proof.Machine.execAtomc f s
  | .red op f => Sys2Proof.Machine.execRed op f s
  | .lock f => Sys2Proof.Machine.execLock f s
  | .lockTry f => Sys2Proof.Machine.execLockTry f s
  | .unlock f => Sys2Proof.Machine.execUnlock f s
  | .lkqry f => Sys2Proof.Machine.execLkqry f s
  | .fence f => Sys2Proof.Machine.execFence f s
  | .bararv f => Sys2Proof.Machine.execBararv f s
  | .barwait f => Sys2Proof.Machine.execBarwait f s
  | .barsync f => Sys2Proof.Machine.execBarsync f s
  | .csig f => Sys2Proof.Machine.execCsig f s
  | .cwait f => Sys2Proof.Machine.execCwait f s
  | .crd f => Sys2Proof.Machine.execCrd f s
  | .wsync f => Sys2Proof.Machine.execWsync f s
  | .cpy f => Sys2Proof.Machine.execCpy f s
  | .cpyOut f => Sys2Proof.Machine.execCpyOut f s
  | .cpyLocal f => Sys2Proof.Machine.execCpyLocal f s
  | .cpyg f => Sys2Proof.Machine.execCpyg f s
  | .cpygScatter f => Sys2Proof.Machine.execCpygScatter f s
  | .tdesc f => Sys2Proof.Machine.execTdesc f s
  | .task f => Sys2Proof.Machine.execTask f s
  | .taskOvr f => Sys2Proof.Machine.execTaskOvr f s
  | .taskCvt f => Sys2Proof.Machine.execTaskCvt f s
  | .kmv f => Sys2Proof.Machine.execKmv f s
  | .mcst f => Sys2Proof.Machine.execMcst f s
  | .msgx f => Sys2Proof.Machine.execMsgx f s
  | .trap f => Sys2Proof.Machine.execTrap f s
  | .bkpt f => Sys2Proof.Machine.execBkpt f s
  | .ckpt f => Sys2Proof.Machine.execCkpt f s
  | .clkrd f => Sys2Proof.Machine.execClkrd f s
  | .evnt f => Sys2Proof.Machine.execEvnt f s
  | .haltw f => Sys2Proof.Machine.execHaltw f s
  | .rfetch f => Sys2Proof.Machine.execRfetch f s
  | .kbfx f => Sys2Proof.Machine.execKbfx f s
  | .sigwait f => Sys2Proof.Machine.execSigwait f s
  | .dispatch f => Sys2Proof.Machine.execDispatch f s
  | .sigwaitWake pkg die fw => Sys2Proof.Machine.execSigwaitWake pkg die fw s
  | .sigwaitTimeout pkg die fw => Sys2Proof.Machine.execSigwaitTimeout pkg die fw s
  | .dispatchComplete pkg die fw => Sys2Proof.Machine.execDispatchComplete pkg die fw s
  | .purge pkg die core => Sys2Proof.Machine.execPurge pkg die core s
  | .mask pkg die core => Sys2Proof.Machine.execMask pkg die core s
  | .genset pkg die core => Sys2Proof.Machine.execGenset pkg die core s
  | .rebind pkg die core => Sys2Proof.Machine.execRebind pkg die core s
  | .spanParkEnd w slot => Sys2Proof.Machine.execSpanParkEnd w slot s
  | .exceptionRecordHeld q => Sys2Proof.Machine.execExceptionRecordHeld q s
  | .loadReply r => Sys2Proof.Machine.execLoadReply r s
  | .regangMerge w => Sys2Proof.Machine.execRegangMerge w s
  | .swapEpochAdvance w => Sys2Proof.Machine.execSwapEpochAdvance w s
  | .splitSwap w => Sys2Proof.Machine.execSplitSwap w s
  | .splitSwapDone w => Sys2Proof.Machine.execSplitSwapDone w s
  | .splitFill w => Sys2Proof.Machine.execSplitFill w s
  | .splitFillDone w => Sys2Proof.Machine.execSplitFillDone w s
  | .feGranuleAccess a => Sys2Proof.Machine.execFeGranuleAccess a s
  | .homeServeLoad r => Sys2Proof.Machine.execHomeServeLoad r s
  | .storeApply r => Sys2Proof.Machine.execStoreApply r s
  | .atomicApply r => Sys2Proof.Machine.execAtomicApply r s
  | .stageAck r => Sys2Proof.Machine.execStageAck r s
  | .invalidation v => Sys2Proof.Machine.execInvalidation v s
  | .probeAbsent v => Sys2Proof.Machine.execProbeAbsent v s
  | .stale r => Sys2Proof.Machine.execStale r s
  | .mishome r => Sys2Proof.Machine.execMishome r s
  | .plcMiss r => Sys2Proof.Machine.execPlcMiss r s
  | .tlbMissWalk r => Sys2Proof.Machine.execTlbMissWalk r s
  | .evictionWriteback c => Sys2Proof.Machine.execEvictionWriteback c s
  | .xlate r => Sys2Proof.Machine.execXlate r s
  | .lost pkg die line => Sys2Proof.Machine.execLost pkg die line s
  | .cohlost pkg die line => Sys2Proof.Machine.execCohlost pkg die line s
  | .cohfix pkg die line => Sys2Proof.Machine.execCohfix pkg die line s
  | .fenceComplete w slot => Sys2Proof.Machine.execFenceComplete w slot s
  | .unlockDepart r => Sys2Proof.Machine.execUnlockDepart r s
  | .csigApply p => Sys2Proof.Machine.execCsigApply p s
  | .evntAppend p => Sys2Proof.Machine.execEvntAppend p s
  | .lockRequest r => Sys2Proof.Machine.execLockRequest r s
  | .lockTryRequest r => Sys2Proof.Machine.execLockTryRequest r s
  | .unlockRequest r => Sys2Proof.Machine.execUnlockRequest r s
  | .lockGrant g => Sys2Proof.Machine.execLockGrant g s
  | .lockTimeoutExpiry w k => Sys2Proof.Machine.execLockTimeoutExpiry w k s
  | .withdraw d => Sys2Proof.Machine.execWithdraw d s
  | .waitForRecord n => Sys2Proof.Machine.execWaitForRecord n s
  | .holderSaved w k => Sys2Proof.Machine.execHolderSaved w k s
  | .holderRestored w k => Sys2Proof.Machine.execHolderRestored w k s
  | .holderFatalEnd pkg die line => Sys2Proof.Machine.execHolderFatalEnd pkg die line s
  | .waiterSaved w k => Sys2Proof.Machine.execWaiterSaved w k s
  | .waiterRestored w k => Sys2Proof.Machine.execWaiterRestored w k s
  | .engineFork e => Sys2Proof.Machine.execEngineFork e s
  | .engineJoin e => Sys2Proof.Machine.execEngineJoin e s
  | .hodLineBegin e => Sys2Proof.Machine.execHodLineBegin e s
  | .hodLineComplete e => Sys2Proof.Machine.execHodLineComplete e s
  | .taskStart e => Sys2Proof.Machine.execTaskStart e s
  | .taskKblockCommit e => Sys2Proof.Machine.execTaskKblockCommit e s
  | .taskEnd e => Sys2Proof.Machine.execTaskEnd e s
  | .kilnRequestArrival e => Sys2Proof.Machine.execKilnRequestArrival e s
  | .kilnComplete e => Sys2Proof.Machine.execKilnComplete e s
  | .mcstReplicate e => Sys2Proof.Machine.execMcstReplicate e s
  | .mcstMemberWrite e pkg => Sys2Proof.Machine.execMcstMemberWrite e pkg s
  | .mcstAck e => Sys2Proof.Machine.execMcstAck e s
  | .msgxDelivery e => Sys2Proof.Machine.execMsgxDelivery e s
  | .ethernetFrame port etype bytes => Sys2Proof.Machine.execEthernetFrame port etype bytes s
  | .firing pkg tag => Sys2Proof.Machine.execFiring pkg tag s
  | .firingRefused pkg tag => Sys2Proof.Machine.execFiringRefused pkg tag s
  | .clusterHanddown l node => Sys2Proof.Machine.execClusterHanddown l node s
  | .clusterSteal l node => Sys2Proof.Machine.execClusterSteal l node s
  | .clusterPlace pkg die => Sys2Proof.Machine.execClusterPlace pkg die s
  | .coresidentPlace l => Sys2Proof.Machine.execCoresidentPlace l s
  | .blockStart l k => Sys2Proof.Machine.execBlockStart l k s
  | .blockRetire b => Sys2Proof.Machine.execBlockRetire b s
  | .nodeDrain l node => Sys2Proof.Machine.execNodeDrain l node s
  | .mortarRootClose l k n pkg => Sys2Proof.Machine.execMortarRootClose l k n pkg s
  | .mortarPackageCompletion l n pkg => Sys2Proof.Machine.execMortarPackageCompletion l n pkg s
  | .mortarDieRelease l k n pkg die => Sys2Proof.Machine.execMortarDieRelease l k n pkg die s
  | .haltRequestArrival l pkg die core => Sys2Proof.Machine.execHaltRequestArrival l pkg die core s
  | .checkpointBudgetExpiry w => Sys2Proof.Machine.execCheckpointBudgetExpiry w s
  | .warpCapture w => Sys2Proof.Machine.execWarpCapture w s
  | .haltComplete p => Sys2Proof.Machine.execHaltComplete p s
  | .saveComplete p => Sys2Proof.Machine.execSaveComplete p s
  | .clusterRestore l k => Sys2Proof.Machine.execClusterRestore l k s
  | .qtail q v => Sys2Proof.Machine.execQtail q v s
  | .exansResume q seq => Sys2Proof.Machine.execExansResume q seq s
  | .exansSkip q seq => Sys2Proof.Machine.execExansSkip q seq s
  | .exansAbort q seq => Sys2Proof.Machine.execExansAbort q seq s
  | .registerWrite addr v => Sys2Proof.Machine.execRegisterWrite addr v s
  | .packetNop q => Sys2Proof.Machine.execPacketNop q s
  | .launch q => Sys2Proof.Machine.execLaunch q s
  | .arm q => Sys2Proof.Machine.execArm q s
  | .disarm q => Sys2Proof.Machine.execDisarm q s
  | .disarmComplete q => Sys2Proof.Machine.execDisarmComplete q s
  | .waitmem q => Sys2Proof.Machine.execWaitmem q s
  | .waitmemSatisfied q => Sys2Proof.Machine.execWaitmemSatisfied q s
  | .signalmem q => Sys2Proof.Machine.execSignalmem q s
  | .preempt q => Sys2Proof.Machine.execPreempt q s
  | .resume q => Sys2Proof.Machine.execResume q s
  | .abort q => Sys2Proof.Machine.execAbort q s
  | .qctlCreate q => Sys2Proof.Machine.execQctlCreate q s
  | .qctlStop q => Sys2Proof.Machine.execQctlStop q s
  | .qctlRestart q => Sys2Proof.Machine.execQctlRestart q s
  | .qctlDestroy q => Sys2Proof.Machine.execQctlDestroy q s
  | .steer q => Sys2Proof.Machine.execSteer q s
  | .tfansReplay ticket pkg => Sys2Proof.Machine.execTfansReplay ticket pkg s
  | .tfansInvalid ticket pkg => Sys2Proof.Machine.execTfansInvalid ticket pkg s
  | .gencmd addr => Sys2Proof.Machine.execGencmd addr s
  | .bumpdone asid => Sys2Proof.Machine.execBumpdone asid s
  | .framefree v => Sys2Proof.Machine.execFramefree v s
  | .clear pkg die v => Sys2Proof.Machine.execClear pkg die v s
  | .pstate pkg v => Sys2Proof.Machine.execPstate pkg v s
  | .powerCapDown pkg => Sys2Proof.Machine.execPowerCapDown pkg s
  | .powerCapRestore pkg => Sys2Proof.Machine.execPowerCapRestore pkg s
  | .planeen pkg v => Sys2Proof.Machine.execPlaneen pkg v s
  | .attestRequest pkg v => Sys2Proof.Machine.execAttestRequest pkg v s
  | .attestComplete pkg => Sys2Proof.Machine.execAttestComplete pkg s
  | .mcastGroupWrite g members asid valid => Sys2Proof.Machine.execMcastGroupWrite g members asid valid s
  | .flitCrcFail link => Sys2Proof.Machine.execFlitCrcFail link s
  | .flitRetryTimer link => Sys2Proof.Machine.execFlitRetryTimer link s
  | .linkDead link => Sys2Proof.Machine.execLinkDead link s
  | .planeMaskAdopt pkg => Sys2Proof.Machine.execPlaneMaskAdopt pkg s
  | .portRetrain pkg plane good => Sys2Proof.Machine.execPortRetrain pkg plane good s
  | .dieHeartbeat pkg die => Sys2Proof.Machine.execDieHeartbeat pkg die s
  | .dieLost pkg die => Sys2Proof.Machine.execDieLost pkg die s
  | .packageHeartbeat pkg => Sys2Proof.Machine.execPackageHeartbeat pkg s
  | .packageDead pkg => Sys2Proof.Machine.execPackageDead pkg s
  | .coreFail pkg die core => Sys2Proof.Machine.execCoreFail pkg die core s
  | .eccCorrectable pkg die => Sys2Proof.Machine.execEccCorrectable pkg die s
  | .eccUncorrectable e => Sys2Proof.Machine.execEccUncorrectable e s
  | .bootStart pkg die fails => Sys2Proof.Machine.execBootStart pkg die fails s
  | .dieUpdate pkg die pmin pmax good => Sys2Proof.Machine.execDieUpdate pkg die pmin pmax good s
  | .hostHeartbeat => Sys2Proof.Machine.execHostHeartbeat s
  | .streamRecord => Sys2Proof.Machine.execStreamRecord s
  | .takeover => Sys2Proof.Machine.execTakeover s
  | .instructionFetch w slot => Sys2Proof.Machine.execInstructionFetch w slot s
  | .registerResultReturn w k => Sys2Proof.Machine.execRegisterResultReturn w k s
  | .mailboxMessage pkg die fw => Sys2Proof.Machine.execMailboxMessage pkg die fw s
  | .waitForRecordAgeOut pkg die => Sys2Proof.Machine.execWaitForRecordAgeOut pkg die s
  | .journalClear pkg die => Sys2Proof.Machine.execJournalClear pkg die s

end Sys2Proof.Machine
end

