-- ==== Sys2Proof/Machine/Fetch.lean ====
section
/-! DEFINITION. Fetching and decoding the next instruction of a split (02 R39, R63, R65) and of a firmware core (16 R391, R392);
a state prepared to run an instruction next. -/

namespace Sys2Proof.Machine

/-- The instruction that a split is to issue: none when it cannot issue; an illegal word with its length. -/
inductive Fetched where
  | none
  | illegal (word : Word)
  | instr (i : Instr)
  deriving DecidableEq, Repr

/-- Fetch and decode for the issuer. -/
def State.nextInstr (s : State) (wid slot : Nat) : Fetched :=
  match s.split? wid slot with
  | Option.none => .none
  | some p =>
    if p.st ≠ .ready then .none
    else
      match s.fetched wid p.pc with
      | .error _ => .none
      | .ok (w, e) =>
        match decode w e with
        | .ok i => .instr i
        | .error _ => .illegal w

/-- ILLOP (02 R62, R63, 08 R237): INFO is the first word. -/
def State.raiseIllop (s : State) (w : Word) : State := s.raise (wordsOf w) fcIllop w

/-- The word at the pc of a firmware core; SRAM lies at address 0 (log 6). -/
def State.fwWord (s : State) (n : Nat) : BitVec 32 := BitVec.ofNat 32 ((s.fwCore n).ram (s.fwCore n).pc.toNat 4)

/-- What a firmware core does next: nothing while it waits in SIGWAIT or DISPATCH. -/
inductive FwFetched where
  | idle
  | instr (i : Instr)
  | illegal                -- in the opcode of Xkarb, and no instruction of it
  | base (w : BitVec 32)   -- outside Xkarb
  deriving DecidableEq, Repr

/-- Fetch and decode for a firmware core. -/
def State.fwNext (s : State) (n : Nat) : FwFetched :=
  let c := s.fwCore n
  if c.wait.isSome || c.disp.isSome then .idle
  else
    let w := s.fwWord n
    match decodeXkarb w with
    | some i => .instr i
    | none => if w.extractLsb' 0 7 = 0x0B then .illegal else .base w

/-- An illegal instruction of a firmware core (16 R392). -/
def State.fwIllegalAt (s : State) (n : Nat) : State := s.modFw n fun c => c.trap fwIllegal ((s.fwWord n).setWidth 64)

/-- A launch of one block of one warp with 256 vector registers and one bank of local store. -/
def oneWarp : LaunchDesc :=
  let k : KernelRec := { (default : KernelRec) with stages := [(0, 1, 256)], local_ := 393216 }
  { (default : LaunchDesc) with gx := 1, gy := 1, gz := 1, kern := k }

/-- A machine with that launch resident on core 0 of die 0 of package 0, whose first words are `w` and `e`; its warp 0 issues
from slot 0 (log 1). -/
def State.withWarp (s : State) (w e : Word) : State :=
  let d := oneWarp
  let x : Launch := { (default : Launch) with desc := d, pset := [0], rrec := [] }
  let s1 : State := { s with
    launches := kput s.launches 0 x
    blocks := kput s.blocks 0 { newBlock d 0 0 0 0 0 with resident := true }
    warps := kputs s.warps (newWarps d 0 0 s.clk [(0, 0)]) }
  s1.modCore 0 fun c => { c with icache := kput (kput c.icache 0 w) 1 e }

/-- Bytes in a firmware core's SRAM. -/
def State.withRam (s : State) (n a : Nat) (l : List Byte) : State :=
  s.modFw n fun c => { c with sram := kputs c.sram ((List.zip (List.range l.length) l).map fun q => (a + q.1, q.2)) }

end Sys2Proof.Machine
end

