-- ==== Sys2Proof/Machine/Events.lean ====
section
/-! DEFINITION. What each step of the part does: its meaning, as `exec` has it. -/

namespace Sys2Proof.Machine

/-- Run a step of the part. -/
def Event.run (e : Event) (s : State) : Out :=
  match e with
  | .joinBoundExpiry w slot => execJoinBoundExpiry w slot s
  | .regangBoundExpiry w slot => execRegangBoundExpiry w slot s
  | .sigwaitWake pkg die fw => execSigwaitWake pkg die fw s
  | .sigwaitTimeout pkg die fw => execSigwaitTimeout pkg die fw s
  | .dispatchComplete pkg die fw => execDispatchComplete pkg die fw s
  | .purge pkg die core => execPurge pkg die core s
  | .mask pkg die core => execMask pkg die core s
  | .genset pkg die core => execGenset pkg die core s
  | .rebind pkg die core => execRebind pkg die core s
  | .spanParkEnd w slot => execSpanParkEnd w slot s
  | .exceptionRecordHeld q => execExceptionRecordHeld q s
  | .loadReply r => execLoadReply r s
  | .regangMerge w => execRegangMerge w s
  | .swapEpochAdvance w => execSwapEpochAdvance w s
  | .splitSwap w => execSplitSwap w s
  | .splitSwapDone w => execSplitSwapDone w s
  | .splitFill w => execSplitFill w s
  | .splitFillDone w => execSplitFillDone w s
  | .feGranuleAccess a => execFeGranuleAccess a s
  | .homeServeLoad r => execHomeServeLoad r s
  | .storeApply r => execStoreApply r s
  | .atomicApply r => execAtomicApply r s
  | .stageAck r => execStageAck r s
  | .invalidation v => execInvalidation v s
  | .probeAbsent v => execProbeAbsent v s
  | .stale r => execStale r s
  | .mishome r => execMishome r s
  | .plcMiss r => execPlcMiss r s
  | .tlbMissWalk r => execTlbMissWalk r s
  | .evictionWriteback c => execEvictionWriteback c s
  | .xlate r => execXlate r s
  | .lost pkg die line => execLost pkg die line s
  | .cohlost pkg die line => execCohlost pkg die line s
  | .cohfix pkg die line => execCohfix pkg die line s
  | .fenceComplete w slot => execFenceComplete w slot s
  | .unlockDepart r => execUnlockDepart r s
  | .csigApply p => execCsigApply p s
  | .evntAppend p => execEvntAppend p s
  | .lockRequest r => execLockRequest r s
  | .lockTryRequest r => execLockTryRequest r s
  | .unlockRequest r => execUnlockRequest r s
  | .lockGrant g => execLockGrant g s
  | .lockTimeoutExpiry w k => execLockTimeoutExpiry w k s
  | .withdraw d => execWithdraw d s
  | .waitForRecord n => execWaitForRecord n s
  | .holderSaved w k => execHolderSaved w k s
  | .holderRestored w k => execHolderRestored w k s
  | .holderFatalEnd pkg die line => execHolderFatalEnd pkg die line s
  | .waiterSaved w k => execWaiterSaved w k s
  | .waiterRestored w k => execWaiterRestored w k s
  | .engineFork e => execEngineFork e s
  | .engineJoin e => execEngineJoin e s
  | .hodLineBegin e => execHodLineBegin e s
  | .hodLineComplete e => execHodLineComplete e s
  | .taskStart e => execTaskStart e s
  | .taskKblockCommit e => execTaskKblockCommit e s
  | .taskEnd e => execTaskEnd e s
  | .kilnRequestArrival e => execKilnRequestArrival e s
  | .kilnComplete e => execKilnComplete e s
  | .mcstReplicate e => execMcstReplicate e s
  | .mcstMemberWrite e pkg => execMcstMemberWrite e pkg s
  | .mcstAck e => execMcstAck e s
  | .msgxDelivery e => execMsgxDelivery e s
  | .ethernetFrame port etype bytes => execEthernetFrame port etype bytes s
  | .firing pkg tag => execFiring pkg tag s
  | .firingRefused pkg tag => execFiringRefused pkg tag s
  | .clusterHanddown l node => execClusterHanddown l node s
  | .clusterSteal l node => execClusterSteal l node s
  | .clusterPlace pkg die => execClusterPlace pkg die s
  | .coresidentPlace l => execCoresidentPlace l s
  | .blockStart l k => execBlockStart l k s
  | .blockRetire b => execBlockRetire b s
  | .nodeDrain l node => execNodeDrain l node s
  | .mortarRootClose l k n pkg => execMortarRootClose l k n pkg s
  | .mortarPackageCompletion l n pkg => execMortarPackageCompletion l n pkg s
  | .mortarDieRelease l k n pkg die => execMortarDieRelease l k n pkg die s
  | .haltRequestArrival l pkg die core => execHaltRequestArrival l pkg die core s
  | .checkpointBudgetExpiry w => execCheckpointBudgetExpiry w s
  | .warpCapture w => execWarpCapture w s
  | .haltComplete p => execHaltComplete p s
  | .saveComplete p => execSaveComplete p s
  | .clusterRestore l k => execClusterRestore l k s
  | .qtail q v => execQtail q v s
  | .exansResume q seq => execExansResume q seq s
  | .exansSkip q seq => execExansSkip q seq s
  | .exansAbort q seq => execExansAbort q seq s
  | .registerWrite addr v => execRegisterWrite addr v s
  | .packetNop q => execPacketNop q s
  | .launch q => execLaunch q s
  | .arm q => execArm q s
  | .disarm q => execDisarm q s
  | .disarmComplete q => execDisarmComplete q s
  | .waitmem q => execWaitmem q s
  | .waitmemSatisfied q => execWaitmemSatisfied q s
  | .signalmem q => execSignalmem q s
  | .preempt q => execPreempt q s
  | .resume q => execResume q s
  | .abort q => execAbort q s
  | .qctlCreate q => execQctlCreate q s
  | .qctlStop q => execQctlStop q s
  | .qctlRestart q => execQctlRestart q s
  | .qctlDestroy q => execQctlDestroy q s
  | .steer q => execSteer q s
  | .tfansReplay ticket pkg => execTfansReplay ticket pkg s
  | .tfansInvalid ticket pkg => execTfansInvalid ticket pkg s
  | .gencmd addr => execGencmd addr s
  | .bumpdone asid => execBumpdone asid s
  | .framefree v => execFramefree v s
  | .clear pkg die v => execClear pkg die v s
  | .pstate pkg v => execPstate pkg v s
  | .powerCapDown pkg => execPowerCapDown pkg s
  | .powerCapRestore pkg => execPowerCapRestore pkg s
  | .planeen pkg v => execPlaneen pkg v s
  | .attestRequest pkg v => execAttestRequest pkg v s
  | .attestComplete pkg => execAttestComplete pkg s
  | .mcastGroupWrite g members asid valid => execMcastGroupWrite g members asid valid s
  | .flitCrcFail link => execFlitCrcFail link s
  | .flitRetryTimer link => execFlitRetryTimer link s
  | .linkDead link => execLinkDead link s
  | .planeMaskAdopt pkg => execPlaneMaskAdopt pkg s
  | .portRetrain pkg plane good => execPortRetrain pkg plane good s
  | .dieHeartbeat pkg die => execDieHeartbeat pkg die s
  | .dieLost pkg die => execDieLost pkg die s
  | .packageHeartbeat pkg => execPackageHeartbeat pkg s
  | .packageDead pkg => execPackageDead pkg s
  | .coreFail pkg die core => execCoreFail pkg die core s
  | .eccCorrectable pkg die => execEccCorrectable pkg die s
  | .eccUncorrectable e => execEccUncorrectable e s
  | .bootStart pkg die fails => execBootStart pkg die fails s
  | .dieUpdate pkg die pmin pmax good => execDieUpdate pkg die pmin pmax good s
  | .hostHeartbeat => execHostHeartbeat s
  | .streamRecord => execStreamRecord s
  | .takeover => execTakeover s
  | .instructionFetch w slot => execInstructionFetch w slot s
  | .registerResultReturn w k => execRegisterResultReturn w k s
  | .mailboxMessage pkg die fw => execMailboxMessage pkg die fw s
  | .waitForRecordAgeOut pkg die => execWaitForRecordAgeOut pkg die s
  | .journalClear pkg die => execJournalClear pkg die s

end Sys2Proof.Machine
end

