-- ==== Sys2Proof/Machine/Sched.lean ====
section
/-! DEFINITION. The order of the steps within a clk (09 R238 to R247, 15 R364, log 9): parts 0 to 10 of each clk list the steps
that may take place, from the state at the part's start. A step whose condition does not hold when its turn comes leaves the state
as it is (log 8). The choice of what issues is 09 R242 to R244. -/

namespace Sys2Proof.Machine

/-! ## Helpers -/

/-- Whether a warp's block is resident in a package that works. -/
def State.inPlace (s : State) (w : Warp) : Bool := let b := s.blockD w.block; b.resident && !(s.pkg b.pkg).failed

/-- Warps that live, are resident, and have not been captured. -/
def State.runningWarps (s : State) : List (Nat × Warp) := s.warps.filter fun q => !q.2.ended && !q.2.captured && s.inPlace q.2

/-- Whether the package of a warp works. -/
def State.issuerUp (s : State) (wid : Nat) : Bool := !(s.pkg (s.blockOf wid).pkg).failed

/-- Steps as actions. -/
def steps (l : List Event) : List Action := l.map .event


/-! ## Part 0: the clk begins -/

/-- Count the bounds of a warp's waits and the timeouts of its locks (05 R121, R130, 12 R315). -/
def Warp.tick (w : Warp) : Warp :=
  let sent (k : LockSlot) : Bool := w.table.any fun t => t.2.eff == .lockWait && t.2.wobj == lineWord k.line
  { w with
    table := kmap w.table fun _ (p : Split) => p.tickBound
    locks := w.locks.map fun k => if k.live && !k.held && !k.withdrawn && sent k then { k with tleft := k.tleft - 1 } else k }

/-- Count the clk in every running warp, in the packages' power blocks, and learn which packages fail (17 R405). -/
def State.tickAll (s : State) : State :=
  let run (w : Warp) : Bool := !w.ended && !w.captured && s.inPlace w
  let s1 : State := { s with warps := kmap s.warps fun _ (w : Warp) => if run w then w.tick else w }
  let count (p : Nat) (x : Pkg) : Pkg := (x.powerClk p s.clk)
  let s2 : State :=
    if s.clk % 1200 = 0 then (List.range Config.packages).foldl (fun s p => s.modPkg p (count p)) s1
    else { s1 with pkgs := kmap s1.pkgs count }
  let gone := (List.range Config.packages).filter fun p => Config.packageFails p s.clk
  let s3 := gone.foldl (fun s p => s.modPkg p fun x => { x with failed := true }) s2
  if s.clk % 1200 = 0 then
    let silent := (List.range (128 * Config.packages)).filter fun dk => Config.dieFails dk s.clk
    silent.foldl (fun s dk => s.modDie dk fun d => { d with beating := false }) s3
  else s3

/-- Part 0: the outside inputs that are due; heartbeats every 1,200 clk (17 R405, 16 R397). -/
def State.part0 (s : State) : State × List Action :=
  let s1 := s.tickAll
  let due := (s.inputs.filter fun q => decide (q.1 ≤ s.clk)).map (·.2)
  let beats : List Event :=
    if s.clk % 1200 = 0 ∧ s.clk ≠ 0 then
      .hostHeartbeat :: ((List.range Config.packages).map .packageHeartbeat)
        ++ (List.range (128 * Config.packages)).map fun dk => Event.dieHeartbeat (dk / 128) (dk % 128)
    else []
  ({ s1 with inputs := s1.inputs.filter fun q => decide (s.clk < q.1) }, steps (due ++ beats))

/-! ## Part 1: what arrives -/

/-- What a request does where it stands (11 R284, 16 R378 to R381). -/
def servedBy (id : Nat) (r : Req) : List Event :=
  match r.kind with
  | .load | .prf | .lkqry => [.homeServeLoad id]
  | .store | .red | .cwb | .cinv => [.storeApply id]
  | .atom => [.atomicApply id]
  | .lock => [.lockRequest id]
  | .lockTry => [.lockTryRequest id]
  | .unlock => [.unlockRequest id]
  | .fetch => []

def State.atHome (s : State) (id : Nat) (r : Req) : List Event :=
  let copy := r.kind == .load && decide (r.stage ≤ 1)
  let l1 := r.op == 2 && (r.kind == .store || r.kind == .cwb || r.kind == .cinv)
  if copy || l1 then servedBy id r
  else
    match s.homeState r with
    | .stale => [.stale id]
    | .mishome => [.mishome id]
    | .miss => [.tlbMissWalk id]
    | .absent => [.xlate id]
    | _ => servedBy id r

/-- The step by which a core learns that a request has failed. -/
def failStep (id : Nat) (r : Req) : Event :=
  match r.kind with
  | .lock => .lockRequest id
  | .lockTry => .lockTryRequest id
  | _ => if r.isPosted then .stageAck id else .loadReply id

/-- The steps of a request in a clk. -/
def State.reqSteps (s : State) (id : Nat) (r : Req) : List Event :=
  if !s.issuerUp r.wid then []
  else
    let core : List Event := if r.kind == .store && r.op == 1 && r.stage == 0 && decide (r.clk + 2 ≤ s.clk) then [.stageAck id] else []
    core ++
      match r.phase with
      | .held => if r.kind == .load || r.kind == .prf then [.homeServeLoad id] else []
      | .rejStale => if r.arrive ≤ s.clk then [.stale id] else []
      | .rejMis => if r.arrive ≤ s.clk then [.mishome id] else []
      | .plc => if r.arrive ≤ s.clk then [.plcMiss id] else []
      | .out => if s.arrived r then s.atHome id r else []
      | .applied => if r.isPosted ∧ r.arrive ≤ s.clk then List.replicate (6 - r.stage) (.stageAck id) else []
      | .reply => if r.arrive ≤ s.clk then [.loadReply id] else []
      | .failed => if r.arrive ≤ s.clk then [failStep id r] else []
      | _ => []

/-- Results whose latency has passed, and loads from local store that have arrived, in issue order (01 R18, 07 R185). -/
def State.resultSteps (s : State) : List Event :=
  s.warps.flatMap fun (q : Nat × Warp) =>
    (sortBy (fun r : Nat × Result => r.2.key) (q.2.results.filter fun r => !r.2.done &&
      if r.2.mem then r.2.coming.any fun c => decide (c.2.1 ≤ s.clk) else decide (r.2.due ≤ s.clk))).map
        fun r => .registerResultReturn q.1 r.1

/-- Local-store accesses that have reached their banks, in the order in which they are served (07 R186). -/
def State.feSteps (s : State) : List Event :=
  (sortBy (fun q : Nat × FeAccess => s.feRank q.2)
    (s.fes.filter fun q => !q.2.waiting && q.2.reach != 0 && decide (q.2.reach ≤ s.clk) && s.issuerUp q.2.wid)).map
      fun q => .feGranuleAccess q.1

/-- The locks of warps: timeouts (12 R315), and saves and restores that the homes have not learned of (12 R313). -/
def State.lockSteps (s : State) : List Event :=
  s.warps.flatMap fun (q : Nat × Warp) =>
    (List.zip (List.range q.2.locks.length) q.2.locks).flatMap fun (k : Nat × LockSlot) =>
      let e := s.lockEntry (s.lockHome q.1 k.2.line) k.2.line
      let b := s.blockD q.2.block
      let moved := !q.2.captured && (e.hpkg != b.pkg || e.hdie != b.die || e.hcore != b.core)
      let waits (x : Waiter) : Bool := x.key == q.1 && x.present == q.2.captured
      if !k.2.held && !q.2.captured && k.2.tleft == 0 && !k.2.withdrawn then [.lockTimeoutExpiry q.1 k.1]
      else if k.2.held && e.holder == some q.1 && (e.saved != q.2.captured || moved) then
        [if q.2.captured then .holderSaved q.1 k.1 else .holderRestored q.1 k.1]
      else if !k.2.held && e.queue.any waits then [if q.2.captured then .waiterSaved q.1 k.1 else .waiterRestored q.1 k.1]
      else []

/-- Lock entries whose holder has ended fatally (12 R314). -/
def State.fatalSteps (s : State) : List Event :=
  (s.lockTab.filter fun q => s.holderGone q.2).map fun q => Event.holderFatalEnd (q.1 / 2 ^ 73 / 128) (q.1 / 2 ^ 73 % 128) (q.1 % 2 ^ 73)

/-- Directory entries in LOST (16 R388). -/
def State.dirSteps (s : State) : List Event :=
  (s.dirs.filter fun q => q.2.lost).map fun q =>
    let dk := q.1 / 2 ^ 73
    if q.2.recover then Event.cohfix (dk / 128) (dk % 128) (q.1 % 2 ^ 73) else Event.cohlost (dk / 128) (dk % 128) (q.1 % 2 ^ 73)

/-- Commands at the heads of the cores' queues (16 R393), and waits of firmware cores. -/
def State.firmwareSteps (s : State) : List Event :=
  (s.cores.flatMap fun (q : Nat × Core) =>
    let dk := q.1 / 48
    match q.2.cmds with
    | [] => []
    | x :: _ =>
      match x.op with
      | 1 => [Event.purge (dk / 128) (dk % 128) (q.1 % 48)]
      | 2 => [Event.mask (dk / 128) (dk % 128) (q.1 % 48)]
      | 3 => [Event.genset (dk / 128) (dk % 128) (q.1 % 48)]
      | 4 => [Event.rebind (dk / 128) (dk % 128) (q.1 % 48)]
      | _ => [])
  ++ s.dies.flatMap fun (q : Nat × Die) =>
    q.2.fw.flatMap fun (c : Nat × FwCore) =>
      (match c.2.wait with
       | some (_, m, _) => if c.2.sig &&& m ≠ 0 then [Event.sigwaitWake (q.1 / 128) (q.1 % 128) c.1] else [Event.sigwaitTimeout (q.1 / 128) (q.1 % 128) c.1]
       | none => [])
      ++ if c.2.disp.isSome then [Event.dispatchComplete (q.1 / 128) (q.1 % 128) c.1] else []

/-- The steps of engine work in a clk, but its fork, its join and the starts of tasks: the lines of the hod, k-blocks and ends of tasks, kiln
requests, sends. -/
def State.workSteps (s : State) (id : Nat) (e : Work) : List Event :=
  let b := s.blockD e.block
  if (s.pkg b.pkg).failed then []
  else if e.kind.isHod then
    List.replicate (2 * e.lines.length) (.hodLineComplete id) ++
      if (e.phase == .forked || e.phase == .running) && s.hodHead id e then List.replicate 16 (.hodLineBegin id) else []
  else if e.kind.isTask then
    if e.phase = .running then
      ((List.range (e.blocks - e.next)).filter fun i => decide (e.blockEnd (e.next + i + 1) ≤ s.clk)).map (fun _ => .taskKblockCommit id)
        ++ [.taskEnd id]
    else []
  else
    match e.kind, e.phase with
    | .kmv, .sent => [.kilnRequestArrival id]
    | .kmv, .forked => [.kilnRequestArrival id]
    | .kmv, .running => [.kilnComplete id]
    | .mcst, .sent => [.mcstReplicate id]
    | .mcst, .running => e.wait.map (.mcstMemberWrite id) ++ [.mcstAck id]
    | .msgx, .sent => [.msgxDelivery id]
    | _, _ => []

/-- The starts of tile tasks, in entry order, once those that end in the clk have freed their engines (12 R322). -/
def State.taskSteps (s : State) : List Event :=
  (s.works.filter fun q => q.2.kind.isTask && q.2.phase == .forked && powerTasks (s.pkg (s.blockD q.2.block).pkg).pnow s.clk
    && !(s.pkg (s.blockD q.2.block).pkg).failed).map fun q => .taskStart q.1

/-- The source channel of a warp (12 R327): 64 channels of each package. -/
def State.channel (s : State) (wid : Nat) : Nat :=
  let b := s.blockOf wid
  64 * b.pkg + (48 * b.die + b.core) % 64

/-- The number of a unit of a slice: 0 atomic, 1 lock (12 R327). -/
def unitNo (dk asid va unit : Nat) : Nat := 2 * (384 * dk + sliceOf asid (blkOf va)) + unit

/-- The unit of its home slice that serves a request now (12 R327). -/
def State.unitOf (s : State) (r : Req) : Option Nat :=
  let no := unitNo (128 * r.pkg + r.die) r.asid r.va.toNat
  let served := r.phase == .out && s.arrived r && s.issuerUp r.wid && s.mayMake r && match s.homeState r with | .ok _ => true | _ => false
  match r.kind with
  | .atom | .red => if served && !s.slowHome r then some (no 0) else none
  | .lock | .lockTry | .unlock =>
    if served && !(s.lockFar (128 * r.pkg + r.die) (lineOf r.asid r.va.toNat r.size) && !r.filled) then some (no 1) else none
  | _ => none

/-- A request or a withdraw that a unit serves: its steps, the clk of its arrival, its unit and its channel. -/
structure Served where
  steps : List Event
  at_   : Nat
  unit  : Nat
  chan  : Nat

/-- Those served, each with its place among those of its channel. -/
def roundsOf : List Served → List (Served × Nat) → List (Served × Nat)
  | [], done => done
  | x :: rest, done => roundsOf rest (done ++ [(x, (done.filter fun y => y.1.unit == x.unit && y.1.chan == x.chan).length)])

/-- What the units serve in a clk: atomics, lock requests, withdraws. -/
def State.served (s : State) : List Served :=
  (s.reqs.filterMap fun q => (s.unitOf q.2).map fun u => ⟨s.reqSteps q.1 q.2, q.2.arrive, u, s.channel q.2.wid⟩)
    ++ (s.withdraws.filter fun q => decide (q.2.due ≤ s.clk)).map fun q =>
      ⟨[.withdraw q.1], q.2.due, unitNo q.2.dk (lineAsid q.2.line) (lineVa q.2.line) 1, s.channel q.2.wid⟩

/-- The channels that the units of a slice served last. -/
def State.lastChan (s : State) (unit : Nat) : Nat :=
  let c := kgetD (s.die (unit / 768)).chans (unit / 2 % 384) (0, 0)
  if unit % 2 = 0 then c.1 else c.2

/-- A unit has served a channel. -/
def State.noteChan (s : State) (x : Served) : State :=
  s.modDie (x.unit / 768) fun d =>
    let c := kgetD d.chans (x.unit / 2 % 384) (0, 0)
    { d with chans := kput d.chans (x.unit / 2 % 384) (if x.unit % 2 = 0 then (x.chan, c.2) else (c.1, x.chan)) }

/-- The order in which the atomic and lock units of the home slices serve requests (12 R327): each channel in order of arrival, one
request of a channel at a time in rotation from the channel after the last one served; with the units as they stand afterwards. -/
def State.unitSteps (s : State) : State × List Event :=
  let l := sortBy Served.at_ s.served
  let order := (sortBy (fun x : Served × Nat => 32768 * x.2 + (x.1.chan + 32767 - s.lastChan x.1.unit) % 32768) (roundsOf l [])).map (·.1)
  (order.foldl State.noteChan s, order.flatMap Served.steps)

/-- Part 1: results, requests, accesses, signals, locks, firmware and engines. -/
def State.part1 (s : State) : State × List Action :=
  let invals := s.invals.filterMap fun (q : Nat × Inval) =>
    if s.clk < q.2.due then none else if s.dieHas q.2 then some (Event.invalidation q.1) else some (.probeAbsent q.1)
  let units := s.unitSteps
  (units.1, steps (s.resultSteps
    ++ ((s.reqs.filter fun q => (s.unitOf q.2).isNone).flatMap fun (q : Nat × Req) => s.reqSteps q.1 q.2) ++ units.2
    ++ invals
    ++ s.feSteps
    ++ (s.posts.map fun (q : Nat × Post) => if q.2.evnt then Event.evntAppend q.1 else .csigApply q.1)
    ++ ((s.grants.filter fun q => decide (q.2.due ≤ s.clk)).map fun q => Event.lockGrant q.1)
    ++ ((s.waitFors.filter fun q => decide (q.2.clk ≤ s.clk)).map fun q => Event.waitForRecord q.1)
    ++ s.lockSteps ++ s.fatalSteps ++ s.dirSteps ++ s.firmwareSteps
    ++ (s.works.flatMap fun (q : Nat × Work) => s.workSteps q.1 q.2) ++ s.taskSteps
    ++ (s.works.map fun q => Event.engineJoin q.1)
    ++ (s.bumps.filter fun q => s.bumpDue q.1).map fun q => Event.bumpdone q.1))

/-! ## Part 2: what goes on -/

/-- Releases of barriers of clusters and grids (12 R318 to R320). -/
def State.mortarSteps (s : State) : List Event :=
  s.phases.flatMap fun (q : Nat × Phase) =>
    let k := match q.2.cluster with | some c => c + 1 | none => 0
    let roots : List Event := if k = 0 ∧ !q.2.told then q.2.pkgs.map fun p => .mortarPackageCompletion q.2.launch q.2.num p else []
    roots ++ if q.2.told then q.2.dies.map fun dk => .mortarDieRelease q.2.launch k q.2.num (dk / 128) (dk % 128) else []

/-- Splits in SPAN-PARK whose results have returned (09 R239), also those of a captured warp (09 R252), and FENCEs
(07 R200). -/
def State.parkSteps (s : State) : List Event :=
  ((s.warps.filter fun q => q.2.captured && !q.2.ended && s.inPlace q.2).flatMap fun (q : Nat × Warp) =>
    (q.2.table.filter fun t => t.2.eff == .spanPark && !q.2.outstanding t.2).map fun t => Event.spanParkEnd q.1 t.1)
  ++ s.runningWarps.flatMap fun (q : Nat × Warp) =>
    q.2.table.flatMap fun (t : Nat × Split) =>
      if t.2.eff ≠ .spanPark then []
      else
        (if s.settled q.1 t.2 then [.spanParkEnd q.1 t.1] else [])
          ++ match t.2.after with | .fence .. => [.fenceComplete q.1 t.1] | _ => []

/-- The overflow areas (09 R246, 01 R36). -/
def State.moveSteps (s : State) : List Event :=
  s.runningWarps.flatMap fun (q : Nat × Warp) =>
    let dormant := q.2.table.any fun t => decide (8 ≤ t.1)
    (if q.2.moves.isEmpty then [] else [.splitSwapDone q.1, .splitFillDone q.1])
      ++ (if q.2.epochClk + 256 ≤ s.clk then [.swapEpochAdvance q.1] else [])
      ++ (if dormant then [.splitSwap q.1] ++ List.replicate 8 (.splitFill q.1) else [])

/-- The clk in which the halt request of a launch reaches a core (15 R368); none while it is on its way or none is sent. -/
def State.haltDue (s : State) (l : Nat) (b : Block) : Bool :=
  s.updating b ||
    s.queues.any fun (q : Nat × Queue) => q.2.active.any fun p =>
      p.opc == pkPreempt && p.launches.contains l && decide (p.clk + Config.haltDelay p.clk b.ck % 2401 ≤ s.clk)

/-- The halt requests that arrive and the budgets that expire, before the clk's instructions issue (09 R250, R252). -/
def State.haltSteps (s : State) : List Event :=
  let l := (s.runningWarps.filter fun q => q.2.haltH == 0).filterMap fun (q : Nat × Warp) =>
    let b := s.blockD q.2.block
    if ((s.launchD b.launch).halting || s.updating b) && s.haltDue b.launch b then some (b.launch, b.ck) else none
  let halting := s.runningWarps.filter fun q => q.2.haltH != 0
  (l.eraseDups.map fun x => Event.haltRequestArrival x.1 (x.2 / 48 / 128) (x.2 / 48 % 128) (x.2 % 48))
    ++ halting.map fun q => Event.checkpointBudgetExpiry q.1

/-- Part 2: arrivals at barriers that have become observable, halt requests, releases, ends of spans, moves of splits, blocks that start. -/
def State.part2 (s : State) : State × List Action :=
  let s1 := (s.warps.filter fun q => !q.2.arrPend.isEmpty).foldl (fun s q => s.deliverArrivals q.1) s
  let starts := s1.blocks.filter fun q => !q.2.resident && !q.2.saved && q.2.rank == 0
  (s1, steps (s1.haltSteps ++ s1.mortarSteps ++ s1.parkSteps ++ s1.moveSteps
    ++ (s1.queues.flatMap fun (q : Nat × Queue) => List.replicate q.2.heldRecs.length (Event.exceptionRecordHeld q.1))
    ++ starts.map fun q => Event.blockStart q.2.launch q.2.cluster))

/-! ## Parts 3 and 4: what issues -/

/-- Whether a split could issue but for its instruction (09 R242, R246, R250, 08 R235). -/
def State.mayIssue (s : State) (w : Warp) (t : Nat) (p : Split) : Bool :=
  decide (t < 8) && p.st == .ready && !p.moving && !p.halted && decide (p.notBefore ≤ s.clk) && !(w.stopped && p.len == 0)

/-- Part 3: merges at issue boundaries (09 R247) and fetches that missed (R241). -/
def State.part3 (s : State) : State × List Action :=
  let ws := s.runningWarps.filter fun q => s.coreLive (s.blockD q.2.block).ck
  let miss (q : Nat × Warp) : List Event := (q.2.table.filter fun t =>
    s.mayIssue q.2 t.1 t.2 && match s.fetched q.1 t.2.pc with | .ok _ => false | .error _ => true).flatMap
      fun t => List.replicate 2 (.instructionFetch q.1 t.1)
  (s, steps ((ws.filter fun q => decide (2 ≤ q.2.table.length)).map (fun q => Event.regangMerge q.1) ++ ws.flatMap miss))

/-- The work that an engine command enters, by its opcode and function (08 R213). -/
def commandKind (w : Word) : Option WorkKind :=
  match opOf w with
  | 0x70 | 0x71 => some .cpyIn
  | 0x73 => some .task
  | 0x74 => some .kmv
  | 0x75 => some .mcst
  | 0x76 => some .msgx
  | _ => none

/-- A division, a function of opcode 0x23, a command of format E, a vector instruction. -/
def isDivision (w : Word) : Bool :=
  (opOf w == 1 && fnOf w == 4) || (opOf w == 2 && fnOf w == 4) || (opOf w == 3 && fnOf w == 1)
def isTrans (w : Word) : Bool := opOf w == 0x23
def isCommand (w : Word) : Bool := decide (0x70 ≤ opOf w) && decide (opOf w ≤ 0x76)
def isVector (w : Word) : Bool := decide (0x20 ≤ opOf w) && decide (opOf w ≤ 0x4F)

/-- The quads of a split (09 R243). -/
def quadsOf (m : Lanes) : List Nat := (List.range 8).filter fun q => (m >>> (4 * q)) &&& 0xF != 0

/-- The number of a quad of a warp's half in its core. -/
def Warp.quad (w : Warp) (q : Nat) : Nat := 16 * w.part + 8 * w.half + q

/-- Whether a busy divider, busy quads or a full engine queue holds an instruction back (09 R241). -/
def State.hindered (s : State) (ck : Nat) (w : Warp) (p : Split) (i : Word) : Bool :=
  let c := s.core ck
  (isDivision i && decide (s.clk < kgetD c.divs w.slotNo 0))
    || (isTrans i && (quadsOf p.lmask).any fun q => decide (s.clk < kgetD c.trans (w.quad q) 0))
    || (match commandKind i with | some k => s.queueFull ck k | none => false)

/-- Whether an obstacle holds an instruction back: one of R241, or the power cap (17 R408). -/
def State.obstacle (s : State) (ck : Nat) (w : Warp) (p : Split) (i : Word) : Bool :=
  s.hindered ck w p i || (isVector i && !powerVector (s.pkg (ck / 48 / 128)).pnow s.clk)

/-- Whether the cap of a package withholds in this clk a vector instruction or a tile task that nothing else holds back (17 R407
THROTTLE; log 50). -/
def State.withholds (s : State) (pkg : Nat) (x : Pkg) : Bool :=
  let vector (q : Nat × Warp) (t : Nat × Split) : Bool :=
    s.mayIssue q.2 t.1 t.2 && match s.fetched q.1 t.2.pc with
      | .error _ => false
      | .ok (i, _) => isVector i && !s.hindered (s.blockD q.2.block).ck q.2 t.2 i
  (!powerVector x.pnow s.clk && s.runningWarps.any fun q =>
      (s.blockD q.2.block).pkg == pkg && s.coreLive (s.blockD q.2.block).ck && q.2.table.any (vector q))
    || (!powerTasks x.pnow s.clk && s.works.any fun q =>
      q.2.kind.isTask && q.2.phase == .forked && (s.blockD q.2.block).pkg == pkg && (s.freeEngine (s.workCore q.2)).isSome && s.mayStart q.1 q.2)

/-- A split that is eligible, apart from yield marks. -/
structure Candidate where
  wid  : Nat
  slot : Nat
  split : Split
  word : Word

/-- The candidates of a warp, in slot order (09 R242). -/
def State.candidates (s : State) (q : Nat × Warp) : List Candidate :=
  let ck := (s.blockD q.2.block).ck
  q.2.table.filterMap fun t =>
    if !s.mayIssue q.2 t.1 t.2 then none
    else
      match s.fetched q.1 t.2.pc with
      | .error _ => none
      | .ok (i, _) => if s.obstacle ck q.2 t.2 i then none else some ⟨q.1, t.1, t.2, i⟩

/-- Values in the order after `last`, wrapping at 8. -/
def after8 {α : Type} (key : α → Nat) (last : Nat) (l : List α) : List α := sortBy (fun a => (key a + 7 - last) % 8) l

/-- Add splits to the chosen ones (09 R243). -/
def coIssue : List Candidate → List Candidate → List Candidate
  | chosen, [] => chosen
  | chosen, t :: rest =>
    let free := (quadsOf t.split.lmask).all fun q => !(chosen.any fun c => (quadsOf c.split.lmask).contains q)
    let one (f : Word → Bool) : Bool := !(f t.word && chosen.any fun c => f c.word)
    if chosen.length < 4 ∧ free ∧ one isCommand ∧ one isDivision then coIssue (chosen ++ [t]) rest else coIssue chosen rest

/-- The splits that a half's port chooses among its warps (09 R242, R243), with the marks of YIELD (05 R125, log 42): where every eligible
split is marked, each is the other's only rival, and all compete (DESIGN CHOICE, log 42). -/
def State.choose (s : State) (ck half : Nat) (ws : List (Nat × Warp)) : List Candidate :=
  let all := ws.map fun q => (q, s.candidates q)
  let plain := all.any fun q => q.2.any fun c => !c.split.yield
  let open_ := (all.map fun q => (q.1, q.2.filter fun c => !(c.split.yield && plain))).filter fun q => !q.2.isEmpty
  match after8 (fun q : (Nat × Warp) × List Candidate => q.1.2.wslot) (kgetD (s.core ck).last half 7) open_ with
  | [] => []
  | (q, l) :: _ =>
    match after8 Candidate.slot q.2.lastLead l with
    | [] => []
    | lead :: rest => coIssue [lead] rest

/-- The running warps of each half: core, half, warps. -/
def State.halves (s : State) : List (Nat × Nat × List (Nat × Warp)) :=
  let ws := s.runningWarps.filter fun q => s.coreLive (s.blockD q.2.block).ck
  let keyOf (q : Nat × Warp) : Nat := 24 * (s.blockD q.2.block).ck + 2 * q.2.part + q.2.half
  let keys := ws.foldl (fun a q => ninsert a (keyOf q)) []
  keys.map fun k => (k / 24, k % 24, ws.filter fun q => keyOf q == k)

/-- Note what a port chose: the warp, the lead, the divider and the quads taken; the marks of YIELD that have acted. -/
def State.noteChoice (s : State) (ck half : Nat) (ws : List (Nat × Warp)) (l : List Candidate) : State :=
  let marked := (ws.flatMap fun q => s.candidates q).filter fun c => c.split.yield
  let s1 := marked.foldl (fun s c => s.modSplit c.wid c.slot fun p => { p with yield := false }) s
  match l with
  | [] => s1
  | lead :: _ =>
    let w := s.warpD lead.wid
    let s2 := (s1.modWarp lead.wid fun w => { w with lastLead := lead.slot }).modCore ck fun c => { c with last := kput c.last half w.wslot }
    l.foldl (fun s c =>
      let s3 := if isDivision c.word then s.modCore ck fun x => { x with divs := kput x.divs w.slotNo (s.clk + 34) } else s
      if isTrans c.word then
        s3.modCore ck fun x => { x with trans := (quadsOf c.split.lmask).foldl (fun m q => kput m (w.quad q) (s.clk + 4)) x.trans }
      else s3) s2

/-- The place of an issue among those of its clk (08 R213, 09 R244): core, stage, warp index, and slot; of one warp EXIT comes
last (05 R123). -/
def State.issueRank (s : State) (c : Candidate) : Nat :=
  let w := s.warpD c.wid
  let ends := opOf c.word == 0x16 && fnOf c.word == 0
  ((((s.blockD w.block).ck * 4 + w.stage) * 32 + w.widx) * 2 ^ 32 + c.wid) * 16 + c.slot + 8 * ends.toNat

/-- Part 4: the choice of what issues; THROTTLE counts the clk where the cap withholds something. -/
def State.part4 (s : State) : State × List Action :=
  let picks := s.halves.map fun h => (h, s.choose h.1 h.2.1 h.2.2)
  let s0 : State := { s with pkgs := kmap s.pkgs fun p x => if s.withholds p x then { x with throttle := (x.throttle + 1) % 2 ^ 64 } else x }
  let s1 := picks.foldl (fun s p => s.noteChoice p.1.1 p.1.2.1 p.1.2.2 p.2) s0
  (s1, (sortBy s.issueRank (picks.flatMap (·.2))).map fun c => .issue c.wid c.slot)

/-! ## Part 5: what follows an issue -/

/-- Barriers of clusters and grids with a block that has arrived: launch, cluster plus 1 or 0, number, package. -/
def State.rootSteps (s : State) : List Event :=
  let l := s.blocks.flatMap fun (q : Nat × Block) =>
    (q.2.bars.filter fun b => b.2.blockArr && decide (16 ≤ b.1)).flatMap fun b =>
      let grid := b.1 / 16 == 2
      let pkgs := if grid then (s.launchD q.2.launch).region.foldl (fun a ck => ninsert a (ck / 48 / 128)) [] else [q.2.pkg]
      pkgs.map fun p => (q.2.launch, if grid then 0 else q.2.cluster + 1, b.1 % 16, p)
  l.eraseDups.map fun x => .mortarRootClose x.1 x.2.1 x.2.2.1 x.2.2.2

/-- Bounds of JOIN.bnd and REGANG that have expired (05 R121, R130). -/
def State.boundSteps (s : State) : List Event :=
  s.runningWarps.flatMap fun (q : Nat × Warp) =>
    q.2.table.flatMap fun (t : Nat × Split) =>
      if t.2.eff ≠ .joinWait ∨ t.2.waux ≠ 0 then []
      else if t.2.inRegang then [.regangBoundExpiry q.1 t.1]
      else [.joinBoundExpiry q.1 t.1]

/-- Gatherings whose awaited lanes have all arrived, in this clk or by an exit, release (05 R130). -/
def State.gatherings (s : State) : State :=
  s.runningWarps.foldl (fun s (q : Nat × Warp) =>
    (q.2.table.filter fun t => t.2.inRegang).foldl (fun s t => s.regangCheck q.1 t.2.pc) s) s

/-- Part 5: gatherings that are complete, forks, unlocks, roots and bounds. -/
def State.part5 (s : State) : State × List Action :=
  let s1 := s.gatherings
  (s1, steps (((s1.reqs.filter fun q => q.2.kind == .unlock && q.2.phase == .held).map fun q => Event.unlockDepart q.1)
    ++ ((s1.works.filter fun q => q.2.phase == .queued).map fun q => Event.engineFork q.1)
    ++ s1.rootSteps ++ s1.boundSteps))

/-! ## Part 6: halts, and packets other than LAUNCH -/

/-- The warps that may be captured (09 R252). -/
def State.captureSteps (s : State) : List Event := (s.runningWarps.filter fun q => q.2.haltH != 0).map fun q => Event.warpCapture q.1

/-- Halts and saves of the active PREEMPT packets (15 R368). -/
def State.saveSteps (s : State) : List Event :=
  s.queues.flatMap fun (q : Nat × Queue) =>
    (q.2.active.filter fun p => p.opc == pkPreempt && decide (p.clk < s.clk)).flatMap fun p =>
      [.haltComplete (q.1 + 4096 * p.idx), .saveComplete (q.1 + 4096 * p.idx)]

/-- The step of a packet that is not a LAUNCH. -/
def packetStep (q : Nat) (h : Head) : List Event :=
  match wf (h.words.getD 0 0) 0 8 with
  | 0 => [.packetNop q]
  | 2 => [.arm q]
  | 3 => [.disarm q]
  | 4 => [.waitmem q]
  | 5 => [.signalmem q]
  | 8 => [.preempt q]
  | 9 => [.resume q]
  | 10 => [.abort q]
  | 11 => [match wf (h.words.getD 2 0) 0 2 with | 0 => .qctlCreate q | 1 => .qctlStop q | 2 => .qctlRestart q | _ => .qctlDestroy q]
  | 12 => [.steer q]
  | _ => []

/-- Among ready queues the highest PRIO, then the first id after the pointer of that level (15 R364). -/
def State.winner (s : State) (l : List Nat) : Option Nat :=
  leastBy (fun q =>
    let x := s.queueD q
    (7 - x.prio) * 4096 + (q + 4095 - kgetD s.fe.ptrs x.prio 4095) % 4096) l

/-- The ready queues whose head packet is not a LAUNCH. -/
def State.readyOthers (s : State) : List (Nat × Head) :=
  s.queues.filterMap fun (q : Nat × Queue) =>
    match q.2.head with
    | none => none
    | some h =>
      let opc := wf (h.words.getD 0 0) 0 8
      if opc = pkLaunch then none else (s.headReady q.1 opc).map fun h => (q.1, h)

/-- Packets that have started: waits that are satisfied, signals that are due, tags that are free (15 R357). -/
def State.activeSteps (s : State) : List Event :=
  s.queues.flatMap fun (q : Nat × Queue) =>
    q.2.active.flatMap fun p =>
      if p.opc = pkWaitmem then [.waitmemSatisfied q.1]
      else if p.opc = pkDisarm then [.disarmComplete q.1]
      else if p.opc = pkSignalmem then [.signalmem q.1]
      else []

/-- Part 6: the validator examines heads (15 R358); one packet other than a LAUNCH starts (15 R364); halts and saves go on. -/
def State.part6 (s : State) : State × List Action :=
  let up := !(s.pkg s.fe.primary).failed
  let s0 : State := { s with warps := kmap s.warps fun _ (w : Warp) => if w.captured then w else w.haltStopped }
  let s1 := if up then s0.queues.foldl (fun s q => s.examine q.1) s0 else s0
  let others := s1.readyOthers
  let start := match s1.winner (others.map (·.1)) with
    | some q => (others.filter fun x => x.1 == q).flatMap fun x => packetStep q x.2
    | none => []
  (s1, steps ((if up then start ++ s1.activeSteps ++ (s1.msgs.map fun (q : Nat × Msg) => Event.firingRefused q.2.pkg q.2.tag) else [])
    ++ s1.captureSteps ++ s1.saveSteps))

/-! ## Parts 7 and 8: retirement, launches -/

/-- Part 7: blocks that retire; nodes that drain, the rack last (10 R274). -/
def State.part7 (s : State) : State × List Action :=
  (s, steps ((s.blocks.filter fun q => q.2.resident && s.retireReady q.1 q.2).map fun q => Event.blockRetire q.1)
    ++ [.phase 17])

/-- The drains that are due, children first. -/
def State.drainSteps (s : State) : List Event :=
  s.launches.flatMap fun (q : Nat × Launch) => q.2.drains.reverse.map fun n => Event.nodeDrain q.1 n

/-- Queues that may start a LAUNCH or a firing of an armed launch (15 R364, R366). -/
def State.readyLaunches (s : State) : List (Nat × Event) :=
  let fires := s.armed.filterMap fun (a : Nat × Armed) =>
    if (s.mayFire a.2.pkg (a.1 % 2 ^ 17)).isSome then some (a.2.queue, Event.firing a.2.pkg (a.1 % 2 ^ 17)) else none
  fires ++ s.queues.filterMap fun (q : Nat × Queue) => (s.headReady q.1 pkLaunch).map fun _ => (q.1, Event.launch q.1)

/-- Part 8: one LAUNCH or firing starts; a LAUNCH that a halt holds back goes to HELD (15 R369). -/
def State.part8 (s : State) : State × List Action :=
  if (s.pkg s.fe.primary).failed then (s, [])
  else
    let held := (s.queues.filter fun q => q.2.heldNext.isSome && s.atLaunch q.1).map fun q => Event.launch q.1
    let free := s.readyLaunches.filter fun q => !((s.queueD q.1).heldNext.isSome && s.atLaunch q.1)
    let start := match s.winner (free.map (·.1)) with
      | some q => ((free.filter fun x => x.1 == q).take 1).map (·.2)
      | none => []
    (s, steps (held ++ start))

/-! ## Part 9: distribution -/

/-- Siblings of a node that holds two clusters or more and that may steal from it (10 R265). -/
def State.thieves (_s : State) (l : Nat) (x : Launch) : List Event :=
  let rich := (x.pend.map (·.1)).filter fun n => decide (1000 ≤ n) && decide (n < 100000) && decide (2 ≤ (x.stealable n).length)
  let parents := rich.foldl (fun a n => ninsert a (nodeParent n)) []
  let useful (n : Nat) : Bool :=
    if n < 2000 then x.pset.contains (2 * (n - 1000)) || x.pset.contains (2 * (n - 1000) + 1)
    else if n < 10000 then x.pset.contains (n - 2000) else x.pset.contains ((n - 10000) / 128)
  (parents.flatMap fun p => (nodeChildren p).filter fun n => useful n && (x.stealable n).isEmpty).map fun n => .clusterSteal l n

/-- Part 9: saved clusters restart; hand-downs and placement, then steals, which divide what remains (10 R264, R265, R269,
R272). -/
def State.part9 (s : State) : State × List Action :=
  let ls := s.launches.filter fun q => q.2.dealing
  let flat := ls.filter fun q => !q.2.desc.cores
  let downs := flat.flatMap fun (q : Nat × Launch) =>
    (q.2.pend.filter fun p => decide (p.1 < 100000)).map fun p => Event.clusterHanddown q.1 p.1
  let dies := flat.foldl (fun a q => q.2.pend.foldl (fun a p =>
    if 10000 ≤ p.1 then ninsert a (if 100000 ≤ p.1 then p.1 - 100000 else p.1 - 10000) else a) a) []
  let places := dies.flatMap fun dk =>
    List.replicate (flat.foldl (fun a q => a + (q.2.list (ownList dk)).length) 1) (Event.clusterPlace (dk / 128) (dk % 128))
  let back := ls.flatMap fun (q : Nat × Launch) => (s.savedClusters q.1).map fun k => Event.clusterRestore q.1 k
  (s, steps (back ++ downs ++ places ++ (flat.flatMap fun q => s.thieves q.1 q.2)
    ++ (ls.filter fun q => q.2.desc.cores && !q.2.placed).map fun q => Event.coresidentPlace q.1))

/-! ## Part 10: the fleet -/

/-- The steps of a package. -/
def State.pkgSteps (s : State) (p : Nat) (x : Pkg) : List Event :=
  (if x.failed && !x.known then [.packageDead p] else [])
    ++ (if x.adopt.any fun a => decide (a.2.2 ≤ s.clk) then [.planeMaskAdopt p] else [])
    ++ ((x.deadPorts.filter fun d => decide (d.2 + 1200000 ≤ s.clk)).map fun d => .portRetrain p d.1 (Config.portTrains (512 * d.1 + p) s.clk))
    ++ (if 2 ≤ x.above then [.powerCapDown p] else [])
    ++ (if 2 ≤ x.below then [.powerCapRestore p] else [])
    ++ (if x.attest && Config.reportMade p s.clk then [.attestComplete p] else [])

/-- The steps of a die. -/
def State.dieSteps (s : State) (dk : Nat) (d : Die) : List Event :=
  (if !d.beating && !d.dead && decide (d.lastBeat + 12000 ≤ s.clk) then [Event.dieLost (dk / 128) (dk % 128)] else [])
    ++ (if d.waits.any fun r => decide (r.clk + 24000000 < s.clk) then [Event.waitForRecordAgeOut (dk / 128) (dk % 128)] else [])
    ++ match d.update with
      | some (a, b, g) => if s.dieQuiet dk then [.dieUpdate (dk / 128) (dk % 128) a b g] else []
      | none => []

/-- Whether the standby has still to be told something (16 R397). -/
def State.unstreamed (s : State) : Bool :=
  s.fe.standby.isSome && s.queues.any fun (q : Nat × Queue) =>
    kgetD s.fe.mirror q.1 (2 ^ 32, 2 ^ 32) != (q.2.qtail, if q.2.head.isSome then (q.2.qhead + 1) % 2 ^ q.2.rlog else q.2.qhead)

/-- Part 10: links, planes, power, dies and the host pair. -/
def State.part10 (s : State) : State × List Action :=
  (s, steps ((s.links.flatMap fun (q : Nat × Link) => [Event.flitRetryTimer q.1, .linkDead q.1])
    ++ (s.pkgs.flatMap fun (q : Nat × Pkg) => s.pkgSteps q.1 q.2)
    ++ (s.dies.flatMap fun (q : Nat × Die) => s.dieSteps q.1 q.2)
    ++ (if s.unstreamed then [.streamRecord] else [])
    ++ if s.fe.standby.isSome && (s.pkg s.fe.primary).failed then [.takeover] else []))

/-! ## A clk -/

/-- Part `n` of a clk: its steps go first on the agenda, then the next part; part 17 lists the drains of part 7, and after part 10
the clk ends. -/
def State.part (n : Nat) (s : State) : State :=
  let go (r : State × List Action) (rest : List Action) : State := { r.1 with agenda := r.2 ++ rest ++ r.1.agenda }
  match n with
  | 0 => go s.part0 [.phase 1]
  | 1 => go s.part1 [.phase 2]
  | 2 => go s.part2 [.phase 3]
  | 3 => go s.part3 [.phase 4]
  | 4 => go s.part4 [.phase 5]
  | 5 => go s.part5 [.phase 6]
  | 6 => go s.part6 [.phase 7]
  | 7 => go s.part7 [.phase 8]
  | 8 => go s.part8 [.phase 9]
  | 9 => go s.part9 [.phase 10]
  | 10 => go s.part10 [.phase 11]
  | 17 => go (s, steps s.drainSteps) []
  | _ => { s with clk := s.clk + 1, agenda := .phase 0 :: s.agenda }

end Sys2Proof.Machine
end

