-- ==== Sys2Proof/Machine/Step.lean ====
section
/-! DEFINITION. One step of the machine: the first action of its agenda. -/

namespace Sys2Proof.Machine

/-- The issue of a split's next instruction. -/
def State.issueNext (s : State) (wid slot : Nat) : Out :=
  match s.nextInstr wid slot with
  | .none => .next s
  | .illegal w => .next ({ s with cur := (wid, slot) }.raiseIllop w)
  | .instr i => exec i { s with cur := (wid, slot) }

/-- The next instruction of a firmware core. -/
def State.firmwareNext (s : State) (n : Nat) : Out :=
  match s.fwNext n with
  | .idle => .next s
  | .illegal => .next (s.fwIllegalAt n)
  | .base w => .refused (.baseIsa w)
  | .instr i => exec i { s with cur := (0, n) }

/-- One step: an empty agenda begins a clk. -/
def step (s : State) : Host.Outcome State Fault Refusal :=
  match s.agenda with
  | [] => .next { s with agenda := [.phase 0] }
  | .issue wid slot :: rest => { s with agenda := rest }.issueNext wid slot
  | .firmware pkg die fw :: rest => { s with agenda := rest }.firmwareNext (4 * (128 * pkg + die) + fw)
  | .event e :: rest => e.run { s with agenda := rest }
  | .phase n :: rest => .next (State.part n { s with agenda := rest })

/-- The state with an instruction placed where the next step fetches it: in the instruction cache of a resident warp's core, or,
for an instruction of 32 bits, in the SRAM of a firmware core; the agenda names it first. -/
def State.withFetchWord (s : State) (nbits w : Nat) : State :=
  if nbits ≤ 32 then
    let s1 := s.withRam 0 (s.fwCore 0).pc.toNat (natBytes w 4)
    { s1 with agenda := .firmware 0 0 0 :: s1.agenda }
  else
    let s1 := s.withWarp (BitVec.ofNat 64 w) (BitVec.ofNat 64 (w / 2 ^ 64))
    { s1 with agenda := .issue 0 0 :: s1.agenda }

end Sys2Proof.Machine
end

