-- ==== Sys2Proof/Laws/Encoding.lean ====
section
/-! SUPPORT. What the decoder reads from the words that the encoder makes: format by format. -/

set_option Elab.async false

namespace Sys2Proof.Laws

theorem fld_ofNat (n lo k : Nat) (h : lo + k ≤ 64) : fld (BitVec.ofNat 64 n) lo k = BitVec.ofNat k (n / 2 ^ lo) := by
  apply BitVec.eq_of_toNat_eq
  simp only [fld, BitVec.extractLsb'_toNat, BitVec.toNat_ofNat, Nat.shiftRight_eq_div_pow]
  have e : (2:Nat) ^ 64 = 2 ^ lo * 2 ^ (64 - lo) := by rw [← Nat.pow_add]; congr 1; omega
  rw [e, Nat.mod_mul_right_div_self]
  exact Nat.mod_mod_of_dvd _ (Nat.pow_dvd_pow 2 (by omega))

theorem reserved_s {w : Word} (h : fmtOf (opOf w) = .s) : reservedOk w = none := by
  unfold reservedOk
  split <;> simp_all

theorem reserved_a {w : Word} (h : fmtOf (opOf w) = .a) : reservedOk w = none := by
  unfold reservedOk
  split <;> simp_all

theorem reserved_b {w : Word} (h : fmtOf (opOf w) = .b) : reservedOk w = none := by
  unfold reservedOk
  split <;> simp_all

theorem reserved_m {w : Word} (h : fmtOf (opOf w) = .m) : reservedOk w = none := by
  unfold reservedOk
  split <;> simp_all

theorem reserved_j {w : Word} (h : fmtOf (opOf w) = .j) (h1 : fld w 0 3 = 0) : reservedOk w = none := by
  unfold reservedOk
  split <;> simp_all

theorem reserved_e {w : Word} (h : fmtOf (opOf w) = .e) (h1 : fld w 16 3 = 0) : reservedOk w = none := by
  unfold reservedOk
  split <;> simp_all

theorem reserved_x {w : Word} (h : fmtOf (opOf w) = .x) (h1 : fld w 24 5 = 0) (h2 : fld w 29 1 = 0) : reservedOk w = none := by
  unfold reservedOk
  split <;> simp_all

/-- A word that breaks no reserved field and selects a well-formed instruction decodes to it. -/
theorem decode_of {i : Instr} {w e : Word} (h1 : reservedOk w = none) (h2 : selectInstr w e = .ok i) (h : i.wf = true) :
    decode w e = .ok i := by
  simp only [decode, h1, h2]
  simp only [Instr.wf, beq_iff_eq] at h
  simp [h]

/-! ## Format S -/

theorem packS_op (op fn : Nat) (f : SFmt) (h : op < 128) (h' : fn < 16) : opOf (packS op fn f) = op := by
  have := f.sw.toNat_lt
  have := f.sd.isLt
  have := f.sa.isLt
  have := f.sb.isLt
  have := f.imm.isLt
  simp only [opOf, packS, packHead, put, fld_ofNat _ 56 7 (by omega), BitVec.toNat_ofNat]
  omega

theorem packS_fn (op fn : Nat) (f : SFmt) (h' : fn < 16) : fnOf (packS op fn f) = fn := by
  have := f.sw.toNat_lt
  have := f.sd.isLt
  have := f.sa.isLt
  have := f.sb.isLt
  have := f.imm.isLt
  simp only [fnOf, packS, packHead, put, fld_ofNat _ 52 4 (by omega), BitVec.toNat_ofNat]
  omega

theorem packS_readFn (op : Nat) (fn : BitVec 4) (f : SFmt) : readFn (packS op fn.toNat f) = fn :=
  BitVec.eq_of_toNat_eq (packS_fn op fn.toNat f fn.isLt)

theorem packS_sw (op fn : Nat) (f : SFmt) (h : op < 128) (h' : fn < 16) : (fld (packS op fn f) 63 1 == 1) = f.sw := by
  have := f.sw.toNat_lt
  have := f.sd.isLt
  have := f.sa.isLt
  have := f.sb.isLt
  have := f.imm.isLt
  have e : fld (packS op fn f) 63 1 = BitVec.ofNat 1 f.sw.toNat := by
    apply BitVec.eq_of_toNat_eq
    simp only [packS, packHead, put, fld_ofNat _ 63 1 (by omega), BitVec.toNat_ofNat]
    omega
  rw [e]; cases f.sw <;> decide

theorem packS_sd (op fn : Nat) (f : SFmt) : fld (packS op fn f) 46 6 = f.sd := by
  have := f.sw.toNat_lt
  have := f.sd.isLt
  have := f.sa.isLt
  have := f.sb.isLt
  have := f.imm.isLt
  apply BitVec.eq_of_toNat_eq
  simp only [packS, packHead, put, fld_ofNat _ 46 6 (by omega), BitVec.toNat_ofNat]
  omega

theorem packS_sa (op fn : Nat) (f : SFmt) : fld (packS op fn f) 40 6 = f.sa := by
  have := f.sw.toNat_lt
  have := f.sd.isLt
  have := f.sa.isLt
  have := f.sb.isLt
  have := f.imm.isLt
  apply BitVec.eq_of_toNat_eq
  simp only [packS, packHead, put, fld_ofNat _ 40 6 (by omega), BitVec.toNat_ofNat]
  omega

theorem packS_sb (op fn : Nat) (f : SFmt) : fld (packS op fn f) 34 6 = f.sb := by
  have := f.sw.toNat_lt
  have := f.sd.isLt
  have := f.sa.isLt
  have := f.sb.isLt
  have := f.imm.isLt
  apply BitVec.eq_of_toNat_eq
  simp only [packS, packHead, put, fld_ofNat _ 34 6 (by omega), BitVec.toNat_ofNat]
  omega

theorem packS_imm (op fn : Nat) (f : SFmt) : fld (packS op fn f) 0 34 = f.imm := by
  have := f.sw.toNat_lt
  have := f.sd.isLt
  have := f.sa.isLt
  have := f.sb.isLt
  have := f.imm.isLt
  apply BitVec.eq_of_toNat_eq
  simp only [packS, packHead, put, fld_ofNat _ 0 34 (by omega), BitVec.toNat_ofNat]
  omega

theorem readS_packS (op fn : Nat) (f : SFmt) (h : op < 128) (h' : fn < 16) : readS (packS op fn f) = f := by
  simp only [readS, swOf, packS_sw op fn f h h', packS_sd op fn f, packS_sa op fn f, packS_sb op fn f, packS_imm op fn f]

theorem packS_reserved (op fn : Nat) (f : SFmt) (h : op < 128) (h' : fn < 16) (hf : fmtOf op = .s) :
    reservedOk (packS op fn f) = none :=
  reserved_s ((congrArg fmtOf (packS_op op fn f h h')).trans hf)

/-! ## Format A -/

theorem packA_op (op fn : Nat) (f : AFmt) (h : op < 128) (h' : fn < 16) : opOf (packA op fn f) = op := by
  have := f.sw.toNat_lt
  have := f.vd.isLt
  have := f.va.isLt
  have := f.vb.isLt
  have := f.vc.isLt
  have := f.msk.isLt
  have := f.ty.isLt
  have := f.rm.isLt
  have := f.fl.isLt
  simp only [opOf, packA, packHead, put, fld_ofNat _ 56 7 (by omega), BitVec.toNat_ofNat]
  omega

theorem packA_fn (op fn : Nat) (f : AFmt) (h' : fn < 16) : fnOf (packA op fn f) = fn := by
  have := f.sw.toNat_lt
  have := f.vd.isLt
  have := f.va.isLt
  have := f.vb.isLt
  have := f.vc.isLt
  have := f.msk.isLt
  have := f.ty.isLt
  have := f.rm.isLt
  have := f.fl.isLt
  simp only [fnOf, packA, packHead, put, fld_ofNat _ 52 4 (by omega), BitVec.toNat_ofNat]
  omega

theorem packA_readFn (op : Nat) (fn : BitVec 4) (f : AFmt) : readFn (packA op fn.toNat f) = fn :=
  BitVec.eq_of_toNat_eq (packA_fn op fn.toNat f fn.isLt)

theorem packA_sw (op fn : Nat) (f : AFmt) (h : op < 128) (h' : fn < 16) : (fld (packA op fn f) 63 1 == 1) = f.sw := by
  have := f.sw.toNat_lt
  have := f.vd.isLt
  have := f.va.isLt
  have := f.vb.isLt
  have := f.vc.isLt
  have := f.msk.isLt
  have := f.ty.isLt
  have := f.rm.isLt
  have := f.fl.isLt
  have e : fld (packA op fn f) 63 1 = BitVec.ofNat 1 f.sw.toNat := by
    apply BitVec.eq_of_toNat_eq
    simp only [packA, packHead, put, fld_ofNat _ 63 1 (by omega), BitVec.toNat_ofNat]
    omega
  rw [e]; cases f.sw <;> decide

theorem packA_vd (op fn : Nat) (f : AFmt) : fld (packA op fn f) 44 8 = f.vd := by
  have := f.sw.toNat_lt
  have := f.vd.isLt
  have := f.va.isLt
  have := f.vb.isLt
  have := f.vc.isLt
  have := f.msk.isLt
  have := f.ty.isLt
  have := f.rm.isLt
  have := f.fl.isLt
  apply BitVec.eq_of_toNat_eq
  simp only [packA, packHead, put, fld_ofNat _ 44 8 (by omega), BitVec.toNat_ofNat]
  omega

theorem packA_va (op fn : Nat) (f : AFmt) : fld (packA op fn f) 36 8 = f.va := by
  have := f.sw.toNat_lt
  have := f.vd.isLt
  have := f.va.isLt
  have := f.vb.isLt
  have := f.vc.isLt
  have := f.msk.isLt
  have := f.ty.isLt
  have := f.rm.isLt
  have := f.fl.isLt
  apply BitVec.eq_of_toNat_eq
  simp only [packA, packHead, put, fld_ofNat _ 36 8 (by omega), BitVec.toNat_ofNat]
  omega

theorem packA_vb (op fn : Nat) (f : AFmt) : fld (packA op fn f) 28 8 = f.vb := by
  have := f.sw.toNat_lt
  have := f.vd.isLt
  have := f.va.isLt
  have := f.vb.isLt
  have := f.vc.isLt
  have := f.msk.isLt
  have := f.ty.isLt
  have := f.rm.isLt
  have := f.fl.isLt
  apply BitVec.eq_of_toNat_eq
  simp only [packA, packHead, put, fld_ofNat _ 28 8 (by omega), BitVec.toNat_ofNat]
  omega

theorem packA_vc (op fn : Nat) (f : AFmt) : fld (packA op fn f) 20 8 = f.vc := by
  have := f.sw.toNat_lt
  have := f.vd.isLt
  have := f.va.isLt
  have := f.vb.isLt
  have := f.vc.isLt
  have := f.msk.isLt
  have := f.ty.isLt
  have := f.rm.isLt
  have := f.fl.isLt
  apply BitVec.eq_of_toNat_eq
  simp only [packA, packHead, put, fld_ofNat _ 20 8 (by omega), BitVec.toNat_ofNat]
  omega

theorem packA_msk (op fn : Nat) (f : AFmt) : fld (packA op fn f) 17 3 = f.msk := by
  have := f.sw.toNat_lt
  have := f.vd.isLt
  have := f.va.isLt
  have := f.vb.isLt
  have := f.vc.isLt
  have := f.msk.isLt
  have := f.ty.isLt
  have := f.rm.isLt
  have := f.fl.isLt
  apply BitVec.eq_of_toNat_eq
  simp only [packA, packHead, put, fld_ofNat _ 17 3 (by omega), BitVec.toNat_ofNat]
  omega

theorem packA_ty (op fn : Nat) (f : AFmt) : fld (packA op fn f) 13 4 = f.ty := by
  have := f.sw.toNat_lt
  have := f.vd.isLt
  have := f.va.isLt
  have := f.vb.isLt
  have := f.vc.isLt
  have := f.msk.isLt
  have := f.ty.isLt
  have := f.rm.isLt
  have := f.fl.isLt
  apply BitVec.eq_of_toNat_eq
  simp only [packA, packHead, put, fld_ofNat _ 13 4 (by omega), BitVec.toNat_ofNat]
  omega

theorem packA_rm (op fn : Nat) (f : AFmt) : fld (packA op fn f) 10 3 = f.rm := by
  have := f.sw.toNat_lt
  have := f.vd.isLt
  have := f.va.isLt
  have := f.vb.isLt
  have := f.vc.isLt
  have := f.msk.isLt
  have := f.ty.isLt
  have := f.rm.isLt
  have := f.fl.isLt
  apply BitVec.eq_of_toNat_eq
  simp only [packA, packHead, put, fld_ofNat _ 10 3 (by omega), BitVec.toNat_ofNat]
  omega

theorem packA_fl (op fn : Nat) (f : AFmt) : fld (packA op fn f) 0 10 = f.fl := by
  have := f.sw.toNat_lt
  have := f.vd.isLt
  have := f.va.isLt
  have := f.vb.isLt
  have := f.vc.isLt
  have := f.msk.isLt
  have := f.ty.isLt
  have := f.rm.isLt
  have := f.fl.isLt
  apply BitVec.eq_of_toNat_eq
  simp only [packA, packHead, put, fld_ofNat _ 0 10 (by omega), BitVec.toNat_ofNat]
  omega

theorem readA_packA (op fn : Nat) (f : AFmt) (h : op < 128) (h' : fn < 16) : readA (packA op fn f) = f := by
  simp only [readA, swOf, packA_sw op fn f h h', packA_vd op fn f, packA_va op fn f, packA_vb op fn f, packA_vc op fn f, packA_msk op fn f, packA_ty op fn f, packA_rm op fn f, packA_fl op fn f]

theorem packA_reserved (op fn : Nat) (f : AFmt) (h : op < 128) (h' : fn < 16) (hf : fmtOf op = .a) :
    reservedOk (packA op fn f) = none :=
  reserved_a ((congrArg fmtOf (packA_op op fn f h h')).trans hf)

/-! ## Format B -/

theorem packB_op (op : Nat) (f : BFmt) (h : op < 128) : opOf (packB op f) = op := by
  have := f.sw.toNat_lt
  have := f.ty.isLt
  have := f.vd.isLt
  have := f.va.isLt
  have := f.msk.isLt
  have := f.sat.toNat_lt
  have := f.imm.isLt
  simp only [opOf, packB, packHead, put, fld_ofNat _ 56 7 (by omega), BitVec.toNat_ofNat]
  omega

theorem packB_sw (op : Nat) (f : BFmt) (h : op < 128) : (fld (packB op f) 63 1 == 1) = f.sw := by
  have := f.sw.toNat_lt
  have := f.ty.isLt
  have := f.vd.isLt
  have := f.va.isLt
  have := f.msk.isLt
  have := f.sat.toNat_lt
  have := f.imm.isLt
  have e : fld (packB op f) 63 1 = BitVec.ofNat 1 f.sw.toNat := by
    apply BitVec.eq_of_toNat_eq
    simp only [packB, packHead, put, fld_ofNat _ 63 1 (by omega), BitVec.toNat_ofNat]
    omega
  rw [e]; cases f.sw <;> decide

theorem packB_ty (op : Nat) (f : BFmt) : fld (packB op f) 52 4 = f.ty := by
  have := f.sw.toNat_lt
  have := f.ty.isLt
  have := f.vd.isLt
  have := f.va.isLt
  have := f.msk.isLt
  have := f.sat.toNat_lt
  have := f.imm.isLt
  apply BitVec.eq_of_toNat_eq
  simp only [packB, packHead, put, fld_ofNat _ 52 4 (by omega), BitVec.toNat_ofNat]
  omega

theorem packB_vd (op : Nat) (f : BFmt) : fld (packB op f) 44 8 = f.vd := by
  have := f.sw.toNat_lt
  have := f.ty.isLt
  have := f.vd.isLt
  have := f.va.isLt
  have := f.msk.isLt
  have := f.sat.toNat_lt
  have := f.imm.isLt
  apply BitVec.eq_of_toNat_eq
  simp only [packB, packHead, put, fld_ofNat _ 44 8 (by omega), BitVec.toNat_ofNat]
  omega

theorem packB_va (op : Nat) (f : BFmt) : fld (packB op f) 36 8 = f.va := by
  have := f.sw.toNat_lt
  have := f.ty.isLt
  have := f.vd.isLt
  have := f.va.isLt
  have := f.msk.isLt
  have := f.sat.toNat_lt
  have := f.imm.isLt
  apply BitVec.eq_of_toNat_eq
  simp only [packB, packHead, put, fld_ofNat _ 36 8 (by omega), BitVec.toNat_ofNat]
  omega

theorem packB_msk (op : Nat) (f : BFmt) : fld (packB op f) 33 3 = f.msk := by
  have := f.sw.toNat_lt
  have := f.ty.isLt
  have := f.vd.isLt
  have := f.va.isLt
  have := f.msk.isLt
  have := f.sat.toNat_lt
  have := f.imm.isLt
  apply BitVec.eq_of_toNat_eq
  simp only [packB, packHead, put, fld_ofNat _ 33 3 (by omega), BitVec.toNat_ofNat]
  omega

theorem packB_sat (op : Nat) (f : BFmt) : (fld (packB op f) 32 1 == 1) = f.sat := by
  have := f.sw.toNat_lt
  have := f.ty.isLt
  have := f.vd.isLt
  have := f.va.isLt
  have := f.msk.isLt
  have := f.sat.toNat_lt
  have := f.imm.isLt
  have e : fld (packB op f) 32 1 = BitVec.ofNat 1 f.sat.toNat := by
    apply BitVec.eq_of_toNat_eq
    simp only [packB, packHead, put, fld_ofNat _ 32 1 (by omega), BitVec.toNat_ofNat]
    omega
  rw [e]; cases f.sat <;> decide

theorem packB_imm (op : Nat) (f : BFmt) : fld (packB op f) 0 32 = f.imm := by
  have := f.sw.toNat_lt
  have := f.ty.isLt
  have := f.vd.isLt
  have := f.va.isLt
  have := f.msk.isLt
  have := f.sat.toNat_lt
  have := f.imm.isLt
  apply BitVec.eq_of_toNat_eq
  simp only [packB, packHead, put, fld_ofNat _ 0 32 (by omega), BitVec.toNat_ofNat]
  omega

theorem readB_packB (op : Nat) (f : BFmt) (h : op < 128) : readB (packB op f) = f := by
  simp only [readB, swOf, packB_sw op f h, packB_ty op f, packB_vd op f, packB_va op f, packB_msk op f, packB_sat op f, packB_imm op f]

theorem packB_reserved (op : Nat) (f : BFmt) (h : op < 128) (hf : fmtOf op = .b) :
    reservedOk (packB op f) = none :=
  reserved_b ((congrArg fmtOf (packB_op op f h)).trans hf)

/-! ## Format M -/

theorem packM_op (op fn : Nat) (f : MFmt) (h : op < 128) (h' : fn < 16) : opOf (packM op fn f) = op := by
  have := f.sw.toNat_lt
  have := f.data.isLt
  have := f.base.isLt
  have := f.idx.isLt
  have := f.msk.isLt
  have := f.sc.isLt
  have := f.sz.isLt
  have := f.fq.isLt
  have := f.hnt.isLt
  have := f.ofs.isLt
  simp only [opOf, packM, packHead, put, fld_ofNat _ 56 7 (by omega), BitVec.toNat_ofNat]
  omega

theorem packM_fn (op fn : Nat) (f : MFmt) (h' : fn < 16) : fnOf (packM op fn f) = fn := by
  have := f.sw.toNat_lt
  have := f.data.isLt
  have := f.base.isLt
  have := f.idx.isLt
  have := f.msk.isLt
  have := f.sc.isLt
  have := f.sz.isLt
  have := f.fq.isLt
  have := f.hnt.isLt
  have := f.ofs.isLt
  simp only [fnOf, packM, packHead, put, fld_ofNat _ 52 4 (by omega), BitVec.toNat_ofNat]
  omega

theorem packM_readFn (op : Nat) (fn : BitVec 4) (f : MFmt) : readFn (packM op fn.toNat f) = fn :=
  BitVec.eq_of_toNat_eq (packM_fn op fn.toNat f fn.isLt)

theorem packM_sw (op fn : Nat) (f : MFmt) (h : op < 128) (h' : fn < 16) : (fld (packM op fn f) 63 1 == 1) = f.sw := by
  have := f.sw.toNat_lt
  have := f.data.isLt
  have := f.base.isLt
  have := f.idx.isLt
  have := f.msk.isLt
  have := f.sc.isLt
  have := f.sz.isLt
  have := f.fq.isLt
  have := f.hnt.isLt
  have := f.ofs.isLt
  have e : fld (packM op fn f) 63 1 = BitVec.ofNat 1 f.sw.toNat := by
    apply BitVec.eq_of_toNat_eq
    simp only [packM, packHead, put, fld_ofNat _ 63 1 (by omega), BitVec.toNat_ofNat]
    omega
  rw [e]; cases f.sw <;> decide

theorem packM_data (op fn : Nat) (f : MFmt) : fld (packM op fn f) 44 8 = f.data := by
  have := f.sw.toNat_lt
  have := f.data.isLt
  have := f.base.isLt
  have := f.idx.isLt
  have := f.msk.isLt
  have := f.sc.isLt
  have := f.sz.isLt
  have := f.fq.isLt
  have := f.hnt.isLt
  have := f.ofs.isLt
  apply BitVec.eq_of_toNat_eq
  simp only [packM, packHead, put, fld_ofNat _ 44 8 (by omega), BitVec.toNat_ofNat]
  omega

theorem packM_base (op fn : Nat) (f : MFmt) : fld (packM op fn f) 38 6 = f.base := by
  have := f.sw.toNat_lt
  have := f.data.isLt
  have := f.base.isLt
  have := f.idx.isLt
  have := f.msk.isLt
  have := f.sc.isLt
  have := f.sz.isLt
  have := f.fq.isLt
  have := f.hnt.isLt
  have := f.ofs.isLt
  apply BitVec.eq_of_toNat_eq
  simp only [packM, packHead, put, fld_ofNat _ 38 6 (by omega), BitVec.toNat_ofNat]
  omega

theorem packM_idx (op fn : Nat) (f : MFmt) : fld (packM op fn f) 30 8 = f.idx := by
  have := f.sw.toNat_lt
  have := f.data.isLt
  have := f.base.isLt
  have := f.idx.isLt
  have := f.msk.isLt
  have := f.sc.isLt
  have := f.sz.isLt
  have := f.fq.isLt
  have := f.hnt.isLt
  have := f.ofs.isLt
  apply BitVec.eq_of_toNat_eq
  simp only [packM, packHead, put, fld_ofNat _ 30 8 (by omega), BitVec.toNat_ofNat]
  omega

theorem packM_msk (op fn : Nat) (f : MFmt) : fld (packM op fn f) 27 3 = f.msk := by
  have := f.sw.toNat_lt
  have := f.data.isLt
  have := f.base.isLt
  have := f.idx.isLt
  have := f.msk.isLt
  have := f.sc.isLt
  have := f.sz.isLt
  have := f.fq.isLt
  have := f.hnt.isLt
  have := f.ofs.isLt
  apply BitVec.eq_of_toNat_eq
  simp only [packM, packHead, put, fld_ofNat _ 27 3 (by omega), BitVec.toNat_ofNat]
  omega

theorem packM_sc (op fn : Nat) (f : MFmt) : fld (packM op fn f) 24 3 = f.sc := by
  have := f.sw.toNat_lt
  have := f.data.isLt
  have := f.base.isLt
  have := f.idx.isLt
  have := f.msk.isLt
  have := f.sc.isLt
  have := f.sz.isLt
  have := f.fq.isLt
  have := f.hnt.isLt
  have := f.ofs.isLt
  apply BitVec.eq_of_toNat_eq
  simp only [packM, packHead, put, fld_ofNat _ 24 3 (by omega), BitVec.toNat_ofNat]
  omega

theorem packM_sz (op fn : Nat) (f : MFmt) : fld (packM op fn f) 21 3 = f.sz := by
  have := f.sw.toNat_lt
  have := f.data.isLt
  have := f.base.isLt
  have := f.idx.isLt
  have := f.msk.isLt
  have := f.sc.isLt
  have := f.sz.isLt
  have := f.fq.isLt
  have := f.hnt.isLt
  have := f.ofs.isLt
  apply BitVec.eq_of_toNat_eq
  simp only [packM, packHead, put, fld_ofNat _ 21 3 (by omega), BitVec.toNat_ofNat]
  omega

theorem packM_fq (op fn : Nat) (f : MFmt) : fld (packM op fn f) 18 3 = f.fq := by
  have := f.sw.toNat_lt
  have := f.data.isLt
  have := f.base.isLt
  have := f.idx.isLt
  have := f.msk.isLt
  have := f.sc.isLt
  have := f.sz.isLt
  have := f.fq.isLt
  have := f.hnt.isLt
  have := f.ofs.isLt
  apply BitVec.eq_of_toNat_eq
  simp only [packM, packHead, put, fld_ofNat _ 18 3 (by omega), BitVec.toNat_ofNat]
  omega

theorem packM_hnt (op fn : Nat) (f : MFmt) : fld (packM op fn f) 16 2 = f.hnt := by
  have := f.sw.toNat_lt
  have := f.data.isLt
  have := f.base.isLt
  have := f.idx.isLt
  have := f.msk.isLt
  have := f.sc.isLt
  have := f.sz.isLt
  have := f.fq.isLt
  have := f.hnt.isLt
  have := f.ofs.isLt
  apply BitVec.eq_of_toNat_eq
  simp only [packM, packHead, put, fld_ofNat _ 16 2 (by omega), BitVec.toNat_ofNat]
  omega

theorem packM_ofs (op fn : Nat) (f : MFmt) : fld (packM op fn f) 0 16 = f.ofs := by
  have := f.sw.toNat_lt
  have := f.data.isLt
  have := f.base.isLt
  have := f.idx.isLt
  have := f.msk.isLt
  have := f.sc.isLt
  have := f.sz.isLt
  have := f.fq.isLt
  have := f.hnt.isLt
  have := f.ofs.isLt
  apply BitVec.eq_of_toNat_eq
  simp only [packM, packHead, put, fld_ofNat _ 0 16 (by omega), BitVec.toNat_ofNat]
  omega

theorem readM_packM (op fn : Nat) (f : MFmt) (h : op < 128) (h' : fn < 16) : readM (packM op fn f) = f := by
  simp only [readM, swOf, packM_sw op fn f h h', packM_data op fn f, packM_base op fn f, packM_idx op fn f, packM_msk op fn f, packM_sc op fn f, packM_sz op fn f, packM_fq op fn f, packM_hnt op fn f, packM_ofs op fn f]

theorem packM_reserved (op fn : Nat) (f : MFmt) (h : op < 128) (h' : fn < 16) (hf : fmtOf op = .m) :
    reservedOk (packM op fn f) = none :=
  reserved_m ((congrArg fmtOf (packM_op op fn f h h')).trans hf)

/-! ## Format J -/

theorem packJ_op (op fn : Nat) (f : JFmt) (h : op < 128) (h' : fn < 16) : opOf (packJ op fn f) = op := by
  have := f.sw.toNat_lt
  have := f.bofs.isLt
  have := f.jofs.isLt
  have := f.reg.isLt
  have := f.cc.isLt
  simp only [opOf, packJ, packHead, put, fld_ofNat _ 56 7 (by omega), BitVec.toNat_ofNat]
  omega

theorem packJ_fn (op fn : Nat) (f : JFmt) (h' : fn < 16) : fnOf (packJ op fn f) = fn := by
  have := f.sw.toNat_lt
  have := f.bofs.isLt
  have := f.jofs.isLt
  have := f.reg.isLt
  have := f.cc.isLt
  simp only [fnOf, packJ, packHead, put, fld_ofNat _ 52 4 (by omega), BitVec.toNat_ofNat]
  omega

theorem packJ_readFn (op : Nat) (fn : BitVec 4) (f : JFmt) : readFn (packJ op fn.toNat f) = fn :=
  BitVec.eq_of_toNat_eq (packJ_fn op fn.toNat f fn.isLt)

theorem packJ_sw (op fn : Nat) (f : JFmt) (h : op < 128) (h' : fn < 16) : (fld (packJ op fn f) 63 1 == 1) = f.sw := by
  have := f.sw.toNat_lt
  have := f.bofs.isLt
  have := f.jofs.isLt
  have := f.reg.isLt
  have := f.cc.isLt
  have e : fld (packJ op fn f) 63 1 = BitVec.ofNat 1 f.sw.toNat := by
    apply BitVec.eq_of_toNat_eq
    simp only [packJ, packHead, put, fld_ofNat _ 63 1 (by omega), BitVec.toNat_ofNat]
    omega
  rw [e]; cases f.sw <;> decide

theorem packJ_bofs (op fn : Nat) (f : JFmt) : fld (packJ op fn f) 30 22 = f.bofs := by
  have := f.sw.toNat_lt
  have := f.bofs.isLt
  have := f.jofs.isLt
  have := f.reg.isLt
  have := f.cc.isLt
  apply BitVec.eq_of_toNat_eq
  simp only [packJ, packHead, put, fld_ofNat _ 30 22 (by omega), BitVec.toNat_ofNat]
  omega

theorem packJ_jofs (op fn : Nat) (f : JFmt) : fld (packJ op fn f) 14 16 = f.jofs := by
  have := f.sw.toNat_lt
  have := f.bofs.isLt
  have := f.jofs.isLt
  have := f.reg.isLt
  have := f.cc.isLt
  apply BitVec.eq_of_toNat_eq
  simp only [packJ, packHead, put, fld_ofNat _ 14 16 (by omega), BitVec.toNat_ofNat]
  omega

theorem packJ_reg (op fn : Nat) (f : JFmt) : fld (packJ op fn f) 6 8 = f.reg := by
  have := f.sw.toNat_lt
  have := f.bofs.isLt
  have := f.jofs.isLt
  have := f.reg.isLt
  have := f.cc.isLt
  apply BitVec.eq_of_toNat_eq
  simp only [packJ, packHead, put, fld_ofNat _ 6 8 (by omega), BitVec.toNat_ofNat]
  omega

theorem packJ_cc (op fn : Nat) (f : JFmt) : fld (packJ op fn f) 3 3 = f.cc := by
  have := f.sw.toNat_lt
  have := f.bofs.isLt
  have := f.jofs.isLt
  have := f.reg.isLt
  have := f.cc.isLt
  apply BitVec.eq_of_toNat_eq
  simp only [packJ, packHead, put, fld_ofNat _ 3 3 (by omega), BitVec.toNat_ofNat]
  omega

theorem packJ_res (op fn : Nat) (f : JFmt) : fld (packJ op fn f) 0 3 = 0#3 := by
  have := f.sw.toNat_lt
  have := f.bofs.isLt
  have := f.jofs.isLt
  have := f.reg.isLt
  have := f.cc.isLt
  apply BitVec.eq_of_toNat_eq
  simp only [packJ, packHead, put, fld_ofNat _ 0 3 (by omega), BitVec.toNat_ofNat]
  omega

theorem readJ_packJ (op fn : Nat) (f : JFmt) (h : op < 128) (h' : fn < 16) : readJ (packJ op fn f) = f := by
  simp only [readJ, swOf, packJ_sw op fn f h h', packJ_bofs op fn f, packJ_jofs op fn f, packJ_reg op fn f, packJ_cc op fn f]

theorem packJ_reserved (op fn : Nat) (f : JFmt) (h : op < 128) (h' : fn < 16) (hf : fmtOf op = .j) :
    reservedOk (packJ op fn f) = none :=
  reserved_j ((congrArg fmtOf (packJ_op op fn f h h')).trans hf) (packJ_res op fn f)

/-! ## Format E -/

theorem packE_op (op fn : Nat) (f : EFmt) (h : op < 128) (h' : fn < 16) : opOf (packE op fn f) = op := by
  have := f.sw.toNat_lt
  have := f.td1.isLt
  have := f.td2.isLt
  have := f.td3.isLt
  have := f.sa.isLt
  have := f.sb.isLt
  have := f.cnt.isLt
  have := f.sc.isLt
  have := f.xw.toNat_lt
  have := f.imm.isLt
  simp only [opOf, packE, packHead, put, fld_ofNat _ 56 7 (by omega), BitVec.toNat_ofNat]
  omega

theorem packE_fn (op fn : Nat) (f : EFmt) (h' : fn < 16) : fnOf (packE op fn f) = fn := by
  have := f.sw.toNat_lt
  have := f.td1.isLt
  have := f.td2.isLt
  have := f.td3.isLt
  have := f.sa.isLt
  have := f.sb.isLt
  have := f.cnt.isLt
  have := f.sc.isLt
  have := f.xw.toNat_lt
  have := f.imm.isLt
  simp only [fnOf, packE, packHead, put, fld_ofNat _ 52 4 (by omega), BitVec.toNat_ofNat]
  omega

theorem packE_readFn (op : Nat) (fn : BitVec 4) (f : EFmt) : readFn (packE op fn.toNat f) = fn :=
  BitVec.eq_of_toNat_eq (packE_fn op fn.toNat f fn.isLt)

theorem packE_sw (op fn : Nat) (f : EFmt) (h : op < 128) (h' : fn < 16) : (fld (packE op fn f) 63 1 == 1) = f.sw := by
  have := f.sw.toNat_lt
  have := f.td1.isLt
  have := f.td2.isLt
  have := f.td3.isLt
  have := f.sa.isLt
  have := f.sb.isLt
  have := f.cnt.isLt
  have := f.sc.isLt
  have := f.xw.toNat_lt
  have := f.imm.isLt
  have e : fld (packE op fn f) 63 1 = BitVec.ofNat 1 f.sw.toNat := by
    apply BitVec.eq_of_toNat_eq
    simp only [packE, packHead, put, fld_ofNat _ 63 1 (by omega), BitVec.toNat_ofNat]
    omega
  rw [e]; cases f.sw <;> decide

theorem packE_td1 (op fn : Nat) (f : EFmt) : fld (packE op fn f) 48 4 = f.td1 := by
  have := f.sw.toNat_lt
  have := f.td1.isLt
  have := f.td2.isLt
  have := f.td3.isLt
  have := f.sa.isLt
  have := f.sb.isLt
  have := f.cnt.isLt
  have := f.sc.isLt
  have := f.xw.toNat_lt
  have := f.imm.isLt
  apply BitVec.eq_of_toNat_eq
  simp only [packE, packHead, put, fld_ofNat _ 48 4 (by omega), BitVec.toNat_ofNat]
  omega

theorem packE_td2 (op fn : Nat) (f : EFmt) : fld (packE op fn f) 44 4 = f.td2 := by
  have := f.sw.toNat_lt
  have := f.td1.isLt
  have := f.td2.isLt
  have := f.td3.isLt
  have := f.sa.isLt
  have := f.sb.isLt
  have := f.cnt.isLt
  have := f.sc.isLt
  have := f.xw.toNat_lt
  have := f.imm.isLt
  apply BitVec.eq_of_toNat_eq
  simp only [packE, packHead, put, fld_ofNat _ 44 4 (by omega), BitVec.toNat_ofNat]
  omega

theorem packE_td3 (op fn : Nat) (f : EFmt) : fld (packE op fn f) 40 4 = f.td3 := by
  have := f.sw.toNat_lt
  have := f.td1.isLt
  have := f.td2.isLt
  have := f.td3.isLt
  have := f.sa.isLt
  have := f.sb.isLt
  have := f.cnt.isLt
  have := f.sc.isLt
  have := f.xw.toNat_lt
  have := f.imm.isLt
  apply BitVec.eq_of_toNat_eq
  simp only [packE, packHead, put, fld_ofNat _ 40 4 (by omega), BitVec.toNat_ofNat]
  omega

theorem packE_sa (op fn : Nat) (f : EFmt) : fld (packE op fn f) 34 6 = f.sa := by
  have := f.sw.toNat_lt
  have := f.td1.isLt
  have := f.td2.isLt
  have := f.td3.isLt
  have := f.sa.isLt
  have := f.sb.isLt
  have := f.cnt.isLt
  have := f.sc.isLt
  have := f.xw.toNat_lt
  have := f.imm.isLt
  apply BitVec.eq_of_toNat_eq
  simp only [packE, packHead, put, fld_ofNat _ 34 6 (by omega), BitVec.toNat_ofNat]
  omega

theorem packE_sb (op fn : Nat) (f : EFmt) : fld (packE op fn f) 28 6 = f.sb := by
  have := f.sw.toNat_lt
  have := f.td1.isLt
  have := f.td2.isLt
  have := f.td3.isLt
  have := f.sa.isLt
  have := f.sb.isLt
  have := f.cnt.isLt
  have := f.sc.isLt
  have := f.xw.toNat_lt
  have := f.imm.isLt
  apply BitVec.eq_of_toNat_eq
  simp only [packE, packHead, put, fld_ofNat _ 28 6 (by omega), BitVec.toNat_ofNat]
  omega

theorem packE_cnt (op fn : Nat) (f : EFmt) : fld (packE op fn f) 23 5 = f.cnt := by
  have := f.sw.toNat_lt
  have := f.td1.isLt
  have := f.td2.isLt
  have := f.td3.isLt
  have := f.sa.isLt
  have := f.sb.isLt
  have := f.cnt.isLt
  have := f.sc.isLt
  have := f.xw.toNat_lt
  have := f.imm.isLt
  apply BitVec.eq_of_toNat_eq
  simp only [packE, packHead, put, fld_ofNat _ 23 5 (by omega), BitVec.toNat_ofNat]
  omega

theorem packE_sc (op fn : Nat) (f : EFmt) : fld (packE op fn f) 20 3 = f.sc := by
  have := f.sw.toNat_lt
  have := f.td1.isLt
  have := f.td2.isLt
  have := f.td3.isLt
  have := f.sa.isLt
  have := f.sb.isLt
  have := f.cnt.isLt
  have := f.sc.isLt
  have := f.xw.toNat_lt
  have := f.imm.isLt
  apply BitVec.eq_of_toNat_eq
  simp only [packE, packHead, put, fld_ofNat _ 20 3 (by omega), BitVec.toNat_ofNat]
  omega

theorem packE_xw (op fn : Nat) (f : EFmt) : (fld (packE op fn f) 19 1 == 1) = f.xw := by
  have := f.sw.toNat_lt
  have := f.td1.isLt
  have := f.td2.isLt
  have := f.td3.isLt
  have := f.sa.isLt
  have := f.sb.isLt
  have := f.cnt.isLt
  have := f.sc.isLt
  have := f.xw.toNat_lt
  have := f.imm.isLt
  have e : fld (packE op fn f) 19 1 = BitVec.ofNat 1 f.xw.toNat := by
    apply BitVec.eq_of_toNat_eq
    simp only [packE, packHead, put, fld_ofNat _ 19 1 (by omega), BitVec.toNat_ofNat]
    omega
  rw [e]; cases f.xw <;> decide

theorem packE_imm (op fn : Nat) (f : EFmt) : fld (packE op fn f) 0 16 = f.imm := by
  have := f.sw.toNat_lt
  have := f.td1.isLt
  have := f.td2.isLt
  have := f.td3.isLt
  have := f.sa.isLt
  have := f.sb.isLt
  have := f.cnt.isLt
  have := f.sc.isLt
  have := f.xw.toNat_lt
  have := f.imm.isLt
  apply BitVec.eq_of_toNat_eq
  simp only [packE, packHead, put, fld_ofNat _ 0 16 (by omega), BitVec.toNat_ofNat]
  omega

theorem packE_res (op fn : Nat) (f : EFmt) : fld (packE op fn f) 16 3 = 0#3 := by
  have := f.sw.toNat_lt
  have := f.td1.isLt
  have := f.td2.isLt
  have := f.td3.isLt
  have := f.sa.isLt
  have := f.sb.isLt
  have := f.cnt.isLt
  have := f.sc.isLt
  have := f.xw.toNat_lt
  have := f.imm.isLt
  apply BitVec.eq_of_toNat_eq
  simp only [packE, packHead, put, fld_ofNat _ 16 3 (by omega), BitVec.toNat_ofNat]
  omega

theorem readE_packE (op fn : Nat) (f : EFmt) (e : Word) (h : op < 128) (h' : fn < 16) (hx : if f.xw then e = f.ext else f.ext = 0) :
    readE (packE op fn f) e = f := by
  simp only [readE, swOf, packE_sw op fn f h h', packE_td1 op fn f, packE_td2 op fn f, packE_td3 op fn f, packE_sa op fn f, packE_sb op fn f, packE_cnt op fn f, packE_sc op fn f, packE_xw op fn f, packE_imm op fn f]
  cases f with | mk => simp_all; split <;> simp_all

theorem packE_reserved (op fn : Nat) (f : EFmt) (h : op < 128) (h' : fn < 16) (hf : fmtOf op = .e) :
    reservedOk (packE op fn f) = none :=
  reserved_e ((congrArg fmtOf (packE_op op fn f h h')).trans hf) (packE_res op fn f)

/-! ## Format X -/

theorem packX_op (op fn : Nat) (f : XFmt) (h : op < 128) (h' : fn < 16) : opOf (packX op fn f) = op := by
  have := f.sw.toNat_lt
  have := f.sd.isLt
  have := f.sa.isLt
  have := f.sc.isLt
  have := f.lvl.isLt
  have := f.num.isLt
  have := f.imm.isLt
  simp only [opOf, packX, packHead, put, fld_ofNat _ 56 7 (by omega), BitVec.toNat_ofNat]
  omega

theorem packX_fn (op fn : Nat) (f : XFmt) (h' : fn < 16) : fnOf (packX op fn f) = fn := by
  have := f.sw.toNat_lt
  have := f.sd.isLt
  have := f.sa.isLt
  have := f.sc.isLt
  have := f.lvl.isLt
  have := f.num.isLt
  have := f.imm.isLt
  simp only [fnOf, packX, packHead, put, fld_ofNat _ 52 4 (by omega), BitVec.toNat_ofNat]
  omega

theorem packX_readFn (op : Nat) (fn : BitVec 4) (f : XFmt) : readFn (packX op fn.toNat f) = fn :=
  BitVec.eq_of_toNat_eq (packX_fn op fn.toNat f fn.isLt)

theorem packX_sw (op fn : Nat) (f : XFmt) (h : op < 128) (h' : fn < 16) : (fld (packX op fn f) 63 1 == 1) = f.sw := by
  have := f.sw.toNat_lt
  have := f.sd.isLt
  have := f.sa.isLt
  have := f.sc.isLt
  have := f.lvl.isLt
  have := f.num.isLt
  have := f.imm.isLt
  have e : fld (packX op fn f) 63 1 = BitVec.ofNat 1 f.sw.toNat := by
    apply BitVec.eq_of_toNat_eq
    simp only [packX, packHead, put, fld_ofNat _ 63 1 (by omega), BitVec.toNat_ofNat]
    omega
  rw [e]; cases f.sw <;> decide

theorem packX_sd (op fn : Nat) (f : XFmt) : fld (packX op fn f) 46 6 = f.sd := by
  have := f.sw.toNat_lt
  have := f.sd.isLt
  have := f.sa.isLt
  have := f.sc.isLt
  have := f.lvl.isLt
  have := f.num.isLt
  have := f.imm.isLt
  apply BitVec.eq_of_toNat_eq
  simp only [packX, packHead, put, fld_ofNat _ 46 6 (by omega), BitVec.toNat_ofNat]
  omega

theorem packX_sa (op fn : Nat) (f : XFmt) : fld (packX op fn f) 40 6 = f.sa := by
  have := f.sw.toNat_lt
  have := f.sd.isLt
  have := f.sa.isLt
  have := f.sc.isLt
  have := f.lvl.isLt
  have := f.num.isLt
  have := f.imm.isLt
  apply BitVec.eq_of_toNat_eq
  simp only [packX, packHead, put, fld_ofNat _ 40 6 (by omega), BitVec.toNat_ofNat]
  omega

theorem packX_sc (op fn : Nat) (f : XFmt) : fld (packX op fn f) 37 3 = f.sc := by
  have := f.sw.toNat_lt
  have := f.sd.isLt
  have := f.sa.isLt
  have := f.sc.isLt
  have := f.lvl.isLt
  have := f.num.isLt
  have := f.imm.isLt
  apply BitVec.eq_of_toNat_eq
  simp only [packX, packHead, put, fld_ofNat _ 37 3 (by omega), BitVec.toNat_ofNat]
  omega

theorem packX_lvl (op fn : Nat) (f : XFmt) : fld (packX op fn f) 35 2 = f.lvl := by
  have := f.sw.toNat_lt
  have := f.sd.isLt
  have := f.sa.isLt
  have := f.sc.isLt
  have := f.lvl.isLt
  have := f.num.isLt
  have := f.imm.isLt
  apply BitVec.eq_of_toNat_eq
  simp only [packX, packHead, put, fld_ofNat _ 35 2 (by omega), BitVec.toNat_ofNat]
  omega

theorem packX_num (op fn : Nat) (f : XFmt) : fld (packX op fn f) 30 5 = f.num := by
  have := f.sw.toNat_lt
  have := f.sd.isLt
  have := f.sa.isLt
  have := f.sc.isLt
  have := f.lvl.isLt
  have := f.num.isLt
  have := f.imm.isLt
  apply BitVec.eq_of_toNat_eq
  simp only [packX, packHead, put, fld_ofNat _ 30 5 (by omega), BitVec.toNat_ofNat]
  omega

theorem packX_imm (op fn : Nat) (f : XFmt) : fld (packX op fn f) 0 24 = f.imm := by
  have := f.sw.toNat_lt
  have := f.sd.isLt
  have := f.sa.isLt
  have := f.sc.isLt
  have := f.lvl.isLt
  have := f.num.isLt
  have := f.imm.isLt
  apply BitVec.eq_of_toNat_eq
  simp only [packX, packHead, put, fld_ofNat _ 0 24 (by omega), BitVec.toNat_ofNat]
  omega

theorem packX_res (op fn : Nat) (f : XFmt) : fld (packX op fn f) 24 5 = 0#5 := by
  have := f.sw.toNat_lt
  have := f.sd.isLt
  have := f.sa.isLt
  have := f.sc.isLt
  have := f.lvl.isLt
  have := f.num.isLt
  have := f.imm.isLt
  apply BitVec.eq_of_toNat_eq
  simp only [packX, packHead, put, fld_ofNat _ 24 5 (by omega), BitVec.toNat_ofNat]
  omega

theorem packX_xbit (op fn : Nat) (f : XFmt) : fld (packX op fn f) 29 1 = 0#1 := by
  have := f.sw.toNat_lt
  have := f.sd.isLt
  have := f.sa.isLt
  have := f.sc.isLt
  have := f.lvl.isLt
  have := f.num.isLt
  have := f.imm.isLt
  apply BitVec.eq_of_toNat_eq
  simp only [packX, packHead, put, fld_ofNat _ 29 1 (by omega), BitVec.toNat_ofNat]
  omega

theorem readX_packX (op fn : Nat) (f : XFmt) (h : op < 128) (h' : fn < 16) : readX (packX op fn f) = f := by
  simp only [readX, swOf, packX_sw op fn f h h', packX_sd op fn f, packX_sa op fn f, packX_sc op fn f, packX_lvl op fn f, packX_num op fn f, packX_imm op fn f]

theorem packX_reserved (op fn : Nat) (f : XFmt) (h : op < 128) (h' : fn < 16) (hf : fmtOf op = .x) :
    reservedOk (packX op fn f) = none :=
  reserved_x ((congrArg fmtOf (packX_op op fn f h h')).trans hf) (packX_res op fn f) (packX_xbit op fn f)

end Sys2Proof.Laws
end

