-- ==== Sys2Proof/Laws/PerInstr.lean ====
section
/-! SUPPORT. Decode and encode agree, instruction by instruction. -/

set_option Elab.async false

namespace Sys2Proof.Laws.RoundTrip

/-- The words of a well-formed instruction decode to it (02 R39 to R62). -/
def Statement (i : Instr) : Prop :=
  i.wf = true → ∀ (w : Word) (e : Option Word), encode i = some (w, e) → decode w (e.getD 0) = .ok i

theorem of_none (i : Instr) (h : encode i = none) : Statement i := by
  intro _ w e he; rw [h] at he; cases he

theorem of_word (i : Instr) (w : Word) (h : encode i = some (w, none)) (h1 : reservedOk w = none)
    (h2 : selectInstr w 0 = .ok i) : Statement i := by
  intro hw w' e he
  rw [h] at he; cases he
  exact decode_of h1 h2 hw

theorem ext_ok {i : Instr} {f : EFmt} {a b c : Bool × Illop} (h : i.wf = true)
    (hk : check i = ((checkE i).map Prod.fst).getD none)
    (hc : checkE i = some (firstBroken [a, b, c, (extOk f, .extension)], f)) (hx : f.xw = false) : f.ext = 0 := by
  have h : check i = none := by simpa [Instr.wf] using h
  rw [hk, hc] at h
  simp only [firstBroken, Option.map_some, Option.getD_some] at h
  split at h <;> try split at h
  all_goals (try split at h)
  all_goals (try split at h)
  all_goals simp_all [extOk]

theorem of_engine (i : Instr) (f : EFmt) (w : Word) (h : encode i = some (w, if f.xw then some f.ext else none))
    (hf : i.wf = true → f.xw = false → f.ext = 0) (h1 : reservedOk w = none)
    (h2 : ∀ e, (if f.xw then e = f.ext else f.ext = 0) → selectInstr w e = .ok i) : Statement i := by
  intro hw w' e he
  rw [h] at he; cases he
  refine decode_of h1 (h2 _ ?_) hw
  cases hx : f.xw <;> simp_all

theorem sadd f : Statement (.sadd f) := of_word _ _ rfl (packS_reserved 0x01 0 f (by decide) (by decide) (by decide))
  (by simp [selectInstr, select01, packS_op 0x01 0 f (by decide) (by decide), packS_fn 0x01 0 f (by decide), readS_packS 0x01 0 f (by decide) (by decide)])
theorem ssub f : Statement (.ssub f) := of_word _ _ rfl (packS_reserved 0x01 1 f (by decide) (by decide) (by decide))
  (by simp [selectInstr, select01, packS_op 0x01 1 f (by decide) (by decide), packS_fn 0x01 1 f (by decide), readS_packS 0x01 1 f (by decide) (by decide)])
theorem smul f : Statement (.smul f) := of_word _ _ rfl (packS_reserved 0x01 2 f (by decide) (by decide) (by decide))
  (by simp [selectInstr, select01, packS_op 0x01 2 f (by decide) (by decide), packS_fn 0x01 2 f (by decide), readS_packS 0x01 2 f (by decide) (by decide)])
theorem smulh f : Statement (.smulh f) := of_word _ _ rfl (packS_reserved 0x01 3 f (by decide) (by decide) (by decide))
  (by simp [selectInstr, select01, packS_op 0x01 3 f (by decide) (by decide), packS_fn 0x01 3 f (by decide), readS_packS 0x01 3 f (by decide) (by decide)])
theorem sdiv f : Statement (.sdiv f) := of_word _ _ rfl (packS_reserved 0x01 4 f (by decide) (by decide) (by decide))
  (by simp [selectInstr, select01, packS_op 0x01 4 f (by decide) (by decide), packS_fn 0x01 4 f (by decide), readS_packS 0x01 4 f (by decide) (by decide)])
theorem sand f : Statement (.sand f) := of_word _ _ rfl (packS_reserved 0x01 5 f (by decide) (by decide) (by decide))
  (by simp [selectInstr, select01, packS_op 0x01 5 f (by decide) (by decide), packS_fn 0x01 5 f (by decide), readS_packS 0x01 5 f (by decide) (by decide)])
theorem sor f : Statement (.sor f) := of_word _ _ rfl (packS_reserved 0x01 6 f (by decide) (by decide) (by decide))
  (by simp [selectInstr, select01, packS_op 0x01 6 f (by decide) (by decide), packS_fn 0x01 6 f (by decide), readS_packS 0x01 6 f (by decide) (by decide)])
theorem sxor f : Statement (.sxor f) := of_word _ _ rfl (packS_reserved 0x01 7 f (by decide) (by decide) (by decide))
  (by simp [selectInstr, select01, packS_op 0x01 7 f (by decide) (by decide), packS_fn 0x01 7 f (by decide), readS_packS 0x01 7 f (by decide) (by decide)])
theorem sshl f : Statement (.sshl f) := of_word _ _ rfl (packS_reserved 0x01 8 f (by decide) (by decide) (by decide))
  (by simp [selectInstr, select01, packS_op 0x01 8 f (by decide) (by decide), packS_fn 0x01 8 f (by decide), readS_packS 0x01 8 f (by decide) (by decide)])
theorem sshr f : Statement (.sshr f) := of_word _ _ rfl (packS_reserved 0x01 9 f (by decide) (by decide) (by decide))
  (by simp [selectInstr, select01, packS_op 0x01 9 f (by decide) (by decide), packS_fn 0x01 9 f (by decide), readS_packS 0x01 9 f (by decide) (by decide)])
theorem ssra f : Statement (.ssra f) := of_word _ _ rfl (packS_reserved 0x01 10 f (by decide) (by decide) (by decide))
  (by simp [selectInstr, select01, packS_op 0x01 10 f (by decide) (by decide), packS_fn 0x01 10 f (by decide), readS_packS 0x01 10 f (by decide) (by decide)])
theorem smin f : Statement (.smin f) := of_word _ _ rfl (packS_reserved 0x01 11 f (by decide) (by decide) (by decide))
  (by simp [selectInstr, select01, packS_op 0x01 11 f (by decide) (by decide), packS_fn 0x01 11 f (by decide), readS_packS 0x01 11 f (by decide) (by decide)])
theorem smax f : Statement (.smax f) := of_word _ _ rfl (packS_reserved 0x01 12 f (by decide) (by decide) (by decide))
  (by simp [selectInstr, select01, packS_op 0x01 12 f (by decide) (by decide), packS_fn 0x01 12 f (by decide), readS_packS 0x01 12 f (by decide) (by decide)])
theorem smov f : Statement (.smov f) := of_word _ _ rfl (packS_reserved 0x01 13 f (by decide) (by decide) (by decide))
  (by simp [selectInstr, select01, packS_op 0x01 13 f (by decide) (by decide), packS_fn 0x01 13 f (by decide), readS_packS 0x01 13 f (by decide) (by decide)])
theorem spopc f : Statement (.spopc f) := of_word _ _ rfl (packS_reserved 0x01 14 f (by decide) (by decide) (by decide))
  (by simp [selectInstr, select01, packS_op 0x01 14 f (by decide) (by decide), packS_fn 0x01 14 f (by decide), readS_packS 0x01 14 f (by decide) (by decide)])
theorem sclz f : Statement (.sclz f) := of_word _ _ rfl (packS_reserved 0x01 15 f (by decide) (by decide) (by decide))
  (by simp [selectInstr, select01, packS_op 0x01 15 f (by decide) (by decide), packS_fn 0x01 15 f (by decide), readS_packS 0x01 15 f (by decide) (by decide)])
theorem saddImm f : Statement (.saddImm f) := of_word _ _ rfl (packS_reserved 0x02 0 f (by decide) (by decide) (by decide))
  (by simp [selectInstr, select02, packS_op 0x02 0 f (by decide) (by decide), packS_fn 0x02 0 f (by decide), readS_packS 0x02 0 f (by decide) (by decide)])
theorem ssubImm f : Statement (.ssubImm f) := of_word _ _ rfl (packS_reserved 0x02 1 f (by decide) (by decide) (by decide))
  (by simp [selectInstr, select02, packS_op 0x02 1 f (by decide) (by decide), packS_fn 0x02 1 f (by decide), readS_packS 0x02 1 f (by decide) (by decide)])
theorem smulImm f : Statement (.smulImm f) := of_word _ _ rfl (packS_reserved 0x02 2 f (by decide) (by decide) (by decide))
  (by simp [selectInstr, select02, packS_op 0x02 2 f (by decide) (by decide), packS_fn 0x02 2 f (by decide), readS_packS 0x02 2 f (by decide) (by decide)])
theorem smulhImm f : Statement (.smulhImm f) := of_word _ _ rfl (packS_reserved 0x02 3 f (by decide) (by decide) (by decide))
  (by simp [selectInstr, select02, packS_op 0x02 3 f (by decide) (by decide), packS_fn 0x02 3 f (by decide), readS_packS 0x02 3 f (by decide) (by decide)])
theorem sdivImm f : Statement (.sdivImm f) := of_word _ _ rfl (packS_reserved 0x02 4 f (by decide) (by decide) (by decide))
  (by simp [selectInstr, select02, packS_op 0x02 4 f (by decide) (by decide), packS_fn 0x02 4 f (by decide), readS_packS 0x02 4 f (by decide) (by decide)])
theorem sandImm f : Statement (.sandImm f) := of_word _ _ rfl (packS_reserved 0x02 5 f (by decide) (by decide) (by decide))
  (by simp [selectInstr, select02, packS_op 0x02 5 f (by decide) (by decide), packS_fn 0x02 5 f (by decide), readS_packS 0x02 5 f (by decide) (by decide)])
theorem sorImm f : Statement (.sorImm f) := of_word _ _ rfl (packS_reserved 0x02 6 f (by decide) (by decide) (by decide))
  (by simp [selectInstr, select02, packS_op 0x02 6 f (by decide) (by decide), packS_fn 0x02 6 f (by decide), readS_packS 0x02 6 f (by decide) (by decide)])
theorem sxorImm f : Statement (.sxorImm f) := of_word _ _ rfl (packS_reserved 0x02 7 f (by decide) (by decide) (by decide))
  (by simp [selectInstr, select02, packS_op 0x02 7 f (by decide) (by decide), packS_fn 0x02 7 f (by decide), readS_packS 0x02 7 f (by decide) (by decide)])
theorem sshlImm f : Statement (.sshlImm f) := of_word _ _ rfl (packS_reserved 0x02 8 f (by decide) (by decide) (by decide))
  (by simp [selectInstr, select02, packS_op 0x02 8 f (by decide) (by decide), packS_fn 0x02 8 f (by decide), readS_packS 0x02 8 f (by decide) (by decide)])
theorem sshrImm f : Statement (.sshrImm f) := of_word _ _ rfl (packS_reserved 0x02 9 f (by decide) (by decide) (by decide))
  (by simp [selectInstr, select02, packS_op 0x02 9 f (by decide) (by decide), packS_fn 0x02 9 f (by decide), readS_packS 0x02 9 f (by decide) (by decide)])
theorem ssraImm f : Statement (.ssraImm f) := of_word _ _ rfl (packS_reserved 0x02 10 f (by decide) (by decide) (by decide))
  (by simp [selectInstr, select02, packS_op 0x02 10 f (by decide) (by decide), packS_fn 0x02 10 f (by decide), readS_packS 0x02 10 f (by decide) (by decide)])
theorem sminImm f : Statement (.sminImm f) := of_word _ _ rfl (packS_reserved 0x02 11 f (by decide) (by decide) (by decide))
  (by simp [selectInstr, select02, packS_op 0x02 11 f (by decide) (by decide), packS_fn 0x02 11 f (by decide), readS_packS 0x02 11 f (by decide) (by decide)])
theorem smaxImm f : Statement (.smaxImm f) := of_word _ _ rfl (packS_reserved 0x02 12 f (by decide) (by decide) (by decide))
  (by simp [selectInstr, select02, packS_op 0x02 12 f (by decide) (by decide), packS_fn 0x02 12 f (by decide), readS_packS 0x02 12 f (by decide) (by decide)])
theorem smovImm f : Statement (.smovImm f) := of_word _ _ rfl (packS_reserved 0x02 13 f (by decide) (by decide) (by decide))
  (by simp [selectInstr, select02, packS_op 0x02 13 f (by decide) (by decide), packS_fn 0x02 13 f (by decide), readS_packS 0x02 13 f (by decide) (by decide)])
theorem smulhU f : Statement (.smulhU f) := of_word _ _ rfl (packS_reserved 0x03 0 f (by decide) (by decide) (by decide))
  (by simp [selectInstr, select03, packS_op 0x03 0 f (by decide) (by decide), packS_fn 0x03 0 f (by decide), readS_packS 0x03 0 f (by decide) (by decide)])
theorem sdivU f : Statement (.sdivU f) := of_word _ _ rfl (packS_reserved 0x03 1 f (by decide) (by decide) (by decide))
  (by simp [selectInstr, select03, packS_op 0x03 1 f (by decide) (by decide), packS_fn 0x03 1 f (by decide), readS_packS 0x03 1 f (by decide) (by decide)])
theorem sminU f : Statement (.sminU f) := of_word _ _ rfl (packS_reserved 0x03 2 f (by decide) (by decide) (by decide))
  (by simp [selectInstr, select03, packS_op 0x03 2 f (by decide) (by decide), packS_fn 0x03 2 f (by decide), readS_packS 0x03 2 f (by decide) (by decide)])
theorem smaxU f : Statement (.smaxU f) := of_word _ _ rfl (packS_reserved 0x03 3 f (by decide) (by decide) (by decide))
  (by simp [selectInstr, select03, packS_op 0x03 3 f (by decide) (by decide), packS_fn 0x03 3 f (by decide), readS_packS 0x03 3 f (by decide) (by decide)])
theorem scmp f : Statement (.scmp f) := of_word _ _ rfl (packS_reserved 0x03 4 f (by decide) (by decide) (by decide))
  (by simp [selectInstr, select03, packS_op 0x03 4 f (by decide) (by decide), packS_fn 0x03 4 f (by decide), readS_packS 0x03 4 f (by decide) (by decide)])
theorem scmpU f : Statement (.scmpU f) := of_word _ _ rfl (packS_reserved 0x03 5 f (by decide) (by decide) (by decide))
  (by simp [selectInstr, select03, packS_op 0x03 5 f (by decide) (by decide), packS_fn 0x03 5 f (by decide), readS_packS 0x03 5 f (by decide) (by decide)])
theorem ssel f : Statement (.ssel f) := of_word _ _ rfl (packS_reserved 0x03 6 f (by decide) (by decide) (by decide))
  (by simp [selectInstr, select03, packS_op 0x03 6 f (by decide) (by decide), packS_fn 0x03 6 f (by decide), readS_packS 0x03 6 f (by decide) (by decide)])
theorem sbfx f : Statement (.sbfx f) := of_word _ _ rfl (packS_reserved 0x03 7 f (by decide) (by decide) (by decide))
  (by simp [selectInstr, select03, packS_op 0x03 7 f (by decide) (by decide), packS_fn 0x03 7 f (by decide), readS_packS 0x03 7 f (by decide) (by decide)])
theorem sbfxU f : Statement (.sbfxU f) := of_word _ _ rfl (packS_reserved 0x03 8 f (by decide) (by decide) (by decide))
  (by simp [selectInstr, select03, packS_op 0x03 8 f (by decide) (by decide), packS_fn 0x03 8 f (by decide), readS_packS 0x03 8 f (by decide) (by decide)])
theorem sbfi f : Statement (.sbfi f) := of_word _ _ rfl (packS_reserved 0x03 9 f (by decide) (by decide) (by decide))
  (by simp [selectInstr, select03, packS_op 0x03 9 f (by decide) (by decide), packS_fn 0x03 9 f (by decide), readS_packS 0x03 9 f (by decide) (by decide)])
theorem slea f : Statement (.slea f) := of_word _ _ rfl (packS_reserved 0x03 10 f (by decide) (by decide) (by decide))
  (by simp [selectInstr, select03, packS_op 0x03 10 f (by decide) (by decide), packS_fn 0x03 10 f (by decide), readS_packS 0x03 10 f (by decide) (by decide)])
theorem sldi f ext : Statement (.sldi f ext) := by
  intro hw w e he; cases he
  exact decode_of (packS_reserved 0x04 0 f (by decide) (by decide) (by decide)) (by simp [selectInstr, packS_op 0x04 0 f (by decide) (by decide), packS_fn 0x04 0 f (by decide), readS_packS 0x04 0 f (by decide) (by decide)]) hw
theorem srd f : Statement (.srd f) := of_word _ _ rfl (packS_reserved 0x05 0 f (by decide) (by decide) (by decide))
  (by simp [selectInstr, select05, packS_op 0x05 0 f (by decide) (by decide), packS_fn 0x05 0 f (by decide), readS_packS 0x05 0 f (by decide) (by decide)])
theorem swr f : Statement (.swr f) := of_word _ _ rfl (packS_reserved 0x05 1 f (by decide) (by decide) (by decide))
  (by simp [selectInstr, select05, packS_op 0x05 1 f (by decide) (by decide), packS_fn 0x05 1 f (by decide), readS_packS 0x05 1 f (by decide) (by decide)])
theorem bra f : Statement (.bra f) := of_word _ _ rfl (packJ_reserved 0x10 0 f (by decide) (by decide) (by decide))
  (by simp [selectInstr, packJ_op 0x10 0 f (by decide) (by decide), packJ_fn 0x10 0 f (by decide), readJ_packJ 0x10 0 f (by decide) (by decide)])
theorem brc f : Statement (.brc f) := of_word _ _ rfl (packJ_reserved 0x11 0 f (by decide) (by decide) (by decide))
  (by simp [selectInstr, packJ_op 0x11 0 f (by decide) (by decide), packJ_fn 0x11 0 f (by decide), readJ_packJ 0x11 0 f (by decide) (by decide)])
theorem brx f : Statement (.brx f) := of_word _ _ rfl (packJ_reserved 0x12 0 f (by decide) (by decide) (by decide))
  (by simp [selectInstr, packJ_op 0x12 0 f (by decide) (by decide), packJ_fn 0x12 0 f (by decide), readJ_packJ 0x12 0 f (by decide) (by decide)])
theorem jmpi f : Statement (.jmpi f) := of_word _ _ rfl (packJ_reserved 0x13 0 f (by decide) (by decide) (by decide))
  (by simp [selectInstr, packJ_op 0x13 0 f (by decide) (by decide), packJ_fn 0x13 0 f (by decide), readJ_packJ 0x13 0 f (by decide) (by decide)])
theorem call f : Statement (.call f) := of_word _ _ rfl (packJ_reserved 0x14 0 f (by decide) (by decide) (by decide))
  (by simp [selectInstr, select14, packJ_op 0x14 0 f (by decide) (by decide), packJ_fn 0x14 0 f (by decide), readJ_packJ 0x14 0 f (by decide) (by decide)])
theorem callInd f : Statement (.callInd f) := of_word _ _ rfl (packJ_reserved 0x14 1 f (by decide) (by decide) (by decide))
  (by simp [selectInstr, select14, packJ_op 0x14 1 f (by decide) (by decide), packJ_fn 0x14 1 f (by decide), readJ_packJ 0x14 1 f (by decide) (by decide)])
theorem ret f : Statement (.ret f) := of_word _ _ rfl (packJ_reserved 0x15 0 f (by decide) (by decide) (by decide))
  (by simp [selectInstr, packJ_op 0x15 0 f (by decide) (by decide), packJ_fn 0x15 0 f (by decide), readJ_packJ 0x15 0 f (by decide) (by decide)])
theorem exit f : Statement (.exit f) := of_word _ _ rfl (packJ_reserved 0x16 0 f (by decide) (by decide) (by decide))
  (by simp [selectInstr, select16, packJ_op 0x16 0 f (by decide) (by decide), packJ_fn 0x16 0 f (by decide), readJ_packJ 0x16 0 f (by decide) (by decide)])
theorem nop f : Statement (.nop f) := of_word _ _ rfl (packJ_reserved 0x16 1 f (by decide) (by decide) (by decide))
  (by simp [selectInstr, select16, packJ_op 0x16 1 f (by decide) (by decide), packJ_fn 0x16 1 f (by decide), readJ_packJ 0x16 1 f (by decide) (by decide)])
theorem yield f : Statement (.yield f) := of_word _ _ rfl (packJ_reserved 0x16 2 f (by decide) (by decide) (by decide))
  (by simp [selectInstr, select16, packJ_op 0x16 2 f (by decide) (by decide), packJ_fn 0x16 2 f (by decide), readJ_packJ 0x16 2 f (by decide) (by decide)])
theorem join f : Statement (.join f) := of_word _ _ rfl (packJ_reserved 0x16 3 f (by decide) (by decide) (by decide))
  (by simp [selectInstr, select16, packJ_op 0x16 3 f (by decide) (by decide), packJ_fn 0x16 3 f (by decide), readJ_packJ 0x16 3 f (by decide) (by decide)])
theorem joinBnd f : Statement (.joinBnd f) := of_word _ _ rfl (packJ_reserved 0x16 4 f (by decide) (by decide) (by decide))
  (by simp [selectInstr, select16, packJ_op 0x16 4 f (by decide) (by decide), packJ_fn 0x16 4 f (by decide), readJ_packJ 0x16 4 f (by decide) (by decide)])
theorem joinBoundExpiry w slot : Statement (.joinBoundExpiry w slot) := of_none _ rfl
theorem mand f : Statement (.mand f) := of_word _ _ rfl (packS_reserved 0x18 0 f (by decide) (by decide) (by decide))
  (by simp [selectInstr, select18, packS_op 0x18 0 f (by decide) (by decide), packS_fn 0x18 0 f (by decide), readS_packS 0x18 0 f (by decide) (by decide)])
theorem mor f : Statement (.mor f) := of_word _ _ rfl (packS_reserved 0x18 1 f (by decide) (by decide) (by decide))
  (by simp [selectInstr, select18, packS_op 0x18 1 f (by decide) (by decide), packS_fn 0x18 1 f (by decide), readS_packS 0x18 1 f (by decide) (by decide)])
theorem mxor f : Statement (.mxor f) := of_word _ _ rfl (packS_reserved 0x18 2 f (by decide) (by decide) (by decide))
  (by simp [selectInstr, select18, packS_op 0x18 2 f (by decide) (by decide), packS_fn 0x18 2 f (by decide), readS_packS 0x18 2 f (by decide) (by decide)])
theorem mnot f : Statement (.mnot f) := of_word _ _ rfl (packS_reserved 0x18 3 f (by decide) (by decide) (by decide))
  (by simp [selectInstr, select18, packS_op 0x18 3 f (by decide) (by decide), packS_fn 0x18 3 f (by decide), readS_packS 0x18 3 f (by decide) (by decide)])
theorem mmov f : Statement (.mmov f) := of_word _ _ rfl (packS_reserved 0x18 4 f (by decide) (by decide) (by decide))
  (by simp [selectInstr, select18, packS_op 0x18 4 f (by decide) (by decide), packS_fn 0x18 4 f (by decide), readS_packS 0x18 4 f (by decide) (by decide)])
theorem mpopc f : Statement (.mpopc f) := of_word _ _ rfl (packS_reserved 0x18 5 f (by decide) (by decide) (by decide))
  (by simp [selectInstr, select18, packS_op 0x18 5 f (by decide) (by decide), packS_fn 0x18 5 f (by decide), readS_packS 0x18 5 f (by decide) (by decide)])
theorem mffs f : Statement (.mffs f) := of_word _ _ rfl (packS_reserved 0x18 6 f (by decide) (by decide) (by decide))
  (by simp [selectInstr, select18, packS_op 0x18 6 f (by decide) (by decide), packS_fn 0x18 6 f (by decide), readS_packS 0x18 6 f (by decide) (by decide)])
theorem msetem f : Statement (.msetem f) := of_word _ _ rfl (packS_reserved 0x18 7 f (by decide) (by decide) (by decide))
  (by simp [selectInstr, select18, packS_op 0x18 7 f (by decide) (by decide), packS_fn 0x18 7 f (by decide), readS_packS 0x18 7 f (by decide) (by decide)])
theorem msave f : Statement (.msave f) := of_word _ _ rfl (packS_reserved 0x18 8 f (by decide) (by decide) (by decide))
  (by simp [selectInstr, select18, packS_op 0x18 8 f (by decide) (by decide), packS_fn 0x18 8 f (by decide), readS_packS 0x18 8 f (by decide) (by decide)])
theorem mrest f : Statement (.mrest f) := of_word _ _ rfl (packS_reserved 0x18 9 f (by decide) (by decide) (by decide))
  (by simp [selectInstr, select18, packS_op 0x18 9 f (by decide) (by decide), packS_fn 0x18 9 f (by decide), readS_packS 0x18 9 f (by decide) (by decide)])
theorem splitq f : Statement (.splitq f) := of_word _ _ rfl (packS_reserved 0x18 10 f (by decide) (by decide) (by decide))
  (by simp [selectInstr, select18, packS_op 0x18 10 f (by decide) (by decide), packS_fn 0x18 10 f (by decide), readS_packS 0x18 10 f (by decide) (by decide)])
theorem regang f : Statement (.regang f) := of_word _ _ rfl (packS_reserved 0x18 11 f (by decide) (by decide) (by decide))
  (by simp [selectInstr, select18, packS_op 0x18 11 f (by decide) (by decide), packS_fn 0x18 11 f (by decide), readS_packS 0x18 11 f (by decide) (by decide)])
theorem regangBoundExpiry w slot : Statement (.regangBoundExpiry w slot) := of_none _ rfl
theorem vadd f : Statement (.vadd f) := of_word _ _ rfl (packA_reserved 0x20 0 f (by decide) (by decide) (by decide))
  (by simp [selectInstr, select20, packA_op 0x20 0 f (by decide) (by decide), packA_fn 0x20 0 f (by decide), readA_packA 0x20 0 f (by decide) (by decide)])
theorem vsub f : Statement (.vsub f) := of_word _ _ rfl (packA_reserved 0x20 1 f (by decide) (by decide) (by decide))
  (by simp [selectInstr, select20, packA_op 0x20 1 f (by decide) (by decide), packA_fn 0x20 1 f (by decide), readA_packA 0x20 1 f (by decide) (by decide)])
theorem vmul f : Statement (.vmul f) := of_word _ _ rfl (packA_reserved 0x20 2 f (by decide) (by decide) (by decide))
  (by simp [selectInstr, select20, packA_op 0x20 2 f (by decide) (by decide), packA_fn 0x20 2 f (by decide), readA_packA 0x20 2 f (by decide) (by decide)])
theorem vmulh f : Statement (.vmulh f) := of_word _ _ rfl (packA_reserved 0x20 3 f (by decide) (by decide) (by decide))
  (by simp [selectInstr, select20, packA_op 0x20 3 f (by decide) (by decide), packA_fn 0x20 3 f (by decide), readA_packA 0x20 3 f (by decide) (by decide)])
theorem vmad f : Statement (.vmad f) := of_word _ _ rfl (packA_reserved 0x20 4 f (by decide) (by decide) (by decide))
  (by simp [selectInstr, select20, packA_op 0x20 4 f (by decide) (by decide), packA_fn 0x20 4 f (by decide), readA_packA 0x20 4 f (by decide) (by decide)])
theorem vmin f : Statement (.vmin f) := of_word _ _ rfl (packA_reserved 0x20 5 f (by decide) (by decide) (by decide))
  (by simp [selectInstr, select20, packA_op 0x20 5 f (by decide) (by decide), packA_fn 0x20 5 f (by decide), readA_packA 0x20 5 f (by decide) (by decide)])
theorem vmax f : Statement (.vmax f) := of_word _ _ rfl (packA_reserved 0x20 6 f (by decide) (by decide) (by decide))
  (by simp [selectInstr, select20, packA_op 0x20 6 f (by decide) (by decide), packA_fn 0x20 6 f (by decide), readA_packA 0x20 6 f (by decide) (by decide)])
theorem vabs f : Statement (.vabs f) := of_word _ _ rfl (packA_reserved 0x20 7 f (by decide) (by decide) (by decide))
  (by simp [selectInstr, select20, packA_op 0x20 7 f (by decide) (by decide), packA_fn 0x20 7 f (by decide), readA_packA 0x20 7 f (by decide) (by decide)])
theorem vneg f : Statement (.vneg f) := of_word _ _ rfl (packA_reserved 0x20 8 f (by decide) (by decide) (by decide))
  (by simp [selectInstr, select20, packA_op 0x20 8 f (by decide) (by decide), packA_fn 0x20 8 f (by decide), readA_packA 0x20 8 f (by decide) (by decide)])
theorem vaddc f : Statement (.vaddc f) := of_word _ _ rfl (packA_reserved 0x20 9 f (by decide) (by decide) (by decide))
  (by simp [selectInstr, select20, packA_op 0x20 9 f (by decide) (by decide), packA_fn 0x20 9 f (by decide), readA_packA 0x20 9 f (by decide) (by decide)])
theorem vsubb f : Statement (.vsubb f) := of_word _ _ rfl (packA_reserved 0x20 10 f (by decide) (by decide) (by decide))
  (by simp [selectInstr, select20, packA_op 0x20 10 f (by decide) (by decide), packA_fn 0x20 10 f (by decide), readA_packA 0x20 10 f (by decide) (by decide)])
theorem vsad f : Statement (.vsad f) := of_word _ _ rfl (packA_reserved 0x20 11 f (by decide) (by decide) (by decide))
  (by simp [selectInstr, select20, packA_op 0x20 11 f (by decide) (by decide), packA_fn 0x20 11 f (by decide), readA_packA 0x20 11 f (by decide) (by decide)])
theorem vavg f : Statement (.vavg f) := of_word _ _ rfl (packA_reserved 0x20 12 f (by decide) (by decide) (by decide))
  (by simp [selectInstr, select20, packA_op 0x20 12 f (by decide) (by decide), packA_fn 0x20 12 f (by decide), readA_packA 0x20 12 f (by decide) (by decide)])
theorem vcmp f : Statement (.vcmp f) := of_word _ _ rfl (packA_reserved 0x20 13 f (by decide) (by decide) (by decide))
  (by simp [selectInstr, select20, packA_op 0x20 13 f (by decide) (by decide), packA_fn 0x20 13 f (by decide), readA_packA 0x20 13 f (by decide) (by decide)])
theorem vsel f : Statement (.vsel f) := of_word _ _ rfl (packA_reserved 0x20 14 f (by decide) (by decide) (by decide))
  (by simp [selectInstr, select20, packA_op 0x20 14 f (by decide) (by decide), packA_fn 0x20 14 f (by decide), readA_packA 0x20 14 f (by decide) (by decide)])
theorem vmov f : Statement (.vmov f) := of_word _ _ rfl (packA_reserved 0x20 15 f (by decide) (by decide) (by decide))
  (by simp [selectInstr, select20, packA_op 0x20 15 f (by decide) (by decide), packA_fn 0x20 15 f (by decide), readA_packA 0x20 15 f (by decide) (by decide)])
theorem vand f : Statement (.vand f) := of_word _ _ rfl (packA_reserved 0x21 0 f (by decide) (by decide) (by decide))
  (by simp [selectInstr, select21, packA_op 0x21 0 f (by decide) (by decide), packA_fn 0x21 0 f (by decide), readA_packA 0x21 0 f (by decide) (by decide)])
theorem vor f : Statement (.vor f) := of_word _ _ rfl (packA_reserved 0x21 1 f (by decide) (by decide) (by decide))
  (by simp [selectInstr, select21, packA_op 0x21 1 f (by decide) (by decide), packA_fn 0x21 1 f (by decide), readA_packA 0x21 1 f (by decide) (by decide)])
theorem vxor f : Statement (.vxor f) := of_word _ _ rfl (packA_reserved 0x21 2 f (by decide) (by decide) (by decide))
  (by simp [selectInstr, select21, packA_op 0x21 2 f (by decide) (by decide), packA_fn 0x21 2 f (by decide), readA_packA 0x21 2 f (by decide) (by decide)])
theorem vnot f : Statement (.vnot f) := of_word _ _ rfl (packA_reserved 0x21 3 f (by decide) (by decide) (by decide))
  (by simp [selectInstr, select21, packA_op 0x21 3 f (by decide) (by decide), packA_fn 0x21 3 f (by decide), readA_packA 0x21 3 f (by decide) (by decide)])
theorem vshl f : Statement (.vshl f) := of_word _ _ rfl (packA_reserved 0x21 4 f (by decide) (by decide) (by decide))
  (by simp [selectInstr, select21, packA_op 0x21 4 f (by decide) (by decide), packA_fn 0x21 4 f (by decide), readA_packA 0x21 4 f (by decide) (by decide)])
theorem vshr f : Statement (.vshr f) := of_word _ _ rfl (packA_reserved 0x21 5 f (by decide) (by decide) (by decide))
  (by simp [selectInstr, select21, packA_op 0x21 5 f (by decide) (by decide), packA_fn 0x21 5 f (by decide), readA_packA 0x21 5 f (by decide) (by decide)])
theorem vsra f : Statement (.vsra f) := of_word _ _ rfl (packA_reserved 0x21 6 f (by decide) (by decide) (by decide))
  (by simp [selectInstr, select21, packA_op 0x21 6 f (by decide) (by decide), packA_fn 0x21 6 f (by decide), readA_packA 0x21 6 f (by decide) (by decide)])
theorem vrot f : Statement (.vrot f) := of_word _ _ rfl (packA_reserved 0x21 7 f (by decide) (by decide) (by decide))
  (by simp [selectInstr, select21, packA_op 0x21 7 f (by decide) (by decide), packA_fn 0x21 7 f (by decide), readA_packA 0x21 7 f (by decide) (by decide)])
theorem vclz f : Statement (.vclz f) := of_word _ _ rfl (packA_reserved 0x21 8 f (by decide) (by decide) (by decide))
  (by simp [selectInstr, select21, packA_op 0x21 8 f (by decide) (by decide), packA_fn 0x21 8 f (by decide), readA_packA 0x21 8 f (by decide) (by decide)])
theorem vpopc f : Statement (.vpopc f) := of_word _ _ rfl (packA_reserved 0x21 9 f (by decide) (by decide) (by decide))
  (by simp [selectInstr, select21, packA_op 0x21 9 f (by decide) (by decide), packA_fn 0x21 9 f (by decide), readA_packA 0x21 9 f (by decide) (by decide)])
theorem vbfx f : Statement (.vbfx f) := of_word _ _ rfl (packA_reserved 0x21 10 f (by decide) (by decide) (by decide))
  (by simp [selectInstr, select21, packA_op 0x21 10 f (by decide) (by decide), packA_fn 0x21 10 f (by decide), readA_packA 0x21 10 f (by decide) (by decide)])
theorem vbfi f : Statement (.vbfi f) := of_word _ _ rfl (packA_reserved 0x21 11 f (by decide) (by decide) (by decide))
  (by simp [selectInstr, select21, packA_op 0x21 11 f (by decide) (by decide), packA_fn 0x21 11 f (by decide), readA_packA 0x21 11 f (by decide) (by decide)])
theorem vmovs f : Statement (.vmovs f) := of_word _ _ rfl (packA_reserved 0x21 12 f (by decide) (by decide) (by decide))
  (by simp [selectInstr, select21, packA_op 0x21 12 f (by decide) (by decide), packA_fn 0x21 12 f (by decide), readA_packA 0x21 12 f (by decide) (by decide)])
theorem vfadd f : Statement (.vfadd f) := of_word _ _ rfl (packA_reserved 0x22 0 f (by decide) (by decide) (by decide))
  (by simp [selectInstr, select22, packA_op 0x22 0 f (by decide) (by decide), packA_fn 0x22 0 f (by decide), readA_packA 0x22 0 f (by decide) (by decide)])
theorem vfsub f : Statement (.vfsub f) := of_word _ _ rfl (packA_reserved 0x22 1 f (by decide) (by decide) (by decide))
  (by simp [selectInstr, select22, packA_op 0x22 1 f (by decide) (by decide), packA_fn 0x22 1 f (by decide), readA_packA 0x22 1 f (by decide) (by decide)])
theorem vfmul f : Statement (.vfmul f) := of_word _ _ rfl (packA_reserved 0x22 2 f (by decide) (by decide) (by decide))
  (by simp [selectInstr, select22, packA_op 0x22 2 f (by decide) (by decide), packA_fn 0x22 2 f (by decide), readA_packA 0x22 2 f (by decide) (by decide)])
theorem vfma f : Statement (.vfma f) := of_word _ _ rfl (packA_reserved 0x22 3 f (by decide) (by decide) (by decide))
  (by simp [selectInstr, select22, packA_op 0x22 3 f (by decide) (by decide), packA_fn 0x22 3 f (by decide), readA_packA 0x22 3 f (by decide) (by decide)])
theorem vfmin f : Statement (.vfmin f) := of_word _ _ rfl (packA_reserved 0x22 4 f (by decide) (by decide) (by decide))
  (by simp [selectInstr, select22, packA_op 0x22 4 f (by decide) (by decide), packA_fn 0x22 4 f (by decide), readA_packA 0x22 4 f (by decide) (by decide)])
theorem vfmax f : Statement (.vfmax f) := of_word _ _ rfl (packA_reserved 0x22 5 f (by decide) (by decide) (by decide))
  (by simp [selectInstr, select22, packA_op 0x22 5 f (by decide) (by decide), packA_fn 0x22 5 f (by decide), readA_packA 0x22 5 f (by decide) (by decide)])
theorem vfcmp f : Statement (.vfcmp f) := of_word _ _ rfl (packA_reserved 0x22 6 f (by decide) (by decide) (by decide))
  (by simp [selectInstr, select22, packA_op 0x22 6 f (by decide) (by decide), packA_fn 0x22 6 f (by decide), readA_packA 0x22 6 f (by decide) (by decide)])
theorem vfdot2 f : Statement (.vfdot2 f) := of_word _ _ rfl (packA_reserved 0x22 7 f (by decide) (by decide) (by decide))
  (by simp [selectInstr, select22, packA_op 0x22 7 f (by decide) (by decide), packA_fn 0x22 7 f (by decide), readA_packA 0x22 7 f (by decide) (by decide)])
theorem vfdot4 f : Statement (.vfdot4 f) := of_word _ _ rfl (packA_reserved 0x22 8 f (by decide) (by decide) (by decide))
  (by simp [selectInstr, select22, packA_op 0x22 8 f (by decide) (by decide), packA_fn 0x22 8 f (by decide), readA_packA 0x22 8 f (by decide) (by decide)])
theorem vfclass f : Statement (.vfclass f) := of_word _ _ rfl (packA_reserved 0x22 9 f (by decide) (by decide) (by decide))
  (by simp [selectInstr, select22, packA_op 0x22 9 f (by decide) (by decide), packA_fn 0x22 9 f (by decide), readA_packA 0x22 9 f (by decide) (by decide)])
theorem vfrnd f : Statement (.vfrnd f) := of_word _ _ rfl (packA_reserved 0x22 10 f (by decide) (by decide) (by decide))
  (by simp [selectInstr, select22, packA_op 0x22 10 f (by decide) (by decide), packA_fn 0x22 10 f (by decide), readA_packA 0x22 10 f (by decide) (by decide)])
theorem vfrcp f : Statement (.vfrcp f) := of_word _ _ rfl (packA_reserved 0x23 0 f (by decide) (by decide) (by decide))
  (by simp [selectInstr, select23, packA_op 0x23 0 f (by decide) (by decide), packA_fn 0x23 0 f (by decide), readA_packA 0x23 0 f (by decide) (by decide)])
theorem vfrsq f : Statement (.vfrsq f) := of_word _ _ rfl (packA_reserved 0x23 1 f (by decide) (by decide) (by decide))
  (by simp [selectInstr, select23, packA_op 0x23 1 f (by decide) (by decide), packA_fn 0x23 1 f (by decide), readA_packA 0x23 1 f (by decide) (by decide)])
theorem vfsqrt f : Statement (.vfsqrt f) := of_word _ _ rfl (packA_reserved 0x23 2 f (by decide) (by decide) (by decide))
  (by simp [selectInstr, select23, packA_op 0x23 2 f (by decide) (by decide), packA_fn 0x23 2 f (by decide), readA_packA 0x23 2 f (by decide) (by decide)])
theorem vfexp2 f : Statement (.vfexp2 f) := of_word _ _ rfl (packA_reserved 0x23 3 f (by decide) (by decide) (by decide))
  (by simp [selectInstr, select23, packA_op 0x23 3 f (by decide) (by decide), packA_fn 0x23 3 f (by decide), readA_packA 0x23 3 f (by decide) (by decide)])
theorem vflog2 f : Statement (.vflog2 f) := of_word _ _ rfl (packA_reserved 0x23 4 f (by decide) (by decide) (by decide))
  (by simp [selectInstr, select23, packA_op 0x23 4 f (by decide) (by decide), packA_fn 0x23 4 f (by decide), readA_packA 0x23 4 f (by decide) (by decide)])
theorem vfsin f : Statement (.vfsin f) := of_word _ _ rfl (packA_reserved 0x23 5 f (by decide) (by decide) (by decide))
  (by simp [selectInstr, select23, packA_op 0x23 5 f (by decide) (by decide), packA_fn 0x23 5 f (by decide), readA_packA 0x23 5 f (by decide) (by decide)])
theorem vfcos f : Statement (.vfcos f) := of_word _ _ rfl (packA_reserved 0x23 6 f (by decide) (by decide) (by decide))
  (by simp [selectInstr, select23, packA_op 0x23 6 f (by decide) (by decide), packA_fn 0x23 6 f (by decide), readA_packA 0x23 6 f (by decide) (by decide)])
theorem vaddImm f : Statement (.vaddImm f) := of_word _ _ rfl (packB_reserved 0x30 f (by decide) (by decide))
  (by simp [selectInstr, packB_op 0x30 f (by decide), readB_packB 0x30 f (by decide)])
theorem vsubImm f : Statement (.vsubImm f) := of_word _ _ rfl (packB_reserved 0x31 f (by decide) (by decide))
  (by simp [selectInstr, packB_op 0x31 f (by decide), readB_packB 0x31 f (by decide)])
theorem vmulImm f : Statement (.vmulImm f) := of_word _ _ rfl (packB_reserved 0x32 f (by decide) (by decide))
  (by simp [selectInstr, packB_op 0x32 f (by decide), readB_packB 0x32 f (by decide)])
theorem vandImm f : Statement (.vandImm f) := of_word _ _ rfl (packB_reserved 0x33 f (by decide) (by decide))
  (by simp [selectInstr, packB_op 0x33 f (by decide), readB_packB 0x33 f (by decide)])
theorem vorImm f : Statement (.vorImm f) := of_word _ _ rfl (packB_reserved 0x34 f (by decide) (by decide))
  (by simp [selectInstr, packB_op 0x34 f (by decide), readB_packB 0x34 f (by decide)])
theorem vxorImm f : Statement (.vxorImm f) := of_word _ _ rfl (packB_reserved 0x35 f (by decide) (by decide))
  (by simp [selectInstr, packB_op 0x35 f (by decide), readB_packB 0x35 f (by decide)])
theorem vshlImm f : Statement (.vshlImm f) := of_word _ _ rfl (packB_reserved 0x36 f (by decide) (by decide))
  (by simp [selectInstr, packB_op 0x36 f (by decide), readB_packB 0x36 f (by decide)])
theorem vshrImm f : Statement (.vshrImm f) := of_word _ _ rfl (packB_reserved 0x37 f (by decide) (by decide))
  (by simp [selectInstr, packB_op 0x37 f (by decide), readB_packB 0x37 f (by decide)])
theorem vsraImm f : Statement (.vsraImm f) := of_word _ _ rfl (packB_reserved 0x38 f (by decide) (by decide))
  (by simp [selectInstr, packB_op 0x38 f (by decide), readB_packB 0x38 f (by decide)])
theorem vminImm f : Statement (.vminImm f) := of_word _ _ rfl (packB_reserved 0x39 f (by decide) (by decide))
  (by simp [selectInstr, packB_op 0x39 f (by decide), readB_packB 0x39 f (by decide)])
theorem vmaxImm f : Statement (.vmaxImm f) := of_word _ _ rfl (packB_reserved 0x3A f (by decide) (by decide))
  (by simp [selectInstr, packB_op 0x3A f (by decide), readB_packB 0x3A f (by decide)])
theorem vmovImm f : Statement (.vmovImm f) := of_word _ _ rfl (packB_reserved 0x3B f (by decide) (by decide))
  (by simp [selectInstr, packB_op 0x3B f (by decide), readB_packB 0x3B f (by decide)])
theorem vfaddImm f : Statement (.vfaddImm f) := of_word _ _ rfl (packB_reserved 0x3C f (by decide) (by decide))
  (by simp [selectInstr, packB_op 0x3C f (by decide), readB_packB 0x3C f (by decide)])
theorem vfmulImm f : Statement (.vfmulImm f) := of_word _ _ rfl (packB_reserved 0x3D f (by decide) (by decide))
  (by simp [selectInstr, packB_op 0x3D f (by decide), readB_packB 0x3D f (by decide)])
theorem vfminImm f : Statement (.vfminImm f) := of_word _ _ rfl (packB_reserved 0x3E f (by decide) (by decide))
  (by simp [selectInstr, packB_op 0x3E f (by decide), readB_packB 0x3E f (by decide)])
theorem vfmaxImm f : Statement (.vfmaxImm f) := of_word _ _ rfl (packB_reserved 0x3F f (by decide) (by decide))
  (by simp [selectInstr, packB_op 0x3F f (by decide), readB_packB 0x3F f (by decide)])
theorem vcvt f : Statement (.vcvt f) := of_word _ _ rfl (packA_reserved 0x40 0 f (by decide) (by decide) (by decide))
  (by simp [selectInstr, packA_op 0x40 0 f (by decide) (by decide), packA_fn 0x40 0 f (by decide), readA_packA 0x40 0 f (by decide) (by decide)])
theorem vpackX2 f : Statement (.vpackX2 f) := of_word _ _ rfl (packA_reserved 0x41 0 f (by decide) (by decide) (by decide))
  (by simp [selectInstr, select41, packA_op 0x41 0 f (by decide) (by decide), packA_fn 0x41 0 f (by decide), readA_packA 0x41 0 f (by decide) (by decide)])
theorem vpackX4 f : Statement (.vpackX4 f) := of_word _ _ rfl (packA_reserved 0x41 1 f (by decide) (by decide) (by decide))
  (by simp [selectInstr, select41, packA_op 0x41 1 f (by decide) (by decide), packA_fn 0x41 1 f (by decide), readA_packA 0x41 1 f (by decide) (by decide)])
theorem vunpk op f : Statement (.vunpk op f) := of_word _ _ rfl (packA_reserved 0x42 op.toNat f (by decide) op.isLt (by decide))
  (by simp [selectInstr, packA_op 0x42 op.toNat f (by decide) op.isLt, packA_readFn, readA_packA 0x42 op.toNat f (by decide) op.isLt])
theorem vtag f : Statement (.vtag f) := of_word _ _ rfl (packA_reserved 0x43 0 f (by decide) (by decide) (by decide))
  (by simp [selectInstr, packA_op 0x43 0 f (by decide) (by decide), packA_fn 0x43 0 f (by decide), readA_packA 0x43 0 f (by decide) (by decide)])
theorem vqduo f : Statement (.vqduo f) := of_word _ _ rfl (packA_reserved 0x44 0 f (by decide) (by decide) (by decide))
  (by simp [selectInstr, packA_op 0x44 0 f (by decide) (by decide), packA_fn 0x44 0 f (by decide), readA_packA 0x44 0 f (by decide) (by decide)])
theorem vscale f : Statement (.vscale f) := of_word _ _ rfl (packA_reserved 0x45 0 f (by decide) (by decide) (by decide))
  (by simp [selectInstr, packA_op 0x45 0 f (by decide) (by decide), packA_fn 0x45 0 f (by decide), readA_packA 0x45 0 f (by decide) (by decide)])
theorem vshfl f : Statement (.vshfl f) := of_word _ _ rfl (packA_reserved 0x48 0 f (by decide) (by decide) (by decide))
  (by simp [selectInstr, select48, packA_op 0x48 0 f (by decide) (by decide), packA_fn 0x48 0 f (by decide), readA_packA 0x48 0 f (by decide) (by decide)])
theorem vshflUp f : Statement (.vshflUp f) := of_word _ _ rfl (packA_reserved 0x48 1 f (by decide) (by decide) (by decide))
  (by simp [selectInstr, select48, packA_op 0x48 1 f (by decide) (by decide), packA_fn 0x48 1 f (by decide), readA_packA 0x48 1 f (by decide) (by decide)])
theorem vshflDown f : Statement (.vshflDown f) := of_word _ _ rfl (packA_reserved 0x48 2 f (by decide) (by decide) (by decide))
  (by simp [selectInstr, select48, packA_op 0x48 2 f (by decide) (by decide), packA_fn 0x48 2 f (by decide), readA_packA 0x48 2 f (by decide) (by decide)])
theorem vshflXor f : Statement (.vshflXor f) := of_word _ _ rfl (packA_reserved 0x48 3 f (by decide) (by decide) (by decide))
  (by simp [selectInstr, select48, packA_op 0x48 3 f (by decide) (by decide), packA_fn 0x48 3 f (by decide), readA_packA 0x48 3 f (by decide) (by decide)])
theorem vshflx f : Statement (.vshflx f) := of_word _ _ rfl (packA_reserved 0x49 0 f (by decide) (by decide) (by decide))
  (by simp [selectInstr, packA_op 0x49 0 f (by decide) (by decide), packA_fn 0x49 0 f (by decide), readA_packA 0x49 0 f (by decide) (by decide)])
theorem vbcast f : Statement (.vbcast f) := of_word _ _ rfl (packA_reserved 0x4A 0 f (by decide) (by decide) (by decide))
  (by simp [selectInstr, packA_op 0x4A 0 f (by decide) (by decide), packA_fn 0x4A 0 f (by decide), readA_packA 0x4A 0 f (by decide) (by decide)])
theorem vred op f : Statement (.vred op f) := of_word _ _ rfl (packA_reserved 0x4B op.toNat f (by decide) op.isLt (by decide))
  (by simp [selectInstr, packA_op 0x4B op.toNat f (by decide) op.isLt, packA_readFn, readA_packA 0x4B op.toNat f (by decide) op.isLt])
theorem vscan op f : Statement (.vscan op f) := of_word _ _ rfl (packA_reserved 0x4C op.toNat f (by decide) op.isLt (by decide))
  (by simp [selectInstr, packA_op 0x4C op.toNat f (by decide) op.isLt, packA_readFn, readA_packA 0x4C op.toNat f (by decide) op.isLt])
theorem vfunl f : Statement (.vfunl f) := of_word _ _ rfl (packA_reserved 0x4D 0 f (by decide) (by decide) (by decide))
  (by simp [selectInstr, select4D, packA_op 0x4D 0 f (by decide) (by decide), packA_fn 0x4D 0 f (by decide), readA_packA 0x4D 0 f (by decide) (by decide)])
theorem vlutn f : Statement (.vlutn f) := of_word _ _ rfl (packA_reserved 0x4D 1 f (by decide) (by decide) (by decide))
  (by simp [selectInstr, select4D, packA_op 0x4D 1 f (by decide) (by decide), packA_fn 0x4D 1 f (by decide), readA_packA 0x4D 1 f (by decide) (by decide)])
theorem vbperm f : Statement (.vbperm f) := of_word _ _ rfl (packA_reserved 0x4D 2 f (by decide) (by decide) (by decide))
  (by simp [selectInstr, select4D, packA_op 0x4D 2 f (by decide) (by decide), packA_fn 0x4D 2 f (by decide), readA_packA 0x4D 2 f (by decide) (by decide)])
theorem vballot f : Statement (.vballot f) := of_word _ _ rfl (packA_reserved 0x4E 0 f (by decide) (by decide) (by decide))
  (by simp [selectInstr, select4E, packA_op 0x4E 0 f (by decide) (by decide), packA_fn 0x4E 0 f (by decide), readA_packA 0x4E 0 f (by decide) (by decide)])
theorem vmatch f : Statement (.vmatch f) := of_word _ _ rfl (packA_reserved 0x4E 1 f (by decide) (by decide) (by decide))
  (by simp [selectInstr, select4E, packA_op 0x4E 1 f (by decide) (by decide), packA_fn 0x4E 1 f (by decide), readA_packA 0x4E 1 f (by decide) (by decide)])
theorem vcompr f : Statement (.vcompr f) := of_word _ _ rfl (packA_reserved 0x4E 2 f (by decide) (by decide) (by decide))
  (by simp [selectInstr, select4E, packA_op 0x4E 2 f (by decide) (by decide), packA_fn 0x4E 2 f (by decide), readA_packA 0x4E 2 f (by decide) (by decide)])
theorem ld op f : Statement (.ld op f) := of_word _ _ rfl (packM_reserved 0x50 op.toNat f (by decide) op.isLt (by decide))
  (by simp [selectInstr, packM_op 0x50 op.toNat f (by decide) op.isLt, packM_readFn, readM_packM 0x50 op.toNat f (by decide) op.isLt])
theorem st op f : Statement (.st op f) := of_word _ _ rfl (packM_reserved 0x51 op.toNat f (by decide) op.isLt (by decide))
  (by simp [selectInstr, packM_op 0x51 op.toNat f (by decide) op.isLt, packM_readFn, readM_packM 0x51 op.toNat f (by decide) op.isLt])
theorem lds f : Statement (.lds f) := of_word _ _ rfl (packM_reserved 0x52 0 f (by decide) (by decide) (by decide))
  (by simp [selectInstr, select52, packM_op 0x52 0 f (by decide) (by decide), packM_fn 0x52 0 f (by decide), readM_packM 0x52 0 f (by decide) (by decide)])
theorem ldsSx f : Statement (.ldsSx f) := of_word _ _ rfl (packM_reserved 0x52 1 f (by decide) (by decide) (by decide))
  (by simp [selectInstr, select52, packM_op 0x52 1 f (by decide) (by decide), packM_fn 0x52 1 f (by decide), readM_packM 0x52 1 f (by decide) (by decide)])
theorem sts f : Statement (.sts f) := of_word _ _ rfl (packM_reserved 0x53 0 f (by decide) (by decide) (by decide))
  (by simp [selectInstr, packM_op 0x53 0 f (by decide) (by decide), packM_fn 0x53 0 f (by decide), readM_packM 0x53 0 f (by decide) (by decide)])
theorem ldl op f : Statement (.ldl op f) := of_word _ _ rfl (packM_reserved 0x54 op.toNat f (by decide) op.isLt (by decide))
  (by simp [selectInstr, packM_op 0x54 op.toNat f (by decide) op.isLt, packM_readFn, readM_packM 0x54 op.toNat f (by decide) op.isLt])
theorem stl op f : Statement (.stl op f) := of_word _ _ rfl (packM_reserved 0x55 op.toNat f (by decide) op.isLt (by decide))
  (by simp [selectInstr, packM_op 0x55 op.toNat f (by decide) op.isLt, packM_readFn, readM_packM 0x55 op.toNat f (by decide) op.isLt])
theorem prf f : Statement (.prf f) := of_word _ _ rfl (packM_reserved 0x56 0 f (by decide) (by decide) (by decide))
  (by simp [selectInstr, select56, packM_op 0x56 0 f (by decide) (by decide), packM_fn 0x56 0 f (by decide), readM_packM 0x56 0 f (by decide) (by decide)])
theorem prfL2 f : Statement (.prfL2 f) := of_word _ _ rfl (packM_reserved 0x56 1 f (by decide) (by decide) (by decide))
  (by simp [selectInstr, select56, packM_op 0x56 1 f (by decide) (by decide), packM_fn 0x56 1 f (by decide), readM_packM 0x56 1 f (by decide) (by decide)])
theorem cwb f : Statement (.cwb f) := of_word _ _ rfl (packM_reserved 0x57 0 f (by decide) (by decide) (by decide))
  (by simp [selectInstr, packM_op 0x57 0 f (by decide) (by decide), packM_fn 0x57 0 f (by decide), readM_packM 0x57 0 f (by decide) (by decide)])
theorem cinv f : Statement (.cinv f) := of_word _ _ rfl (packM_reserved 0x58 0 f (by decide) (by decide) (by decide))
  (by simp [selectInstr, packM_op 0x58 0 f (by decide) (by decide), packM_fn 0x58 0 f (by decide), readM_packM 0x58 0 f (by decide) (by decide)])
theorem atom op f : Statement (.atom op f) := of_word _ _ rfl (packM_reserved 0x60 op.toNat f (by decide) op.isLt (by decide))
  (by simp [selectInstr, packM_op 0x60 op.toNat f (by decide) op.isLt, packM_readFn, readM_packM 0x60 op.toNat f (by decide) op.isLt])
theorem atomc f : Statement (.atomc f) := of_word _ _ rfl (packM_reserved 0x61 0 f (by decide) (by decide) (by decide))
  (by simp [selectInstr, packM_op 0x61 0 f (by decide) (by decide), packM_fn 0x61 0 f (by decide), readM_packM 0x61 0 f (by decide) (by decide)])
theorem red op f : Statement (.red op f) := of_word _ _ rfl (packM_reserved 0x62 op.toNat f (by decide) op.isLt (by decide))
  (by simp [selectInstr, packM_op 0x62 op.toNat f (by decide) op.isLt, packM_readFn, readM_packM 0x62 op.toNat f (by decide) op.isLt])
theorem lock f : Statement (.lock f) := of_word _ _ rfl (packM_reserved 0x63 0 f (by decide) (by decide) (by decide))
  (by simp [selectInstr, select63, packM_op 0x63 0 f (by decide) (by decide), packM_fn 0x63 0 f (by decide), readM_packM 0x63 0 f (by decide) (by decide)])
theorem lockTry f : Statement (.lockTry f) := of_word _ _ rfl (packM_reserved 0x63 1 f (by decide) (by decide) (by decide))
  (by simp [selectInstr, select63, packM_op 0x63 1 f (by decide) (by decide), packM_fn 0x63 1 f (by decide), readM_packM 0x63 1 f (by decide) (by decide)])
theorem unlock f : Statement (.unlock f) := of_word _ _ rfl (packM_reserved 0x64 0 f (by decide) (by decide) (by decide))
  (by simp [selectInstr, packM_op 0x64 0 f (by decide) (by decide), packM_fn 0x64 0 f (by decide), readM_packM 0x64 0 f (by decide) (by decide)])
theorem lkqry f : Statement (.lkqry f) := of_word _ _ rfl (packM_reserved 0x65 0 f (by decide) (by decide) (by decide))
  (by simp [selectInstr, packM_op 0x65 0 f (by decide) (by decide), packM_fn 0x65 0 f (by decide), readM_packM 0x65 0 f (by decide) (by decide)])
theorem fence f : Statement (.fence f) := of_word _ _ rfl (packX_reserved 0x68 0 f (by decide) (by decide) (by decide))
  (by simp [selectInstr, packX_op 0x68 0 f (by decide) (by decide), packX_fn 0x68 0 f (by decide), readX_packX 0x68 0 f (by decide) (by decide)])
theorem bararv f : Statement (.bararv f) := of_word _ _ rfl (packX_reserved 0x69 0 f (by decide) (by decide) (by decide))
  (by simp [selectInstr, packX_op 0x69 0 f (by decide) (by decide), packX_fn 0x69 0 f (by decide), readX_packX 0x69 0 f (by decide) (by decide)])
theorem barwait f : Statement (.barwait f) := of_word _ _ rfl (packX_reserved 0x6A 0 f (by decide) (by decide) (by decide))
  (by simp [selectInstr, packX_op 0x6A 0 f (by decide) (by decide), packX_fn 0x6A 0 f (by decide), readX_packX 0x6A 0 f (by decide) (by decide)])
theorem barsync f : Statement (.barsync f) := of_word _ _ rfl (packX_reserved 0x6B 0 f (by decide) (by decide) (by decide))
  (by simp [selectInstr, packX_op 0x6B 0 f (by decide) (by decide), packX_fn 0x6B 0 f (by decide), readX_packX 0x6B 0 f (by decide) (by decide)])
theorem csig f : Statement (.csig f) := of_word _ _ rfl (packX_reserved 0x6C 0 f (by decide) (by decide) (by decide))
  (by simp [selectInstr, packX_op 0x6C 0 f (by decide) (by decide), packX_fn 0x6C 0 f (by decide), readX_packX 0x6C 0 f (by decide) (by decide)])
theorem cwait f : Statement (.cwait f) := of_word _ _ rfl (packX_reserved 0x6D 0 f (by decide) (by decide) (by decide))
  (by simp [selectInstr, packX_op 0x6D 0 f (by decide) (by decide), packX_fn 0x6D 0 f (by decide), readX_packX 0x6D 0 f (by decide) (by decide)])
theorem crd f : Statement (.crd f) := of_word _ _ rfl (packX_reserved 0x6E 0 f (by decide) (by decide) (by decide))
  (by simp [selectInstr, packX_op 0x6E 0 f (by decide) (by decide), packX_fn 0x6E 0 f (by decide), readX_packX 0x6E 0 f (by decide) (by decide)])
theorem wsync f : Statement (.wsync f) := of_word _ _ rfl (packX_reserved 0x6F 0 f (by decide) (by decide) (by decide))
  (by simp [selectInstr, packX_op 0x6F 0 f (by decide) (by decide), packX_fn 0x6F 0 f (by decide), readX_packX 0x6F 0 f (by decide) (by decide)])
theorem cpy f : Statement (.cpy f) := of_engine _ f _ rfl (fun h => ext_ok h rfl rfl) (packE_reserved 0x70 0 f (by decide) (by decide) (by decide))
  (fun e hx => by simp [selectInstr, select70, packE_op 0x70 0 f (by decide) (by decide), packE_fn 0x70 0 f (by decide), readE_packE 0x70 0 f _ (by decide) (by decide) hx])
theorem cpyOut f : Statement (.cpyOut f) := of_engine _ f _ rfl (fun h => ext_ok h rfl rfl) (packE_reserved 0x70 1 f (by decide) (by decide) (by decide))
  (fun e hx => by simp [selectInstr, select70, packE_op 0x70 1 f (by decide) (by decide), packE_fn 0x70 1 f (by decide), readE_packE 0x70 1 f _ (by decide) (by decide) hx])
theorem cpyLocal f : Statement (.cpyLocal f) := of_engine _ f _ rfl (fun h => ext_ok h rfl rfl) (packE_reserved 0x70 2 f (by decide) (by decide) (by decide))
  (fun e hx => by simp [selectInstr, select70, packE_op 0x70 2 f (by decide) (by decide), packE_fn 0x70 2 f (by decide), readE_packE 0x70 2 f _ (by decide) (by decide) hx])
theorem cpyg f : Statement (.cpyg f) := of_engine _ f _ rfl (fun h => ext_ok h rfl rfl) (packE_reserved 0x71 0 f (by decide) (by decide) (by decide))
  (fun e hx => by simp [selectInstr, select71, packE_op 0x71 0 f (by decide) (by decide), packE_fn 0x71 0 f (by decide), readE_packE 0x71 0 f _ (by decide) (by decide) hx])
theorem cpygScatter f : Statement (.cpygScatter f) := of_engine _ f _ rfl (fun h => ext_ok h rfl rfl) (packE_reserved 0x71 1 f (by decide) (by decide) (by decide))
  (fun e hx => by simp [selectInstr, select71, packE_op 0x71 1 f (by decide) (by decide), packE_fn 0x71 1 f (by decide), readE_packE 0x71 1 f _ (by decide) (by decide) hx])
theorem tdesc f : Statement (.tdesc f) := of_engine _ f _ rfl (fun h => ext_ok h rfl rfl) (packE_reserved 0x72 0 f (by decide) (by decide) (by decide))
  (fun e hx => by simp [selectInstr, packE_op 0x72 0 f (by decide) (by decide), packE_fn 0x72 0 f (by decide), readE_packE 0x72 0 f _ (by decide) (by decide) hx])
theorem task f : Statement (.task f) := of_engine _ f _ rfl (fun h => ext_ok h rfl rfl) (packE_reserved 0x73 0 f (by decide) (by decide) (by decide))
  (fun e hx => by simp [selectInstr, select73, packE_op 0x73 0 f (by decide) (by decide), packE_fn 0x73 0 f (by decide), readE_packE 0x73 0 f _ (by decide) (by decide) hx])
theorem taskOvr f : Statement (.taskOvr f) := of_engine _ f _ rfl (fun h => ext_ok h rfl rfl) (packE_reserved 0x73 1 f (by decide) (by decide) (by decide))
  (fun e hx => by simp [selectInstr, select73, packE_op 0x73 1 f (by decide) (by decide), packE_fn 0x73 1 f (by decide), readE_packE 0x73 1 f _ (by decide) (by decide) hx])
theorem taskCvt f : Statement (.taskCvt f) := of_engine _ f _ rfl (fun h => ext_ok h rfl rfl) (packE_reserved 0x73 2 f (by decide) (by decide) (by decide))
  (fun e hx => by simp [selectInstr, select73, packE_op 0x73 2 f (by decide) (by decide), packE_fn 0x73 2 f (by decide), readE_packE 0x73 2 f _ (by decide) (by decide) hx])
theorem kmv f : Statement (.kmv f) := of_engine _ f _ rfl (fun h => ext_ok h rfl rfl) (packE_reserved 0x74 0 f (by decide) (by decide) (by decide))
  (fun e hx => by simp [selectInstr, packE_op 0x74 0 f (by decide) (by decide), packE_fn 0x74 0 f (by decide), readE_packE 0x74 0 f _ (by decide) (by decide) hx])
theorem mcst f : Statement (.mcst f) := of_engine _ f _ rfl (fun h => ext_ok h rfl rfl) (packE_reserved 0x75 0 f (by decide) (by decide) (by decide))
  (fun e hx => by simp [selectInstr, packE_op 0x75 0 f (by decide) (by decide), packE_fn 0x75 0 f (by decide), readE_packE 0x75 0 f _ (by decide) (by decide) hx])
theorem msgx f : Statement (.msgx f) := of_engine _ f _ rfl (fun h => ext_ok h rfl rfl) (packE_reserved 0x76 0 f (by decide) (by decide) (by decide))
  (fun e hx => by simp [selectInstr, packE_op 0x76 0 f (by decide) (by decide), packE_fn 0x76 0 f (by decide), readE_packE 0x76 0 f _ (by decide) (by decide) hx])
theorem trap f : Statement (.trap f) := of_word _ _ rfl (packX_reserved 0x78 0 f (by decide) (by decide) (by decide))
  (by simp [selectInstr, packX_op 0x78 0 f (by decide) (by decide), packX_fn 0x78 0 f (by decide), readX_packX 0x78 0 f (by decide) (by decide)])
theorem bkpt f : Statement (.bkpt f) := of_word _ _ rfl (packX_reserved 0x79 0 f (by decide) (by decide) (by decide))
  (by simp [selectInstr, packX_op 0x79 0 f (by decide) (by decide), packX_fn 0x79 0 f (by decide), readX_packX 0x79 0 f (by decide) (by decide)])
theorem ckpt f : Statement (.ckpt f) := of_word _ _ rfl (packX_reserved 0x7A 0 f (by decide) (by decide) (by decide))
  (by simp [selectInstr, packX_op 0x7A 0 f (by decide) (by decide), packX_fn 0x7A 0 f (by decide), readX_packX 0x7A 0 f (by decide) (by decide)])
theorem clkrd f : Statement (.clkrd f) := of_word _ _ rfl (packX_reserved 0x7B 0 f (by decide) (by decide) (by decide))
  (by simp [selectInstr, packX_op 0x7B 0 f (by decide) (by decide), packX_fn 0x7B 0 f (by decide), readX_packX 0x7B 0 f (by decide) (by decide)])
theorem evnt f : Statement (.evnt f) := of_word _ _ rfl (packX_reserved 0x7C 0 f (by decide) (by decide) (by decide))
  (by simp [selectInstr, packX_op 0x7C 0 f (by decide) (by decide), packX_fn 0x7C 0 f (by decide), readX_packX 0x7C 0 f (by decide) (by decide)])
theorem haltw f : Statement (.haltw f) := of_word _ _ rfl (packX_reserved 0x7D 0 f (by decide) (by decide) (by decide))
  (by simp [selectInstr, packX_op 0x7D 0 f (by decide) (by decide), packX_fn 0x7D 0 f (by decide), readX_packX 0x7D 0 f (by decide) (by decide)])
theorem rfetch f : Statement (.rfetch f) := of_none _ rfl
theorem kbfx f : Statement (.kbfx f) := of_none _ rfl
theorem sigwait f : Statement (.sigwait f) := of_none _ rfl
theorem dispatch f : Statement (.dispatch f) := of_none _ rfl
theorem sigwaitWake pkg die fw : Statement (.sigwaitWake pkg die fw) := of_none _ rfl
theorem sigwaitTimeout pkg die fw : Statement (.sigwaitTimeout pkg die fw) := of_none _ rfl
theorem dispatchComplete pkg die fw : Statement (.dispatchComplete pkg die fw) := of_none _ rfl
theorem purge pkg die core : Statement (.purge pkg die core) := of_none _ rfl
theorem mask pkg die core : Statement (.mask pkg die core) := of_none _ rfl
theorem genset pkg die core : Statement (.genset pkg die core) := of_none _ rfl
theorem rebind pkg die core : Statement (.rebind pkg die core) := of_none _ rfl
theorem spanParkEnd w slot : Statement (.spanParkEnd w slot) := of_none _ rfl
theorem exceptionRecordHeld q : Statement (.exceptionRecordHeld q) := of_none _ rfl
theorem loadReply r : Statement (.loadReply r) := of_none _ rfl
theorem regangMerge w : Statement (.regangMerge w) := of_none _ rfl
theorem swapEpochAdvance w : Statement (.swapEpochAdvance w) := of_none _ rfl
theorem splitSwap w : Statement (.splitSwap w) := of_none _ rfl
theorem splitSwapDone w : Statement (.splitSwapDone w) := of_none _ rfl
theorem splitFill w : Statement (.splitFill w) := of_none _ rfl
theorem splitFillDone w : Statement (.splitFillDone w) := of_none _ rfl
theorem feGranuleAccess a : Statement (.feGranuleAccess a) := of_none _ rfl
theorem homeServeLoad r : Statement (.homeServeLoad r) := of_none _ rfl
theorem storeApply r : Statement (.storeApply r) := of_none _ rfl
theorem atomicApply r : Statement (.atomicApply r) := of_none _ rfl
theorem stageAck r : Statement (.stageAck r) := of_none _ rfl
theorem invalidation v : Statement (.invalidation v) := of_none _ rfl
theorem probeAbsent v : Statement (.probeAbsent v) := of_none _ rfl
theorem stale r : Statement (.stale r) := of_none _ rfl
theorem mishome r : Statement (.mishome r) := of_none _ rfl
theorem plcMiss r : Statement (.plcMiss r) := of_none _ rfl
theorem tlbMissWalk r : Statement (.tlbMissWalk r) := of_none _ rfl
theorem evictionWriteback c : Statement (.evictionWriteback c) := of_none _ rfl
theorem xlate r : Statement (.xlate r) := of_none _ rfl
theorem lost pkg die line : Statement (.lost pkg die line) := of_none _ rfl
theorem cohlost pkg die line : Statement (.cohlost pkg die line) := of_none _ rfl
theorem cohfix pkg die line : Statement (.cohfix pkg die line) := of_none _ rfl
theorem fenceComplete w slot : Statement (.fenceComplete w slot) := of_none _ rfl
theorem unlockDepart r : Statement (.unlockDepart r) := of_none _ rfl
theorem csigApply p : Statement (.csigApply p) := of_none _ rfl
theorem evntAppend p : Statement (.evntAppend p) := of_none _ rfl
theorem lockRequest r : Statement (.lockRequest r) := of_none _ rfl
theorem lockTryRequest r : Statement (.lockTryRequest r) := of_none _ rfl
theorem unlockRequest r : Statement (.unlockRequest r) := of_none _ rfl
theorem lockGrant g : Statement (.lockGrant g) := of_none _ rfl
theorem lockTimeoutExpiry w k : Statement (.lockTimeoutExpiry w k) := of_none _ rfl
theorem withdraw d : Statement (.withdraw d) := of_none _ rfl
theorem waitForRecord n : Statement (.waitForRecord n) := of_none _ rfl
theorem holderSaved w k : Statement (.holderSaved w k) := of_none _ rfl
theorem holderRestored w k : Statement (.holderRestored w k) := of_none _ rfl
theorem holderFatalEnd pkg die line : Statement (.holderFatalEnd pkg die line) := of_none _ rfl
theorem waiterSaved w k : Statement (.waiterSaved w k) := of_none _ rfl
theorem waiterRestored w k : Statement (.waiterRestored w k) := of_none _ rfl
theorem engineFork e : Statement (.engineFork e) := of_none _ rfl
theorem engineJoin e : Statement (.engineJoin e) := of_none _ rfl
theorem hodLineBegin e : Statement (.hodLineBegin e) := of_none _ rfl
theorem hodLineComplete e : Statement (.hodLineComplete e) := of_none _ rfl
theorem taskStart e : Statement (.taskStart e) := of_none _ rfl
theorem taskKblockCommit e : Statement (.taskKblockCommit e) := of_none _ rfl
theorem taskEnd e : Statement (.taskEnd e) := of_none _ rfl
theorem kilnRequestArrival e : Statement (.kilnRequestArrival e) := of_none _ rfl
theorem kilnComplete e : Statement (.kilnComplete e) := of_none _ rfl
theorem mcstReplicate e : Statement (.mcstReplicate e) := of_none _ rfl
theorem mcstMemberWrite e pkg : Statement (.mcstMemberWrite e pkg) := of_none _ rfl
theorem mcstAck e : Statement (.mcstAck e) := of_none _ rfl
theorem msgxDelivery e : Statement (.msgxDelivery e) := of_none _ rfl
theorem ethernetFrame port etype bytes : Statement (.ethernetFrame port etype bytes) := of_none _ rfl
theorem firing pkg tag : Statement (.firing pkg tag) := of_none _ rfl
theorem firingRefused pkg tag : Statement (.firingRefused pkg tag) := of_none _ rfl
theorem clusterHanddown l node : Statement (.clusterHanddown l node) := of_none _ rfl
theorem clusterSteal l node : Statement (.clusterSteal l node) := of_none _ rfl
theorem clusterPlace pkg die : Statement (.clusterPlace pkg die) := of_none _ rfl
theorem coresidentPlace l : Statement (.coresidentPlace l) := of_none _ rfl
theorem blockStart l k : Statement (.blockStart l k) := of_none _ rfl
theorem blockRetire b : Statement (.blockRetire b) := of_none _ rfl
theorem nodeDrain l node : Statement (.nodeDrain l node) := of_none _ rfl
theorem mortarRootClose l k n pkg : Statement (.mortarRootClose l k n pkg) := of_none _ rfl
theorem mortarPackageCompletion l n pkg : Statement (.mortarPackageCompletion l n pkg) := of_none _ rfl
theorem mortarDieRelease l k n pkg die : Statement (.mortarDieRelease l k n pkg die) := of_none _ rfl
theorem haltRequestArrival l pkg die core : Statement (.haltRequestArrival l pkg die core) := of_none _ rfl
theorem checkpointBudgetExpiry w : Statement (.checkpointBudgetExpiry w) := of_none _ rfl
theorem warpCapture w : Statement (.warpCapture w) := of_none _ rfl
theorem haltComplete p : Statement (.haltComplete p) := of_none _ rfl
theorem saveComplete p : Statement (.saveComplete p) := of_none _ rfl
theorem clusterRestore l k : Statement (.clusterRestore l k) := of_none _ rfl
theorem qtail q v : Statement (.qtail q v) := of_none _ rfl
theorem exansResume q seq : Statement (.exansResume q seq) := of_none _ rfl
theorem exansSkip q seq : Statement (.exansSkip q seq) := of_none _ rfl
theorem exansAbort q seq : Statement (.exansAbort q seq) := of_none _ rfl
theorem registerWrite addr v : Statement (.registerWrite addr v) := of_none _ rfl
theorem packetNop q : Statement (.packetNop q) := of_none _ rfl
theorem launch q : Statement (.launch q) := of_none _ rfl
theorem arm q : Statement (.arm q) := of_none _ rfl
theorem disarm q : Statement (.disarm q) := of_none _ rfl
theorem disarmComplete q : Statement (.disarmComplete q) := of_none _ rfl
theorem waitmem q : Statement (.waitmem q) := of_none _ rfl
theorem waitmemSatisfied q : Statement (.waitmemSatisfied q) := of_none _ rfl
theorem signalmem q : Statement (.signalmem q) := of_none _ rfl
theorem preempt q : Statement (.preempt q) := of_none _ rfl
theorem resume q : Statement (.resume q) := of_none _ rfl
theorem abort q : Statement (.abort q) := of_none _ rfl
theorem qctlCreate q : Statement (.qctlCreate q) := of_none _ rfl
theorem qctlStop q : Statement (.qctlStop q) := of_none _ rfl
theorem qctlRestart q : Statement (.qctlRestart q) := of_none _ rfl
theorem qctlDestroy q : Statement (.qctlDestroy q) := of_none _ rfl
theorem steer q : Statement (.steer q) := of_none _ rfl
theorem tfansReplay ticket pkg : Statement (.tfansReplay ticket pkg) := of_none _ rfl
theorem tfansInvalid ticket pkg : Statement (.tfansInvalid ticket pkg) := of_none _ rfl
theorem gencmd addr : Statement (.gencmd addr) := of_none _ rfl
theorem bumpdone asid : Statement (.bumpdone asid) := of_none _ rfl
theorem framefree v : Statement (.framefree v) := of_none _ rfl
theorem clear pkg die v : Statement (.clear pkg die v) := of_none _ rfl
theorem pstate pkg v : Statement (.pstate pkg v) := of_none _ rfl
theorem powerCapDown pkg : Statement (.powerCapDown pkg) := of_none _ rfl
theorem powerCapRestore pkg : Statement (.powerCapRestore pkg) := of_none _ rfl
theorem planeen pkg v : Statement (.planeen pkg v) := of_none _ rfl
theorem attestRequest pkg v : Statement (.attestRequest pkg v) := of_none _ rfl
theorem attestComplete pkg : Statement (.attestComplete pkg) := of_none _ rfl
theorem mcastGroupWrite g members asid valid : Statement (.mcastGroupWrite g members asid valid) := of_none _ rfl
theorem flitCrcFail link : Statement (.flitCrcFail link) := of_none _ rfl
theorem flitRetryTimer link : Statement (.flitRetryTimer link) := of_none _ rfl
theorem linkDead link : Statement (.linkDead link) := of_none _ rfl
theorem planeMaskAdopt pkg : Statement (.planeMaskAdopt pkg) := of_none _ rfl
theorem portRetrain pkg plane good : Statement (.portRetrain pkg plane good) := of_none _ rfl
theorem dieHeartbeat pkg die : Statement (.dieHeartbeat pkg die) := of_none _ rfl
theorem dieLost pkg die : Statement (.dieLost pkg die) := of_none _ rfl
theorem packageHeartbeat pkg : Statement (.packageHeartbeat pkg) := of_none _ rfl
theorem packageDead pkg : Statement (.packageDead pkg) := of_none _ rfl
theorem coreFail pkg die core : Statement (.coreFail pkg die core) := of_none _ rfl
theorem eccCorrectable pkg die : Statement (.eccCorrectable pkg die) := of_none _ rfl
theorem eccUncorrectable e : Statement (.eccUncorrectable e) := of_none _ rfl
theorem bootStart pkg die fails : Statement (.bootStart pkg die fails) := of_none _ rfl
theorem dieUpdate pkg die pmin pmax good : Statement (.dieUpdate pkg die pmin pmax good) := of_none _ rfl
theorem hostHeartbeat : Statement (.hostHeartbeat) := of_none _ rfl
theorem streamRecord : Statement (.streamRecord) := of_none _ rfl
theorem takeover : Statement (.takeover) := of_none _ rfl
theorem instructionFetch w slot : Statement (.instructionFetch w slot) := of_none _ rfl
theorem registerResultReturn w k : Statement (.registerResultReturn w k) := of_none _ rfl
theorem mailboxMessage pkg die fw : Statement (.mailboxMessage pkg die fw) := of_none _ rfl
theorem waitForRecordAgeOut pkg die : Statement (.waitForRecordAgeOut pkg die) := of_none _ rfl
theorem journalClear pkg die : Statement (.journalClear pkg die) := of_none _ rfl

end Sys2Proof.Laws.RoundTrip
end

