-- ==== Sys2Proof/Machine/Registers.lean ====
section
/-! DEFINITION. What a read of a register of a package's Jerad die returns (00 R9, R10): the queues' registers (15 R356), the driver's
(16 R390), the telemetry counters (17 R406), and the fabric, power and attestation blocks (17 R404, R407, R409). A write-only field and
a reserved one read zero; a field without storage is computed at the read. No read changes anything. -/

namespace Sys2Proof.Machine

/-- The word of a queue's register block at an offset (15 R356): QTAIL and EXANS are write only. -/
def Queue.regWord (x : Queue) (o : Nat) : Nat :=
  match o with
  | 0x08 => x.qhead % 2 ^ 21
  | 0x10 => x.qstate % 4 + 2 ^ 8 * (x.qcause % 2 ^ 8)
  | 0x20 => x.xprod % 2 ^ 32 + 2 ^ 32 * (x.xcons % 2 ^ 32)
  | 0x28 => x.eprod % 2 ^ 32 + 2 ^ 32 * (x.econs % 2 ^ 32)
  | 0x30 => x.eovf % 2 ^ 32
  | _ => 0

/-- The word of the driver's registers at an offset (16 R390): TFANS, GENCMD and FRAMEFREE are write only; ASIDLOC and PVER are those of
the primary's package. -/
def State.driverWord (s : State) (o : Nat) : Nat :=
  match o with
  | 0x00 => s.fe.fqbase.toNat
  | 0x08 => s.fe.fqlog % 2 ^ 5
  | 0x10 => s.fe.fqprod % 2 ^ 32 + 2 ^ 32 * (s.fe.fqcons % 2 ^ 32)
  | 0x30 => s.fe.lockto % 2 ^ 32
  | 0x38 => (Config.asidLoc s.fe.primary).1 % 2 ^ 7 + 2 ^ 7 * ((Config.asidLoc s.fe.primary).2 % 2 ^ 24)
  | 0x40 => (s.pkg s.fe.primary).pver % 2 ^ 16
  | _ => 0

/-- The word of a die's counter block at an offset (17 R406): CLEAR is write only. Every event is in the counter from its own clk on, the
last 2,400 clk included (DESIGN CHOICE, log 76). -/
def Die.counterWord (d : Die) (o : Nat) : Nat := if o < 0x0C8 then kgetD d.counters (o / 8) 0 % 2 ^ 64 else 0

/-- The word of the fabric block at an offset (17 R404). -/
def Pkg.fabricWord (p : Pkg) (o : Nat) : Nat :=
  match o with
  | 0x00 => nbits p.planeen.toNat 0 64
  | 0x08 => nbits p.planeen.toNat 64 64
  | 0x10 => nbits p.live.toNat 0 64
  | 0x18 => nbits p.live.toNat 64 64
  | 0x20 => p.rejoins % 2 ^ 64
  | _ => 0

/-- The word of the power block at an offset (17 R407): PWRNOW is the average over the last 1,200 clk, ENERGY counts mJ. -/
def State.powerWord (s : State) (pkg o : Nat) : Nat :=
  let p := s.pkg pkg
  match o with
  | 0x00 => p.pstate % 8 + 2 ^ 8 * (p.pnow % 8)
  | 0x08 => Config.power pkg s.clk % 2 ^ 16
  | 0x10 => p.energy / 1000 % 2 ^ 64
  | 0x18 => p.throttle % 2 ^ 64
  | _ => 0

/-- The word of the attestation block at an offset (17 R409): the certificate, the nonce, the address of the buffer, the bit that a report
is complete. -/
def State.attestWord (s : State) (pkg o : Nat) : Nat :=
  let p := s.pkg pkg
  if o < 0x1000 then bytesNat ((List.range 8).map fun i => Config.certificate pkg (o + i))
  else if o < 0x1040 then bytesNat ((List.range 8).map fun i => kgetD p.nonce (o - 0x1000 + i) 0)
  else if o = 0x1040 then p.abuf.toNat
  else if o = 0x1050 then p.attestDone.toNat
  else 0

/-- The 8 bytes at an address that is a multiple of 8, 2^32 * package + offset in the register space of its Jerad die; what no table
lists reads zero. -/
def State.regWord (s : State) (addr : Nat) : Nat :=
  let pkg := addr / 2 ^ 32 % 512
  let o := addr % 2 ^ 32
  if 0x02000000 ≤ o ∧ o < 0x02020000 then (s.die (128 * pkg + (o - 0x02000000) / 0x400)).counterWord (o % 0x400)
  else if 0x02030000 ≤ o ∧ o < 0x02030020 then s.powerWord pkg (o - 0x02030000)
  else if 0x02040000 ≤ o ∧ o < 0x02041058 then s.attestWord pkg (o - 0x02040000)
  else if 0x02050000 ≤ o ∧ o < 0x02050028 then (s.pkg pkg).fabricWord (o - 0x02050000)
  else if pkg ≠ s.fe.primary then 0
  else if queueRegs ≤ o ∧ o < queueRegs + 64 * 4096 then (s.queueD ((o - queueRegs) / 64)).regWord (o % 64)
  else if driverRegs ≤ o ∧ o < driverRegs + 0x48 then s.driverWord (o - driverRegs)
  else 0

/-- A read of a register of 4 or 8 bytes at its address. -/
def State.readRegister (s : State) (addr n : Nat) : Nat := s.regWord (addr / 8 * 8) / 2 ^ (8 * (addr % 8)) % 2 ^ (8 * n)

end Sys2Proof.Machine
end

