-- ==== Sys2Proof/Safety.lean ====
section
/-! DEFINITION. What a safe run is, and the terms in which claims speak of a step: who issues, what an instruction leaves alone,
the result it enters and where its split goes on. -/

namespace Sys2Proof.Safety

open Sys2Proof.Machine

/-- The memory of a state is in its canonical form. -/
def MemoryOk (s : State) : Prop := Memory.wf s.mem = true

/-- A step that neither faults nor is refused. -/
def Runs (s : State) : Prop := ∃ t, step s = .next t

/-- Warp `w` issues from its READY split `p` (01 R33, R34): a split in use has lanes. -/
def Issuer (s : State) (w : Warp) (p : Split) : Prop :=
  s.warp? s.cur.1 = some w ∧ kget? w.table s.cur.2 = some p ∧ p.st = .ready ∧ p.lmask ≠ 0

/-- Nothing changes but the issuing warp and the model's counters: no byte of memory, no local store, no other warp, no queue,
no register of another unit. -/
def OnlyIssuer (s t : State) : Prop :=
  t = { s with warps := t.warps, nextId := t.nextId, free := t.free } ∧ ∀ k, k ≠ s.cur.1 → t.warp? k = s.warp? k

/-- A warp keeps every register, tag, mask, lock and record; its split table and its results under way may differ. -/
def RegsKept (w w' : Warp) : Prop := w' = { w with table := w'.table, results := w'.results }

/-- The same, and format tags may differ. -/
def RegsKeptButTags (w w' : Warp) : Prop :=
  w' = { w with table := w'.table, results := w'.results, tags := w'.tags, tagKey := w'.tagKey }

/-- The other splits of a warp are as they were. -/
def OthersKept (w w' : Warp) (slot : Nat) : Prop := ∀ k, k ≠ slot → kget? w'.table k = kget? w.table k

/-- The split goes on `words` further, its lanes and join group unchanged; its span ends with SW or with its 64th instruction,
and the split then waits in SPAN-PARK for the results of the span (09 R238, R239). -/
def GoesOn (w' : Warp) (slot : Nat) (p : Split) (sw : Bool) (words : Nat) : Prop :=
  ∃ p', kget? w'.table slot = some p' ∧ p'.pc = p.pc + BitVec.ofNat 48 words ∧ p'.lmask = p.lmask ∧ p'.jgrp = p.jgrp
    ∧ p'.jpc = p.jpc ∧ p'.len = p.len + 1 ∧ p'.st = if spanEnds sw p then .spanPark else .ready

/-- The split goes on `words` further; a span that ends leaves it READY, or in SPAN-PARK while results of the span are still to
come (09 R239). -/
def Proceeds (w' : Warp) (slot : Nat) (p : Split) (sw : Bool) (words : Nat) : Prop :=
  ∃ p', kget? w'.table slot = some p' ∧ p'.pc = p.pc + BitVec.ofNat 48 words ∧ p'.lmask = p.lmask ∧ p'.jgrp = p.jgrp
    ∧ p'.jpc = p.jpc ∧ (p'.st = .ready ∨ p'.st = .spanPark) ∧ (spanEnds sw p = false → p'.st = .ready ∧ p'.len = p.len + 1)

/-- Under number `k` the warp holds a result that is to be written `lat` clk after issue, with the place of its instruction in
issue order (01 R18, 09 R239). -/
def Due (s : State) (w' : Warp) (k lat : Nat) (d : Dest) (r : Result) : Prop :=
  kget? w'.results k = some r ∧ r.dest = d ∧ r.key = s.orderKey ∧ r.due = s.clk + lat ∧ r.mem = false ∧ r.done = false

/-- An instruction whose one result is the scalar `x` for s[sd] (s63 discards it, 01 R17): everything else is left alone. -/
def ScalarDone (s t : State) (w : Warp) (p : Split) (sw : Bool) (sd lat words : Nat) (x : Word) : Prop :=
  OnlyIssuer s t ∧ ∃ w', t.warp? s.cur.1 = some w' ∧ RegsKept w w' ∧ OthersKept w w' s.cur.2
    ∧ GoesOn w' s.cur.2 p sw words
    ∧ (∃ r, Due s w' s.nextId lat (if sd = 63 then .none else .sca sd) r ∧ r.sval = x)
    ∧ ∀ k, k ≠ s.nextId → kget? w'.results k = kget? w.results k

/-- Lanes of vector register `r` that are to be written `lat` clk after issue, under number `k`: each has a value. -/
def LanesDue (s : State) (w' : Warp) (k lat r : Nat) (m : Lanes) : Prop :=
  ∃ q, Due s w' k lat (.vec r) q ∧ q.lanes = m ∧ q.pend = m ∧ ∀ l, m.getLsbD l = true → (kget? q.vals l).isSome

/-- The tag of a register is set at issue, unless an instruction later in issue order has set it (01 R22). -/
def TagSet (s : State) (w w' : Warp) (r : Nat) (t : BitVec 4) : Prop :=
  kgetD w.tagKey r 0 ≤ s.orderKey → kgetD w'.tags r 0 = t

/-- The tags of the other registers are as they were. -/
def TagsKept (w w' : Warp) (l : List Nat) : Prop := ∀ r, r ∉ l → kgetD w'.tags r 0 = kgetD w.tags r 0

/-- What a vector instruction writes: lanes of one register or of a pair, with tags; bits of a mask register; a scalar; tags
alone. -/
inductive VDest where
  | reg (vd : Nat) (tag : BitVec 4)
  | pair (vd : Nat) (tag odd : BitVec 4)
  | mask (md : Nat)
  | scalar (sd : Nat)
  | tag (vd : Nat) (pair : Bool) (tag : BitVec 4)
  deriving DecidableEq, Repr

/-- The results and tags that a destination gives the warp: a vector destination in the lanes `m` alone (01 R16, R22). -/
def Written (s : State) (w w' : Warp) (lat : Nat) (m : Lanes) (d : VDest) : Prop :=
  match d with
  | .reg vd t => LanesDue s w' s.nextId lat vd m ∧ TagSet s w w' vd t ∧ TagsKept w w' [vd]
  | .pair vd t o =>
    LanesDue s w' s.nextId lat vd m ∧ LanesDue s w' (s.nextId + 1) lat (vd + 1) m ∧ TagSet s w w' vd t ∧ TagSet s w w' (vd + 1) o
      ∧ TagsKept w w' [vd, vd + 1]
  | .mask md => (∃ q, Due s w' s.nextId lat (.msk md) q ∧ q.lanes = m) ∧ TagsKept w w' []
  | .scalar sd => (∃ q, Due s w' s.nextId lat (if sd = 63 then .none else .sca sd) q) ∧ TagsKept w w' []
  | .tag vd pr t =>
    TagSet s w w' vd t ∧ (pr = true → TagSet s w w' (vd + 1) 15) ∧ TagsKept w w' (if pr then [vd, vd + 1] else [vd])

/-- A vector instruction has run (06 R132): its destination is entered, SEED has advanced if it rounds stochastically (04 R85), the
split goes on; every other register, tag, mask and byte is as it was. `funs`: an instruction of opcode 0x23, which also keeps its
quads busy (06 R173). -/
def VectorDone (s t : State) (w : Warp) (p : Split) (sw seed funs : Bool) (lat : Nat) (m : Lanes) (d : VDest) : Prop :=
  OnlyIssuer s { t with cores := s.cores } ∧ (funs = false → t.cores = s.cores) ∧
    ∃ w', t.warp? s.cur.1 = some w'
      ∧ w' = { w with table := w'.table, results := w'.results, tags := w'.tags, tagKey := w'.tagKey, seed := w'.seed }
      ∧ w'.seed = (if seed then w.seed + 0x9E3779B97F4A7C15 else w.seed)
      ∧ OthersKept w w' s.cur.2 ∧ Proceeds w' s.cur.2 p sw 1 ∧ Written s w w' lat m d

/-- The record of an exception is written to its queue in memory (15 R360): 64 bytes at the producer's place of the ring, in the
driver's address space. -/
def RecordWritten (s t : State) (p : Split) (code : Nat) (info : Word) : Prop :=
  let x := s.queueD s.curLaunch.queue
  ∃ r : ExcRec, r.code = code ∧ r.info = info ∧ r.pc = p.pc ∧ r.lmask = p.lmask ∧ r.slot = s.cur.2 ∧ r.noans = false
    ∧ t.mem = (s.feWrite s.drvAsid (x.exq.toNat + 64 * (x.xprod % 2 ^ x.xlog)) (r.bytes s.curLaunch.queue x.seq x.ovf)).mem

/-- An exception is taken (02 R63, 07 R178): the split parks FAULTED at its PC with its whole lane mask, the code and INFO; no
register, tag, mask, local-store byte or counter changes and nothing is enqueued; another split of other lanes is as it was. The
record is written at once, unless accesses of the span are under way or the exception queue has no room: then no byte of memory
changes. -/
def TakesFault (s t : State) (w : Warp) (p : Split) (code : Nat) (info : Word) : Prop :=
  t = { s with warps := t.warps, nextId := t.nextId, queues := t.queues, mem := t.mem, copies := t.copies }
    ∧ (∀ k, k ≠ s.cur.1 → t.warp? k = s.warp? k)
    ∧ (∃ w' p' f, t.warp? s.cur.1 = some w' ∧ w' = { w with table := w'.table, whole := w'.whole }
        ∧ (∀ k q, k ≠ s.cur.2 → kget? w.table k = some q → q.lmask ≠ p.lmask → kget? w'.table k = some q)
        ∧ kget? w'.table s.cur.2 = some p' ∧ p'.st = .faulted ∧ p'.pc = p.pc ∧ p'.lmask = p.lmask
        ∧ p'.fault = some f ∧ f.code = code ∧ f.info = info ∧ f.pc = p.pc)
    ∧ (if w.awaits p = false ∧ (s.queueD s.curLaunch.queue).heldRecs = []
          ∧ ringCount (s.queueD s.curLaunch.queue).xprod (s.queueD s.curLaunch.queue).xcons < 2 ^ (s.queueD s.curLaunch.queue).xlog
        then RecordWritten s t p code info else t.mem = s.mem ∧ t.copies = s.copies)

end Sys2Proof.Safety
end

