-- ==== Sys2Proof/Certificates/Slice0/Obligations.lean ====
section
/-! DEFINITION. The obligations: statements about the machine that formalise rules of the manual. -/

namespace Sys2Proof.Rules

open Sys2Proof.Machine Sys2Proof.Safety

/-! ## The rules of the scalar instructions -/

/-- The conditions of a scalar compare (02 R54, 05 R105), signed or unsigned. -/
def scalarCond (signed : Bool) (c : Nat) (a b : Word) : Bool :=
  match c with
  | 0 => a == b
  | 1 => a != b
  | 2 => if signed then a.slt b else a.ult b
  | 3 => if signed then a.sle b else a.ule b
  | 4 => if signed then b.slt a else b.ult a
  | _ => if signed then b.sle a else b.ule a

/-- The zero bits above the highest 1 bit (05 R102). -/
def leadingZeros : Nat → Word → Nat
  | 0, _ => 0
  | n + 1, x => if x.getLsbD n then 0 else 1 + leadingZeros n x

/-- Format, latency, number of words and result of the scalar instructions that write one scalar from scalars and immediates (05 R100
to R108); the mask reads of opcode 0x18 (R127, R129) and CRD (07 R207) have entries of their own. -/
def scalarRule (s : State) (i : Instr) : Option (SFmt × Nat × Nat × Word) :=
  let a (f : SFmt) : Word := s.rdS f.sa.toNat
  let b (f : SFmt) : Word := s.rdS f.sb.toNat
  let m (f : SFmt) : Word := f.imm.signExtend 64
  let pos (f : SFmt) : Nat := f.imm.toNat % 64
  let wid (f : SFmt) : Nat := f.imm.toNat / 64 % 128
  match i with
  | .sadd f => some (f, 2, 1, a f + b f)
  | .saddImm f => some (f, 2, 1, a f + m f)
  | .ssub f => some (f, 2, 1, a f - b f)
  | .ssubImm f => some (f, 2, 1, a f - m f)
  | .smul f => some (f, 4, 1, a f * b f)
  | .smulImm f => some (f, 4, 1, a f * m f)
  | .smulh f => some (f, 4, 1, BitVec.ofInt 64 (((a f).toInt * (b f).toInt) / 2 ^ 64))
  | .smulhImm f => some (f, 4, 1, BitVec.ofInt 64 (((a f).toInt * (m f).toInt) / 2 ^ 64))
  | .smulhU f => some (f, 4, 1, BitVec.ofNat 64 (((a f).toNat * (b f).toNat) / 2 ^ 64))
  | .sand f => some (f, 2, 1, a f &&& b f)
  | .sandImm f => some (f, 2, 1, a f &&& m f)
  | .sor f => some (f, 2, 1, a f ||| b f)
  | .sorImm f => some (f, 2, 1, a f ||| m f)
  | .sxor f => some (f, 2, 1, a f ^^^ b f)
  | .sxorImm f => some (f, 2, 1, a f ^^^ m f)
  | .sshl f => some (f, 2, 1, if (b f).toNat < 64 then a f <<< (b f).toNat else 0)
  | .sshlImm f => some (f, 2, 1, if (m f).toNat < 64 then a f <<< (m f).toNat else 0)
  | .sshr f => some (f, 2, 1, if (b f).toNat < 64 then a f >>> (b f).toNat else 0)
  | .sshrImm f => some (f, 2, 1, if (m f).toNat < 64 then a f >>> (m f).toNat else 0)
  | .ssra f => some (f, 2, 1, if (b f).toNat < 64 then (a f).sshiftRight (b f).toNat else if (a f).msb then BitVec.allOnes 64 else 0)
  | .ssraImm f => some (f, 2, 1, if (m f).toNat < 64 then (a f).sshiftRight (m f).toNat else if (a f).msb then BitVec.allOnes 64 else 0)
  | .smin f => some (f, 2, 1, if (a f).slt (b f) then a f else b f)
  | .sminImm f => some (f, 2, 1, if (a f).slt (m f) then a f else m f)
  | .sminU f => some (f, 2, 1, if (a f).ult (b f) then a f else b f)
  | .smax f => some (f, 2, 1, if (a f).slt (b f) then b f else a f)
  | .smaxImm f => some (f, 2, 1, if (a f).slt (m f) then m f else a f)
  | .smaxU f => some (f, 2, 1, if (a f).ult (b f) then b f else a f)
  | .smov f => some (f, 2, 1, a f)
  | .smovImm f => some (f, 2, 1, m f)
  | .spopc f => some (f, 2, 1, BitVec.ofNat 64 ((List.range 64).countP (a f).getLsbD))
  | .sclz f => some (f, 2, 1, BitVec.ofNat 64 (leadingZeros 64 (a f)))
  | .scmp f => some (f, 2, 1, if scalarCond true (f.imm.toNat % 8) (a f) (b f) then 1 else 0)
  | .scmpU f => some (f, 2, 1, if scalarCond false (f.imm.toNat % 8) (a f) (b f) then 1 else 0)
  | .ssel f => some (f, 2, 1, if s.rdS (f.imm.toNat % 64) = 0 then b f else a f)
  | .sbfx f => some (f, 2, 1, ((a f).extractLsb' (pos f) (wid f)).signExtend 64)
  | .sbfxU f => some (f, 2, 1, ((a f).extractLsb' (pos f) (wid f)).setWidth 64)
  | .sbfi f =>
    let ones : Word := BitVec.allOnes 64 >>> (64 - wid f)
    some (f, 2, 1, (a f &&& ~~~(ones <<< pos f)) ||| ((b f &&& ones) <<< pos f))
  | .slea f => some (f, 2, 1, a f + (b f <<< (f.imm.toNat % 8)))
  | .sldi f ext => some (f, 2, 2, ext)
  | _ => none

/-- Format and quotient of the scalar divisions (05 R104): truncated towards zero, all ones for a divisor of 0; the most
negative number divided by -1 wraps. -/
def divideRule (s : State) (i : Instr) : Option (SFmt × Word) :=
  let a (f : SFmt) : Word := s.rdS f.sa.toNat
  let b (f : SFmt) : Word := s.rdS f.sb.toNat
  let m (f : SFmt) : Word := f.imm.signExtend 64
  match i with
  | .sdiv f => some (f, if b f = 0 then BitVec.allOnes 64 else (a f).sdiv (b f))
  | .sdivImm f => some (f, if m f = 0 then BitVec.allOnes 64 else (a f).sdiv (m f))
  | .sdivU f => some (f, if b f = 0 then BitVec.allOnes 64 else (a f).udiv (b f))
  | _ => none

/-- Mask register and value of the mask instructions that write one mask in the lanes of the split (05 R126, R127). -/
def maskRule (s : State) (i : Instr) : Option (SFmt × Lanes) :=
  let a (f : SFmt) : Lanes := s.rdM f.sa.toNat
  let b (f : SFmt) : Lanes := s.rdM f.sb.toNat
  match i with
  | .mand f => some (f, a f &&& b f)
  | .mor f => some (f, a f ||| b f)
  | .mxor f => some (f, a f ^^^ b f)
  | .mnot f => some (f, ~~~a f)
  | .mmov f => some (f, a f)
  | .mrest f => some (f, (s.rdS f.sa.toNat).extractLsb' 0 32)
  | _ => none

/-- The lowest lane of a set, 32 for none. -/
def lowestLane (m : Lanes) : Nat := ((List.range 32).find? m.getLsbD).getD 32

/-- The lanes of the splits that satisfy a condition. -/
def lanesWhere (w : Warp) (c : Split → Bool) : Lanes :=
  w.table.foldl (fun a q => if c q.2 then a ||| q.2.lmask else a) 0

/-- Scalar results of the mask reads (05 R127, R129) and of CRD (07 R207), with the switch marker, SD and latency. -/
def readRule (s : State) (w : Warp) (p : Split) (i : Instr) : Option (Bool × Nat × Nat × Word) :=
  match i with
  | .mpopc f => some (f.sw, f.sd.toNat, 2, BitVec.ofNat 64 ((List.range 32).countP (s.rdM f.sa.toNat &&& p.lmask).getLsbD))
  | .mffs f => some (f.sw, f.sd.toNat, 2, BitVec.ofNat 64 (lowestLane (s.rdM f.sa.toNat &&& p.lmask)))
  | .msave f => some (f.sw, f.sd.toNat, 2, (s.rdM f.sa.toNat).setWidth 64)
  | .splitq f =>
    some (f.sw, f.sd.toNat, 2, lanesWhere w (fun q => q.jgrp == p.jgrp && q.jpc == p.jpc) ++ lanesWhere w fun _ => true)
  | .crd f => some (f.sw, f.sd.toNat, 4, kgetD s.curBlock.counters f.num.toNat 0)
  | _ => none

/-- A field of a special register: its lowest bit and its value. -/
def fieldsOf (l : List (Nat × Nat)) : Word := BitVec.ofNat 64 (l.foldl (fun a q => a + q.2 * 2 ^ q.1) 0)

/-- The special registers 1 to 15 (01 R29): their fields, each with its lowest bit. -/
def specialRule (s : State) (w : Warp) (p : Split) (n : Nat) : Word :=
  let b := s.curBlock
  let l := s.curLaunch
  match n with
  | 1 => fieldsOf [(0, w.widx), (8, w.wblk)]
  | 2 => fieldsOf [(0, s.cur.2 % 8), (8, w.table.length), (32, p.lmask.toNat)]
  | 3 => fieldsOf [(0, w.stage), (8, b.nstg)]
  | 4 => fieldsOf [(0, b.bx), (32, b.by_), (48, b.bz)]
  | 5 => fieldsOf [(0, l.desc.gx), (32, l.desc.gy), (48, l.desc.gz)]
  | 6 => fieldsOf [(0, csizeOf l.desc.kern.shape), (4, l.desc.kern.shape), (8, b.rank), (16, l.desc.kern.fuse.toNat)]
  | 7 => fieldsOf [(0, b.core), (8, w.part), (12, w.half), (13, w.wslot), (16, 48 * b.die + b.core)]
  | 8 => fieldsOf [(0, b.die), (8, b.die % 16), (12, b.die / 16), (16, bandOf b.die)]
  | 9 => fieldsOf [(0, b.pkg)]
  | 10 => fieldsOf [(0, b.pkg / 2), (8, b.pkg % 2)]
  | 11 => s.clkRead b.ck
  | 12 => w.seed
  | 13 => l.desc.args
  | 14 => fieldsOf [(0, b.usable), (32, b.alloc)]
  | 15 => w.fstat
  | _ => 0
/-! ## The rules of the vector instructions -/

/-- A vector instruction (06 R132 to R136): the registers that it names, the tags that it checks (register, tags that pass), its
latency, whether it advances SEED, its mask field and its destination. -/
structure VRule where
  sw    : Bool
  regs  : List Nat
  rawok : Bool
  tags  : List (Nat × List Nat)
  lat   : Nat
  seed  : Bool
  msk   : Nat
  dest  : VDest
  deriving DecidableEq, Repr

/-- The registers of an operand of a type: a pair for type codes 13 and 14 (01 R15). -/
def named (ty r : Nat) : List Nat := if ty = 13 ∨ ty = 14 then [r, r + 1] else [r]

/-- The tags that an operand of a type accepts (01 R23): RAW or its own; RAW operands are not checked; the odd register of a pair
holds HI64 or RAW. -/
def accepted (ty r : Nat) : List (Nat × List Nat) :=
  if ty = 0 then [] else if ty = 13 ∨ ty = 14 then [(r, [0, ty]), (r + 1, [0, 15])] else [(r, [0, ty])]

/-- A destination of a type. -/
def destOf (ty vd : Nat) : VDest := if ty = 13 ∨ ty = 14 then .pair vd (BitVec.ofNat 4 ty) 15 else .reg vd (BitVec.ofNat 4 ty)

/-- Latency of the plain integer instructions (06 R173): 4, and 6 for 64-bit types. -/
def intLat (ty : Nat) : Nat := if ty = 13 ∨ ty = 14 then 6 else 4

/-- The rules of the vector instructions (06 R136 to R173). -/
def vecRule (s : State) (i : Instr) : Option VRule :=
  let nb (f : AFmt) (ty : Nat) : List Nat := if f.flag flScb then [] else named ty f.vb.toNat
  let nc (f : AFmt) (ty : Nat) : List Nat := if f.flag flScc then [] else named ty f.vc.toNat
  let tb (f : AFmt) (ty : Nat) : List (Nat × List Nat) := if f.flag flScb then [] else accepted ty f.vb.toNat
  let tc (f : AFmt) (ty : Nat) : List (Nat × List Nat) := if f.flag flScc then [] else accepted ty f.vc.toNat
  let raw (f : AFmt) : Bool := f.flag flRawok
  let sr (f : AFmt) : Bool := f.rm == 5
  let ty (f : AFmt) : Nat := f.ty.toNat
  let vd (f : AFmt) : Nat := f.vd.toNat
  let va (f : AFmt) : Nat := f.va.toNat
  let d (f : AFmt) : VDest := destOf (ty f) (vd f)
  let two (f : AFmt) (lat : Nat) : Option VRule :=
    some ⟨f.sw, named (ty f) (vd f) ++ named (ty f) (va f) ++ nb f (ty f), raw f, accepted (ty f) (va f) ++ tb f (ty f), lat, false,
      f.msk.toNat, d f⟩
  let one (f : AFmt) (lat t : Nat) : Option VRule :=
    some ⟨f.sw, named t (vd f) ++ named (ty f) (va f), raw f, accepted (ty f) (va f), lat, false, f.msk.toNat, destOf t (vd f)⟩
  let immb (f : BFmt) (lat : Nat) : Option VRule :=
    some ⟨f.sw, [f.vd.toNat, f.va.toNat], false, accepted f.ty.toNat f.va.toNat, lat, false, f.msk.toNat,
      destOf f.ty.toNat f.vd.toNat⟩
  let shift (f : AFmt) : Option VRule :=
    if ty f = 13 ∨ ty f = 14 then
      some ⟨f.sw, named (ty f) (vd f) ++ named (ty f) (va f) ++ nb f 2, raw f, accepted (ty f) (va f) ++ tb f 2, 6, false,
        f.msk.toNat, d f⟩
    else two f 4
  let carry (f : AFmt) : Option VRule :=
    some ⟨f.sw, [vd f, va f] ++ nb f (ty f), raw f, accepted (ty f) (va f) ++ tb f (ty f), 4, false, f.msk.toNat, d f⟩
  let flt (f : AFmt) : Option VRule :=
    some ⟨f.sw, [vd f, va f] ++ nb f (ty f), raw f, accepted (ty f) (va f) ++ tb f (ty f), 6, sr f, f.msk.toNat, d f⟩
  let dot (f : AFmt) (t : Nat) : Option VRule :=
    some ⟨f.sw, [vd f, va f, f.vb.toNat] ++ nc f 3, raw f, accepted (ty f) (va f) ++ accepted t f.vb.toNat ++ tc f 3, 6, sr f,
      f.msk.toNat, .reg (vd f) 3⟩
  let fun1 (f : AFmt) : Option VRule :=
    some ⟨f.sw, [vd f, va f], raw f, accepted 3 (va f), 20, sr f, f.msk.toNat, .reg (vd f) 3⟩
  let pack (f : AFmt) : Option VRule :=
    some ⟨f.sw, [vd f, va f, f.vb.toNat], raw f, accepted f.vc.toNat (va f) ++ accepted f.vc.toNat f.vb.toNat, 6, sr f, f.msk.toNat, d f⟩
  let index (f : AFmt) : List (Nat × List Nat) := if f.flag flScb then [] else [(f.vb.toNat, [0, 1, 2])]
  let move (f : AFmt) (regs : List Nat) (t : List (Nat × List Nat)) : Option VRule :=
    some ⟨f.sw, [vd f, va f] ++ regs, raw f, t, 8, false, f.msk.toNat, .reg (vd f) (s.tagOfReg (va f))⟩
  match i with
  | .vadd f | .vsub f | .vmin f | .vmax f | .vavg f | .vand f | .vor f | .vxor f => two f (intLat (ty f))
  | .vmul f | .vmulh f => two f 5
  | .vmad f =>
    some ⟨f.sw, [vd f, va f] ++ nb f (ty f) ++ nc f (ty f), raw f, accepted (ty f) (va f) ++ tb f (ty f) ++ tc f (ty f), 6, false,
      f.msk.toNat, d f⟩
  | .vabs f | .vneg f | .vnot f => one f (intLat (ty f)) (ty f)
  | .vclz f | .vpopc f => one f 4 2
  | .vaddc f | .vsubb f => carry f
  | .vsad f =>
    some ⟨f.sw, [vd f, va f, f.vb.toNat] ++ nc f 2, raw f, accepted (ty f) (va f) ++ accepted (ty f) f.vb.toNat ++ tc f 2, 6, false,
      f.msk.toNat, .reg (vd f) 2⟩
  | .vcmp f =>
    some ⟨f.sw, named (ty f) (va f) ++ nb f (ty f), raw f, accepted (ty f) (va f) ++ tb f (ty f), intLat (ty f), false, f.msk.toNat,
      .mask (vd f)⟩
  | .vsel f => two f (intLat (ty f))
  | .vmov f =>
    some ⟨f.sw, named (ty f) (vd f) ++ named (ty f) (va f), raw f, accepted (ty f) (va f), intLat (ty f), false, f.msk.toNat,
      if ty f = 0 then .reg (vd f) (s.tagOfReg (va f)) else d f⟩
  | .vmovs f => some ⟨f.sw, named (ty f) (vd f), false, [], intLat (ty f), false, f.msk.toNat, d f⟩
  | .vshl f | .vshr f | .vsra f | .vrot f => shift f
  | .vbfx f =>
    some ⟨f.sw, [vd f, va f] ++ nb f 2, raw f, accepted (ty f) (va f) ++ tb f 2, 4, false, f.msk.toNat, d f⟩
  | .vbfi f =>
    some ⟨f.sw, [vd f, va f] ++ nb f (ty f) ++ nc f 2, raw f, accepted (ty f) (va f) ++ tb f (ty f) ++ tc f 2, 4, false,
      f.msk.toNat, d f⟩
  | .vaddImm f | .vsubImm f | .vandImm f | .vorImm f | .vxorImm f | .vminImm f | .vmaxImm f | .vshlImm f | .vshrImm f | .vsraImm f
  | .vfminImm f | .vfmaxImm f => immb f 4
  | .vmulImm f => immb f 5
  | .vfaddImm f | .vfmulImm f => immb f 6
  | .vmovImm f => some ⟨f.sw, [f.vd.toNat], false, [], 4, false, f.msk.toNat, destOf f.ty.toNat f.vd.toNat⟩
  | .vfadd f | .vfsub f | .vfmul f => flt f
  | .vfma f =>
    some ⟨f.sw, [vd f, va f] ++ nb f (ty f) ++ nc f (ty f), raw f, accepted (ty f) (va f) ++ tb f (ty f) ++ tc f (ty f), 6, sr f,
      f.msk.toNat, d f⟩
  | .vfmin f | .vfmax f => two f 4
  | .vfcmp f =>
    some ⟨f.sw, va f :: nb f 3, raw f, accepted 3 (va f) ++ tb f 3, 4, false, f.msk.toNat, .mask (vd f)⟩
  | .vfdot2 f => dot f (ty f)
  | .vfdot4 f => dot f (if f.flag flXf then 21 - ty f else ty f)
  | .vfclass f => some ⟨f.sw, [vd f, va f], raw f, accepted 3 (va f), 4, false, f.msk.toNat, .reg (vd f) 2⟩
  | .vfrnd f => some ⟨f.sw, [vd f, va f], raw f, accepted (ty f) (va f), 6, sr f, f.msk.toNat, d f⟩
  | .vfrcp f | .vfrsq f | .vfsqrt f | .vfexp2 f | .vflog2 f | .vfsin f | .vfcos f => fun1 f
  | .vcvt f =>
    some ⟨f.sw, named (ty f) (vd f) ++ named f.vc.toNat (va f), raw f, accepted f.vc.toNat (va f), 6, sr f, f.msk.toNat, d f⟩
  | .vpackX2 f | .vpackX4 f => pack f
  | .vunpk _ f => some ⟨f.sw, [vd f, va f], raw f, accepted f.vc.toNat (va f), 6, sr f, f.msk.toNat, d f⟩
  | .vtag f =>
    some ⟨f.sw, named (ty f) (vd f), true, [], 2, false, 0, .tag (vd f) (decide (ty f = 13 ∨ ty f = 14)) f.ty⟩
  | .vqduo f =>
    some ⟨f.sw, [vd f, va f, va f + 1, va f + 2, va f + 3], raw f,
      accepted 3 (va f) ++ accepted 3 (va f + 1) ++ accepted 3 (va f + 2) ++ accepted 3 (va f + 3), 6, sr f, f.msk.toNat,
      .reg (vd f) 12⟩
  | .vscale f =>
    some ⟨f.sw, [vd f, va f] ++ nb f (if ty f = 3 then 1 else 4), raw f, accepted (ty f) (va f) ++ tb f (if ty f = 3 then 1 else 4), 6,
      sr f, f.msk.toNat, d f⟩
  | .vshfl f | .vshflUp f | .vshflDown f | .vshflXor f => move f (nb f 0) (index f)
  | .vshflx f => move f [f.vb.toNat, f.vc.toNat] [(f.vc.toNat, [0, 2])]
  | .vbcast f => move f [] []
  | .vred _ f =>
    some ⟨f.sw, named (ty f) (va f), raw f, accepted (ty f) (va f), 14, false, f.msk.toNat, .scalar (vd f % 64)⟩
  | .vscan _ f =>
    some ⟨f.sw, named (ty f) (vd f) ++ named (ty f) (va f), raw f, accepted (ty f) (va f), 18, false, f.msk.toNat, d f⟩
  | .vfunl f => move f (nb f 0) []
  | .vlutn f => some ⟨f.sw, [vd f, va f], raw f, accepted (ty f) (va f), 5, false, f.msk.toNat, .reg (vd f) 9⟩
  | .vbperm f =>
    some ⟨f.sw, [vd f, va f, f.vb.toNat, f.vc.toNat], raw f, accepted 9 f.vc.toNat, 5, false, f.msk.toNat,
      .reg (vd f) (s.tagOfReg (va f))⟩
  | .vballot f => some ⟨f.sw, [va f], raw f, [], 4, false, f.msk.toNat, .scalar (vd f % 64)⟩
  | .vmatch f =>
    some ⟨f.sw, vd f :: named (ty f) (va f), raw f, accepted (ty f) (va f), 12, false, f.msk.toNat, .reg (vd f) 2⟩
  | .vcompr f =>
    some ⟨f.sw, named (ty f) (vd f) ++ named (ty f) (va f), raw f, [], 10, false, f.msk.toNat,
      if ty f = 13 ∨ ty f = 14 then .pair (vd f) (s.tagOfReg (va f)) (s.tagOfReg (va f + 1)) else .reg (vd f) (s.tagOfReg (va f))⟩
  | _ => none

/-- The functions of opcode 0x23 (06 R154). -/
def isFunction (i : Instr) : Bool :=
  match i with
  | .vfrcp _ | .vfrsq _ | .vfsqrt _ | .vfexp2 _ | .vflog2 _ | .vfsin _ | .vfcos _ => true
  | _ => false

/-- VCOMPR writes the lowest lanes alone (06 R172). -/
def isCompress (i : Instr) : Bool := match i with | .vcompr _ => true | _ => false

end Sys2Proof.Rules

open Sys2Proof Sys2Proof.Machine Sys2Proof.Safety Sys2Proof.Rules

/-- 05 R100, R102, R105 to R108: each scalar arithmetic instruction completes with the result that the manual's tables give, and changes nothing else.
SBFX and SBFX.u need a well-formed field. Constructors: sadd, ssub, smul, smulh, sand, sor, sxor, sshl, sshr, ssra, smin, smax, smov, spopc, sclz,
saddImm, ssubImm, smulImm, smulhImm, sandImm, sorImm, sxorImm, sshlImm, sshrImm, ssraImm, sminImm, smaxImm, smovImm, smulhU, sminU, smaxU, scmp,
scmpU, ssel, sbfx, sbfxU, sbfi, slea, sldi. -/
def Obligations.ScalarResults : Prop :=
  ∀ (s : State) (w : Warp) (p : Split) (i : Instr) (f : SFmt) (lat words : Nat) (x : Word),
    Issuer s w p → i.wf = true → scalarRule s i = some (f, lat, words, x) →
      ∃ t, exec i s = .next t ∧ ScalarDone s t w p f.sw f.sd.toNat lat words x

/-- 06 R132 to R136, R173, 01 R16, R20, R22: a vector instruction whose registers lie below the budget and whose tags pass completes: its destination is
entered in the lanes of the effective mask, with its tag and latency, and nothing else changes. Constructors: vadd, vsub, vmul, vmulh, vmad, vmin,
vmax, vabs, vneg, vaddc, vsubb, vsad, vavg, vcmp, vsel, vmov, vand, vor, vxor, vnot, vshl, vshr, vsra, vrot, vclz, vpopc, vbfx, vbfi, vmovs, vfadd,
vfsub, vfmul, vfma, vfmin, vfmax, vfcmp, vfdot2, vfdot4, vfclass, vfrnd, vfrcp, vfrsq, vfsqrt, vfexp2, vflog2, vfsin, vfcos, vaddImm, vsubImm,
vmulImm, vandImm, vorImm, vxorImm, vshlImm, vshrImm, vsraImm, vminImm, vmaxImm, vmovImm, vfaddImm, vfmulImm, vfminImm, vfmaxImm, vcvt, vpackX2,
vpackX4, vunpk, vtag, vqduo, vscale, vshfl, vshflUp, vshflDown, vshflXor, vshflx, vbcast, vred, vscan, vfunl, vlutn, vbperm, vballot, vmatch, vcompr. -/
def Obligations.VectorCompletes : Prop :=
  ∀ (s : State) (w : Warp) (p : Split) (i : Instr) (r : VRule), Issuer s w p → i.wf = true → vecRule s i = some r →
    (∀ v ∈ r.regs, v < w.budget) → (r.rawok = true ∨ ∀ c ∈ r.tags, (s.tagOfReg c.1).toNat ∈ c.2) →
      ∃ t m, exec i s = .next t ∧ VectorDone s t w p r.sw r.seed (isFunction i) r.lat m r.dest
        ∧ m &&& ~~~s.effective r.msk = 0 ∧ (isCompress i = false → m = s.effective r.msk)
namespace Sys2Proof.Rules

open Sys2Proof.Machine Sys2Proof.Safety

/-- The constructor of `Instr` that names a step of the part. -/
noncomputable def eventInstr (e : Event) : Instr :=
  match e with
  | .joinBoundExpiry w slot => .joinBoundExpiry w slot
  | .regangBoundExpiry w slot => .regangBoundExpiry w slot
  | .sigwaitWake pkg die fw => .sigwaitWake pkg die fw
  | .sigwaitTimeout pkg die fw => .sigwaitTimeout pkg die fw
  | .dispatchComplete pkg die fw => .dispatchComplete pkg die fw
  | .purge pkg die core => .purge pkg die core
  | .mask pkg die core => .mask pkg die core
  | .genset pkg die core => .genset pkg die core
  | .rebind pkg die core => .rebind pkg die core
  | .spanParkEnd w slot => .spanParkEnd w slot
  | .exceptionRecordHeld q => .exceptionRecordHeld q
  | .loadReply r => .loadReply r
  | .regangMerge w => .regangMerge w
  | .swapEpochAdvance w => .swapEpochAdvance w
  | .splitSwap w => .splitSwap w
  | .splitSwapDone w => .splitSwapDone w
  | .splitFill w => .splitFill w
  | .splitFillDone w => .splitFillDone w
  | .feGranuleAccess a => .feGranuleAccess a
  | .homeServeLoad r => .homeServeLoad r
  | .storeApply r => .storeApply r
  | .atomicApply r => .atomicApply r
  | .stageAck r => .stageAck r
  | .invalidation v => .invalidation v
  | .probeAbsent v => .probeAbsent v
  | .stale r => .stale r
  | .mishome r => .mishome r
  | .plcMiss r => .plcMiss r
  | .tlbMissWalk r => .tlbMissWalk r
  | .evictionWriteback c => .evictionWriteback c
  | .xlate r => .xlate r
  | .lost pkg die line => .lost pkg die line
  | .cohlost pkg die line => .cohlost pkg die line
  | .cohfix pkg die line => .cohfix pkg die line
  | .fenceComplete w slot => .fenceComplete w slot
  | .unlockDepart r => .unlockDepart r
  | .csigApply p => .csigApply p
  | .evntAppend p => .evntAppend p
  | .lockRequest r => .lockRequest r
  | .lockTryRequest r => .lockTryRequest r
  | .unlockRequest r => .unlockRequest r
  | .lockGrant g => .lockGrant g
  | .lockTimeoutExpiry w k => .lockTimeoutExpiry w k
  | .withdraw d => .withdraw d
  | .waitForRecord n => .waitForRecord n
  | .holderSaved w k => .holderSaved w k
  | .holderRestored w k => .holderRestored w k
  | .holderFatalEnd pkg die line => .holderFatalEnd pkg die line
  | .waiterSaved w k => .waiterSaved w k
  | .waiterRestored w k => .waiterRestored w k
  | .engineFork e => .engineFork e
  | .engineJoin e => .engineJoin e
  | .hodLineBegin e => .hodLineBegin e
  | .hodLineComplete e => .hodLineComplete e
  | .taskStart e => .taskStart e
  | .taskKblockCommit e => .taskKblockCommit e
  | .taskEnd e => .taskEnd e
  | .kilnRequestArrival e => .kilnRequestArrival e
  | .kilnComplete e => .kilnComplete e
  | .mcstReplicate e => .mcstReplicate e
  | .mcstMemberWrite e pkg => .mcstMemberWrite e pkg
  | .mcstAck e => .mcstAck e
  | .msgxDelivery e => .msgxDelivery e
  | .ethernetFrame port etype bytes => .ethernetFrame port etype bytes
  | .firing pkg tag => .firing pkg tag
  | .firingRefused pkg tag => .firingRefused pkg tag
  | .clusterHanddown l node => .clusterHanddown l node
  | .clusterSteal l node => .clusterSteal l node
  | .clusterPlace pkg die => .clusterPlace pkg die
  | .coresidentPlace l => .coresidentPlace l
  | .blockStart l k => .blockStart l k
  | .blockRetire b => .blockRetire b
  | .nodeDrain l node => .nodeDrain l node
  | .mortarRootClose l k n pkg => .mortarRootClose l k n pkg
  | .mortarPackageCompletion l n pkg => .mortarPackageCompletion l n pkg
  | .mortarDieRelease l k n pkg die => .mortarDieRelease l k n pkg die
  | .haltRequestArrival l pkg die core => .haltRequestArrival l pkg die core
  | .checkpointBudgetExpiry w => .checkpointBudgetExpiry w
  | .warpCapture w => .warpCapture w
  | .haltComplete p => .haltComplete p
  | .saveComplete p => .saveComplete p
  | .clusterRestore l k => .clusterRestore l k
  | .qtail q v => .qtail q v
  | .exansResume q seq => .exansResume q seq
  | .exansSkip q seq => .exansSkip q seq
  | .exansAbort q seq => .exansAbort q seq
  | .registerWrite addr v => .registerWrite addr v
  | .packetNop q => .packetNop q
  | .launch q => .launch q
  | .arm q => .arm q
  | .disarm q => .disarm q
  | .disarmComplete q => .disarmComplete q
  | .waitmem q => .waitmem q
  | .waitmemSatisfied q => .waitmemSatisfied q
  | .signalmem q => .signalmem q
  | .preempt q => .preempt q
  | .resume q => .resume q
  | .abort q => .abort q
  | .qctlCreate q => .qctlCreate q
  | .qctlStop q => .qctlStop q
  | .qctlRestart q => .qctlRestart q
  | .qctlDestroy q => .qctlDestroy q
  | .steer q => .steer q
  | .tfansReplay ticket pkg => .tfansReplay ticket pkg
  | .tfansInvalid ticket pkg => .tfansInvalid ticket pkg
  | .gencmd addr => .gencmd addr
  | .bumpdone asid => .bumpdone asid
  | .framefree v => .framefree v
  | .clear pkg die v => .clear pkg die v
  | .pstate pkg v => .pstate pkg v
  | .powerCapDown pkg => .powerCapDown pkg
  | .powerCapRestore pkg => .powerCapRestore pkg
  | .planeen pkg v => .planeen pkg v
  | .attestRequest pkg v => .attestRequest pkg v
  | .attestComplete pkg => .attestComplete pkg
  | .mcastGroupWrite g members asid valid => .mcastGroupWrite g members asid valid
  | .flitCrcFail link => .flitCrcFail link
  | .flitRetryTimer link => .flitRetryTimer link
  | .linkDead link => .linkDead link
  | .planeMaskAdopt pkg => .planeMaskAdopt pkg
  | .portRetrain pkg plane good => .portRetrain pkg plane good
  | .dieHeartbeat pkg die => .dieHeartbeat pkg die
  | .dieLost pkg die => .dieLost pkg die
  | .packageHeartbeat pkg => .packageHeartbeat pkg
  | .packageDead pkg => .packageDead pkg
  | .coreFail pkg die core => .coreFail pkg die core
  | .eccCorrectable pkg die => .eccCorrectable pkg die
  | .eccUncorrectable e => .eccUncorrectable e
  | .bootStart pkg die fails => .bootStart pkg die fails
  | .dieUpdate pkg die pmin pmax good => .dieUpdate pkg die pmin pmax good
  | .hostHeartbeat => .hostHeartbeat
  | .streamRecord => .streamRecord
  | .takeover => .takeover
  | .instructionFetch w slot => .instructionFetch w slot
  | .registerResultReturn w k => .registerResultReturn w k
  | .mailboxMessage pkg die fw => .mailboxMessage pkg die fw
  | .waitForRecordAgeOut pkg die => .waitForRecordAgeOut pkg die
  | .journalClear pkg die => .journalClear pkg die

end Sys2Proof.Rules

/-! ## Encodings and steps -/

/-- 02 R39 to R60: the words of every well-formed Karburek instruction decode to it, with every operand at every value that its encoding admits; an
extension word follows exactly where the first word announces one. -/
def Obligations.EncodeDecode : Prop :=
  ∀ (i : Instr) (w : Word) (e : Option Word), i.wf = true → encode i = some (w, e) →
    decode w (e.getD 0) = .ok i ∧ hasExt w = e.isSome

/-- 02 R39 to R62: words that decode are the words of the decoded instruction, bit for bit, and it is well-formed: no bit of an encoding is without a
meaning. -/
def Obligations.DecodeEncode : Prop :=
  ∀ (i : Instr) (w e : Word), decode w e = .ok i → encode i = some (w, if hasExt w then some e else none) ∧ i.wf = true

/-- The unassigned opcodes (02 R59). -/
def Sys2Proof.Rules.unassigned (op : Nat) : Bool :=
  op == 0x00 || (0x06 ≤ op && op ≤ 0x0F) || op == 0x17 || (0x19 ≤ op && op ≤ 0x1F) || (0x24 ≤ op && op ≤ 0x2F) || op == 0x46
    || op == 0x47 || op == 0x4F || (0x59 ≤ op && op ≤ 0x5F) || op == 0x66 || op == 0x67 || op == 0x77 || 0x7E ≤ op

/-- The words of the next instruction of a split: what the instruction cache of its core holds at the PC, and at the next word where
the first announces an extension word (02 R41, R65). -/
def Sys2Proof.Rules.Holds (s : State) (wid : Nat) (pc : BitVec 48) (w e : Word) : Prop :=
  let b := s.blockOf wid
  let c := kgetD s.cores b.ck Core.reset
  let a := (s.launchD b.launch).asid * 2 ^ 48
  kget? c.icache (a + pc.toNat) = some w ∧ (hasExt w = true → kget? c.icache (a + (pc + 1).toNat) = some e) ∧ (hasExt w = false → e = 0)

/-- A step runs the decoded instruction: when the words at the PC of a READY split decode to `i`, the step that issues it is `exec i` of the state with
that split as issuer. -/
def Obligations.StepRunsDecoded : Prop :=
  ∀ (s : State) (wid slot : Nat) (rest : List Action) (p : Split) (w e : Word) (i : Instr),
    s.agenda = .issue wid slot :: rest → s.split? wid slot = some p → p.st = .ready → Holds s wid p.pc w e → decode w e = .ok i →
      step s = exec i { s with agenda := rest, cur := (wid, slot) }

/-! ## Scalars, masks and special registers -/

namespace Sys2Proof.Rules

/-- What a mask instruction leaves: the mask `x` for the lanes of the split, due in 2 clk (05 R126). -/
def MaskDone (s t : State) (w : Warp) (p : Split) (sw : Bool) (md : Nat) (x : Lanes) : Prop :=
  OnlyIssuer s t ∧ ∃ w', t.warp? s.cur.1 = some w' ∧ RegsKept w w' ∧ OthersKept w w' s.cur.2 ∧ GoesOn w' s.cur.2 p sw 1
    ∧ (∃ r, Due s w' s.nextId 2 (.msk md) r ∧ r.lanes = p.lmask ∧ r.sval = x.setWidth 64)
    ∧ ∀ k, k ≠ s.nextId → kget? w'.results k = kget? w.results k

end Sys2Proof.Rules

/-- 05 R101, R104: each scalar division completes with the quotient of the manual's table after 34 clk, keeps its warp slot's divider busy until then, and
changes nothing else. Constructors: sdiv, sdivU, sdivImm. -/
def Obligations.ScalarDivide : Prop :=
  ∀ (s : State) (w : Warp) (p : Split) (i : Instr) (f : SFmt) (q : Word), Issuer s w p → divideRule s i = some (f, q) →
    ∃ t, exec i s = .next t ∧ ScalarDone s { t with cores := s.cores } w p f.sw f.sd.toNat 34 1 q
      ∧ kgetD (t.core s.curBlock.ck).divs w.slotNo 0 = s.clk + 34
      ∧ (∀ ck, ck ≠ s.curBlock.ck → t.core ck = s.core ck)
      ∧ t.core s.curBlock.ck = { s.core s.curBlock.ck with divs := (t.core s.curBlock.ck).divs }

/-- 01 R37: the state of a warp of a stage at its start: every vector register is zero and tagged RAW, s0 to s62 are zero, m0 is all ones and m1 to m7 are
zero, FSTAT and the pending failure record are zero, SEED is that of R30, and slot 0 holds the one split: READY at the stage's entry point, with every
lane, JPC and JGRP 0 and AGE the current epoch; every other entry is FREE. -/
def Obligations.WarpStart : Prop :=
  ∀ (d : LaunchDesc) (bid lin clk : Nat) (places : List (Nat × Nat)) (k : Nat) (w : Warp), (k, w) ∈ newWarps d bid lin clk places →
    (∀ r, kgetD w.v r 0 = 0 ∧ kgetD w.sc r 0 = 0 ∧ kgetD w.tags r 0 = 0)
      ∧ kgetD w.m 0 0 = BitVec.allOnes 32 ∧ (∀ r, r ≠ 0 → kgetD w.m r 0 = 0)
      ∧ w.seed = d.lseed ^^^ BitVec.ofNat 64 (lin * 128) ^^^ BitVec.ofNat 64 (w.stage * 32) ^^^ BitVec.ofNat 64 w.widx
      ∧ w.fstat = 0 ∧ w.pfr = FailRec.empty ∧ w.locks = [] ∧ w.results = []
      ∧ ∃ p entry n, w.table = [(0, p)] ∧ p.st = .ready ∧ p.lmask = BitVec.allOnes 32 ∧ p.jgrp = 0 ∧ p.jpc = 0 ∧ p.age = w.epoch
          ∧ d.kern.stages[w.stage]? = some (entry, n, w.budget) ∧ w.widx < n ∧ p.pc = BitVec.ofNat 48 (d.code.toNat / 8 + entry)

/-! ## Control transfers -/

namespace Sys2Proof.Rules

/-- The split stands whole at `pc`, its lanes and join group unchanged: READY, issuing `lat` clk after the transfer, or once the results
of its span have returned (05 R112, 09 R239). -/
def Arrives (s : State) (w' : Warp) (p : Split) (pc : BitVec 48) (lat : Nat) : Prop :=
  ∃ p', kget? w'.table s.cur.2 = some p' ∧ p'.pc = pc ∧ p'.lmask = p.lmask ∧ p'.jgrp = p.jgrp ∧ p'.jpc = p.jpc
    ∧ (p'.st = .ready ∧ s.clk + lat ≤ p'.notBefore ∧ p'.notBefore ≤ max p.rdy (s.clk + lat)
        ∨ p'.st = .spanPark ∧ s.clk + lat ≤ p'.rdy)

/-- Transfers of control (05 R116 to R119, R125): JOFS, the latency, and each lane's target, with whether BRX takes it. -/
def transferRule (s : State) (p : Split) (i : Instr) : Option (BitVec 16 × Nat × (Nat → BitVec 48 × Bool)) :=
  let near (f : JFmt) : BitVec 48 := p.pc + f.bofs.signExtend 48
  let far (f : JFmt) : Nat → BitVec 48 × Bool := fun l => ((s.rdPair f.reg.toNat l).extractLsb' 0 48, false)
  match i with
  | .bra f => some (0, 4, fun _ => (near f, false))
  | .brc f =>
    let x := s.rdS f.reg.toNat
    let holds := match f.cc.toNat with
      | 0 => decide (x = 0) | 1 => decide (x ≠ 0) | 2 => x.slt 0 | 3 => !x.slt 0 | 4 => BitVec.slt 0 x | _ => !BitVec.slt 0 x
    if holds then some (0, 4, fun _ => (near f, false)) else none
  | .brx f =>
    if p.lmask &&& s.rdM f.reg.toNat = 0 then none
    else some (f.jofs, 4, fun l => if (s.rdM f.reg.toNat).getLsbD l then (near f, true) else (p.pc + 1, false))
  | .jmpi f | .ret f => some (f.jofs, 8, far f)
  | .yield _ => some (0, 2, fun _ => (p.pc + 1, false))
  | _ => none

/-- Calls (05 R119): the pair, JOFS, the latency and each lane's target. -/
def callRule (s : State) (p : Split) (i : Instr) : Option (Nat × BitVec 16 × Nat × (Nat → BitVec 48)) :=
  match i with
  | .call f => some (f.reg.toNat, 0, 4, fun _ => p.pc + f.bofs.signExtend 48)
  | .callInd f => some (f.reg.toNat, f.jofs, 8, fun l => (s.rdPair f.reg.toNat l).extractLsb' 0 48)
  | _ => none

/-- The pair that an instruction names for its targets or its return address, and whether it is read (05 R118, R119). -/
def targetPair (i : Instr) : Option (Nat × Bool) :=
  match i with
  | .jmpi f | .ret f | .callInd f => some (f.reg.toNat, true)
  | .call f => some (f.reg.toNat, false)
  | _ => none

/-- The pair lies below the budget, and a pair that is read holds N64 or RAW (01 R14, R23). -/
def PairPasses (s : State) (w : Warp) (i : Instr) : Prop :=
  ∀ r rd, targetPair i = some (r, rd) → r + 1 < w.budget ∧ (rd = true → s.tagOfReg r ∈ [0, 14] ∧ s.tagOfReg (r + 1) ∈ [0, 15])

/-- Instructions that go on in sequence and change nothing else (05 R116, R117, R120, R124, 08 R232, R233), with their switch
marker. -/
def sequenceRule (s : State) (p : Split) (i : Instr) : Option Bool :=
  match i with
  | .nop f => some f.sw
  | .brc f => if (transferRule s p i).isNone then some f.sw else none
  | .brx f => if (transferRule s p i).isNone then some f.sw else none
  | .join _ | .joinBnd _ => if p.jgrp = 0 ∨ p.pc ≠ p.jpc then some true else none
  | .bkpt f => if s.curLaunch.desc.debug then none else some f.sw
  | .ckpt _ => if s.curWarp.haltH = 0 then some true else none
  | _ => none

end Sys2Proof.Rules

/-- 05 R116, R117, R120, R124, 08 R232, R233: NOP, a branch not taken, JOIN outside its join PC, BKPT of a launch that is not under debug and CKPT without
a halt request advance the PC and change nothing else; JOIN and CKPT end the span. Constructors: nop. -/
def Obligations.GoesOnInSequence : Prop :=
  ∀ (s : State) (w : Warp) (p : Split) (i : Instr) (sw : Bool), Issuer s w p → sequenceRule s p i = some sw →
    ∃ t w', exec i s = .next t ∧ OnlyIssuer s t ∧ t.warp? s.cur.1 = some w' ∧ RegsKept w w' ∧ OthersKept w w' s.cur.2
      ∧ Proceeds w' s.cur.2 p sw 1

/-! ## Memory instructions -/

namespace Sys2Proof.Rules

/-- The address of a lane (02 R48): base, index and offset, modulo 2^64. -/
def laneAddr (s : State) (f : MFmt) (l : Nat) : Word :=
  s.rdS f.base.toNat + (if f.idx = 255 then 0 else (s.rdV f.idx.toNat l 1).signExtend 64) + f.ofs.signExtend 64

/-- The address of an instruction that acts once for the split (07 R176). -/
def onceAddr (s : State) (f : MFmt) : Word := s.rdS f.base.toNat + f.ofs.signExtend 64

/-- The active lanes. -/
def activeLanes (s : State) (f : MFmt) : List Nat := (List.range 32).filter (s.effective f.msk.toNat).getLsbD

/-- Registers that DATA names by SZ (07 R181). -/
def dataRule (f : MFmt) : List Nat :=
  if f.sz = 3 then [f.data.toNat, f.data.toNat + 1]
  else if f.sz = 4 then [f.data.toNat, f.data.toNat + 1, f.data.toNat + 2, f.data.toNat + 3]
  else [f.data.toNat]

def indexRule (f : MFmt) : List Nat := if f.idx = 255 then [] else [f.idx.toNat]
def indexTags (f : MFmt) : List (Nat × List Nat) := if f.idx = 255 then [] else [(f.idx.toNat, [0, 1, 2])]

/-- An operand of a store or an atomic with a type (07 R181, R190): each register holds the type or RAW; the odd register of a pair of
a 64-bit type HI64 or RAW. -/
def dataTags (ty : Nat) (f : MFmt) : List (Nat × List Nat) :=
  if ty = 0 then [] else if ty = 13 ∨ ty = 14 then accepted ty f.data.toNat else (dataRule f).map fun r => (r, [0, ty])

/-- The operand type that an atomic operation checks (07 R190): I32 or I64 for MIN and MAX, N32 or N64 for their unsigned forms, F32 for
FADD, FMIN and FMAX. -/
def atomTags (op : Nat) (f : MFmt) : List (Nat × List Nat) :=
  let r := f.data.toNat
  if op = 5 ∨ op = 6 then accepted (if f.sz = 3 then 13 else 1) r
  else if op = 7 ∨ op = 8 then accepted (if f.sz = 3 then 14 else 2) r
  else if 12 ≤ op ∧ op ≤ 14 then accepted 3 r
  else []

/-- A memory instruction (07 R175): the registers it names, the tags it checks, its addresses by lane (lowest first), and the size to which
an address must be aligned, 1 for a line. -/
structure MRule where
  f     : MFmt
  regs  : List Nat
  tags  : List (Nat × List Nat)
  addrs : List (Nat × Word)
  align : Nat

/-- The memory instructions of 07 R181 to R199 but local store, locks and prefetches. -/
def memRule (s : State) (i : Instr) : Option MRule :=
  let lanes (f : MFmt) : List (Nat × Word) := (activeLanes s f).map fun l => (l, laneAddr s f l)
  let size (f : MFmt) : Nat := 2 ^ f.sz.toNat
  match i with
  | .ld _ f => some ⟨f, dataRule f ++ indexRule f, indexTags f, lanes f, size f⟩
  | .st ty f => some ⟨f, dataRule f ++ indexRule f, dataTags ty.toNat f ++ indexTags f, lanes f, size f⟩
  | .lds f | .ldsSx f | .sts f => some ⟨f, [], [], [(0, onceAddr s f)], size f⟩
  | .lkqry f => some ⟨f, [], [], [(0, onceAddr s f)], 1⟩
  | .atom op f | .red op f => some ⟨f, dataRule f ++ indexRule f, atomTags op.toNat f ++ indexTags f, lanes f, size f⟩
  | .atomc f =>
    some ⟨f, (if f.sz = 3 then [f.data.toNat, f.data.toNat + 1, f.data.toNat + 2, f.data.toNat + 3] else [f.data.toNat, f.data.toNat + 1])
      ++ indexRule f, indexTags f, lanes f, size f⟩
  | .cwb f | .cinv f => some ⟨f, indexRule f, indexTags f, lanes f, 1⟩
  | _ => none

/-- Nothing stops the instruction at issue (07 R175): registers below the budget, tags that pass, canonical and aligned addresses. -/
def MRule.Passes (r : MRule) (s : State) (w : Warp) : Prop :=
  (∀ v ∈ r.regs, v < w.budget) ∧ (∀ c ∈ r.tags, (s.tagOfReg c.1).toNat ∈ c.2)
    ∧ ∀ a ∈ r.addrs, a.2.extractLsb' 57 3 = 0 ∧ a.2.toNat % r.align = 0

/-- A memory instruction has issued (07 R178, R180): its requests are under way; no byte of memory or local store, no register, mask or
lock of any warp has changed; the split goes on. A store may have reached the core's own L1 copy. -/
def MemIssued (s t : State) (w w' : Warp) (p : Split) (sw : Bool) : Prop :=
  t = { s with warps := t.warps, reqs := t.reqs, copies := t.copies, nextId := t.nextId, free := t.free }
    ∧ (∀ k, k ≠ s.cur.1 → t.warp? k = s.warp? k) ∧ (∀ k, k < s.nextId → kget? t.reqs k = kget? s.reqs k)
    ∧ t.warp? s.cur.1 = some w' ∧ RegsKeptButTags w w' ∧ OthersKept w w' s.cur.2 ∧ Proceeds w' s.cur.2 p sw 1

/-- A request of the issuer that this instruction has entered, with its kind, lanes, address, size, scope, ordering and hint. -/
def Sent (s t : State) (f : MFmt) (kind : ReqKind) (lanes : Lanes) (a : Word) (size : Nat) (r : Req) : Prop :=
  (∃ k, s.nextId ≤ k ∧ kget? t.reqs k = some r) ∧ r.kind = kind ∧ r.wid = s.cur.1 ∧ r.own = s.curSplit.lmask ∧ r.lanes = lanes
    ∧ r.va = a ∧ r.size = size ∧ r.scope = f.sc.toNat ∧ r.ord = f.fq.toNat ∧ r.asid = s.curLaunch.asid ∧ r.clk = s.clk

/-- The results of a request: registers that are to receive its values, in order. -/
def Fetches (w' : Warp) (r : Req) (lanes : Lanes) (l : List Dest) : Prop :=
  r.regs.length = l.length ∧ ∀ (n : Nat) (d : Dest), l[n]? = some d → ∃ id q, r.regs[n]? = some id ∧ kget? w'.results id = some q ∧ q.dest = d
    ∧ q.mem = true ∧ q.done = false ∧ q.pend = lanes

end Sys2Proof.Rules

/-- 07 R175, R178, R181, R183, R199, 01 R22: LD sends one load for each active lane and tags its registers at issue; LDS, LDS.sx and LKQRY send one
request for the split, whose value goes to s[DATA] (s63 discards it). -/
def Obligations.LoadsIssue : Prop :=
  ∀ (s : State) (w : Warp) (p : Split) (i : Instr) (r : MRule), Issuer s w p → i.wf = true → memRule s i = some r → r.Passes s w →
    (∀ ty f, i = .ld ty f → ∃ t w', exec i s = .next t ∧ MemIssued s t w w' p f.sw
      ∧ (∀ l ∈ activeLanes s f, ∃ q, Sent s t f .load (1#32 <<< l) (laneAddr s f l) (2 ^ f.sz.toNat) q ∧ q.hint = f.hnt.toNat
          ∧ q.sext = decide (ty = 1) ∧ Fetches w' q (s.effective f.msk.toNat) ((dataRule f).map .vec))
      ∧ (∀ n v, (dataRule f)[n]? = some v → TagSet s w w' v (if (ty = 13 ∨ ty = 14) ∧ n = 1 then 15 else ty))
      ∧ TagsKept w w' (dataRule f))
    ∧ (∀ f, i = .lds f ∨ i = .ldsSx f → ∃ t w' q, exec i s = .next t ∧ MemIssued s t w w' p f.sw ∧ RegsKept w w'
      ∧ Sent s t f .load p.lmask (onceAddr s f) (2 ^ f.sz.toNat) q ∧ q.sext = decide (i = .ldsSx f)
      ∧ Fetches w' q (BitVec.allOnes 32) [if f.data.toNat = 63 then .none else .sca f.data.toNat])
    ∧ (∀ f, i = .lkqry f → ∃ t w' q a, exec i s = .next t ∧ MemIssued s t w w' p f.sw ∧ RegsKept w w'
      ∧ Sent s t f .lkqry p.lmask a (s.grainAt s.curBlock.pkg s.curLaunch.asid (onceAddr s f).toNat) q
      ∧ a = BitVec.ofNat 64 (lineBase (onceAddr s f).toNat (s.grainAt s.curBlock.pkg s.curLaunch.asid (onceAddr s f).toNat))
      ∧ Fetches w' q (BitVec.allOnes 32) [if f.data.toNat = 63 then .none else .sca f.data.toNat])

/-- 07 R190 to R192, 02 R61: ATOM, ATOMC and RED send one request for each address that active lanes name, with the operands of its lanes in ascending
lane order; the fetching forms return their values to DATA, whose tags stay. -/
def Obligations.AtomicsIssue : Prop :=
  ∀ (s : State) (w : Warp) (p : Split) (i : Instr) (r : MRule) (f : MFmt) (op : Nat) (kind : ReqKind), Issuer s w p → i.wf = true →
    memRule s i = some r → r.Passes s w →
    ((∃ o, i = .atom o f ∧ op = o.toNat ∧ kind = .atom) ∨ (i = .atomc f ∧ op = 15 ∧ kind = .atom)
      ∨ ∃ o, i = .red o f ∧ op = o.toNat ∧ kind = .red) →
      let val (v l : Nat) : Word := if f.sz = 3 then s.rdPair v l else (s.rdV v l 1).setWidth 64
      let d := f.data.toNat
      let n := (dataRule f).length
      ∃ t w', exec i s = .next t ∧ MemIssued s t w w' p f.sw ∧ RegsKeptButTags w w' ∧ (∀ v, kgetD w'.tags v 0 = kgetD w.tags v 0)
        ∧ ∀ l ∈ activeLanes s f, ∃ q,
          let mine := (activeLanes s f).filter fun m => laneAddr s f m == laneAddr s f l
          Sent s t f kind (maskOf mine) (laneAddr s f l) (2 ^ f.sz.toNat) q ∧ q.op = op
            ∧ q.opnds = mine.map (fun m => (m, if op = 15 then (val (d + n) m, val d m) else (val d m, 0)))
            ∧ (kind = .atom → Fetches w' q (s.effective f.msk.toNat) ((dataRule f).map .vec))

/-! ## Local store, locks and waits -/

namespace Sys2Proof.Rules

/-- Nothing that the split has issued in its span is still to return (09 R239). -/
def Quiet (w : Warp) (p : Split) : Prop := ∀ q ∈ w.results, q.2.waits p = false

/-- A warp of which a split waits: registers, tags, masks, locks and records are as they were; the model's notes of its acquires and of its
WSYNCs may differ. -/
def KeptWaiting (w w' : Warp) : Prop :=
  w' = { w with table := w'.table, results := w'.results, whole := w'.whole, acqAt := w'.acqAt, wsyncs := w'.wsyncs }

/-- The split stands at its PC in a wait state, with its wait object and operand (01 R33, R34). -/
def Waits (w' : Warp) (slot : Nat) (p : Split) (st : SplitState) (wobj : Word) (waux : Lane) : Prop :=
  ∃ p', kget? w'.table slot = some p' ∧ p'.st = st ∧ p'.pc = p.pc ∧ p'.lmask = p.lmask ∧ p'.jgrp = p.jgrp ∧ p'.jpc = p.jpc
    ∧ p'.wobj = wobj ∧ p'.waux = waux

/-- The wait is over: READY at PC + 1, issuing no earlier than `lat` clk from now (09 R245). -/
def Woken (s : State) (w' : Warp) (slot : Nat) (p : Split) (lat : Nat) : Prop :=
  ∃ p', kget? w'.table slot = some p' ∧ p'.st = .ready ∧ p'.pc = p.pc + 1 ∧ p'.lmask = p.lmask ∧ p'.jgrp = p.jgrp ∧ p'.jpc = p.jpc
    ∧ p'.wobj = 0 ∧ p'.waux = 0 ∧ p'.notBefore = s.clk + lat

/-- A scalar result of a wait-type instruction, due `lat` clk from now in its place in issue order; s63 discards it. -/
def WaitResult (s : State) (w' : Warp) (key sd lat : Nat) (x : Word) : Prop :=
  ∃ k r, kget? w'.results k = some r ∧ r.dest = (if sd = 63 then .none else .sca sd) ∧ r.key = key ∧ r.due = s.clk + lat
    ∧ r.mem = false ∧ r.done = false ∧ r.sval = x

/-- Everything but the warp, its accesses under way and the model's counters is as it was. -/
def OnlyWarp (s t : State) (wid : Nat) : Prop :=
  t = { s with warps := t.warps, nextId := t.nextId, free := t.free } ∧ ∀ k, k ≠ wid → t.warp? k = s.warp? k

/-- An instruction that waits (09 R238), past the checks that could stop it. -/
def waitType (s : State) (w : Warp) (p : Split) (i : Instr) : Prop :=
  match i with
  | .fence _ | .cwait _ | .regang _ | .clkrd _ => True
  | .barwait f => f.lvl ≠ 2 ∨ (s.curLaunch.desc.wire f.num.toNat).isSome = true
  | .barsync f =>
    (f.lvl ≠ 2 ∨ (s.curLaunch.desc.wire f.num.toNat).isSome = true)
      ∧ kgetD w.arrSet (16 * f.lvl.toNat + f.num.toNat) 0 &&& p.lmask = 0
  | .wsync f => p.lmask &&& ~~~(s.rdS f.sa.toNat).extractLsb' 0 32 = 0
  | .join _ | .joinBnd _ => p.jgrp ≠ 0 ∧ p.pc = p.jpc
  | _ => False

/-- What an LDL or STL names (07 R184). -/
def localRule (i : Instr) : Option (MFmt × Bool × List (Nat × List Nat)) :=
  match i with
  | .ldl _ f => some (f, false, indexTags f)
  | .stl ty f => some (f, true, dataTags ty.toNat f ++ indexTags f)
  | _ => none

end Sys2Proof.Rules

/-- 07 R206, R207, R208, 08 R234, R237: CSIG that nothing earlier of its warp holds back at its scope adds its increment to the block's counter at once,
and goes on; a CWAIT whose target is reached is then woken. One that is held back is posted and the split goes on. WSYNC of a mask that lacks a lane
of the split takes SYNCMASK. Constructors: csig, wsync. -/
def Obligations.SignalsIssue : Prop :=
  ∀ (s : State) (w : Warp) (p : Split) (f : XFmt), Issuer s w p →
    (s.signalReady s.cur.1 s.nextId f.sc.toNat = true → (s.warps.map Prod.fst).Nodup → (s.block? w.block).isSome = true →
      (∀ k v, s.warp? k = some v → v.block = w.block → ∀ q ∈ v.table, q.2.eff ≠ .cntWait) →
      ∃ t w', exec (.csig f) s = .next t ∧ t.warp? s.cur.1 = some w' ∧ RegsKept w w' ∧ OthersKept w w' s.cur.2
        ∧ Proceeds w' s.cur.2 p f.sw 1
        ∧ (t.blockD w.block).counters
            = kput s.curBlock.counters f.num.toNat (kgetD s.curBlock.counters f.num.toNat 0 + BitVec.ofNat 64 f.imm.toNat)
        ∧ t.mem = s.mem ∧ (∀ k, k ≠ s.cur.1 → t.warp? k = s.warp? k))
    ∧ (s.signalReady s.cur.1 s.nextId f.sc.toNat = false → ∀ i, i = .csig f ∨ i = .evnt f →
      ∃ t w' k x, exec i s = .next t ∧ t.warp? s.cur.1 = some w' ∧ RegsKept w w' ∧ OthersKept w w' s.cur.2 ∧ Proceeds w' s.cur.2 p f.sw 1
        ∧ t = { s with warps := t.warps, posts := t.posts, nextId := t.nextId, free := t.free }
        ∧ kget? t.posts k = some x ∧ x.wid = s.cur.1 ∧ x.num = f.num.toNat ∧ x.val = f.imm.toNat ∧ x.scope = f.sc.toNat
        ∧ x.evnt = decide (i = .evnt f))
    ∧ (p.lmask &&& ~~~(s.rdS f.sa.toNat).extractLsb' 0 32 ≠ 0 → ∃ t, exec (.wsync f) s = .next t
        ∧ TakesFault s t w p 0x11 (((s.rdS f.sa.toNat).extractLsb' 0 32).setWidth 64))

/-! ## Accesses on their way -/

namespace Sys2Proof.Rules

/-- The bytes `l` stand from `a` up, and every other byte of memory is as it was. -/
def Puts (s t : State) (a : Nat) (l : List Byte) : Prop :=
  (∀ i b, l[i]? = some b → memGet t.mem (a + i) = b) ∧ ∀ j, (j < a ∨ a + l.length ≤ j) → memGet t.mem j = memGet s.mem j

/-- A request has reached its home, whose memory controller accepts it, and nothing earlier holds it back (09 R255, 11 R301). -/
def AtHome (s : State) (id : Nat) (r : Req) (leaf : Word) : Prop :=
  kget? s.reqs id = some r ∧ r.phase = .out ∧ r.arrive ≤ s.clk ∧ s.linkHolds r = false ∧ s.mayMake r = true ∧ s.homeState r = .ok leaf

/-- The checks of a write at its home pass (11 R295), and the home region holds its sectors. -/
def HomePasses (s : State) (r : Req) (leaf : Word) : Prop :=
  r.permitted leaf = true ∧ s.readOnly r = false ∧ s.lineLost r leaf = false ∧ s.homeTagOk r leaf = true ∧ s.slowHome r = false

/-- No copy holds a byte that its home has not: none writes memory when it makes room (11 R293). -/
def CleanCopies (s : State) : Prop := ∀ c ∈ s.copies, c.2.dirty = []

/-- Nothing changes but memory and its copies, directories, requests and invalidations, and the logical time of cores. -/
def MemorySide (s t : State) : Prop :=
  t = { s with mem := t.mem, memPoison := t.memPoison, reqs := t.reqs, copies := t.copies, homes := t.homes, dirs := t.dirs, invals := t.invals
               wclock := t.wclock, cores := t.cores, nextId := t.nextId }
    ∧ ∀ ck, t.core ck = { s.core ck with ltime := (t.core ck).ltime }

/-- The value that an atomic leaves (07 R190, R191): `old` and the operand `b` of `n` bits, the compare value `c`. -/
def atomicRule (op n old b c : Nat) : Nat :=
  match op with
  | 0 => (BitVec.ofNat n old + BitVec.ofNat n b).toNat
  | 1 => (BitVec.ofNat n old - BitVec.ofNat n b).toNat
  | 2 => (BitVec.ofNat n old &&& BitVec.ofNat n b).toNat
  | 3 => (BitVec.ofNat n old ||| BitVec.ofNat n b).toNat
  | 4 => (BitVec.ofNat n old ^^^ BitVec.ofNat n b).toNat
  | 5 => if (BitVec.ofNat n b).slt (BitVec.ofNat n old) then b else old
  | 6 => if (BitVec.ofNat n old).slt (BitVec.ofNat n b) then b else old
  | 7 => if b < old then b else old
  | 8 => if old < b then b else old
  | 9 => b
  | 10 => if old ≥ b then 0 else old + 1
  | 11 => if old = 0 ∨ old > b then b else old - 1
  | 15 => if old = c then b else old
  | _ => atomNew op n old b c

/-- The lanes of a group applied one after another (07 R192): `v k` is what the first `k` of them leave, and each takes as its old
value what the one before it left. -/
def Sequence (r : Req) (v : Nat → Nat) (old : List (Nat × Word)) : Prop :=
  ∀ k l b c, r.opnds[k]? = some (l, b, c) →
    v (k + 1) = atomicRule r.op (8 * r.size) (v k) (b.toNat % 2 ^ (8 * r.size)) (c.toNat % 2 ^ (8 * r.size))
      ∧ old[k]? = some (l, BitVec.ofNat 64 (v k))

end Sys2Proof.Rules

/-! ## Copies, stages, look-ups and lost entries -/

namespace Sys2Proof.Rules

/-- A record of four words is posted to the driver's fault queue (16 R386, R389): written at the producer's place, or held in order while the queue has no
room. -/
def FqPosted (s t : State) (r : List Word) : Prop :=
  if s.fe.fqHeld = [] ∧ ringCount s.fe.fqprod s.fe.fqcons < 2 ^ s.fe.fqlog then
    t.mem = (s.feWrite s.drvAsid (s.fe.fqbase.toNat + 32 * (s.fe.fqprod % 2 ^ s.fe.fqlog)) (r.flatMap fun w => natBytes w.toNat 8)).mem
      ∧ t.fe = { s.fe with fqprod := (s.fe.fqprod + 1) % 2 ^ 32 }
  else t.mem = s.mem ∧ t.fe = { s.fe with fqHeld := s.fe.fqHeld ++ [r] }

/-- Words of such a record from its fields (16 R386): place and value. -/
def fqWord (l : List (Nat × Nat)) : Word := BitVec.ofNat 64 ((l.map fun q => q.2 * 2 ^ q.1).sum)

/-- Signal `n` is pending at every firmware core of a die (16 R391). -/
def Signalled (t : State) (dk n : Nat) : Prop := ∀ i, i < 4 → (kgetD (t.die dk).fw i FwCore.reset).sig.getLsbD n = true

/-- A telemetry counter of a die has counted one event (17 R406). -/
def Counted (s t : State) (dk n : Nat) : Prop :=
  kgetD (t.die dk).counters n 0 = min (2 ^ 64 - 1) (kgetD (s.die dk).counters n 0 + 1)

end Sys2Proof.Rules

/-! ## System instructions, releases and locks at their home -/

namespace Sys2Proof.Rules

/-- A record of 32 bytes is appended to a queue's event ring, its phase bit 1 on the first pass and flipped on each wrap (15 R363); a full ring drops it and
counts the loss (08 R234). -/
def EventAppended (s t : State) (q kind status tag launch node body : Nat) : Prop :=
  let x := s.queueD q
  if 2 ^ x.elog ≤ ringCount x.eprod x.econs then
    t.mem = s.mem ∧ t.queues = kmod s.queues q fun x => { x with eovf := (x.eovf + 1) % 2 ^ 32 }
  else
    t.mem = (s.feWrite s.drvAsid (x.evr.toNat + 32 * (x.eprod % 2 ^ x.elog))
        (natBytes (kind + 2 ^ 8 * status + 2 ^ 16 * q + 2 ^ 32 * tag) 8 ++ natBytes (launch + 2 ^ 16 * node) 8
          ++ natBytes (body % 2 ^ 127 + 2 ^ 127 * ((x.eprod / 2 ^ x.elog + 1) % 2)) 16)).mem
      ∧ t.queues = kmod s.queues q fun x => { x with eprod := (x.eprod + 1) % 2 ^ 32 }

/-- The record of an EVNT (08 R234, 15 R363): the block's coordinates, WARP.WBLK, n and value. -/
def EvntAppended (s t : State) (wid n value : Nat) : Prop :=
  let b := s.blockOf wid
  EventAppended s t (s.launchOf wid).queue 0 0 (s.launchOf wid).tag b.launch 0
    (b.bx + 2 ^ 32 * b.by_ + 2 ^ 48 * b.bz + 2 ^ 64 * (s.warpD wid).wblk + 2 ^ 69 * n + 2 ^ 74 * value)

/-- The keys of a map do not repeat. -/
def Unique {α : Type} (m : KMap α) : Prop := (m.map Prod.fst).Nodup

/-- A status is on its way to a waiter (07 R197, 12 R313). -/
def Granted (t : State) (wid line code ahead : Nat) : Prop :=
  ∃ k g, kget? t.grants k = some g ∧ g.wid = wid ∧ g.line = line ∧ g.code = code ∧ g.ahead = ahead

/-- The lock is held by a warp at its place, and no mark stands (12 R311, R313). -/
def HeldBy (e e' : LockEntry) (wid pkg die core : Nat) (queue : List Waiter) : Prop :=
  e' = { e with holder := some wid, hpkg := pkg, hdie := die, hcore := core, saved := false, broken := false, lostHolder := false, queue := queue }

end Sys2Proof.Rules

/-- 02 R51, 08 R232, R233, R234, R235, 09 R250: TRAP takes the exception TRAP with its immediate; BKPT does so under debug, and is otherwise a step to PC
+ 1; HALTW takes HALTW and stops its warp; CKPT ends the span and, under a halt request, halts the split at PC + 1 with the live set of its checkpoint
entry, or the whole allocation; EVNT whose release holds appends its record at once. Constructors: trap, bkpt, haltw, ckpt, evnt. -/
def Obligations.SystemInstructions : Prop :=
  ∀ (s : State) (w : Warp) (p : Split) (f : XFmt), Issuer s w p →
    (∃ t, exec (.trap f) s = .next t ∧ TakesFault s t w p 0x18 (f.imm.setWidth 64))
    ∧ (s.curLaunch.desc.debug = true → ∃ t, exec (.bkpt f) s = .next t ∧ TakesFault s t w p 0x19 (f.imm.setWidth 64))
    ∧ (s.curLaunch.desc.debug = false → ∃ t w', exec (.bkpt f) s = .next t ∧ OnlyIssuer s t ∧ t.warp? s.cur.1 = some w' ∧ RegsKept w w'
        ∧ OthersKept w w' s.cur.2 ∧ Proceeds w' s.cur.2 p f.sw 1)
    ∧ (∃ u, exec (.haltw f) s = .next (u.modWarp s.cur.1 fun w => { w with stopped := true }) ∧ TakesFault s u w p 0x1A 0)
    ∧ (∃ t w', exec (.ckpt f) s = .next t ∧ OnlyIssuer s t ∧ t.warp? s.cur.1 = some w' ∧ OthersKept w w' s.cur.2 ∧ Proceeds w' s.cur.2 p true 1
        ∧ w' = { w with table := w'.table, results := w'.results, ckpts := w'.ckpts, whole := w'.whole }
        ∧ (w.haltH = 0 → w'.ckpts = w.ckpts ∧ w'.whole = w.whole ∧ (kget? w'.table s.cur.2).map (·.halted) = some p.halted)
        ∧ (w.haltH ≠ 0 → (kget? w'.table s.cur.2).map (·.halted) = some true
            ∧ match s.checkpoint s.curLaunch p.pc with
              | some e => w'.ckpts = w.ckpts ++ [e] ∧ w'.whole = w.whole
              | none => w'.whole = true))
    ∧ (s.signalReady s.cur.1 s.nextId f.sc.toNat = true → ∃ t w', exec (.evnt f) s = .next t ∧ t.warp? s.cur.1 = some w' ∧ RegsKept w w'
        ∧ OthersKept w w' s.cur.2 ∧ Proceeds w' s.cur.2 p f.sw 1 ∧ EvntAppended s t s.cur.1 f.num.toNat f.imm.toNat)

/-- 01 R31, R32, 07 R196, R200, R207, 08 R234: FENCE_COMPLETE notes the clk in which the accesses that a FENCE waits for are complete; 2 clk later, in one
clk, it writes the pending failure record, with the scope, to the scalar and to FSTAT and clears it, and the split goes on; UNLOCK_DEPART sends the
unlock once the warp's earlier accesses are complete at its scope and those to the line are made; CSIG_APPLY and EVNT_APPEND take effect once the
earlier accesses are complete. Constructors: fenceComplete, unlockDepart, evntAppend, csigApply. -/
def Obligations.Releases : Prop :=
  (∀ (s : State) (wid slot : Nat) (w : Warp) (p : Split) (sd sc seq key : Nat), s.warp? wid = some w → kget? w.table slot = some p →
      p.after = .fence sd sc seq key 0 → p.st = .spanPark → w.outstanding p = false → s.priorDone wid seq sc = true →
      ∃ t w', exec (.fenceComplete wid slot) s = .next t ∧ t = { s with warps := t.warps } ∧ (∀ k, k ≠ wid → t.warp? k = s.warp? k)
        ∧ t.warp? wid = some w' ∧ w' = { w with table := w'.table } ∧ OthersKept w w' slot
        ∧ kget? w'.table slot = some { p with after := .fence sd sc seq key (max (max p.rdy (s.clk + 2)) 1) })
  ∧ (∀ (s : State) (wid slot : Nat) (w : Warp) (p : Split) (sd sc seq key due : Nat), s.warp? wid = some w → kget? w.table slot = some p →
      Unique w.table → p.after = .fence sd sc seq key due → p.st = .spanPark → due ≠ 0 → due ≤ s.clk →
      (∀ q ∈ w.table, q.1 ≠ slot → ∀ a b c d e, q.2.after = .fence a b c d e → e = 0 ∨ s.clk < e) →
      let word := fieldsOf [(0, if w.pfr.causes.toNat / 2 % 32 = 0 then 0 else 1), (1, w.pfr.causes.toNat / 2 % 64), (8, sc), (16, w.pfr.count),
        (32, w.pfr.pkg), (41, w.pfr.die)]
      ∃ t w', exec (.fenceComplete wid slot) s = .next t ∧ t = { s with warps := t.warps, nextId := t.nextId, cores := t.cores, copies := t.copies }
        ∧ t.warp? wid = some w' ∧ w' = { w with table := w'.table, sc := w'.sc, scKey := w'.scKey, fstat := word, pfr := FailRec.empty, acqAt := w'.acqAt, fenceSc := max w.fenceSc (sc + 1) }
        ∧ (sd < 63 → w.laterScalar key sd 0 true = false → kgetD w.scKey sd 0 ≤ key → kgetD w'.sc sd 0 = word)
        ∧ (sd = 63 ∨ w.laterScalar key sd 0 true = true → w'.sc = w.sc) ∧ (∀ j, j ≠ sd → kgetD w'.sc j 0 = kgetD w.sc j 0) ∧ OthersKept w w' slot
        ∧ ∃ p', kget? w'.table slot = some p' ∧ p'.st = .ready ∧ p'.pc = p.pc + 1 ∧ p'.lmask = p.lmask ∧ p'.notBefore = s.clk)
  ∧ (∀ (s : State) (id : Nat) (r : Req), kget? s.reqs id = some r → r.kind = .unlock → r.phase = .held → s.signalReady r.wid r.seq r.scope = true →
      (∀ q ∈ s.reqs, q.2.from r.wid = true → q.2.seq < r.seq → q.2.kind = .store → q.2.overlaps r = true → q.2.unmade = false) →
      ∃ t r', exec (.unlockDepart id) s = .next t ∧ t = { s with reqs := t.reqs } ∧ kget? t.reqs id = some r' ∧ r'.clk = s.clk
        ∧ (r'.phase = .out ∨ r'.phase = .plc) ∧ s.clk ≤ r'.arrive)
  ∧ (∀ (s : State) (id : Nat) (x : Post), kget? s.posts id = some x → s.signalReady x.wid x.seq x.scope = true →
      (x.evnt = true → ∃ t, exec (.evntAppend id) s = .next t ∧ t.posts = kdel s.posts id ∧ t.warps = s.warps
        ∧ EvntAppended s t x.wid x.num x.val)
      ∧ (x.evnt = false → (s.block? (s.warpD x.wid).block).isSome = true → Unique s.warps →
          (∀ k v, s.warp? k = some v → v.block = (s.warpD x.wid).block → ∀ q ∈ v.table, q.2.eff ≠ .cntWait) →
          ∃ t, exec (.csigApply id) s = .next t ∧ t = { s with posts := kdel s.posts id, blocks := t.blocks }
            ∧ t.blockD (s.warpD x.wid).block = { s.blockOf x.wid with
                counters := kput (s.blockOf x.wid).counters x.num (kgetD (s.blockOf x.wid).counters x.num 0 + BitVec.ofNat 64 x.val) }))

/-! ## Splits at run time, instruction fetch, local store -/

/-! ## Vector values and faults -/

namespace Sys2Proof.Rules

/-- An integer instruction on elements (06 R136, R137): its type, destination, mask field, SAT, the lane values of its sources (lane, then value), and the
exact result of elements a, b and c. -/
structure ERule where
  ty  : Nat
  vd  : Nat
  msk : Nat
  sat : Bool
  a   : Nat → Nat
  b   : Nat → Nat
  c   : Nat → Nat
  h   : Int → Int → Int → Int

/-- Bits of an element of an integer type (01 R21). -/
def intWidth (ty : Nat) : Nat := match ty with | 4 | 5 => 16 | 8 | 9 => 8 | 13 | 14 => 64 | _ => 32

/-- The lane value of a register operand, or pair (01 R15). -/
def laneValue (s : State) (ty r l : Nat) : Nat :=
  if ty = 13 ∨ ty = 14 then (s.rdV (r + 1) l 1).toNat * 2 ^ 32 + (s.rdV r l 1).toNat else (s.rdV r l (32 / intWidth ty)).toNat

/-- The operand at VB or VC: a register, or a scalar in every lane (02 R44). -/
def anyValue (s : State) (scalar : Bool) (ty r l : Nat) : Nat :=
  if scalar then (if ty = 13 ∨ ty = 14 then (s.rdS (r % 64)).toNat else (s.rdS (r % 64)).toNat % 2 ^ 32) else laneValue s ty r l

/-- The element of a lane value, and the integer that it stands for. -/
def element (n x e : Nat) : Nat := x / 2 ^ (n * e) % 2 ^ n
def valueOf (ty x : Nat) : Int :=
  if (ty = 1 ∨ ty = 4 ∨ ty = 8 ∨ ty = 13) ∧ 2 ^ (intWidth ty - 1) ≤ x then (x : Int) - 2 ^ intWidth ty else x

/-- An exact result reduced (04 R78): clamped to the range of the type under SAT, else modulo 2^n. -/
def reduced (sat : Bool) (ty : Nat) (x : Int) : Nat :=
  let n := intWidth ty
  let lo : Int := if ty = 1 ∨ ty = 4 ∨ ty = 8 ∨ ty = 13 then -(2 ^ (n - 1)) else 0
  let hi : Int := if ty = 1 ∨ ty = 4 ∨ ty = 8 ∨ ty = 13 then 2 ^ (n - 1) - 1 else 2 ^ n - 1
  ((if sat then max lo (min hi x) else x) % 2 ^ n).toNat

/-- The integer arithmetic of opcode 0x20 and its immediate forms. -/
def elementRule (s : State) (i : Instr) : Option ERule :=
  let rule (f : AFmt) (sat : Bool) (h : Int → Int → Int → Int) : Option ERule :=
    some ⟨f.ty.toNat, f.vd.toNat, f.msk.toNat, sat, laneValue s f.ty.toNat f.va.toNat, anyValue s (f.flag flScb) f.ty.toNat f.vb.toNat,
      anyValue s (f.flag flScc) f.ty.toNat f.vc.toNat, h⟩
  let imm (f : BFmt) (h : Int → Int → Int → Int) : Option ERule :=
    some ⟨f.ty.toNat, f.vd.toNat, f.msk.toNat, f.sat, laneValue s f.ty.toNat f.va.toNat, fun _ => f.imm.toNat, fun _ => 0, h⟩
  match i with
  | .vadd f => rule f (f.flag flSat) fun a b _ => a + b
  | .vsub f => rule f (f.flag flSat) fun a b _ => a - b
  | .vmul f => rule f (f.flag flSat) fun a b _ => a * b
  | .vmulh f => rule f false fun a b _ => a * b / 2 ^ intWidth f.ty.toNat
  | .vmad f => rule f (f.flag flSat) fun a b c => a * b + c
  | .vmin f => rule f false fun a b _ => min a b
  | .vmax f => rule f false fun a b _ => max a b
  | .vabs f => rule f (f.flag flSat) fun a _ _ => if a < 0 then -a else a
  | .vneg f => rule f (f.flag flSat) fun a _ _ => -a
  | .vavg f => rule f false fun a b _ => (a + b + 1) / 2
  | .vaddImm f => imm f fun a b _ => a + b
  | .vsubImm f => imm f fun a b _ => a - b
  | .vmulImm f => imm f fun a b _ => a * b
  | .vminImm f => imm f fun a b _ => min a b
  | .vmaxImm f => imm f fun a b _ => max a b
  | _ => none

/-- The registers of a vector instruction lie below the budget and its tags pass (01 R14, R23). -/
def VRule.Passes (r : VRule) (s : State) (w : Warp) : Prop :=
  (∀ v ∈ r.regs, v < w.budget) ∧ (r.rawok = true ∨ ∀ c ∈ r.tags, (s.tagOfReg c.1).toNat ∈ c.2)

end Sys2Proof.Rules

/-- 04 R78, 06 R136, R137: each element of the result is the exact integer result of the elements, clamped under SAT, else reduced modulo 2^n; a 64-bit
type takes its elements from pairs and writes a pair. -/
def Obligations.IntegerElements : Prop :=
  ∀ (s : State) (w : Warp) (p : Split) (i : Instr) (r : VRule) (q : ERule), Issuer s w p → i.wf = true → vecRule s i = some r → r.Passes s w →
    elementRule s i = some q →
      let n := intWidth q.ty
      let val (x l e : Nat) : Prop := element n x e
        = reduced q.sat q.ty (q.h (valueOf q.ty (element n (q.a l) e)) (valueOf q.ty (element n (q.b l) e)) (valueOf q.ty (element n (q.c l) e)))
      ∃ t w' x, exec i s = .next t ∧ t.warp? s.cur.1 = some w' ∧ kget? w'.results s.nextId = some x ∧ x.dest = .vec q.vd
        ∧ (n ≤ 32 → ∀ l e, (s.effective q.msk).getLsbD l = true → e < 32 / n → ∃ y, kget? x.vals l = some y ∧ val y.toNat l e)
        ∧ (n = 64 → ∃ z, kget? w'.results (s.nextId + 1) = some z ∧ z.dest = .vec (q.vd + 1) ∧
            ∀ l, (s.effective q.msk).getLsbD l = true → ∃ lo hi, kget? x.vals l = some lo ∧ kget? z.vals l = some hi
              ∧ val (hi.toNat * 2 ^ 32 + lo.toNat) l 0)

/-! ## Engine commands -/

namespace Sys2Proof.Rules

/-- A command of the engines (08 R211, R218, R221, R226, R229, R230): its kind, fields and descriptors, and its checks in the order of its entry: whether one
fails, with the fault code and INFO. -/
structure GRule where
  kind : WorkKind
  f    : EFmt
  td1  : BitVec 128
  td2  : BitVec 128
  td3  : BitVec 128
  checks : List (Bool × Nat × Word)

/-- The value of a descriptor that a command copies: commands of the clk of a TDESC copy the old value (08 R220). -/
def copied (s : State) (n : BitVec 4) : BitVec 128 :=
  let d := kgetD s.curBlock.descs n.toNat ⟨0, 0, 0, 0⟩
  if d.clk = s.clk + 1 then d.prev else d.val

/-- The usable limit of the block's local store (01 R27). -/
def limit (s : State) : Nat := s.curBlock.alloc - 1536 * s.curBlock.warps

/-- The commands and their checks. -/
def commandRule (s : State) (i : Instr) : Option GRule :=
  let a (f : EFmt) : Word := s.rdS f.sa.toNat
  let b (f : EFmt) : Word := s.rdS f.sb.toNat
  let ofs (f : EFmt) : Nat := (a f).toNat % 2 ^ 27
  let invalid (n : BitVec 4) (check : Nat) : Nat × Word := (0x08, BitVec.ofNat 64 (n.toNat + 2 ^ 8 * check))
  let status (f : EFmt) : Bool × Nat × Word := (f.xw && decide (limit s ≤ f.ext.toNat % 2 ^ 27), 0x09, f.ext)
  let cpy (f : EFmt) (k : WorkKind) : Option GRule :=
    let d := copied s f.td1
    let z := tagSize (tdTag d)
    some ⟨k, f, d, 0, 0, [(!d.getLsbD 127, invalid f.td1 1), ((a f).extractLsb' 57 3 != 0, 0x0A, a f), ((a f).toNat % z != 0, 0x0B, a f),
      ((b f).toNat % z != 0, 0x0B, b f), status f]⟩
  let list (f : EFmt) (k : WorkKind) : Option GRule :=
    let d := copied s f.td1
    some ⟨k, f, d, 0, 0, [(!d.getLsbD 127, invalid f.td1 1), (decide (limit s < ofs f + 8 * tdLines d), 0x09, BitVec.ofNat 64 (ofs f)),
      (ofs f % 8 != 0, 0x0B, BitVec.ofNat 64 (ofs f)), status f]⟩
  let task (f : EFmt) (k : WorkKind) : Option GRule :=
    let d := copied s f.td1
    let x := copied s f.td2
    let y := if k = .taskCvt then 0 else copied s f.td3
    let c := taskCheck (k == .taskCvt) d x y
    let n := if c = 1 ∧ d.getLsbD 127 = true then (if x.getLsbD 127 then f.td3 else f.td2) else f.td1
    some ⟨k, f, d, x, y, [(c != 0, invalid n c), status f]⟩
  let store (f : EFmt) (n : Nat) : Bool × Nat × Word :=
    (ofs f % 16 != 0 || decide (limit s < ofs f + n), 0x09, BitVec.ofNat 64 (ofs f))
  match i with
  | .cpy f => cpy f .cpyIn
  | .cpyOut f => cpy f .cpyOut
  | .cpyLocal f =>
    let d := copied s f.td1
    let x := copied s f.td2
    some ⟨.cpyLocal, f, d, x, 0, [(!d.getLsbD 127, invalid f.td1 1), (!x.getLsbD 127, invalid f.td2 1),
      (!(d.extractLsb' 32 16 == x.extractLsb' 32 16 && d.extractLsb' 64 4 == x.extractLsb' 64 4), invalid f.td1 2), status f]⟩
  | .cpyg f => list f .gather
  | .cpygScatter f => list f .scatter
  | .task f => task f .task
  | .taskOvr f => task f .taskOvr
  | .taskCvt f => task f .taskCvt
  | .kmv f => some ⟨.kmv, f, 0, 0, 0, [store f 64, status f]⟩
  | .mcst f => some ⟨.mcst, f, 0, 0, 0, [store f 256, ((b f).extractLsb' 57 3 != 0, 0x0A, b f), ((b f).toNat % 256 != 0, 0x0B, b f), status f]⟩
  | .msgx f => some ⟨.msgx, f, 0, 0, 0, [store f (16 * (((b f).extractLsb' 32 4).toNat + 1)), status f]⟩
  | _ => none

/-- The queue of a command, and its entries for each core (08 R213). -/
def queueOf (k : WorkKind) : Nat × Nat :=
  match k with
  | .cpyIn | .cpyOut | .cpyLocal | .gather | .scatter => (0, 64)
  | .task | .taskOvr | .taskCvt => (1, 256)
  | .kmv => (2, 32)
  | .mcst | .msgx => (3, 64)

/-- Work in the queue of the issuer's core. -/
def queued (s : State) (k : WorkKind) : Nat :=
  (s.works.filter fun q => (queueOf q.2.kind).1 == (queueOf k).1 && (s.blockD q.2.block).ck == s.curBlock.ck).length

/-- A descriptor value that TDESC writes (01 R25, R411, 08 R220). -/
def descriptorOk (v : BitVec 128) (limit : Nat) : Prop :=
  v.extractLsb' 27 5 = 0 ∧ v.extractLsb' 71 9 = 0 ∧ v.extractLsb' 123 4 = 0
    ∧ (v.getLsbD 127 = true → v.extractLsb' 0 4 = 0 ∧ v.extractLsb' 48 16 ≠ 0 ∧ v.extractLsb' 68 2 ≠ 3
        ∧ (v.extractLsb' 64 4).toNat ∈ [1, 3, 6, 7, 8, 9, 10, 11, 12, 15] ∧ (tdRange v).2 ≤ limit
        ∧ (v.extractLsb' 64 4 ≠ 15 → v.extractLsb' 80 16 = 0))

end Sys2Proof.Rules

/-! ## Reset, the invariant of every step, the firmware cores -/

namespace Sys2Proof.Rules

/-- A firmware core, numbered 4 * die key + core, becomes `c'`; nothing else of its die and no other die changes. -/
def CoreBecomes (s t : State) (n : Nat) (c' : FwCore) : Prop :=
  t.dies = (s.modDie (n / 4) fun d => { d with fw := (t.die (n / 4)).fw }).dies ∧ t.fwCore n = c' ∧ ∀ k, k ≠ n → t.fwCore k = s.fwCore k

/-- The core has written rd and goes on at the next instruction; nothing else of it changes but SRAM and SIG. -/
def Wrote (c c' : FwCore) (rd : Nat) (v : Word) : Prop :=
  c' = { c with x := c'.x, pc := c.pc + 4, sram := c'.sram, sig := c'.sig, wait := none, disp := none }
    ∧ (rd ≠ 0 → c'.reg rd = v) ∧ ∀ r, r ≠ rd → c'.reg r = c.reg r

/-- The core has taken an exception: no register, byte of SRAM or signal changes (16 R392); what it saves besides, and where it goes, is log 6. -/
def Trapped (c c' : FwCore) (cause : Nat) (val : Word) : Prop :=
  c' = { c with mcause := BitVec.ofNat 64 cause, mtval := val, mepc := c.pc, mpp := c.user, user := false, mpie := c.mie, mie := false
                pc := c.mtvec &&& ~~~(3 : Word), wait := none }

/-- A command stands at the head of a core's queue and is taken off it; everything else of the core is for the command to say. -/
def Command (s t : State) (ck op : Nat) (x : FwCmd) : Prop :=
  (∃ rest, (s.core ck).cmds = x :: rest ∧ (t.core ck).cmds = rest) ∧ x.op = op ∧ ∀ k, k ≠ ck → t.core k = s.core k

/-- The exceptions of DISPATCH (16 R393). -/
def DispatchRefused (s : State) (n : Nat) (a b : Word) (opc : Nat) : Prop :=
  let t := (b.extractLsb' 0 6).toNat
  a.toNat % 64 ≠ 0 ∨ (48 ≤ t ∧ t ≤ 62) ∨ (b.getLsbD 22 = false ∧ t < 48 ∧ s.coreLive (48 * (n / 4) + t) = false)
    ∨ (b.getLsbD 22 = false ∧ b.extractLsb' 6 19 ≠ 0) ∨ b.extractLsb' 25 39 ≠ 0 ∨ ¬(1 ≤ opc ∧ opc ≤ 4) ∨ (opc = 2 ∧ b.getLsbD 22 = true)

/-- The dies that DISPATCH with REMOTE 1 names (16 R393). -/
def Names (s : State) (b : Word) (dk : Nat) : Prop :=
  (if b.getLsbD 24 then s.pkgLive (dk / 128) = true else dk / 128 = (b.extractLsb' 13 9).toNat)
    ∧ (if b.getLsbD 23 then s.dieLive dk = true else dk % 128 = (b.extractLsb' 6 7).toNat)

end Sys2Proof.Rules

/-- 01 R29, R30, 07 R194, 09 R242, 12 R325, 15 R355, R364, 16 R377, R381, R390, 17 R404, R407: the state right after a cold reset: CLK is 0; every queue
is ABSENT, no launch is in flight and the first launch takes id 0, the first choice of each port and of each priority the lowest; the fault queue's
registers are 0 and the default LOCK timeout 1,200,000; every generation is 0; PLANEEN is all ones, REJOINS, PSTATE, ENERGY and the telemetry are 0;
multicast groups have no member. The memory is in its canonical form. -/
def Obligations.ResetState : Prop :=
  State.reset.clk = 0 ∧ State.reset.queues = [] ∧ State.reset.launches = [] ∧ State.reset.warps = [] ∧ State.reset.copies = []
    ∧ State.reset.groups = [] ∧ State.reset.steers = [] ∧ State.reset.fe.fqbase = 0 ∧ State.reset.fe.fqlog = 0 ∧ State.reset.fe.fqprod = 0 ∧ State.reset.fe.fqcons = 0
    ∧ State.reset.fe.lockto = 1200000 ∧ State.reset.fe.lastLaunch = 65535 ∧ (∀ p, kgetD State.reset.fe.ptrs p 4095 = 4095)
    ∧ (∀ p, (State.reset.pkg p).planeen = BitVec.allOnes 128 ∧ (State.reset.pkg p).rejoins = 0 ∧ (State.reset.pkg p).pstate = 0
        ∧ (State.reset.pkg p).energy = 0 ∧ (State.reset.pkg p).throttle = 0 ∧ (State.reset.pkg p).lockto = 1200000)
    ∧ (∀ dk asid, kgetD (State.reset.die dk).genReg asid 0 = 0) ∧ (∀ dk o, kgetD (State.reset.die dk).counters o 0 = 0)
    ∧ (∀ ck asid, kgetD (State.reset.core ck).gens asid 0 = 0) ∧ (∀ ck h, kgetD (State.reset.core ck).last h 7 = 7)
    ∧ Sys2Proof.Safety.MemoryOk State.reset

/-- The model's invariant: every step keeps the memory in its one canonical form, addresses rising and no byte listed that equals what an unlisted address
reads as (log 3), so that equal memories are equal data. -/
def Obligations.StepKeepsMemory : Prop :=
  ∀ s t : State, MemoryOk s → step s = .next t → MemoryOk t

/-- 16 R391, R392, R393: RFETCH takes the next entry of its ring, or 0 from an empty one; KBFX extracts a field; SIGWAIT returns the selected signals and
clears them, or waits; each writes rd alone (x0 discards it, log 6). A fault writes no register and puts its cause in mcause and the operand in mtval.
Constructors: rfetch, kbfx, sigwait. -/
def Obligations.FirmwareInstructions : Prop :=
  ∀ (s : State) (f : RFmt),
    let c := s.fwCore s.cur.2
    let a := c.reg f.rs1.toNat
    let b := c.reg f.rs2.toNat
    let p := a.toNat
    let gives (i : Instr) (c' : FwCore) : Prop := ∃ t, exec i s = .next t ∧ t = { s with dies := t.dies } ∧ CoreBecomes s t s.cur.2 c'
    let log := c.ram (p + 16) 8 % 32
    let head := c.ram (p + 8) 4
    (p % 32 ≠ 0 ∨ 524288 ≤ p ∨ 20 < log → ∃ c', gives (.rfetch f) c' ∧ Trapped c c' 24 a)
    ∧ (p % 32 = 0 → p < 524288 → log ≤ 20 →
        (head = c.ram (p + 12) 4 → ∃ c', gives (.rfetch f) c' ∧ Wrote c c' f.rd.toNat 0 ∧ c'.sram = c.sram ∧ c'.sig = c.sig)
        ∧ (head ≠ c.ram (p + 12) 4 → ∃ c', gives (.rfetch f) c'
            ∧ Wrote c c' f.rd.toNat (BitVec.ofNat 64 (c.ram p 8 + 64 * (head % 2 ^ log))) ∧ c'.sig = c.sig
            ∧ c'.ram (p + 8) 4 = (head + 1) % 2 ^ 32 ∧ ∀ o, o < p + 8 ∨ p + 12 ≤ o → kgetD c'.sram o 0 = kgetD c.sram o 0))
    ∧ (let lo := (b.extractLsb' 0 6).toNat
       let n := (b.extractLsb' 6 7).toNat
       (n = 0 ∨ 64 < lo + n ∨ b.extractLsb' 13 51 ≠ 0 → ∃ c', gives (.kbfx f) c' ∧ Trapped c c' 25 b)
       ∧ (n ≠ 0 → lo + n ≤ 64 → b.extractLsb' 13 51 = 0 →
          ∃ c', gives (.kbfx f) c' ∧ Wrote c c' f.rd.toNat ((a.extractLsb' lo n).setWidth 64) ∧ c'.sram = c.sram ∧ c'.sig = c.sig))
    ∧ (a = 0 ∨ a &&& ~~~(63 : Word) ≠ 0 → ∃ c', gives (.sigwait f) c' ∧ Trapped c c' 26 a)
    ∧ (a &&& ~~~(63 : Word) = 0 → c.sig &&& a ≠ 0 →
        ∃ c', gives (.sigwait f) c' ∧ Wrote c c' f.rd.toNat (c.sig &&& a) ∧ c'.sram = c.sram ∧ c'.sig = c.sig &&& ~~~a)
    ∧ (a ≠ 0 → a &&& ~~~(63 : Word) = 0 → c.sig &&& a = 0 → gives (.sigwait f)
        { c with wait := some (f.rd.toNat, a, if b = 0 then 0 else s.clk + b.toNat) })

/-! ## The steps of engine work -/

namespace Sys2Proof.Rules

/-- One work becomes `e'`; every other is as it was. -/
def WorkIs (s t : State) (id : Nat) (e' : Work) : Prop := kget? t.works id = some e' ∧ ∀ j, j ≠ id → kget? t.works j = kget? s.works j

/-- No access to the local store of a block waits. -/
def NoWaiter (s : State) (bid : Nat) : Prop := ∀ q ∈ s.fes, q.2.waiting = true → (s.warpD q.2.wid).block ≠ bid

/-- No split of a block waits on a counter. -/
def NoCwait (s : State) (bid : Nat) : Prop :=
  Unique s.warps ∧ ∀ k v, s.warp? k = some v → v.block = bid → ∀ q ∈ v.table, q.2.eff ≠ .cntWait

/-- Runs of bytes, by their offsets, stand in local store and every granule that they touch is full (07 R186, 08 R218); every other byte and granule is as
it was. -/
def Filled (b b' : Block) (runs : List (Nat × List Byte)) : Prop :=
  (runs.Pairwise (fun p q => p.1 + p.2.length ≤ q.1 ∨ q.1 + q.2.length ≤ p.1) →
      ∀ q ∈ runs, ∀ i x, q.2[i]? = some x → kgetD b'.ls (q.1 + i) 0 = x)
    ∧ (∀ o, (∀ q ∈ runs, o < q.1 ∨ q.1 + q.2.length ≤ o) → kgetD b'.ls o 0 = kgetD b.ls o 0)
    ∧ ∀ g, b'.full.contains g = true ↔
        b.full.contains g = true ∨ ∃ q ∈ runs, q.2 ≠ [] ∧ 16 * g < q.1 + q.2.length ∧ q.1 < 16 * g + 16

/-- A block becomes `b'`; every other is as it was. -/
def BlockIs (s t : State) (bid : Nat) (b' : Block) : Prop := kget? t.blocks bid = some b' ∧ ∀ k, k ≠ bid → kget? t.blocks k = kget? s.blocks k

/-- The engine status word of some units and of those that failed (08 R214): the first one in order gives CODE, FPKG and FDIE. -/
def StatusOf (units : Nat) (fails : List (Nat × Nat × Nat × Nat)) (word : Nat) : Prop :=
  (fails = [] → word = 2 ^ 48 * min 65535 units)
    ∧ ∀ u c p d, (u, c, p, d) ∈ fails → (∀ f ∈ fails, f ≠ (u, c, p, d) → u < f.1) →
        word = c + 2 ^ 16 * min 65535 fails.length + 2 ^ 32 * p + 2 ^ 41 * d + 2 ^ 48 * min 65535 (units - fails.length)

/-- Units of a command (08 R214). -/
def unitsOf (e : Work) : Nat :=
  match e.kind with
  | .cpyIn | .cpyOut | .cpyLocal | .gather | .scatter => tdLines e.td1
  | .mcst => e.base
  | _ => 1

/-- What the fork of a command waits for has come: the warp's earlier writes have been acknowledged at its scope or have failed, and its earlier
local-store accesses are made (08 R212). -/
def MayFork (s : State) (e : Work) : Prop :=
  (∀ q ∈ s.reqs, q.2.from e.wid = true → q.2.seq < e.seq → q.2.isPosted = true → e.scope < q.2.stage)
    ∧ ∀ q ∈ s.fes, q.2.wid = e.wid → e.seq ≤ q.2.seq

end Sys2Proof.Rules

namespace Sys2Proof.Rules

/-- Offset in local store of byte `n` of line `l` of a tile (08 R218). -/
def lineAt (d : BitVec 128) (l n : Nat) : Nat :=
  let start := (d.extractLsb' 0 27).toNat + l * (16 * (d.extractLsb' 48 16).toNat)
  if (d.extractLsb' 68 2).toNat ≤ 1 then start + n else start + (n - n % 128) + ((n % 128 / 16) ^^^ (l % 8)) * 16 + n % 16

/-- A line of a tile takes bytes, every granule that it touches full; every other byte and granule is as it was. -/
def LineFilled (b b' : Block) (d : BitVec 128) (l : Nat) (byte : Nat → Byte) : Prop :=
  b' = { b with ls := b'.ls, full := b'.full }
    ∧ (∀ n, n < tdLen d → kgetD b'.ls (lineAt d l n) 0 = byte n)
    ∧ (∀ o, (∀ n, n < tdLen d → o ≠ lineAt d l n) → kgetD b'.ls o 0 = kgetD b.ls o 0)
    ∧ ∀ g, b'.full.contains g = true ↔ b.full.contains g = true ∨ ∃ n, n < tdLen d ∧ lineAt d l n / 16 = g

/-- A line of work has ended: it is in flight no more, and with the last one the work joins in the next clk (08 R412). -/
def LineEnded (s : State) (e e' : Work) (l : Nat) : Prop :=
  let last := kdel e.lines l = [] ∧ (tdLines e.td1 ≤ e.next ∨ e.aborted = true)
  e'.lines = kdel e.lines l ∧ (last → e'.phase = .finished ∧ e'.due = s.clk + 1) ∧ (¬last → e'.phase = e.phase ∧ e'.due = e.due)
    ∧ e' = { e with lines := e'.lines, phase := e'.phase, due := e'.due, fails := e'.fails, wfail := e'.wfail }

end Sys2Proof.Rules

/-- 08 R213, R214, R215, R218, R412, 11 R299, R308: HOD_LINE_BEGIN. The first command of the core's hod runs its next line, with at most 16 lines in
flight, at s[SA] + L s[SB] or at entry L of its list; the loads of a line in leave now, one for each aligned 32-byte sector that it touches; a list
entry that is not canonical or not aligned fails its line with CODE 11. HOD_LINE_COMPLETE: the stores of a line out leave with the bytes of line L of
TD1; a line whose accesses have all been answered takes its time in local store; then line L of TD1 takes the bytes of line L of TD2, or those read. A
line with a failed access writes no byte, and its first failure is the unit's. Constructors: hodLineBegin, hodLineComplete. -/
def Obligations.HodLines : Prop :=
  ∀ (s : State) (id : Nat) (e : Work) (b : Block), kget? s.works id = some e → e.kind.isHod = true → kget? s.blocks e.block = some b →
    e.aborted = false →
    let n := tdLen e.td1
    let sector (t : State) (kind : ReqKind) (l : Nat) (x : Word × Nat × Nat) (data : List Byte) : Prop :=
      ∃ k q, kget? t.reqs k = some q ∧ q.kind = kind ∧ q.va = x.1 ∧ q.size = x.2.2 ∧ q.work = (id, l, x.2.1) ∧ q.scope = e.scope ∧ q.data = data
    (e.phase = .forked ∨ e.phase = .running →
      s.blockHalted e.block = false → (∀ q ∈ s.works, q.1 < id → q.2.kind.isHod = true → s.workCore q.2 = b.ck → q.2.phase = .finished) →
      (e.phase = .forked → e.kind.listed = true → ∃ t, exec (.hodLineBegin id) s = .next t ∧ t = { s with works := t.works }
        ∧ WorkIs s t id { e with phase := .running, fork := s.clk, base := e.next })
      ∧ (e.next < tdLines e.td1 → e.lines.length < 16 →
      (e.phase = .forked ∧ e.kind.listed = false
        ∨ e.phase = .running ∧ e.fork + cdiv ((e.next - e.base) * n) 64 + (if e.kind.listed then 12 else 0) ≤ s.clk) →
      let e1 := if e.phase = .forked then { e with phase := .running, fork := s.clk, base := e.next } else e
      let va : Word := if e.kind.listed then BitVec.ofNat 64 (bytesNat (b.lsRead (e.a.toNat % 2 ^ 27 + 8 * e.next) 8)) else e.a + BitVec.ofNat 64 e.next * e.b
      let bad := e.kind.listed = true ∧ (va.extractLsb' 57 3 ≠ 0 ∨ va.toNat % tagSize (tdTag e.td1) ≠ 0)
      let reads := e.kind = .cpyIn ∨ e.kind = .gather
      (¬bad → ∃ t x, exec (.hodLineBegin id) s = .next t ∧ t = { s with works := t.works, reqs := t.reqs, nextId := t.nextId }
        ∧ WorkIs s t id { e1 with next := e.next + 1, lines := kput e.lines e.next x }
        ∧ x.va = va.toNat ∧ x.left = (if e.kind = .cpyLocal then 0 else cdiv (va.toNat % 32 + n) 32) ∧ x.got = [] ∧ x.fails = []
        ∧ (reads → x.sent = true ∧ x.due = 0 ∧ ∀ y ∈ sectorPieces va n, sector t .load e.next y [])
        ∧ (¬reads → t.reqs = s.reqs ∧ x.sent = decide (e.kind = .cpyLocal) ∧ x.due = s.clk + (if e.kind = .cpyLocal then 24 else 12) + cdiv n 64))
      ∧ (bad → ∃ t e' p d, exec (.hodLineBegin id) s = .next t ∧ t = { s with works := t.works, free := t.free } ∧ WorkIs s t id e'
        ∧ e' = { e1 with next := e.next + 1, fails := e.fails ++ [(e.next, 11, p, d)], phase := e'.phase, due := e'.due })))
    ∧ ∀ l x a, (e.lines.findSome? fun q => (e.lineStep s.clk q.1 q.2).map fun a => (q.1, q.2, a)) = some (l, x, a) →
      let ended (t : State) (e' : Work) : Prop := exec (.hodLineComplete id) s = .next t ∧ WorkIs s t id e' ∧ LineEnded s e e' l
      let fill (byte : Nat → Byte) : Prop := ∃ t b' e', ended t e' ∧ t = { s with works := t.works, blocks := t.blocks }
        ∧ BlockIs s t e.block b' ∧ LineFilled b b' e.td1 l byte ∧ e'.fails = e.fails ∧ e'.wfail = e.wfail
      (a = .send → ∃ t, exec (.hodLineComplete id) s = .next t
        ∧ t = { s with works := t.works, reqs := t.reqs, copies := t.copies, nextId := t.nextId }
        ∧ WorkIs s t id { e with lines := kput e.lines l { x with sent := true, due := s.clk } }
        ∧ ∀ y ∈ sectorPieces (BitVec.ofNat 64 x.va) n,
            sector t .store l y ((((List.range n).map fun k => kgetD b.ls (lineAt e.td1 l k) 0).drop y.2.1).take y.2.2))
      ∧ (a = .timed → let time := if x.fails = [] then (if e.kind = .cpyLocal then 24 else 12) + cdiv n 64 else 0
        ∃ t, exec (.hodLineComplete id) s = .next t ∧ t = { s with works := t.works }
          ∧ WorkIs s t id { e with lines := kput e.lines l { x with due := s.clk + time } })
      ∧ (a = .finish → x.fails = [] →
        (e.kind = .cpyLocal → tdLen e.td2 = n → NoWaiter s e.block → fill fun k => kgetD b.ls (lineAt e.td2 l k) 0)
        ∧ (e.kind = .cpyIn ∨ e.kind = .gather → (x.got.flatMap Prod.snd).length = n → NoWaiter s e.block → fill fun k => (x.got.flatMap Prod.snd).getD k 0)
        ∧ (e.kind = .cpyOut ∨ e.kind = .scatter → ∃ t e', ended t e' ∧ t = { s with works := t.works } ∧ e'.fails = e.fails ∧ e'.wfail = e.wfail))
      ∧ (a = .finish → ∀ i c p d rest, x.fails = (i, (c, p, d)) :: rest → ∃ t e', ended t e' ∧ t = { s with works := t.works }
        ∧ e'.fails = e.fails ++ [(l, c, p, d)] ∧ (e.kind = .cpyLocal ∨ e.kind = .cpyIn ∨ e.kind = .gather → e'.wfail = e.wfail)
        ∧ (e.kind = .cpyOut ∨ e.kind = .scatter → e'.wfail.has = true
            ∧ e'.wfail.count = min 65535 (e.wfail.count + x.fails.length)))

/-! ## Tile tasks, the kiln, fabric sends and triggered launches -/

namespace Sys2Proof.Rules

/-- The range of a tile's bytes meets that of another (01 R411, 08 R223). -/
def Meets (d e : BitVec 128) : Prop := (tdRange d).1 < (tdRange e).2 ∧ (tdRange e).1 < (tdRange d).2

/-- The sources of a task. -/
def sourcesOf (e : Work) : List (BitVec 128) := if e.kind = .taskCvt then [e.td2] else [e.td2, e.td3]

/-- No earlier task of the block that has not ended stands in a task's way (08 R223). -/
def NoHazard (s : State) (id : Nat) (e : Work) : Prop :=
  ∀ q ∈ s.works, q.1 < id → q.2.kind.isTask = true → q.2.block = e.block → q.2.phase ≠ .finished →
    ¬Meets q.2.td1 e.td1 ∧ (∀ d ∈ sourcesOf e, ¬Meets q.2.td1 d) ∧ ∀ d ∈ sourcesOf q.2, ¬Meets d e.td1

/-- What a task depends on has come (07 R207, 08 R223). -/
def Depends (b : Block) (e : Work) : Prop :=
  e.a.getLsbD 63 = true → ((kgetD b.counters (e.a.extractLsb' 32 5).toNat 0).toNat + 2 ^ 32 - (e.a.extractLsb' 0 32).toNat) % 2 ^ 32 < 2 ^ 31

/-- The loop of 04 R97 over a k-block with its block sums: the least shift that brings every mantissa into range, and what it leaves; none when the
exponent passes 32,767. -/
def Accumulates (x : Int) (m : List Int) (sums : List BlockSum) (r : Option (List Int × Int)) : Prop :=
  ∃ n : Nat, (∀ (k : Nat) (a : Int) (p : BlockSum), m[k]? = some a → sums[k]? = some p → mantOk (mantAt x n a p) = true)
    ∧ (∀ j : Nat, j < n → ∃ (k : Nat) (a : Int) (p : BlockSum), m[k]? = some a ∧ sums[k]? = some p ∧ mantOk (mantAt x j a p) = false)
    ∧ (32767 < x + 8 * n → r = none)
    ∧ (x + 8 * n ≤ 32767 → ∃ l : List Int, r = some (l, x + 8 * n) ∧ l.length = min m.length sums.length
        ∧ ∀ (k : Nat) (a : Int) (p : BlockSum), m[k]? = some a → sums[k]? = some p → l[k]? = some ((mantAt x n a p).getD (-2 ^ 47)))

/-- The elements of a tile take values, each of `z` bytes, every granule of them full; nothing else of the local store changes. -/
def TileFilled (b b' : Block) (d : BitVec 128) (z : Nat) (v : Nat → Nat → Nat) : Prop :=
  let at_ (o i j : Nat) : Prop := tdOfs d i j ≤ o ∧ o < tdOfs d i j + z
  ((∀ i j k l o, i < tdRows d → j < tdCols d → k < tdRows d → l < tdCols d → at_ o i j → at_ o k l → i = k ∧ j = l) →
      ∀ i j n, i < tdRows d → j < tdCols d → n < z → kgetD b'.ls (tdOfs d i j + n) 0 = BitVec.ofNat 8 (v i j / 256 ^ n))
    ∧ (∀ o, (∀ i j, i < tdRows d → j < tdCols d → ¬at_ o i j) → kgetD b'.ls o 0 = kgetD b.ls o 0)
    ∧ ∀ g, b'.full.contains g = true ↔ b.full.contains g = true ∨ ∃ i j o, i < tdRows d ∧ j < tdCols d ∧ at_ o i j ∧ o / 16 = g

end Sys2Proof.Rules

/-- 08 R215, R229, R231, 12 R325, 16 R375: MCST_REPLICATE: the switch refuses a store whose group entry is not valid or serves another ASID, with no
member written, and otherwise sends it to every member. MCST_MEMBER_WRITE: a member writes the 256 bytes under its own mapping, or answers with its
CODE: DLINK behind a dead port, REFUSED for a page that is absent or not writable, COHLOST where one of its lines is LOST. MCST_ACK: the last answer
joins them in one acknowledgement, their causes ORed. Constructors: mcstReplicate, mcstMemberWrite, mcstAck. -/
def Obligations.MulticastStores : Prop :=
  ∀ (s : State) (id : Nat) (e : Work), kget? s.works id = some e → e.kind = .mcst →
    let asid := s.workAsid e
    let works (t : State) (e' : Work) : Prop := t = { s with works := t.works } ∧ WorkIs s t id e'
    let g := kgetD s.groups e.grp ⟨0, 0, false⟩
    (e.phase = .sent → e.due ≤ s.clk →
      (g.valid = true ∧ g.asid.toNat = asid → ∃ t e', exec (.mcstReplicate id) s = .next t ∧ works t e'
        ∧ e' = { e with phase := .running, wait := e'.wait, base := e'.wait.length, next := 0 } ∧ e'.wait.Pairwise (· < ·)
        ∧ ∀ p, p ∈ e'.wait ↔ p < 512 ∧ g.members.getLsbD p = true)
      ∧ (g.valid = false ∨ g.asid.toNat ≠ asid → ∃ t e', exec (.mcstReplicate id) s = .next t ∧ works t e'
        ∧ e' = { e with phase := .finished, due := e'.due, base := 1, fails := e.fails ++ [(0, 7, 0, 0)], wfail := e'.wfail }
        ∧ e'.wfail.causes.getLsbD 2 = true ∧ e'.wfail.count = min 65535 (e.wfail.count + 1)))
    ∧ (∀ p, e.phase = .running → p ∈ e.wait → e.fork + 520 + s.memberWay e p ≤ s.clk →
      let answered (e' : Work) : Prop := e' = { e with wait := e.wait.filter (· != p), next := e'.next, fails := e'.fails }
      let failed (code : Nat) (home : Nat → Prop) : Prop := ∃ t e' d, exec (.mcstMemberWrite id p) s = .next t
        ∧ t = { s with works := t.works, free := t.free } ∧ WorkIs s t id e' ∧ answered e' ∧ e'.fails = e.fails ++ [(p, code, p, d)] ∧ home d
      let lost (leaf : Word) : Bool := leafTr leaf && (List.range 8).any fun i => s.entryLost (lineOf asid (e.b.toNat + 32 * i) (leafGrain leaf))
      ((s.pkg p).failed = false → e.plane = 128 ∨ s.portDead p e.plane = true → failed 8 fun d =>
        ∀ leaf n hp hd, s.lookup p asid e.b.toNat = some (leaf, n, hp, hd) → d = hd)
      ∧ ((s.pkg p).failed = false → e.plane ≠ 128 → s.portDead p e.plane = false →
        (s.lookup p asid e.b.toNat = none → failed 7 fun _ => True)
        ∧ ∀ leaf n hp hd, s.lookup p asid e.b.toNat = some (leaf, n, hp, hd) →
          (leafW leaf = false ∨ s.dieLive (128 * hp + hd) = false → failed 7 fun d => d = hd)
          ∧ (leafW leaf = true → s.dieLive (128 * hp + hd) = true → lost leaf = true → failed 6 fun d => d = hd)
          ∧ (MemoryOk s → leafW leaf = true → s.dieLive (128 * hp + hd) = true → lost leaf = false → leafTe leaf = false →
            ∃ t e', exec (.mcstMemberWrite id p) s = .next t ∧ WorkIs s t id e' ∧ answered e' ∧ e'.fails = e.fails
              ∧ ((s.tlbHit (128 * hp + hd) asid (kgetD (s.die (128 * hp + hd)).genReg asid 0) e.b.toNat).isSome = true →
                t = { s with works := t.works, free := t.free, mem := t.mem, memPoison := t.memPoison, copies := t.copies, wclock := t.wclock }
                  ∧ Puts s t (frameKey (128 * hp + hd) leaf e.b.toNat) e.buf)))
      ∧ ((s.pkg p).failed = true → (s.pkg p).known = true → ∃ t e', exec (.mcstMemberWrite id p) s = .next t ∧ t = { s with works := t.works, free := t.free }
          ∧ WorkIs s t id e' ∧ answered e' ∧ e'.fails = e.fails ++ [(p, 9, p, 0)]))
    ∧ (e.phase = .running → e.wait = [] → e.fork + 1040 + e.next ≤ s.clk → ∃ t e', exec (.mcstAck id) s = .next t ∧ works t e'
      ∧ e' = { e with phase := .finished, due := s.clk, wfail := e'.wfail } ∧ (e.fails = [] → e'.wfail = e.wfail)
      ∧ (e.fails ≠ [] → e'.wfail.count = min 65535 (e.wfail.count + e.fails.length)
          ∧ (∀ f ∈ e.fails, f.2.1 = 7 → e'.wfail.causes.getLsbD 2 = true) ∧ (∀ f ∈ e.fails, f.2.1 = 4 → e'.wfail.causes.getLsbD 5 = true)
          ∧ (∀ f ∈ e.fails, f.2.1 = 6 → e'.wfail.causes.getLsbD 4 = true) ∧ (∀ f ∈ e.fails, f.2.1 = 8 → e'.wfail.causes.getLsbD 1 = true)
          ∧ ∀ f ∈ e.fails, f.2.1 = 9 → e'.wfail.causes.getLsbD 3 = true))

namespace Sys2Proof.Rules

/-- The next free buffer of a receive ring, after the one filled last (10 R277). -/
def NextBuffer (a : Armed) (n : Nat) : Prop :=
  ∃ i, i < a.nbuf ∧ n = (a.last + i) % a.nbuf ∧ n ∉ a.busy ∧ ∀ j, j < i → (a.last + j) % a.nbuf ∈ a.busy

/-- A message is accepted for an armed launch (10 R277, R278): its bytes, at most a buffer's, replace the start of the next free buffer, which it holds,
and its slot 1 and sequence number wait with it for the firing. -/
def Accepted (s t : State) (key : Nat) (a : Armed) (n : Nat) (data : List Byte) (slot1 : Nat) : Prop :=
  let x := data.take a.blen
  t.mem = (s.pkgWrite a.pkg a.asid (a.base + n * a.blen) x).mem
    ∧ kget? t.armed key = some { a with busy := a.busy ++ [n], next := (a.next + 1) % 2 ^ 64, last := (n + 1) % a.nbuf
                                        waiting := a.waiting ++ [(n, x.length % 2 ^ 16 + slot1, a.next)] }
    ∧ ∀ k, k ≠ key → kget? t.armed k = kget? s.armed k

/-- A launch has started (10 R263, R264, 15 R364, 02 R65): it has the first free id after the one assigned last, the rack has looked up the home of every cluster and keeps it, they are dealt by it,
and the instruction caches of its packages are empty. -/
def Started (s t : State) (queue asid tag : Nat) (d : LaunchDesc) (packet : Option Nat) (firing : Option (Nat × Nat)) : Prop :=
  ∃ l x i, i < 65536 ∧ l = (s.fe.lastLaunch + 1 + i) % 65536 ∧ s.launch? l = none
    ∧ (∀ j, j < i → (s.launch? ((s.fe.lastLaunch + 1 + j) % 65536)).isSome = true)
    ∧ t.launch? l = some x ∧ x.queue = queue ∧ x.asid = asid ∧ x.tag = tag ∧ x.desc = d ∧ x.packet = packet ∧ x.firing = firing ∧ x.startClk = s.clk
    ∧ x.aborted = false ∧ x.halting = false ∧ x.saved = false ∧ t.fe.lastLaunch = l
    ∧ (∀ k, k ≠ l → t.launch? k = s.launch? k)
    ∧ (∀ ck, x.pset.contains (ck / 48 / 128) = true → (t.core ck).icache = [])
    ∧ (∀ k, k < d.clusters → (kget? x.homes k).isSome = true) ∧ (d.cores = false → ∀ k, k < d.clusters → k ∈ x.list (nodeTray (t.clusterHome x k / 128)))

end Sys2Proof.Rules

/-- 08 R214, R215, R230, 10 R277, R278, 15 R366, R367: MSGX_DELIVERY and ETHERNET_FRAME offer a message to the launch armed for its tag: it is accepted
into the next free buffer, or refused: with NOTRIG where none is armed, with REFUSED where every buffer is held or the launch is disarmed; the
sender's record takes the failure. The lowest rule of the port that matches takes a frame; the refusal of a tag that is not armed goes to the queue
whose STEER wrote the rule (the model's choice, log 89). FIRING starts a launch for the oldest accepted message, with its argument area;
FIRING_REFUSED posts KIND 8. Constructors: msgxDelivery, ethernetFrame, firing, firingRefused. -/
def Obligations.Messages : Prop :=
  (∀ (s : State) (id : Nat) (e : Work), kget? s.works id = some e → e.kind = .msgx → e.phase = .sent → e.due ≤ s.clk → e.aborted = false →
      let dst := (e.b.extractLsb' 0 9).toNat
      let tag := (e.b.extractLsb' 16 16).toNat
      let src := (s.blockD e.block).pkg
      let key := armedKey dst 0 tag
      let ended (t : State) (e' : Work) : Prop := WorkIs s t id e' ∧ e'.phase = .finished ∧ e'.due = max s.clk (e.fork + 1080)
        ∧ e' = { e with phase := e'.phase, due := e'.due, fails := e'.fails, wfail := e'.wfail }
      let fails (e' : Work) (c : Nat) : Prop := (∃ d, e'.fails = e.fails ++ [(0, c, dst, d)]) ∧ e'.wfail.count = min 65535 (e.wfail.count + 1)
      (s.pkg dst).failed = false → (e.plane ≠ 128 ∨ src = dst) →
      (∀ a n, kget? s.armed key = some a → a.disarm = false → NextBuffer a n → ∃ t e', exec (.msgxDelivery id) s = .next t
          ∧ t = { s with works := t.works, armed := t.armed, mem := t.mem, copies := t.copies } ∧ ended t e' ∧ e'.fails = e.fails ∧ e'.wfail = e.wfail
          ∧ Accepted s t key a n e.buf (2 ^ 20 * src + 2 ^ 32 * tag))
      ∧ (kget? s.armed key = none → ∃ t e' m, exec (.msgxDelivery id) s = .next t
          ∧ t = { s with works := t.works, msgs := t.msgs, nextId := t.nextId, free := t.free } ∧ ended t e' ∧ fails e' 12
          ∧ e'.wfail.causes.getLsbD 2 = true ∧ kget? t.msgs s.nextId = some m ∧ m.pkg = dst ∧ m.tag = tag
          ∧ m.queue = (s.launchD (s.blockD e.block).launch).queue)
      ∧ (∀ a, kget? s.armed key = some a → a.disarm = true ∨ (∀ i, i < a.nbuf → i ∈ a.busy) → ∃ t e' m, exec (.msgxDelivery id) s = .next t
          ∧ t = { s with works := t.works, msgs := t.msgs, nextId := t.nextId, free := t.free } ∧ ended t e' ∧ fails e' 7
          ∧ e'.wfail.causes.getLsbD 2 = true ∧ kget? t.msgs s.nextId = some m ∧ m = ⟨dst, tag, a.queue, a.ptag⟩))
  ∧ (∀ (s : State) (port etype : Nat) (bytes : List Byte),
      let takes (r : Steer) : Prop := r.en = true ∧ r.etype = etype ∧ r.mofs + 8 ≤ bytes.length
        ∧ (BitVec.ofNat 64 (bytesNat ((bytes.drop r.mofs).take 8)) &&& r.mmask) = r.mval
      ((∀ q ∈ s.steers, q.1 / 64 = port → ¬takes q.2) → exec (.ethernetFrame port etype bytes) s = .next s)
      ∧ ∀ k r, (k, r) ∈ s.steers → k / 64 = port → takes r → s.steers.Pairwise (fun a b => a.1 < b.1) →
          (∀ q ∈ s.steers, q.1 / 64 = port → takes q.2 → k ≤ q.1) →
          let key := armedKey r.pkg 1 r.tag
          let refused (q ptag : Nat) : Prop := ∃ t, exec (.ethernetFrame port etype bytes) s = .next t
            ∧ t = { s with msgs := t.msgs, nextId := t.nextId } ∧ kget? t.msgs s.nextId = some ⟨r.pkg, r.tag, q, ptag⟩
          (kget? s.armed key = none → refused r.queue r.ptag) ∧ ∀ a, kget? s.armed key = some a →
            (∀ n, a.disarm = false → NextBuffer a n → ∃ t, exec (.ethernetFrame port etype bytes) s = .next t
              ∧ t = { s with armed := t.armed, mem := t.mem, copies := t.copies }
              ∧ Accepted s t key a n (bytes.drop r.pofs) (2 ^ 16 + 2 ^ 29 * port + 2 ^ 32 * (k % 64)))
            ∧ (a.disarm = true ∨ (∀ i, i < a.nbuf → i ∈ a.busy) → refused a.queue a.ptag))
  ∧ (∀ (s : State) (pkg src tag : Nat) (a : Armed) (buf slot1 seq : Nat) (rest : List (Nat × Nat × Nat)),
      let key := armedKey pkg src tag
      (key, a) ∈ s.armed → (∀ q ∈ s.armed, q.1 = key → q = (key, a)) →
      a.waiting = (buf, slot1, seq) :: rest → (s.queueD a.queue).qstate = 1 → s.launches.length < 64 → s.fe.startedL ≠ s.clk + 1 → a.desc.cores = false →
      let narg := a.desc.kern.narg
      let at_ := Config.argCopy key buf
      ∃ t, exec (.firing pkg (2 ^ 16 * src + tag)) s = .next t
        ∧ Started s t a.queue a.asid a.ptag { a.desc with args := BitVec.ofNat 64 at_ } none (some (key, buf))
        ∧ kget? t.armed key = some { a with waiting := rest } ∧ (∀ k, k ≠ key → kget? t.armed k = kget? s.armed k)
        ∧ t.mem = (s.feWrite a.asid at_ ((natBytes (a.base + buf * a.blen) 8 ++ natBytes slot1 8 ++ natBytes seq 8).take (8 * narg)
            ++ s.feRead a.asid (a.desc.args.toNat + 24) (8 * (narg - 3)))).mem
        ∧ t.fe.startedL = s.clk + 1 ∧ t.queues = s.queues ∧ t.warps = s.warps ∧ t.blocks = s.blocks)
  ∧ ∀ (s : State) (pkg tag i : Nat) (m : Msg), (s.msgs.find? fun q => q.2.pkg == pkg && q.2.tag == tag) = some (i, m) →
      ∃ t launch, exec (.firingRefused pkg tag) s = .next t ∧ t.msgs = kdel s.msgs i ∧ EventAppended s t m.queue 8 0 m.ptag launch 0 0

/-! ## Placement, retirement and barriers across cores -/

namespace Sys2Proof.Rules

/-- Nothing changes but a launch, of which its pending lists do. -/
def PendBecomes (s t : State) (l : Nat) (x : Launch) (p : KMap (List Nat)) : Prop :=
  t = { s with launches := t.launches } ∧ t.launch? l = some { x with pend := p } ∧ ∀ k, k ≠ l → t.launch? k = s.launch? k

/-- A launch whose clusters the distributors may hand down and place. -/
def Dealing (x : Launch) : Prop := x.aborted = false ∧ x.halting = false ∧ x.saved = false

/-- Block `r` of cluster `k` of a launch stands on a core as it is before its start clk (01 R24, 07 R184, R203, R206, 10 R262). -/
def Placed (t : State) (l k r ck : Nat) (d : LaunchDesc) : Prop :=
  let i := k * d.csize + r
  ∃ bid b, kget? t.blocks bid = some b ∧ b.launch = l ∧ b.cluster = k ∧ b.rank = r ∧ b.ck = ck ∧ b.resident = false ∧ b.saved = false
    ∧ b.bx = i % d.gx ∧ b.by_ = i / d.gx % d.gy ∧ b.bz = i / d.gx / d.gy ∧ b.alloc = d.kern.local_ ∧ b.warps = d.kern.warpList.length
    ∧ b.ls = [] ∧ b.full = [] ∧ b.counters = [] ∧ b.descs = [] ∧ b.bars = []
    ∧ ∀ n, n < d.kern.warpList.length → ∃ w, t.warp? (32 * bid + n) = some w ∧ w.block = bid ∧ w.wblk = n ∧ w.ended = false

end Sys2Proof.Rules

/-! ## Pre-emption -/

namespace Sys2Proof.Rules

/-- A split halts at the arrival of a halt request: one in a wait state, dormant, or one between instructions of a warp that HALTW has stopped (08 R235, 09 R250). -/
def HaltsAtOnce (w : Warp) (p : Split) : Prop :=
  p.st ∈ [.lockWait, .barWait, .cntWait, .joinWait, .feWait, .faulted, .dormant] ∨ w.stopped = true ∧ p.st = .ready ∧ p.len = 0

end Sys2Proof.Rules

/-! ## Queues, packets and answers -/

namespace Sys2Proof.Rules

/-- The packet that word 0 to 4 of a validated head give (15 R357). -/
def packetAt (x : Queue) (h : Head) (clk : Nat) : Packet :=
  let w (i : Nat) : Word := h.words.getD i 0
  { idx := x.npkt, opc := ((w 0).extractLsb' 0 8).toNat, tag := ((w 0).extractLsb' 32 32).toNat, evt := (w 0).getLsbD 9
    w1 := w 1, w2 := w 2, w3 := w 3, w4 := w 4, launches := [], clk := clk, step := 0 }

/-- The validated packet at the head of a queue in RUN has an opcode and may start in this clk (15 R357, R364): ORDER and WAITMEM allow it, a launch slot is free, and
no other packet of its class has started in the clk. -/
def HeadReady (s : State) (q : Nat) (x : Queue) (h : Head) (opc : Nat) : Prop :=
  kget? s.queues q = some x ∧ x.qstate = 1 ∧ x.head = some h ∧ ((h.words.getD 0 0).extractLsb' 0 8).toNat = opc ∧ s.fe.standby = none
    ∧ ((h.words.getD 0 0).getLsbD 8 = true → x.active = []) ∧ (∀ p ∈ x.active, p.opc ≠ 4 ∧ p.idx < x.npkt)
    ∧ (if opc = 1 then s.launches.length < 64 ∧ s.fe.startedL ≠ s.clk + 1 else s.fe.startedP ≠ s.clk + 1)

/-- The packet has started (15 R356, R357, R364): it is active, QHEAD is past it, and the pointer of its priority holds its queue. -/
def begun (s : State) (q : Nat) (x : Queue) (h : Head) : State :=
  let p := packetAt x h s.clk
  { s with
    queues := kmod s.queues q fun x =>
      { x with head := none, npkt := x.npkt + 1, qhead := (x.qhead + 1) % 2 ^ x.rlog, active := x.active ++ [p] }
    fe := { s.fe with
      ptrs := kput s.fe.ptrs x.prio q
      startedL := if p.opc = 1 then s.clk + 1 else s.fe.startedL
      startedP := if p.opc = 1 then s.fe.startedP else s.clk + 1 } }

/-- The packet has completed (15 R357, R363): it is active no more, and with EVT a record of KIND 7 carries its TAG. -/
def Finished (u t : State) (q : Nat) (p : Packet) : Prop :=
  let v : State := { u with queues := kmod u.queues q fun x => { x with active := x.active.filter fun y => y.idx != p.idx } }
  t = { u with mem := t.mem, copies := t.copies, queues := t.queues, free := t.free }
    ∧ if p.evt = true then ∃ n, n < 65536 ∧ EventAppended v t q 7 0 p.tag n 0 0
      else t.mem = u.mem ∧ t.copies = u.copies ∧ t.queues = v.queues

/-- Bits of a descriptor read as a number. -/
def bitsOf (x lo n : Nat) : Nat := x / 2 ^ lo % 2 ^ n

/-- A launch has been aborted (15 R362): no pending cluster, no image and no wire of it is left; its warps have ended with their registers as they were; its
engine work that had not begun is gone and the rest stops; the armed launch that it came from fires no more (the model's choice, log 88). -/
def Aborts (s t : State) (l : Nat) : Prop :=
  let hers (w : Warp) : Prop := (s.blockD w.block).launch = l
  ((∀ x, s.launch? l = some x → x.aborted = true) → t = s)
  ∧ ∀ x, s.launch? l = some x → x.aborted = false →
    t.mem = s.mem ∧ (∀ k, k ≠ l → t.launch? k = s.launch? k)
    ∧ (∃ y, t.launch? l = some y ∧ y.aborted = true ∧ y.pend = [] ∧ y.images = [] ∧ y.saved = false ∧ y.halting = false ∧ y.answers = [])
    ∧ (∀ key buf a, x.firing = some (key, buf) → kget? s.armed key = some a → ∃ a', kget? t.armed key = some a' ∧ a'.disarm = true ∧ a'.waiting = [])
    ∧ (∀ k w, s.warp? k = some w → hers w → (s.blockD w.block).resident = true →
        t.warp? k = some { w with table := [], moves := [], locks := [], results := [], ended := true })
    ∧ (∀ k w, s.warp? k = some w → ¬hers w → t.warp? k = some w)
    ∧ (∀ bid b, kget? s.blocks bid = some b → (b.launch ≠ l → kget? t.blocks bid = some b)
        ∧ (b.launch = l → b.resident = true → kget? t.blocks bid = some { b with aborted := true }) ∧ (b.launch = l → b.resident = false → kget? t.blocks bid = none))
    ∧ (∀ i e, kget? s.works i = some e → ((s.blockD e.block).launch ≠ l → kget? t.works i = some e)
        ∧ ((s.blockD e.block).launch = l → e.waiting = true → kget? t.works i = none)
        ∧ ((s.blockD e.block).launch = l → e.waiting = false → kget? t.works i = some { e with aborted := true }))
    ∧ (∀ r ∈ t.reqs, r.2.isPosted = true ∨ r.2.work.1 ≠ 0 ∨ ∀ w, s.warp? r.2.wid = some w → ¬hers w) ∧ (∀ p n, kget? (t.pkg p).wires n ≠ some l)
    ∧ ∀ z, kget? t.queues x.queue = some z → ∀ r ∈ z.waiting, r.launch ≠ l

/-- The constructors that a packet of an opcode runs. -/
def RunsPacket (q : Nat) (i : Instr) : Prop :=
  i = .packetNop q ∨ i = .launch q ∨ i = .arm q ∨ i = .disarm q ∨ i = .waitmem q ∨ i = .signalmem q ∨ i = .preempt q ∨ i = .resume q ∨ i = .abort q
    ∨ i = .qctlCreate q ∨ i = .qctlStop q ∨ i = .qctlRestart q ∨ i = .qctlDestroy q ∨ i = .steer q

end Sys2Proof.Rules

/-- 15 R356, R359: the validator examines the packet at QHEAD before it starts. One that passes becomes the queue's validated head; at the first failed
check the queue is STOPPED with QCAUSE set, QHEAD stays and a record goes to the driver's fault queue. An opcode that R357 does not name has cause
UNKOP, one that OPMASK or KQ shuts out MASKED. -/
def Obligations.PacketsValidated : Prop :=
  ∀ (s : State) (q : Nat) (x : Queue) (i : Instr), kget? s.queues q = some x → x.qstate = 1 → x.head = none → s.fe.standby = none → x.qhead ≠ x.qtail →
    RunsPacket q i → (i = .signalmem q → ∀ p ∈ x.active, p.opc ≠ 5) →
    let l := s.headWords x
    let opc := (l.getD 0 0).toNat % 256
    (∀ asid page, s.feAbsent (s.examined x l) = some (asid, page) → exec i s = .next (s.askFront q asid page akRead))
    ∧ (∀ c v, s.feAbsent (s.examined x l) = none → s.validate x l = some (c, v) →
      ∃ t u, exec i s = .next t ∧ u = { s with queues := kmod s.queues q fun x => { x with qstate := 2, qcause := c } }
        ∧ t = { u with mem := t.mem, copies := t.copies, fe := t.fe } ∧ FqPosted u t [fqWord [(0, c), (8, q), (20, x.qhead)], BitVec.ofNat 64 v, 0, 0])
    ∧ (s.feAbsent (s.examined x l) = none → s.validate x l = none → ∃ h, h.words = l ∧ (opc = 1 ∨ opc = 2 ↔ h.desc.isSome = true) ∧ (opc = 11 ↔ h.qdesc.isSome = true)
        ∧ exec i s = exec i { s with queues := kmod s.queues q fun x => { x with head := some h } })
    ∧ ((opc = 6 ∨ opc = 7 ∨ 12 < opc) → s.validate x l = some (1, opc))
    ∧ ((opc ≤ 5 ∨ 8 ≤ opc ∧ opc ≤ 12) → (x.opmask.getLsbD opc = false ∨ 8 ≤ opc ∧ x.kq = false) → s.validate x l = some (2, opc))

/-- 10 R276, 15 R357, R362, R366, R367: NOP, ARM, STEER and ABORT complete as they start; SIGNALMEM once every earlier packet of its queue has; WAITMEM
and DISARM stay, and WAITMEM_SATISFIED and DISARM_COMPLETE complete them when the word meets the condition and no firing is left. Constructors:
packetNop, waitmem, disarm, arm, signalmem, steer, abort, waitmemSatisfied, disarmComplete. -/
def Obligations.PacketsRun : Prop :=
  (∀ (s : State) (q opc : Nat) (x : Queue) (h : Head), HeadReady s q x h opc →
      let p := packetAt x h s.clk
      let b := begun s q x h
      (opc = 0 → ∃ t, exec (.packetNop q) s = .next t ∧ Finished b t q p)
      ∧ (opc = 4 → exec (.waitmem q) s = .next b)
      ∧ (opc = 3 → exec (.disarm q) s = .next { b with armed := kmod b.armed (p.w2.toNat % 2 ^ 26) fun a => { a with disarm := true } })
      ∧ (∀ d, opc = 2 → h.desc = some d →
          let w2 := p.w2
          let a : Armed :=
            { queue := q, desc := d, asid := x.asid, src := (w2.extractLsb' 16 1).toNat, tag := (w2.extractLsb' 0 16).toNat, pkg := (w2.extractLsb' 17 9).toNat
              base := p.w3.toNat, nbuf := (p.w4.extractLsb' 0 16).toNat + 1, blen := 256 * ((p.w4.extractLsb' 16 8).toNat + 1), busy := [], next := 0, last := 0
              ptag := p.tag, disarm := false, waiting := [] }
          let key := w2.toNat % 2 ^ 26
          let accepted := (s.armed.filter fun y => y.1 / 2 ^ 17 == a.pkg).length < 256 ∨ (kget? s.armed key).isSome = true
          p.w3.toNat % 256 = 0 → (accepted → ∃ t, exec (.arm q) s = .next t ∧ Finished { b with armed := kput b.armed key a } t q p)
            ∧ (¬accepted → ∃ t u, exec (.arm q) s = .next t
                ∧ u = { s with queues := kmod (kmod s.queues q fun x => { x with head := none }) q fun x => { x with qstate := 2, qcause := 5 } }
                ∧ t = { u with mem := t.mem, copies := t.copies, fe := t.fe } ∧ FqPosted u t [fqWord [(0, 5), (8, q), (20, x.qhead)], w2, 0, 0]))
      ∧ (opc = 5 → x.active = [] →
          let add := p.w3.getLsbD 0 = true
          let old := if add then s.feNat x.asid p.w1.toNat 8 else 0
          let kind := if add then akRmw else akWrite
          (s.feGrant x.asid p.w1 kind = none → exec (.signalmem q) s = .next (b.askFront q x.asid (pageOf p.w1.toNat) kind))
          ∧ (s.feGrant x.asid p.w1 kind = some false → ∃ t, exec (.signalmem q) s = .next t ∧ Finished b t q p)
          ∧ (s.feGrant x.asid p.w1 kind = some true → ∃ t u, exec (.signalmem q) s = .next t ∧ u = { b with mem := u.mem, copies := u.copies }
            ∧ u.mem = (s.feWrite x.asid p.w1.toNat (natBytes (old + p.w2.toNat) 8)).mem ∧ Finished u t q p))
      ∧ (opc = 5 → x.active ≠ [] → (∀ y ∈ x.active, y.opc ≠ 5) → exec (.signalmem q) s = .next b)
      ∧ (opc = 12 →
          let r : Steer :=
            { etype := (p.w2.extractLsb' 0 16).toNat, mofs := (p.w2.extractLsb' 16 8).toNat, pofs := (p.w2.extractLsb' 24 8).toNat
              tag := (p.w2.extractLsb' 32 16).toNat, pkg := (p.w2.extractLsb' 48 9).toNat, en := p.w2.getLsbD 63, mval := p.w3, mmask := p.w4, queue := q, ptag := p.tag }
          ∃ t, exec (.steer q) s = .next t
            ∧ Finished { b with steers := kput b.steers (64 * (p.w1.extractLsb' 0 2).toNat + (p.w1.extractLsb' 8 6).toNat) r } t q p)
      ∧ (opc = 10 → Unique s.warps → Unique s.blocks → Unique s.works → ∃ t u, exec (.abort q) s = .next t ∧ Aborts b u p.w2.toNat ∧ Finished u t q p))
  ∧ (∀ (s : State) (q : Nat) (x : Queue) (p : Packet) (pre post : List Packet), kget? s.queues q = some x → x.active = pre ++ p :: post →
      (∀ y ∈ pre, y.opc ≠ p.opc) → (∀ y ∈ pre, y.idx ≠ p.idx) →
      (p.opc = 4 →
        let y : Word := BitVec.ofNat 64 (s.feNat x.asid p.w1.toNat 8) &&& p.w3
        let c := (p.w4.extractLsb' 0 3).toNat
        let holds := c = 0 ∧ y = p.w2 ∨ c = 1 ∧ y ≠ p.w2 ∨ c = 2 ∧ p.w2.toNat ≤ y.toNat ∨ c = 3 ∧ y.toNat < p.w2.toNat
        let grant := s.feGrant x.asid p.w1 akRead
        (grant = none → exec (.waitmemSatisfied q) s = .next (s.askFront q x.asid (pageOf p.w1.toNat) akRead))
        ∧ (grant = some true → holds → ∃ t, exec (.waitmemSatisfied q) s = .next t ∧ Finished s t q p)
        ∧ (c < 4 → grant = some false ∨ grant = some true ∧ ¬holds → exec (.waitmemSatisfied q) s = .next s))
      ∧ (p.opc = 5 → pre = [] → (∀ y ∈ post, p.idx < y.idx) → x.head = none → x.qhead = x.qtail → s.fe.standby = none →
          let add := p.w3.getLsbD 0 = true
          let old := if add then s.feNat x.asid p.w1.toNat 8 else 0
          s.feGrant x.asid p.w1 (if add then akRmw else akWrite) = some true →
          ∃ t u, exec (.signalmem q) s = .next t ∧ u = { s with mem := u.mem, copies := u.copies }
            ∧ u.mem = (s.feWrite x.asid p.w1.toNat (natBytes (old + p.w2.toNat) 8)).mem ∧ Finished u t q p)
      ∧ (∀ a, p.opc = 3 → kget? s.armed (p.w2.toNat % 2 ^ 26) = some a →
          (a.disarm = true → a.busy = [] → a.waiting = [] →
            ∃ t, exec (.disarmComplete q) s = .next t ∧ Finished { s with armed := kdel s.armed (p.w2.toNat % 2 ^ 26) } t q p)
          ∧ (a.busy ≠ [] ∨ a.waiting ≠ [] → exec (.disarmComplete q) s = .next s)))

/-- 07 R179, 08 R232, R235, 15 R361, R362: an answer that matches no waiting record has no effect. After an issue fault resume makes the split READY at
its PC and skip at the next instruction; after TRAP, BKPT or HALTW both go on at PC + 1. The answer to a captured warp is kept with its launch; one to
a record that is not its group's last does nothing. Skip drops the accesses that a completion fault holds, their destinations unchanged. Abort ends
the whole launch. Constructors: exansAbort, exansSkip. -/
def Obligations.AnswersAct : Prop :=
  ∀ (s : State) (q n : Nat) (x : Queue), kget? s.queues q = some x →
    let answer (skip : Bool) : Instr := if skip = true then .exansSkip q n else .exansResume q n
    ((∀ r ∈ x.waiting, r.seq % 2 ^ 48 ≠ n % 2 ^ 48) → exec (.exansAbort q n) s = .next s ∧ ∀ skip, exec (answer skip) s = .next s)
    ∧ ∀ r, r ∈ x.waiting → r.seq % 2 ^ 48 = n % 2 ^ 48 → (∀ y ∈ x.waiting, y.seq % 2 ^ 48 = n % 2 ^ 48 → y = r) →
        let u : State := { s with queues := kmod s.queues q fun x => { x with waiting := x.waiting.filter fun y => y.seq != r.seq } }
        (r.last = false → exec (.exansAbort q n) s = .next u ∧ ∀ skip, exec (answer skip) s = .next u)
        ∧ (r.last = true → Unique s.warps → Unique s.blocks → Unique s.works → ∃ t, exec (.exansAbort q n) s = .next t ∧ Aborts u t r.launch)
        ∧ ∀ skip w, r.last = true → s.warp? r.wid = some w →
            (w.captured = true → exec (answer skip) s = .next
              { u with launches := kmod s.launches r.launch fun l => { l with answers := l.answers ++ [(r.wid, r.seq, skip)] } })
            ∧ ∀ slot p f, w.captured = false → kget? w.table slot = some p → Unique w.table → p.st = .faulted → p.fault = some f → f.recs = true → f.group = r.seq → f.accs ≠ r.seq →
                (∀ k y g, (k, y) ∈ w.table → k ≠ slot → y.fault = some g → g.group ≠ r.seq ∧ g.accs ≠ r.seq) →
                (f.kind ≠ .completion → (∀ y ∈ s.reqs, y.2.wid = r.wid → y.2.span ≠ p.span) → Quiet w p →
                  ∃ t w' p', exec (answer skip) s = .next t ∧ t = { u with warps := t.warps, nextId := t.nextId } ∧ (∀ k, k ≠ r.wid → t.warp? k = s.warp? k)
                    ∧ t.warp? r.wid = some w' ∧ w' = { w with table := w'.table, results := w'.results, stopped := w'.stopped }
                    ∧ w'.stopped = (if f.kind = .stop true then false else w.stopped)
                    ∧ (∀ k, k ≠ slot → kget? w'.table k = kget? w.table k) ∧ kget? w'.table slot = some p'
                    ∧ p' = { p with st := .ready, pc := p'.pc, span := p'.span, len := 0, after := .none, rdy := 0, notBefore := max p.rdy (s.clk + 1), fault := none }
                    ∧ p'.pc = p.pc + (match f.kind with | .issue n => if skip = true then BitVec.ofNat 48 n else 0 | _ => 1))
                ∧ (f.kind = .completion → skip = true → Unique s.reqs →
                  let held (y : Req) : Prop := y.wid = r.wid ∧ y.span = p.span ∧ (y.lanes &&& p.lmask) ≠ 0 ∧ (y.kind = .load ∨ y.kind = .atom ∨ y.kind = .lkqry)
                    ∧ (y.phase = .xlate ∨ y.phase = .faulted)
                  ∃ t w' p', exec (.exansSkip q n) s = .next t ∧ t = { u with warps := t.warps, nextId := t.nextId, reqs := t.reqs } ∧ (∀ k, k ≠ r.wid → t.warp? k = s.warp? k)
                    ∧ t.warp? r.wid = some w' ∧ w' = { w with table := w'.table, results := w'.results }
                    ∧ (∀ k, k ≠ slot → kget? w'.table k = kget? w.table k) ∧ kget? w'.table slot = some p' ∧ p'.pc = p.pc ∧ p'.lmask = p.lmask
                    ∧ ∀ k y, kget? s.reqs k = some y → (held y → kget? t.reqs k = none) ∧ (¬held y → kget? t.reqs k = some y))

/-! ## The driver, power and attestation -/

namespace Sys2Proof.Rules

/-- Only the warp's pending failure record gains a failure with a cause, of a home (01 R32). -/
def FailureAdded (s t : State) (wid cause pkg die : Nat) : Prop :=
  ∀ w, s.warp? wid = some w → ∃ w', t.warp? wid = some w' ∧ w' = { w with pfr := w'.pfr }
    ∧ w'.pfr.causes = w.pfr.causes ||| ((1 : BitVec 8) <<< cause) ||| (if w.captured then 64 else 0) ∧ w'.pfr.count = min 65535 (w.pfr.count + 1)
    ∧ (w.pfr.has = false → w'.pfr.pkg = pkg ∧ w'.pfr.die = die) ∧ (w.pfr.has = true → w'.pfr.pkg = w.pfr.pkg ∧ w'.pfr.die = w.pfr.die)

/-- A range of pages holds an address. -/
def inRanges (l : List (Nat × Nat)) (va : Nat) : Prop := ∃ r ∈ l, r.1 ≤ va ∧ va < r.1 + 4096 * r.2

/-- SHA-512 of a text, 64 bytes (17 R409). -/
def digest (l : List Byte) : List Byte := (List.range 64).map (Config.sha512 l)

end Sys2Proof.Rules

/-- 07 R179, R180, 16 R385, R386: an answer to a translation fault ends its record. A replay sends every request that waits again, under the generation of
its core; an access declared invalid becomes ACCESS, a REFUSED write or IACCESS, and engine work is refused the page. An answer that names no record
has no effect. Constructors: tfansReplay, tfansInvalid. -/
def Obligations.TranslationAnswers : Prop :=
  ∀ (s : State) (num pkg : Nat),
    ((∀ x ∈ s.tickets, ¬(x.2.num = num ∧ x.2.pkg = pkg)) → exec (.tfansReplay num pkg) s = .next s ∧ exec (.tfansInvalid num pkg) s = .next s)
    ∧ ∀ k tk, (k, tk) ∈ s.tickets → tk.num = num → tk.pkg = pkg → (∀ x ∈ s.tickets, x.2.num = num → x.2.pkg = pkg → x = (k, tk)) →
      let u : State := { s with tickets := kdel s.tickets k }
      (∃ t, exec (.tfansReplay num pkg) s = .next t ∧ t = { u with reqs := t.reqs }
        ∧ (∀ id r, kget? s.reqs id = some r → (id ∉ tk.reqs ∨ r.phase ≠ .xlate) → kget? t.reqs id = some r)
        ∧ ∀ id r, kget? s.reqs id = some r → id ∈ tk.reqs → r.phase = .xlate → ∃ r', kget? t.reqs id = some r' ∧ (r'.phase = .out ∨ r'.phase = .plc)
            ∧ r' = { r with phase := r'.phase, gen := s.genOf (s.blockOf r.wid).ck r.asid, pkg := r'.pkg, die := r'.die, plane := r'.plane, stage := r'.stage
                            arrive := r'.arrive, filled := r'.filled })
      ∧ (∀ id r w, tk.kind ≠ 3 → tk.reqs = [id] → kget? s.reqs id = some r → r.phase = .xlate → kget? s.works id = none → s.warp? r.wid = some w →
          ((r.kind = .load ∨ r.kind = .atom) → (∀ q ∈ w.table, q.2.eff ≠ .faulted) →
            exec (.tfansInvalid num pkg) s = .next { u with reqs := kmod s.reqs id fun r =>
              { r with phase := .faulted, fault := fcAccess, info := BitVec.ofNat 64 (r.va.toNat % 2 ^ 57 / 4096 * 4096 + r.akind) } })
          ∧ (r.kind = .store → w.ended = false → ∃ t, exec (.tfansInvalid num pkg) s = .next t
              ∧ t = { u with reqs := kdel s.reqs id, warps := t.warps, copies := t.copies } ∧ FailureAdded s t r.wid 2 r.pkg r.die))
      ∧ (∀ id e, tk.kind ≠ 3 → tk.reqs = [id] → kget? s.reqs id = none → kget? s.works id = some e →
          exec (.tfansInvalid num pkg) s = .next { u with works := kmod s.works id fun e => { e with denied := ninsert e.denied tk.page } })
      ∧ ∀ w p, tk.kind = 3 → Issuer s w p → s.fetchers tk = [s.cur] →
          ∃ t, exec (.tfansInvalid num pkg) s = .next t ∧ TakesFault u t w p 0x05 (BitVec.ofNat 64 (8 * p.pc.toNat))

/-- 16 R383, R387, R389: GENCMD starts a bump: GEN of every replica takes the next generation; when it is a multiple of 256 every live core is sent a
GENSET. A second request for the ASID waits. BUMPDONE: each live die takes the generation in its own time (the model's choice, log 59), and every copy
and frame record in the ranges goes from it; when all have and no access of an older generation is under way, the bump ends and its record is posted.
FRAMEFREE clears a frame record. Constructors: gencmd, bumpdone, framefree. -/
def Obligations.GenerationsBumped : Prop :=
  (∀ (s : State) (addr : Nat),
      let asid := (s.readBump addr).1
      let ranges := (s.readBump addr).2
      let req := memRead s.mem (Config.physByte addr) 64
      let g := (((s.asidEntry s.fe.primary asid).extractLsb' 32 16).toNat + 1) % 65536
      asid = bytesNat (req.take 2) ∧ ranges.length = bytesNat req / 2 ^ 16 % 32
      ∧ ((kget? s.bumps asid).isSome = true → exec (.gencmd addr) s = .next { s with bumpReqs := s.bumpReqs ++ [addr] })
      ∧ (kget? s.bumps asid = none → MemoryOk s →
          ∃ t b, exec (.gencmd addr) s = .next t ∧ t = { s with mem := t.mem, cores := t.cores, bumps := t.bumps }
            ∧ kget? t.bumps asid = some b ∧ b = { addr := addr, gen := g, ranges := ranges, clk := s.clk, dies := b.dies }
            ∧ (∀ dk, dk ∈ b.dies ↔ ∃ p d, s.pkgLive p = true ∧ d ∈ s.liveDies p ∧ dk = 128 * p + d)
            ∧ (∀ p, s.pkgLive p = true → memRead t.mem (asidKey p asid + 4) 2 = natBytes g 2)
            ∧ (∀ a, (∀ p, s.pkgLive p = true → ¬(asidKey p asid + 4 ≤ a ∧ a < asidKey p asid + 6)) → memGet t.mem a = memGet s.mem a)
            ∧ (g % 256 = 0 → ∀ p d c, s.pkgLive p = true → d ∈ s.liveDies p → c < 48 → s.coreLive (48 * (128 * p + d) + c) = true →
                (⟨3, BitVec.ofNat 64 asid, BitVec.ofNat 64 g, 0, 0, false⟩ : FwCmd) ∈ (t.core (48 * (128 * p + d) + c)).cmds)
            ∧ (g % 256 ≠ 0 → t.cores = s.cores)))
  ∧ (∀ (s : State) (asid : Nat) (b : Bump), kget? s.bumps asid = some b →
      let now (dk : Nat) : Prop := dk ∈ b.dies ∧ (s.dieLive dk = false ∨ b.clk + Config.bumpDelay b.clk dk ≤ s.clk)
      let covered (q : Nat × Copy) : Prop := q.2.asid = asid ∧ inRanges b.ranges (512 * q.2.blk) ∧ ∃ dk, now dk ∧ s.dieLive dk = true ∧ q.2.onDie dk = true
      ((∃ dk, now dk) → Unique s.copies → (∀ q ∈ s.copies, q.2.asid = asid → q.2.dirty = []) →
        ∃ t b', exec (.bumpdone asid) s = .next t ∧ t = { s with dies := t.dies, mem := t.mem, copies := t.copies, homes := t.homes, bumps := t.bumps }
          ∧ kget? t.bumps asid = some b' ∧ b' = { b with dies := b'.dies, clk := if b'.dies = [] then s.clk else b.clk } ∧ (∀ dk, dk ∈ b'.dies ↔ dk ∈ b.dies ∧ ¬now dk)
          ∧ (∀ dk, now dk → s.dieLive dk = true →
              kgetD (t.die dk).genReg asid 0 = b.gen ∧ t.die dk = { s.die dk with genReg := (t.die dk).genReg, frames := (t.die dk).frames }
              ∧ ∀ f x, kget? (s.die dk).frames f = some x → Unique (s.die dk).frames → (x.asid = asid ∧ inRanges b.ranges x.page → kget? (t.die dk).frames f = none)
                  ∧ (¬(x.asid = asid ∧ inRanges b.ranges x.page) → kget? (t.die dk).frames f = some x))
          ∧ (∀ dk, ¬now dk → t.die dk = s.die dk) ∧ t.mem = s.mem
          ∧ (∀ q ∈ t.copies, q ∈ s.copies ∧ ¬covered q) ∧ (∀ q ∈ s.copies, ¬covered q → q ∈ t.copies))
      ∧ ((∀ dk, ¬now dk) → b.dies ≠ [] ∨ s.oldAccess b asid = true → exec (.bumpdone asid) s = .next s)
      ∧ (b.dies = [] → s.oldAccess b asid = false → s.bumpReqs = [] → ∃ t u, exec (.bumpdone asid) s = .next t ∧ u = { s with bumps := kdel s.bumps asid } ∧ t = { u with mem := t.mem, copies := t.copies, fe := t.fe }
        ∧ FqPosted u t [fqWord [(0, 22), (8, 0xFFF), (20, asid), (36, b.gen)], BitVec.ofNat 64 b.addr, 0, 0]))
  ∧ ∀ (s : State) (v : Nat), ∃ t, exec (.framefree v) s = .next t ∧ t = { s with dies := t.dies }
      ∧ let dk := 128 * (v / 2 ^ 7 % 512) + v % 128
        (∀ k, k ≠ dk → t.die k = s.die k) ∧ t.die dk = { s.die dk with frames := kdel (s.die dk).frames (v / 2 ^ 16 % 2 ^ 24) }

/-! ## Links, failing units and the host pair -/

namespace Sys2Proof.Rules

/-- The compute die whose block counts a link's events (17 R406): the manager of an Elpor port, or the die of a die-to-die link. -/
def dieOfLink (link : Nat) : Nat :=
  if link < 2 ^ 20 then 128 * (link % 512) + 16 * (link / 512 % 64 / 8) + (if link / 512 < 64 then 0 else 15) else (link - 2 ^ 20) / 4

/-- Every other live package is sent the report of a plane, to be adopted within 12,000 clk (17 R400, R404). -/
def PlaneReported (s t : State) (pkg plane : Nat) (on : Bool) : Prop :=
  ∀ k, s.pkgLive k = true → k ≠ pkg → ∃ c, (plane, on, c) ∈ (t.pkg k).adopt ∧ s.clk ≤ c ∧ c ≤ s.clk + 12000

/-- Every launch with a resident or starting block that a test selects is aborted, and every other launch is as it was (17 R405). -/
def AbortsWhere (s t : State) (test : Block → Prop) : Prop :=
  ∀ l x, s.launch? l = some x →
    ((∃ b ∈ s.blocks, b.2.launch = l ∧ b.2.saved = false ∧ test b.2) → ∃ y, t.launch? l = some y ∧ y.aborted = true)
    ∧ ((∀ b ∈ s.blocks, b.2.launch = l → b.2.saved = false → ¬test b.2) → t.launch? l = some x)

end Sys2Proof.Rules

/-- 12 R325, 17 R400, R403, R404: a package adopts the reports that are due, a plane rejoining only where it is enabled and its port lives. PLANEEN
removes planes as dead ports do and lets enabled ones rejoin. A dead port trains again after 1,200,000 clk. A group entry is written on every plane.
Constructors: planeMaskAdopt, planeen, portRetrain, mcastGroupWrite. -/
def Obligations.PlanesChange : Prop :=
  (∀ (s : State) (pkg : Nat),
      let p := s.pkg pkg
      ∃ t, exec (.planeMaskAdopt pkg) s = .next t ∧ t = { s with pkgs := t.pkgs } ∧ (∀ k, k ≠ pkg → t.pkg k = s.pkg k)
        ∧ t.pkg pkg = { p with adopt := (t.pkg pkg).adopt, live := (t.pkg pkg).live } ∧ (∀ a, a ∈ (t.pkg pkg).adopt ↔ a ∈ p.adopt ∧ s.clk < a.2.2)
        ∧ ∀ n, n < 128 →
            ((∀ a ∈ p.adopt, a.1 = n → s.clk < a.2.2) → (t.pkg pkg).live.getLsbD n = p.live.getLsbD n)
            ∧ ∀ on, (∃ a ∈ p.adopt, a.1 = n ∧ a.2.2 ≤ s.clk) → (∀ a ∈ p.adopt, a.1 = n → a.2.2 ≤ s.clk → a.2.1 = on) →
                ((t.pkg pkg).live.getLsbD n = true ↔ on = true ∧ p.planeen.getLsbD n = true ∧ ∀ d ∈ p.deadPorts, d.1 ≠ n))
  ∧ (∀ (s : State) (pkg : Nat) (v : BitVec 128), ∃ t, exec (.planeen pkg v) s = .next t ∧ t = { s with pkgs := t.pkgs }
      ∧ (t.pkg pkg).planeen = v
      ∧ ∀ n, n < 128 →
          let old := (s.pkg pkg).planeen.getLsbD n
          let alive := ∀ d ∈ (s.pkg pkg).deadPorts, d.1 ≠ n
          (old = true → v.getLsbD n = false → (t.pkg pkg).live.getLsbD n = false ∧ PlaneReported s t pkg n false)
          ∧ (old = false → v.getLsbD n = true → alive → (t.pkg pkg).live.getLsbD n = true ∧ PlaneReported s t pkg n true)
          ∧ (old = v.getLsbD n ∨ v.getLsbD n = true ∧ ¬alive → (t.pkg pkg).live.getLsbD n = (s.pkg pkg).live.getLsbD n))
  ∧ (∀ (s : State) (pkg plane c : Nat), (s.pkg pkg).deadPorts = [(plane, c)] →
      (s.clk < c + 1200000 → ∀ good, exec (.portRetrain pkg plane good) s = .next s)
      ∧ (c + 1200000 ≤ s.clk →
          (∃ t, exec (.portRetrain pkg plane false) s = .next t ∧ t = { s with pkgs := t.pkgs } ∧ t.pkg pkg = { s.pkg pkg with deadPorts := [(plane, s.clk)] })
          ∧ ((s.pkg pkg).planeen.getLsbD plane = true → ∃ t, exec (.portRetrain pkg plane true) s = .next t ∧ t = { s with pkgs := t.pkgs }
              ∧ t.pkg pkg = { s.pkg pkg with deadPorts := [], live := (s.pkg pkg).live ||| (1#128 <<< plane), rejoins := ((s.pkg pkg).rejoins + 1) % 2 ^ 64 }
              ∧ PlaneReported s t pkg plane true)
          ∧ ((s.pkg pkg).planeen.getLsbD plane = false → ∃ t, exec (.portRetrain pkg plane true) s = .next t ∧ t = { s with pkgs := t.pkgs }
              ∧ t.pkg pkg = { s.pkg pkg with deadPorts := [] })))
  ∧ ∀ (s : State) (g : Nat) (members : BitVec 512) (asid : BitVec 16) (valid : Bool), g < 4096 →
      ∃ t, exec (.mcastGroupWrite g members asid valid) s = .next t ∧ t = { s with groups := t.groups }
        ∧ kget? t.groups g = some ⟨members, asid, valid⟩ ∧ ∀ k, k ≠ g → kget? t.groups k = kget? s.groups k

/-! ## Every constructor -/

/-- 00 R7, 08 R237: no instruction and no event faults or is refused: `exec` of every constructor answers a next state in every state. What that state is,
under the conditions of its normal execution, the other statements say. -/
def Obligations.EveryInstructionCompletes : Prop :=
  ∀ (i : Instr) (s : State), ∃ t, exec i s = .next t

/-! ## Statements of several parts -/

/-- 05 R126, R127, R128: the mask instructions, MSETEM among them, complete with the masks of the manual's tables. Constructors: mand, mor, mxor, mnot,
mmov, mrest, msetem. -/
def Obligations.MaskResults : Prop :=
  -- 05 R126, R127: MAND, MOR, MXOR, MNOT, MMOV and MREST complete with the mask of the manual's table in the lanes of the split.
  (∀ (s : State) (w : Warp) (p : Split) (i : Instr) (f : SFmt) (x : Lanes), Issuer s w p → maskRule s i = some (f, x) →
    ∃ t, exec i s = .next t ∧ MaskDone s t w p f.sw f.sd.toNat x)
  ∧
  -- 05 R128: MSETEM keeps the old execution mask in M[SD], unless SD is 0, and then narrows m0 by M[SA], which by then holds the old mask where SA is SD;
  -- both are due in 2 clk for the lanes of the split.
  (∀ (s : State) (w : Warp) (p : Split) (f : SFmt), Issuer s w p →
    ∃ t w', exec (.msetem f) s = .next t ∧ OnlyIssuer s t ∧ t.warp? s.cur.1 = some w' ∧ RegsKept w w' ∧ OthersKept w w' s.cur.2
      ∧ GoesOn w' s.cur.2 p f.sw 1
      ∧ (∃ k r, Due s w' k 2 (.msk 0) r ∧ r.lanes = p.lmask ∧ r.sval = (s.rdM 0 &&& if f.sd ≠ 0 ∧ f.sa = f.sd then s.rdM 0 else s.rdM f.sa.toNat).setWidth 64)
      ∧ (f.sd ≠ 0 → ∃ k r, Due s w' k 2 (.msk f.sd.toNat) r ∧ r.lanes = p.lmask ∧ r.sval = (s.rdM 0).setWidth 64))

/-- 01 R29, 05 R109, R110, R127, R129, 07 R207: reads of masks, splits, counters and special registers complete with the manual's values; SWR writes SEED.
Constructors: mpopc, mffs, msave, splitq, crd, srd, swr. -/
def Obligations.ReadResults : Prop :=
  -- 05 R127, R129, 07 R207: MPOPC, MFFS, MSAVE, SPLITQ and CRD complete with the scalar of the manual's tables.
  (∀ (s : State) (w : Warp) (p : Split) (i : Instr) (sw : Bool) (sd lat : Nat) (x : Word), Issuer s w p →
    readRule s w p i = some (sw, sd, lat, x) → ∃ t, exec i s = .next t ∧ ScalarDone s t w p sw sd lat 1 x)
  ∧
  -- 01 R29, 05 R109: SRD of the special registers 1 to 15 completes with the register's fields in s[SD].
  (∀ (s : State) (w : Warp) (p : Split) (f : SFmt), Issuer s w p → f.imm.toNat % 16 ≠ 0 →
    ∃ t, exec (.srd f) s = .next t ∧ ScalarDone s t w p f.sw f.sd.toNat 2 1 (specialRule s w p (f.imm.toNat % 16)))
  ∧
  -- 05 R109, 01 R29, R14: SRD of LANE writes each active lane's number to a vector register, tagged N32, or takes REGRANGE at or above the budget.
  (∀ (s : State) (w : Warp) (p : Split) (f : SFmt), Issuer s w p → f.imm.toNat % 16 = 0 →
    let vd := f.imm.toNat / 16 % 256
    (vd < w.budget → ∃ t w' q, exec (.srd f) s = .next t ∧ OnlyIssuer s t ∧ t.warp? s.cur.1 = some w' ∧ RegsKeptButTags w w'
      ∧ OthersKept w w' s.cur.2 ∧ GoesOn w' s.cur.2 p f.sw 1 ∧ Due s w' s.nextId 4 (.vec vd) q ∧ q.lanes = s.effective 0
      ∧ (∀ l, (s.effective 0).getLsbD l = true → kget? q.vals l = some (BitVec.ofNat 32 l))
      ∧ TagSet s w w' vd 2 ∧ TagsKept w w' [vd])
    ∧ (w.budget ≤ vd → ∃ t, exec (.srd f) s = .next t ∧ TakesFault s t w p 0x02 (BitVec.ofNat 64 (vd + 2 ^ 8 * (w.budget / 8)))))
  ∧
  -- 05 R110: SWR writes SEED, at issue, and nothing else.
  (∀ (s : State) (w : Warp) (p : Split) (f : SFmt), Issuer s w p →
    ∃ t w', exec (.swr f) s = .next t ∧ OnlyIssuer s t ∧ t.warp? s.cur.1 = some w'
      ∧ w' = { w with seed := s.rdS f.sa.toNat, table := w'.table, results := w'.results }
      ∧ OthersKept w w' s.cur.2 ∧ Proceeds w' s.cur.2 p f.sw 1)

/-- 01 R16 to R19: results are written when they are due, in their own lanes and registers alone. Constructors: registerResultReturn. -/
def Obligations.ResultsLand : Prop :=
  -- 01 R17, R18: a scalar result is written in the clk in which it is due, unless a write later in issue order has been made, or one still to come takes
  -- its place (log 98): that write stands; s63 keeps nothing. No other register changes.
  (∀ (s : State) (wid k n : Nat) (w : Warp) (r : Result), s.warp? wid = some w → kget? w.results k = some r → r.mem = false →
    r.done = false → r.due ≤ s.clk → r.dest = .sca n → n < 63 → (∀ q ∈ w.results, q.2.span = r.span → q.2.dest = r.dest → q.2.key = r.key) →
      ∃ t w', exec (.registerResultReturn wid k) s = .next t ∧ t.warp? wid = some w'
        ∧ kgetD w'.sc n 0 = (if kgetD w.scKey n 0 ≤ r.key ∧ w.laterScalar r.key n r.span r.long = false then r.sval else kgetD w.sc n 0)
        ∧ (∀ j, j ≠ n → kgetD w'.sc j 0 = kgetD w.sc j 0) ∧ w'.v = w.v ∧ w'.m = w.m ∧ w'.tags = w.tags ∧ w'.table = w.table
        ∧ (kget? w'.results k).map (·.done) = some true ∧ t.mem = s.mem ∧ ∀ j, j ≠ wid → t.warp? j = s.warp? j)
  ∧
  -- 01 R16, R19: a vector result is written in its lanes alone, a mask result in its live lanes alone, in the clk in which it is due; no other lane,
  -- register or mask bit changes.
  (∀ (s : State) (wid k n : Nat) (w : Warp) (r : Result), s.warp? wid = some w → kget? w.results k = some r → r.mem = false →
    r.done = false → r.due ≤ s.clk → (∀ q ∈ w.results, q.2.span = r.span → q.2.dest = r.dest → q.2.key = r.key) →
      ∃ t w', exec (.registerResultReturn wid k) s = .next t ∧ t.warp? wid = some w' ∧ (match r.dest with | .sca _ => True | _ => w'.sc = w.sc) ∧ w'.tags = w.tags
        ∧ w'.table = w.table ∧ t.mem = s.mem ∧ (∀ j, j ≠ wid → t.warp? j = s.warp? j)
        ∧ (r.dest = .vec n → (r.vals.map Prod.fst).Nodup →
            (∀ l x, r.pend.getLsbD l = true → kget? r.vals l = some x → kgetD w'.v (32 * n + l) 0 = x)
            ∧ (∀ j, (∀ l, r.pend.getLsbD l = true → j ≠ 32 * n + l) → kgetD w'.v j 0 = kgetD w.v j 0) ∧ w'.m = w.m)
        ∧ (r.dest = .msk n →
            (∀ l, l < 32 → (kgetD w'.m n 0).getLsbD l
                = if r.pend.getLsbD l && w.liveLanes.getLsbD l then r.sval.getLsbD l else (kgetD w.m n 0).getLsbD l)
            ∧ (∀ j, j ≠ n → kgetD w'.m j 0 = kgetD w.m j 0) ∧ w'.v = w.v))

/-- 01 R14, R23, 02 R64, 06 R132, 07 R176, 08 R237: the precise faults of operands and addresses: REGRANGE, FMTTAG, ADDRNC, MISALIGN, LSRANGE. -/
def Obligations.OperandFaults : Prop :=
  -- 01 R14, R23, 02 R64, 06 R132, 08 R237: a vector instruction that names a register at or above the budget takes REGRANGE, which names the register and
  -- the budget; failing that, one whose checked source holds another tag takes FMTTAG, which names the register and the tag found.
  (∀ (s : State) (w : Warp) (p : Split) (i : Instr) (r : VRule), Issuer s w p → i.wf = true → vecRule s i = some r →
    ((∃ v ∈ r.regs, w.budget ≤ v) →
      ∃ t v, exec i s = .next t ∧ v ∈ r.regs ∧ w.budget ≤ v ∧ TakesFault s t w p 0x02 (BitVec.ofNat 64 (v + 2 ^ 8 * (w.budget / 8))))
    ∧ ((∀ v ∈ r.regs, v < w.budget) → r.rawok = false → (∃ c ∈ r.tags, (s.tagOfReg c.1).toNat ∉ c.2) →
      ∃ t c info, exec i s = .next t ∧ c ∈ r.tags ∧ (s.tagOfReg c.1).toNat ∉ c.2 ∧ TakesFault s t w p 0x03 info
        ∧ info.toNat % 2 ^ 12 = c.1 + 2 ^ 8 * (s.tagOfReg c.1).toNat))
  ∧
  -- 01 R14, R23, 02 R48, 07 R175, R178, 08 R237: the precise faults of a memory instruction, in their order: REGRANGE for the first register at or above
  -- the budget, FMTTAG for the first tag that does not pass, ADDRNC for the lowest lane whose address is not canonical, MISALIGN for the lowest lane whose
  -- address is not aligned; the address is the INFO. No access is made.
  (∀ (s : State) (w : Warp) (p : Split) (i : Instr) (r : MRule), Issuer s w p → i.wf = true → memRule s i = some r →
    (∀ v, r.regs.find? (fun v => decide (w.budget ≤ v)) = some v → ∃ t, exec i s = .next t
      ∧ TakesFault s t w p 0x02 (BitVec.ofNat 64 (v + 2 ^ 8 * (w.budget / 8))))
    ∧ ((∀ v ∈ r.regs, v < w.budget) → ∀ c, r.tags.find? (fun c => !c.2.contains (s.tagOfReg c.1).toNat) = some c →
        ∃ t info, exec i s = .next t ∧ TakesFault s t w p 0x03 info
          ∧ info.extractLsb' 0 12 = BitVec.ofNat 12 (c.1 % 256 + 2 ^ 8 * (s.tagOfReg c.1).toNat))
    ∧ ((∀ v ∈ r.regs, v < w.budget) → (∀ c ∈ r.tags, (s.tagOfReg c.1).toNat ∈ c.2) →
        (∀ a, r.addrs.find? (fun a => a.2.extractLsb' 57 3 != 0) = some a → ∃ t, exec i s = .next t ∧ TakesFault s t w p 0x0A a.2)
        ∧ ((∀ a ∈ r.addrs, a.2.extractLsb' 57 3 = 0) → ∀ a, r.addrs.find? (fun a => a.2.toNat % r.align != 0) = some a →
            ∃ t, exec i s = .next t ∧ TakesFault s t w p 0x0B a.2)))
  ∧
  -- 07 R175, R178, 08 R237: LDL and STL take MISALIGN for the lowest lane whose offset is not aligned, else LSRANGE for the lowest lane whose access
  -- passes the usable limit.
  (∀ (s : State) (w : Warp) (p : Split) (i : Instr) (f : MFmt) (store : Bool) (tags : List (Nat × List Nat)), Issuer s w p →
    i.wf = true → localRule i = some (f, store, tags) → (∀ v ∈ dataRule f ++ indexRule f, v < w.budget) →
    (∀ c ∈ tags, (s.tagOfReg c.1).toNat ∈ c.2) →
      let size := 2 ^ f.sz.toNat
      let limit := s.curBlock.alloc - 1536 * s.curBlock.warps
      (∀ l, (activeLanes s f).find? (fun l => (laneAddr s f l).toNat % size != 0) = some l →
        ∃ t, exec i s = .next t ∧ TakesFault s t w p 0x0B (laneAddr s f l))
      ∧ ((∀ l ∈ activeLanes s f, (laneAddr s f l).toNat % size = 0) → ∀ l,
          (activeLanes s f).find? (fun l => decide (limit < (laneAddr s f l).toNat + size)) = some l →
            ∃ t, exec i s = .next t ∧ TakesFault s t w p 0x09 (laneAddr s f l)))

/-- 02 R40 to R62, 16 R392: words written out from the manual's layouts, the unassigned opcodes, and the words of the firmware instructions. -/
def Obligations.DecodeWords : Prop :=
  -- 16 R392: the firmware instructions and their words agree in both directions.
  ((∀ (i : Instr) (w : BitVec 32), encodeXkarb i = some w → decodeXkarb w = some i)
    ∧ ∀ (i : Instr) (w : BitVec 32), decodeXkarb w = some i → encodeXkarb i = some w)
  ∧
  -- 02 R59, R62: a word of an unassigned opcode, or of 0x7F, is no instruction; every other opcode has an instruction.
  ((∀ w e : Word, unassigned (w.extractLsb' 56 7).toNat = true → decode w e = .error .opcode)
    ∧ ∀ op : Nat, op < 128 → unassigned op = false → ∃ (w e : Word) (i : Instr), (w.extractLsb' 56 7).toNat = op ∧ decode w e = .ok i)
  ∧
  -- 02 R40 to R61: words written out from the layouts of the manual decode to the instructions they stand for; the VFMA, LDL and KBFX words are the
  -- manual's own.
  (decode 0x2230A02030406000 0 = .ok (.vfma ⟨false, 10, 2, 3, 4, 0, 3, 0, 0⟩)
    ∧ decode 0xA230A02030406000 0 = .ok (.vfma ⟨true, 10, 2, 3, 4, 0, 3, 0, 0⟩)
    ∧ decode 0x5410813FC0480040 0 = .ok (.ldl 1 ⟨false, 8, 4, 255, 0, 0, 2, 2, 0, 0x40⟩)
    ∧ decode 0x0100420C00000000 0 = .ok (.sadd ⟨false, 1, 2, 3, 0⟩)
    ∧ decode 0x02004203FFFFFFFF 0 = .ok (.saddImm ⟨false, 1, 2, 0, 0x3FFFFFFFF⟩)
    ∧ decode 0x910FFFFF80000148 0 = .ok (.brc ⟨true, 0x3FFFFE, 0, 5, 1⟩)
    ∧ decode 0x3010405000000007 0 = .ok (.vaddImm ⟨false, 1, 4, 5, 0, false, 7⟩)
    ∧ decode 0x6802C08000000000 0 = .ok (.fence ⟨false, 11, 0, 4, 0, 0, 0⟩)
    ∧ decode 0x7003001874C80001 0x10 = .ok (.cpy ⟨false, 3, 0, 0, 6, 7, 9, 4, true, 1, 0x10⟩)
    ∧ decodeXkarb 0x00C5950B = some (.kbfx ⟨12, 11, 10⟩)
    ∧ (decode 0 0 = .error .opcode) ∧ (decode (BitVec.allOnes 64) 0 = .error .opcode))

/-- 02 R62, R63, 16 R391, R392: a step at an illegal word takes ILLOP; a step of a firmware core or of the part runs what it names. -/
def Obligations.StepRunsOthers : Prop :=
  -- 02 R62, R63, 08 R237: when the words at the PC of a READY split are illegal, the step that issues it parks the split FAULTED with ILLOP and the first
  -- word; no register, tag, mask or local-store byte changes and nothing is enqueued.
  (∀ (s : State) (wid slot : Nat) (rest : List Action) (wp : Warp) (p : Split) (w e : Word) (why : Illop),
    s.agenda = .issue wid slot :: rest → s.warp? wid = some wp → kget? wp.table slot = some p → p.st = .ready → p.lmask ≠ 0 →
      Holds s wid p.pc w e → decode w e = .error why →
        ∃ t, step s = .next t ∧ TakesFault { s with agenda := rest, cur := (wid, slot) } t wp p 0x01 w)
  ∧
  -- A step of a firmware core (16 R391, R392): one that waits stays; the word at its pc is an Xkarb instruction, and runs; or it has the opcode of Xkarb
  -- and raises the illegal-instruction exception, cause 2; any other word is of the base instruction set, which the manual does not describe, and the
  -- model refuses it by name.
  (∀ (s : State) (pkg die fw : Nat) (rest : List Action), s.agenda = .firmware pkg die fw :: rest → fw < 4 →
    let n := 4 * (128 * pkg + die) + fw
    let c := s.fwCore n
    let w := BitVec.ofNat 32 (c.ram c.pc.toNat 4)
    let s' := { s with agenda := rest }
    (c.wait ≠ none ∨ c.disp ≠ none → step s = .next s')
      ∧ (c.wait = none → c.disp = none →
          (∀ i, decodeXkarb w = some i → step s = exec i { s' with cur := (0, n) })
          ∧ (decodeXkarb w = none → w.extractLsb' 0 7 = 0x0B →
              ∃ t, step s = .next t ∧ (t.fwCore n).mcause = 2 ∧ (t.fwCore n).x = c.x ∧ (t.fwCore n).sram = c.sram)
          ∧ (decodeXkarb w = none → w.extractLsb' 0 7 ≠ 0x0B → step s = .refused (.baseIsa w))))
  ∧
  -- The other actions of the agenda: a step of the part is `exec` of the constructor that names it; an empty agenda begins a clk.
  ((∀ (s : State) (e : Event) (rest : List Action), s.agenda = .event e :: rest → step s = exec (eventInstr e) { s with agenda := rest })
    ∧ ∀ s : State, s.agenda = [] → step s = .next { s with agenda := [.phase 0] })

/-- 05 R112, R114 to R119, R125: transfers of control move a split whole, or divide it by target. Constructors: bra, brc, brx, jmpi, call, callInd, ret,
yield. -/
def Obligations.TransfersMove : Prop :=
  -- 05 R112, R116 to R118, R125: a transfer whose lanes all have one target moves the split whole, and no split is created; YIELD leaves its mark.
  (∀ (s : State) (w : Warp) (p : Split) (i : Instr) (j : BitVec 16) (lat : Nat) (tgt : Nat → BitVec 48 × Bool) (x : BitVec 48 × Bool),
    Issuer s w p → transferRule s p i = some (j, lat, tgt) → PairPasses s w i → (∀ l, p.lmask.getLsbD l = true → tgt l = x) →
      ∃ t w', exec i s = .next t ∧ OnlyIssuer s t ∧ t.warp? s.cur.1 = some w' ∧ RegsKept w w' ∧ OthersKept w w' s.cur.2
        ∧ Arrives s w' p x.1 lat ∧ (∀ f, i = .yield f → (kget? w'.table s.cur.2).map (·.yield) = some true))
  ∧
  -- 05 R114, R115, R117, R118: a transfer whose lanes have several targets divides the split: the lanes of one target form one split at that target, in
  -- the join group that JOFS gives, in a slot READY or in SPAN-PARK, or in the overflow area DORMANT with HELD READY; the part of the lowest lane takes
  -- the parent's slot; where the join group that a deeper division leaves has no member that waits in JOIN, every other split keeps its entry (a fill may
  -- be given up for its slot, log 49). No register changes.
  (∀ (s : State) (w : Warp) (p : Split) (i : Instr) (j : BitVec 16) (lat : Nat) (tgt : Nat → BitVec 48 × Bool) (a b : Nat),
    Issuer s w p → transferRule s p i = some (j, lat, tgt) → PairPasses s w i →
      p.lmask.getLsbD a = true → p.lmask.getLsbD b = true → tgt a ≠ tgt b → (j ≠ 0 → p.jgrp ≠ 31) →
      w.table.length + (List.range 32).countP p.lmask.getLsbD ≤ 33 →
      (j ≠ 0 → p.jgrp = 0 ∨ ∀ q ∈ w.table, q.1 ≠ s.cur.2 → q.2.jgrp = p.jgrp → q.2.jpc = p.jpc → q.2.inJoin = false) →
        ∃ t w', exec i s = .next t ∧ OnlyIssuer s t ∧ t.warp? s.cur.1 = some w'
          ∧ w' = { w with table := w'.table, results := w'.results, moves := w'.moves }
          ∧ (∀ k q, k ≠ s.cur.2 → kget? w.table k = some q →
              ∃ q', kget? w'.table k = some q' ∧ q' = { q with moving := q'.moving })
          ∧ ∀ l, p.lmask.getLsbD l = true → ∃ k q, kget? w'.table k = some q ∧ q.pc = (tgt l).1
              ∧ (∀ m, m < 32 → q.lmask.getLsbD m = (p.lmask.getLsbD m && decide (tgt m = tgt l)))
              ∧ q.jgrp = (if j = 0 then p.jgrp else p.jgrp + 1)
              ∧ q.jpc = (if j = 0 then p.jpc else p.pc + j.signExtend 48)
              ∧ (k < 8 → q.st = .ready ∨ q.st = .spanPark) ∧ (8 ≤ k → q.st = .dormant ∧ q.held = .ready)
              ∧ (l = lowestLane p.lmask → k = s.cur.2))
  ∧
  -- 05 R112, R119: CALL, and CALL.ind whose lanes have one target, move the split whole and leave PC + 1 in the pair for every lane of the split, as N64,
  -- due with the transfer.
  (∀ (s : State) (w : Warp) (p : Split) (i : Instr) (r : Nat) (j : BitVec 16) (lat : Nat) (tgt : Nat → BitVec 48) (x : BitVec 48),
    Issuer s w p → callRule s p i = some (r, j, lat, tgt) → PairPasses s w i → (∀ l, p.lmask.getLsbD l = true → tgt l = x) →
      ∃ t w' q q', exec i s = .next t ∧ OnlyIssuer s t ∧ t.warp? s.cur.1 = some w' ∧ RegsKeptButTags w w' ∧ OthersKept w w' s.cur.2
        ∧ Arrives s w' p x lat ∧ TagSet s w w' r 14 ∧ TagSet s w w' (r + 1) 15 ∧ TagsKept w w' [r, r + 1]
        ∧ Due s w' s.nextId lat (.vec r) q ∧ Due s w' (s.nextId + 1) lat (.vec (r + 1)) q' ∧ q.lanes = p.lmask ∧ q'.lanes = p.lmask
        ∧ ∀ l, p.lmask.getLsbD l = true → kget? q.vals l = some ((p.pc + 1).extractLsb' 0 32)
            ∧ kget? q'.vals l = some (((p.pc + 1).extractLsb' 32 16).setWidth 32))

/-- 01 R14, R19, R23, 05 R114, R118, R119, R123, 07 R194, 08 R237: the faults of transfers, and the end of lanes and warps. Constructors: exit. -/
def Obligations.TransfersStop : Prop :=
  -- 01 R14, R23, 05 R114, R118, R119, 08 R237: the precise faults of control transfers: REGRANGE for a pair at or above the budget, FMTTAG for a pair that
  -- is read and does not hold N64 or RAW, JDEPTH for a division with JOFS at depth 31. No lane moves.
  ((∀ (s : State) (w : Warp) (p : Split) (i : Instr) (r : Nat) (rd : Bool), Issuer s w p → targetPair i = some (r, rd) →
    (w.budget ≤ r + 1 → ∃ t, exec i s = .next t ∧ TakesFault s t w p 0x02
      (BitVec.ofNat 64 ((if w.budget ≤ r then r else r + 1) + 2 ^ 8 * (w.budget / 8))))
    ∧ (r + 1 < w.budget → rd = true → s.tagOfReg r ∉ [0, 14] → ∃ t, exec i s = .next t ∧ TakesFault s t w p 0x03
      (BitVec.ofNat 64 (r + 2 ^ 8 * (s.tagOfReg r).toNat + 2 ^ 12 * 14)))
    ∧ (r + 1 < w.budget → rd = true → s.tagOfReg r ∈ [0, 14] → s.tagOfReg (r + 1) ∉ [0, 15] → ∃ t, exec i s = .next t
      ∧ TakesFault s t w p 0x03 (BitVec.ofNat 64 (r + 1 + 2 ^ 8 * (s.tagOfReg (r + 1)).toNat + 2 ^ 12 * 14))))
  ∧ (∀ (s : State) (w : Warp) (p : Split) (i : Instr) (j : BitVec 16) (lat a b : Nat) (tgt : Nat → BitVec 48 × Bool), Issuer s w p →
    transferRule s p i = some (j, lat, tgt) → PairPasses s w i → p.lmask.getLsbD a = true → p.lmask.getLsbD b = true →
      tgt a ≠ tgt b → j ≠ 0 → p.jgrp = 31 → ∃ t, exec i s = .next t ∧ TakesFault s t w p 0x06 0)
  ∧ (∀ (s : State) (w : Warp) (p : Split) (i : Instr) (r : Nat) (j : BitVec 16) (lat a b : Nat) (tgt : Nat → BitVec 48), Issuer s w p →
    callRule s p i = some (r, j, lat, tgt) → PairPasses s w i → p.lmask.getLsbD a = true → p.lmask.getLsbD b = true →
      tgt a ≠ tgt b → j ≠ 0 → p.jgrp = 31 → ∃ t, exec i s = .next t ∧ TakesFault s t w p 0x06 0))
  ∧
  -- 05 R123, 01 R19, 07 R194: EXIT of a split with no sibling that waits ends its lanes: its entry becomes FREE, its lanes' mask bits are cleared, the
  -- other splits keep their entries, and a warp whose last split exits ends; a warp that still holds a lock takes LOCKEXIT instead, with the number of
  -- locks.
  (∀ (s : State) (w : Warp) (p : Split) (f : JFmt), Issuer s w p → (w.table.map Prod.fst).Nodup →
    (w.table.length = 1 → w.heldLocks ≠ [] →
      ∃ t, exec (.exit f) s = .next t ∧ TakesFault s t w p 0x07 (BitVec.ofNat 64 w.heldLocks.length))
    ∧ ((w.table.length = 1 → w.heldLocks = []) → p.jgrp = 0 → w.arrSet = [] →
        (∀ k q, kget? w.table k = some q → q.st = .ready ∨ q.st = .spanPark) →
        ∃ t w', exec (.exit f) s = .next t ∧ t.warp? s.cur.1 = some w' ∧ kget? w'.table s.cur.2 = none ∧ OthersKept w w' s.cur.2
          ∧ (∀ r, kgetD w'.m r 0 = kgetD w.m r 0 &&& ~~~p.lmask) ∧ w'.v = w.v ∧ w'.sc = w.sc ∧ w'.tags = w.tags
          ∧ (w.table.length = 1 → w'.ended = true) ∧ (w.table.length ≠ 1 → w'.ended = w.ended) ∧ t.mem = s.mem
          ∧ ∀ k, k ≠ s.cur.1 → t.warp? k = s.warp? k))

/-- 07 R175 to R189: stores, prefetches and cache operations are sent with their lanes, addresses and data. -/
def Obligations.StoresIssue : Prop :=
  -- 07 R175, R178, R180, R181, R183: ST sends one store for each active lane with the low bytes of its DATA registers, STS one for the split with the low
  -- bytes of s[DATA]; both go on without waiting, and no register or tag changes.
  (∀ (s : State) (w : Warp) (p : Split) (i : Instr) (r : MRule), Issuer s w p → i.wf = true → memRule s i = some r → r.Passes s w →
    (∀ ty f, i = .st ty f → ∃ t w', exec i s = .next t ∧ MemIssued s t w w' p f.sw ∧ RegsKept w w'
      ∧ ∀ l ∈ activeLanes s f, ∃ q, Sent s t f .store (1#32 <<< l) (laneAddr s f l) (2 ^ f.sz.toNat) q
        ∧ q.data = ((dataRule f).flatMap fun v => natBytes (s.rdV v l 1).toNat 4).take (2 ^ f.sz.toNat))
    ∧ (∀ f, i = .sts f → ∃ t w' q, exec i s = .next t ∧ MemIssued s t w w' p f.sw ∧ RegsKept w w'
      ∧ Sent s t f .store p.lmask (onceAddr s f) (2 ^ f.sz.toNat) q
      ∧ q.data = natBytes (s.rdS f.data.toNat).toNat (2 ^ f.sz.toNat)))
  ∧
  -- 07 R176, R188, R189: PRF and PRF.l2 send a prefetch of the line of each active lane whose address is canonical, and CWB and CINV a request for the
  -- line of each active lane; nothing else changes and the split goes on.
  (∀ (s : State) (w : Warp) (p : Split) (i : Instr) (f : MFmt) (kind : ReqKind), Issuer s w p → i.wf = true →
    (i = .prf f ∧ kind = .prf ∨ i = .prfL2 f ∧ kind = .prf ∨ i = .cwb f ∧ kind = .cwb ∨ i = .cinv f ∧ kind = .cinv) →
    (∀ v ∈ indexRule f, v < w.budget) → (∀ c ∈ indexTags f, (s.tagOfReg c.1).toNat ∈ c.2) →
    (kind = .prf ∨ ∀ l ∈ activeLanes s f, (laneAddr s f l).extractLsb' 57 3 = 0) →
      ∃ t w', exec i s = .next t ∧ MemIssued s t w w' p f.sw ∧ RegsKept w w'
        ∧ ∀ l ∈ activeLanes s f, (laneAddr s f l).extractLsb' 57 3 = 0 →
          let g := s.grainAt s.curBlock.pkg s.curLaunch.asid (laneAddr s f l).toNat
          ∃ q, Sent s t f kind (1#32 <<< l)
            (BitVec.ofNat 64 (lineBase (laneAddr s f l).toNat g) ||| (laneAddr s f l &&& 0xF000000000000000)) g q
            ∧ (i = .prfL2 f → q.op = 1) ∧ (i = .prf f → q.op = 0))

/-- 07 R183 to R187: local accesses issue, and are made when their granule meets its condition. Constructors: ldl, stl, feGranuleAccess,
registerResultReturn. -/
def Obligations.LocalAccesses : Prop :=
  -- 07 R175, R184, R185, 09 R238: LDL and STL whose offsets are aligned and lie below the usable limit enter one access for each granule that active lanes
  -- name, with the lanes' offsets; forms that do not wait reach the bank in 7 or 12 clk and go on; waiting forms stand in FE-WAIT, or in SPAN-PARK while
  -- results of the span are to come. No byte of local store has changed yet.
  (∀ (s : State) (w : Warp) (p : Split) (i : Instr) (f : MFmt) (store : Bool) (tags : List (Nat × List Nat)), Issuer s w p →
    i.wf = true → localRule i = some (f, store, tags) → (∀ v ∈ dataRule f ++ indexRule f, v < w.budget) →
    (∀ c ∈ tags, (s.tagOfReg c.1).toNat ∈ c.2) →
    (∀ l ∈ activeLanes s f, (laneAddr s f l).toNat % 2 ^ f.sz.toNat = 0
      ∧ (laneAddr s f l).toNat + 2 ^ f.sz.toNat ≤ s.curBlock.alloc - 1536 * s.curBlock.warps) →
    (∀ q ∈ s.fes, q.2.wid = s.cur.1 → q.2.span = p.span → q.2.reach ≠ 0) →
      let waits := f.fq = 1 ∨ f.fq = 2 ∨ f.fq = 5
      ∃ t w', exec i s = .next t ∧ t = { s with warps := t.warps, fes := t.fes, nextId := t.nextId, free := t.free }
        ∧ (∀ k, k ≠ s.cur.1 → t.warp? k = s.warp? k) ∧ t.warp? s.cur.1 = some w' ∧ OthersKept w w' s.cur.2
        ∧ w' = { w with table := w'.table, results := w'.results, tags := w'.tags, tagKey := w'.tagKey, whole := w'.whole }
        ∧ (∀ l ∈ activeLanes s f, ∃ k a, s.nextId ≤ k ∧ kget? t.fes k = some a ∧ a.wid = s.cur.1 ∧ a.store = store
            ∧ a.granule = (laneAddr s f l).toNat / 16 ∧ a.qual = f.fq.toNat ∧ a.size = 2 ^ f.sz.toNat ∧ a.waiting = false
            ∧ kget? a.ofs l = some (laneAddr s f l).toNat
            ∧ (∀ m, a.lanes.getLsbD m = true ↔ m ∈ activeLanes s f ∧ (laneAddr s f m).toNat / 16 = (laneAddr s f l).toNat / 16)
            ∧ (store = true → kget? a.data l = some (((dataRule f).flatMap fun v => natBytes (s.rdV v l 1).toNat 4).take (2 ^ f.sz.toNat)))
            ∧ (¬waits → a.reach = s.clk + 7 ∨ a.reach = s.clk + 12))
        ∧ (¬waits → Proceeds w' s.cur.2 p f.sw 1)
        ∧ (waits → activeLanes s f ≠ [] → ∃ p', kget? w'.table s.cur.2 = some p' ∧ p'.pc = p.pc ∧ p'.lmask = p.lmask
            ∧ (w.outstanding p = false → p'.st = .feWait ∧ p'.waux = s.effective f.msk.toNat)
            ∧ (w.outstanding p = true → p'.st = .spanPark)))
  ∧
  -- 07 R184, R185, R186: an access whose granule meets its condition is made in one step: a store writes the lanes' bytes, a load sends each lane its
  -- value, which is written 7 or 12 clk later, and the bit changes as the qualifier says; one whose condition does not hold begins to wait, and changes
  -- nothing else.
  (∀ (s : State) (id : Nat) (a : FeAccess) (w : Warp), kget? s.fes id = some a → Unique s.fes → s.warp? a.wid = some w →
    a.waiting = false → a.reach ≠ 0 → a.reach ≤ s.clk → w.captured = false → s.feReady a = true →
    (∀ q ∈ s.fes, q.1 ≠ id → ¬(q.2.granule = a.granule ∧ (s.warpD q.2.wid).block = w.block)) → (s.block? w.block).isSome = true →
      let b := s.blockD w.block
      let full := b.full.contains a.granule
      let met := (a.qual = 1 ∨ a.qual = 2 → full = true) ∧ (a.qual = 5 → full = false)
      let after := if a.qual = 2 ∨ a.qual = 3 then false else if a.qual = 4 ∨ a.qual = 5 then true else full
      let start (l : Nat) : Nat := kgetD a.ofs l 0
      let made (t : State) (b' : Block) : Prop := exec (.feGranuleAccess id) s = .next t ∧ t.mem = s.mem ∧ t.fes = kdel s.fes id
        ∧ t.blockD w.block = b' ∧ b'.full.contains a.granule = after
        ∧ ∀ g, g ≠ a.granule → b'.full.contains g = b.full.contains g
      (¬met → ∃ t, exec (.feGranuleAccess id) s = .next t ∧ t = { s with fes := t.fes, nextId := t.nextId }
        ∧ kget? t.fes id = some { a with waiting := true, order := s.nextId })
      ∧ (met → a.store = true → (∀ l, a.lanes.getLsbD l = true → ∃ d, kget? a.data l = some d ∧ d.length = a.size) →
          (∀ l m, a.lanes.getLsbD l = true → a.lanes.getLsbD m = true → l ≠ m → start l + a.size ≤ start m ∨ start m + a.size ≤ start l) →
          ∃ t b', made t b' ∧ b' = { b with ls := b'.ls, full := b'.full }
            ∧ (∀ l i x, a.lanes.getLsbD l = true → (kgetD a.data l [])[i]? = some x → kgetD b'.ls (start l + i) 0 = x)
            ∧ ∀ o, (∀ l, a.lanes.getLsbD l = true → o < start l ∨ start l + a.size ≤ o) → kgetD b'.ls o 0 = kgetD b.ls o 0)
      ∧ (met → a.store = false → ∀ k q, a.regs = [k] → kget? w.results k = some q → a.size = 1 ∨ a.size = 2 ∨ a.size = 4 →
          ∃ t b' w' q', made t b' ∧ b' = { b with full := b'.full } ∧ t.warp? a.wid = some w' ∧ w'.v = w.v ∧ w'.sc = w.sc ∧ w'.m = w.m
            ∧ w'.tags = w.tags ∧ kget? w'.results k = some q' ∧ ∀ l, a.lanes.getLsbD l = true → ∃ d, (d = s.clk + 7 ∨ d = s.clk + 12)
              ∧ kget? q'.coming l = some (d, if a.sext = true ∧ a.size < 4 then
                  (BitVec.ofNat (8 * a.size) (bytesNat (b.lsRead (start l) a.size))).signExtend 32
                else BitVec.ofNat 32 (bytesNat (b.lsRead (start l) a.size))))
      ∧ (∀ k q n, kget? w.results k = some q → q.mem = true → q.dest = .vec n → Unique q.coming → (∀ x ∈ q.coming, x.1 < 32) →
          (∃ x ∈ q.coming, x.2.1 ≤ s.clk) →
          (∀ y ∈ w.results, y.2.span = q.span → y.2.dest = q.dest → y.2.key = q.key) →
          ∃ t w' q', exec (.registerResultReturn a.wid k) s = .next t ∧ t = { s with warps := t.warps, free := t.free } ∧ t.warp? a.wid = some w'
            ∧ w' = { w with v := w'.v, results := w'.results } ∧ kget? w'.results k = some q' ∧ q'.coming = q.coming.filter (fun x => decide (s.clk < x.2.1))
            ∧ (∀ l d x, (l, (d, x)) ∈ q.coming → d ≤ s.clk → kgetD w'.v (32 * n + l) 0 = x)
            ∧ ∀ j, (∀ l d x, (l, (d, x)) ∈ q.coming → d ≤ s.clk → j ≠ 32 * n + l) → kgetD w'.v j 0 = kgetD w.v j 0))

/-- 07 R194 to R197, 12 R311, R313: lock instructions issue, and their requests meet the lock's entry. Constructors: unlock, unlockRequest. -/
def Obligations.LockRequests : Prop :=
  -- 07 R194 to R197, 12 R312, 08 R237: LOCK and LOCK.try on a line that the warp neither holds nor waits for, with a lock slot free, reserve a slot and
  -- enter a request; the split waits in LOCK-WAIT at its PC with the line's address, or in SPAN-PARK while results of its span are to come. UNLOCK of a
  -- line that the warp holds releases its slot at issue and goes on. LOCKSELF, LOCKLIMIT and LOCKNH are precise and name the line.
  (∀ (s : State) (w : Warp) (p : Split) (f : MFmt), Issuer s w p → (onceAddr s f).extractLsb' 57 3 = 0 →
    let g := s.grainAt s.curBlock.pkg s.curLaunch.asid (onceAddr s f).toNat
    let line := lineOf s.curLaunch.asid (onceAddr s f).toNat g
    let va := BitVec.ofNat 64 (lineVa line)
    let live := w.locks.filter fun k => k.live
    (∀ i kind, (i = .lock f ∧ kind = .lock ∨ i = .lockTry f ∧ kind = .lockTry) → (∀ k ∈ live, k.line ≠ line) → live.length < 4 →
      ∃ t w' k x q, exec i s = .next t
        ∧ t = { s with warps := t.warps, reqs := t.reqs, nextId := t.nextId, free := t.free }
        ∧ (∀ k, k ≠ s.cur.1 → t.warp? k = s.warp? k) ∧ t.warp? s.cur.1 = some w' ∧ OthersKept w w' s.cur.2
        ∧ w' = { w with table := w'.table, results := w'.results, whole := w'.whole, locks := w.locks ++ [x] }
        ∧ x.line = line ∧ x.live = true ∧ x.held = false ∧ x.scope = f.sc.toNat ∧ x.sd = f.data.toNat
        ∧ (kind = .lock → x.tleft = if (s.rdS f.data.toNat).extractLsb' 0 32 = 0 then (s.pkg s.curBlock.pkg).lockto
            else ((s.rdS f.data.toNat).extractLsb' 0 32).toNat)
        ∧ kget? t.reqs k = some q ∧ q.kind = kind ∧ q.wid = s.cur.1 ∧ q.va = va ∧ q.size = g ∧ q.scope = f.sc.toNat
        ∧ (Quiet w p → Waits w' s.cur.2 p .lockWait va 0)
        ∧ (¬Quiet w p → q.phase = .held ∧ ∃ p', kget? w'.table s.cur.2 = some p' ∧ p'.st = .spanPark ∧ p'.pc = p.pc))
    ∧ (∀ i, i = .lock f ∨ i = .lockTry f →
        ((∃ k ∈ live, k.line = line) → ∃ t, exec i s = .next t ∧ TakesFault s t w p 0x0C va)
        ∧ ((∀ k ∈ live, k.line ≠ line) → 4 ≤ live.length → ∃ t, exec i s = .next t ∧ TakesFault s t w p 0x0D va))
    ∧ ((∃ k ∈ live, k.held = true ∧ k.line = line) → ∃ t w' k q, exec (.unlock f) s = .next t
        ∧ t = { s with warps := t.warps, reqs := t.reqs, nextId := t.nextId, free := t.free }
        ∧ (∀ k, k ≠ s.cur.1 → t.warp? k = s.warp? k) ∧ t.warp? s.cur.1 = some w' ∧ OthersKept w w' s.cur.2
        ∧ w' = { w with table := w'.table, results := w'.results, locks := w.locks.filter fun k => k.line != line }
        ∧ Proceeds w' s.cur.2 p f.sw 1
        ∧ kget? t.reqs k = some q ∧ q.kind = .unlock ∧ q.va = va ∧ q.phase = .held ∧ q.scope = f.sc.toNat)
    ∧ ((∀ k ∈ live, k.held = true → k.line ≠ line) → ∃ t, exec (.unlock f) s = .next t ∧ TakesFault s t w p 0x0E va))
  ∧
  -- 07 R195, R196, 12 R313: LOCK and LOCK.try at their home: a FREE line is granted, BROKEN under the mark, which is cleared; a held line puts a LOCK at
  -- the tail of the queue and answers a LOCK.try BUSY. An UNLOCK by the holder passes the line to the first present waiter, the absent ones ahead of it
  -- moving to the tail, or leaves it FREE; one by another warp is discarded and REFUSED. Where the line's directory entry is LOST, the hand-over of its
  -- data is also reported as COHLOST (the model's reading, log 79).
  (∀ (s : State) (id : Nat) (r : Req) (leaf : Word), AtHome s id r leaf → r.permitted leaf = true → Unique s.lockTab →
    let line := lineOf r.asid r.va.toNat r.size
    let dk := 128 * r.pkg + r.die
    s.lockFar dk line = false ∨ r.filled = true → r.work.1 = 0 →
    let e := s.lockEntry dk line
    let site := s.blockOf r.wid
    let frame (t : State) : Prop := t = { s with reqs := t.reqs, lockTab := t.lockTab, grants := t.grants, nextId := t.nextId }
    (leafTr leaf = true → s.lineLost r leaf = false →
      ∀ i, (r.kind = .lock ∧ i = .lockRequest id ∨ r.kind = .lockTry ∧ i = .lockTryRequest id) →
        (e.holder = none → e.lostHolder = false → (∀ x ∈ e.queue, x.present = false) →
          ∃ t, exec i s = .next t ∧ frame t ∧ HeldBy e (t.lockEntry dk line) r.wid site.pkg site.die site.core e.queue
            ∧ Granted t r.wid line (if e.broken then 1 else 0) 0 ∧ kget? t.reqs id = some { r with phase := .applied })
        ∧ (e.holder.isSome = true ∨ e.lostHolder = true ∨ (∃ x ∈ e.queue, x.present = true) →
          (r.kind = .lock → ∃ t, exec i s = .next t ∧ frame t ∧ t.grants = s.grants
            ∧ t.lockEntry dk line = { e with queue := e.queue ++ [⟨r.wid, true, site.pkg, site.die, site.core⟩] })
          ∧ (r.kind = .lockTry → ∃ t, exec i s = .next t ∧ frame t ∧ t.lockTab = s.lockTab ∧ Granted t r.wid line 3 0)))
    ∧ (r.kind = .unlock →
        (e.holder = some r.wid →
          (∀ a x b, e.queue = a ++ x :: b → (∀ y ∈ a, y.present = false) → x.present = true →
            (s.lineLost r leaf = true → ∀ w, s.warp? r.wid = some w → w.ended = false → ∃ t w', exec (.unlockRequest id) s = .next t
              ∧ t = { s with reqs := kdel s.reqs id, lockTab := t.lockTab, grants := t.grants, warps := t.warps, nextId := t.nextId }
              ∧ HeldBy e (t.lockEntry dk line) x.key x.pkg x.die x.core (b ++ a) ∧ Granted t x.key line 0 0
              ∧ t.warp? r.wid = some w' ∧ w' = { w with pfr := w'.pfr } ∧ w'.pfr.causes.getLsbD 4 = true)
            ∧ (s.lineLost r leaf = false → ∃ t, exec (.unlockRequest id) s = .next t ∧ frame t ∧ HeldBy e (t.lockEntry dk line) x.key x.pkg x.die x.core (b ++ a)
              ∧ Granted t x.key line 0 0))
          ∧ ((∀ y ∈ e.queue, y.present = false) → ∃ t, exec (.unlockRequest id) s = .next t ∧ frame t ∧ t.grants = s.grants
              ∧ (t.lockEntry dk line).holder = none ∧ (t.lockEntry dk line).queue = e.queue ∧ (t.lockEntry dk line).broken = e.broken))
        ∧ (∀ w, e.holder ≠ some r.wid → s.warp? r.wid = some w → w.ended = false → ∃ t w', exec (.unlockRequest id) s = .next t
            ∧ t = { s with reqs := t.reqs, warps := t.warps, nextId := t.nextId } ∧ t.warp? r.wid = some w' ∧ w' = { w with pfr := w'.pfr }
            ∧ w'.pfr.causes.getLsbD 2 = true ∧ w'.pfr.count = min 65535 (w.pfr.count + 1))))

/-- 07 R196, R197, 12 R313 to R316: locks pass from holder to waiter, and statuses arrive. Constructors: holderSaved, holderRestored, waiterSaved,
waiterRestored, holderFatalEnd, withdraw, lockGrant, lockTimeoutExpiry, waitForRecord, waitForRecordAgeOut. -/
def Obligations.LockHolders : Prop :=
  -- 12 R313, R314, R315: a saved holder keeps the lock, HELD-SAVED, and takes it up at its new core; a saved waiter is absent in its place, and one
  -- restored to a FREE line is granted it; a holder's fatal end passes the line on BROKEN, or leaves the mark; a withdraw removes the waiter, which is
  -- told TIMEOUT with the number ahead, and a wait-for record goes out; after a grant it is ignored.
  (∀ (s : State), Unique s.lockTab →
    (∀ wid k w x, s.warp? wid = some w → w.locks[k]? = some x →
      let dk := s.lockHome wid x.line
      let e := s.lockEntry dk x.line
      let site := s.blockOf wid
      let frame (t : State) : Prop := t = { s with lockTab := t.lockTab, grants := t.grants, nextId := t.nextId }
      w.movedAt + s.timeTo wid (lineAsid x.line) (lineVa x.line) dk ≤ s.clk →
      (x.held = true → e.holder = some wid →
        (w.captured = true → ∃ t, exec (.holderSaved wid k) s = .next t ∧ frame t ∧ t.lockEntry dk x.line = { e with saved := true })
        ∧ (w.captured = false → ∃ t, exec (.holderRestored wid k) s = .next t ∧ frame t
            ∧ t.lockEntry dk x.line = { e with saved := false, hpkg := site.pkg, hdie := site.die, hcore := site.core }))
      ∧ (x.held = false → w.captured = true → e.holder.isSome = true → ∃ t, exec (.waiterSaved wid k) s = .next t ∧ frame t
          ∧ t.lockEntry dk x.line = { e with queue := e.queue.map fun y => if y.key = wid then { y with present := false } else y })
      ∧ (x.held = false → w.captured = false →
          (e.holder.isSome = true → ∃ t, exec (.waiterRestored wid k) s = .next t ∧ frame t ∧ t.lockEntry dk x.line = { e with
            queue := e.queue.map fun y =>
              if y.key = wid then { y with present := true, pkg := site.pkg, die := site.die, core := site.core } else y })
          ∧ (∀ a y b, e.holder = none → e.lostHolder = false → e.queue = a ++ y :: b → y.key = wid →
              (∀ z ∈ a, z.present = false ∧ z.key ≠ wid) → (∀ z ∈ b, z.key ≠ wid) →
              ∃ t, exec (.waiterRestored wid k) s = .next t ∧ frame t
                ∧ HeldBy e (t.lockEntry dk x.line) wid site.pkg site.die site.core (b ++ a) ∧ Granted t wid x.line (if e.broken then 1 else 0) 0)))
    ∧ (∀ pkg die line h, (s.lockEntry (128 * pkg + die) line).holder = some h → s.warp? h = none →
        let e := s.lockEntry (128 * pkg + die) line
        (∀ a x b, e.queue = a ++ x :: b → (∀ y ∈ a, y.present = false) → x.present = true →
          ∃ t, exec (.holderFatalEnd pkg die line) s = .next t ∧ HeldBy e (t.lockEntry (128 * pkg + die) line) x.key x.pkg x.die x.core (b ++ a)
            ∧ Granted t x.key line 1 0)
        ∧ ((∀ y ∈ e.queue, y.present = false) → ∃ t, exec (.holderFatalEnd pkg die line) s = .next t ∧ t.grants = s.grants
            ∧ t.lockEntry (128 * pkg + die) line = { e with holder := none, saved := false, broken := true, lostHolder := false }))
    ∧ (∀ d x, kget? s.withdraws d = some x → x.due ≤ s.clk → (s.pkg (x.dk / 128)).failed = false →
        s.lockUnderWay x = false → s.lockFar x.dk x.line = false ∨ x.slow = true →
        let e := s.lockEntry x.dk x.line
        (e.holder = some x.wid → exec (.withdraw d) s = .next { s with withdraws := kdel s.withdraws d })
        ∧ (∀ a y b, e.holder ≠ some x.wid → e.holder.isSome → (∀ g ∈ s.grants, ¬(g.2.wid = x.wid ∧ g.2.line = x.line)) →
            e.queue = a ++ y :: b → y.key = x.wid → (∀ z ∈ a ++ b, z.key ≠ x.wid) →
            ∃ t k n, exec (.withdraw d) s = .next t ∧ t.withdraws = kdel s.withdraws d
              ∧ t.lockEntry x.dk x.line = { e with queue := a ++ b } ∧ Granted t x.wid x.line 2 a.length
              ∧ kget? t.waitFors k = some n ∧ n.key = x.wid ∧ n.line = x.line ∧ some n.hkey = e.holder ∧ n.hpkg = e.hpkg ∧ n.hdie = e.hdie
              ∧ n.hcore = e.hcore ∧ n.ahead = a.length)))
  ∧
  -- 07 R196, R197, 12 R312, R315, 16 R389: LOCK_GRANT writes the status in the place of the LOCK and the split goes on: the slot holds the line after
  -- GRANTED or BROKEN and is released otherwise. A timer that has run out sends one withdraw and the wait goes on. A wait-for record reaches the
  -- controller of the waiter's die and signals its firmware; records older than 24,000,000 clk are dropped.
  ((∀ (s : State) (g : Nat) (x : Grant) (w : Warp) (k : LockSlot) (slot : Nat) (p : Split), kget? s.grants g = some x → x.due ≤ s.clk →
      s.warp? x.wid = some w → (w.locks.find? fun k => k.line == x.line && !k.held) = some k → Unique w.table → kget? w.table slot = some p →
      p.st = .lockWait → p.wobj = BitVec.ofNat 64 (lineVa x.line) →
      (∀ q ∈ w.table, q.1 ≠ slot → ¬(q.2.eff = .lockWait ∧ q.2.wobj = BitVec.ofNat 64 (lineVa x.line))) →
      ∃ t w', exec (.lockGrant g) s = .next t ∧ (CleanCopies s → t.mem = s.mem) ∧ t.grants = kdel s.grants g ∧ t.warp? x.wid = some w'
        ∧ w' = { w with table := w'.table, locks := w'.locks, sc := w'.sc, scKey := w'.scKey, acqAt := w'.acqAt }
        ∧ (k.sd < 63 → w.laterScalar k.key k.sd 0 true = false → kgetD w.scKey k.sd 0 ≤ k.key → kgetD w'.sc k.sd 0 = BitVec.ofNat 64 (x.code + 2 ^ 16 * min x.ahead 65535))
        ∧ (∀ j, j ≠ k.sd → kgetD w'.sc j 0 = kgetD w.sc j 0) ∧ OthersKept w w' slot
        ∧ (∃ p', kget? w'.table slot = some p' ∧ p'.st = .ready ∧ p'.pc = p.pc + 1 ∧ p'.lmask = p.lmask ∧ p'.wobj = 0)
        ∧ (x.code ≤ 1 → w'.locks = w.locks.map fun q => if q.line = x.line then { q with held := true, tleft := 0 } else q)
        ∧ (2 ≤ x.code → w'.locks = w.locks.filter fun q => q.line != x.line))
  ∧ (∀ (s : State) (wid k : Nat) (w : Warp) (x : LockSlot), s.warp? wid = some w → w.locks[k]? = some x → x.held = false → x.withdrawn = false →
      x.tleft = 0 → w.captured = false → (∃ q ∈ w.table, q.2.eff = .lockWait ∧ q.2.wobj = BitVec.ofNat 64 (lineVa x.line)) →
      ∃ t w' d, exec (.lockTimeoutExpiry wid k) s = .next t ∧ t = { s with warps := t.warps, withdraws := t.withdraws, nextId := t.nextId }
        ∧ kget? t.withdraws s.nextId = some d ∧ d.wid = wid ∧ d.line = x.line ∧ d.dk = s.lockHome wid x.line ∧ s.clk ≤ d.due
        ∧ t.warp? wid = some w' ∧ w' = { w with locks := w'.locks } ∧ (w'.locks[k]?).map (·.withdrawn) = some true)
  ∧ (∀ (s : State) (n : Nat) (r : WaitFor), kget? s.waitFors n = some r → r.clk ≤ s.clk →
      ∃ t x, exec (.waitForRecord n) s = .next t ∧ t.waitFors = kdel s.waitFors n ∧ x ∈ (t.die (128 * r.pkg + r.die)).waits
        ∧ { x with clk := r.clk, told := r.told } = r ∧ x.clk = s.clk ∧ Signalled t (128 * r.pkg + r.die) 2
        ∧ ((∀ d ∈ s.dies, ∀ q ∈ d.2.waits, q.key ≠ r.hkey) → r.hkey ≠ r.key → t.mem = s.mem ∧ t.fe = s.fe))
  ∧ ∀ (s : State) (pkg die : Nat), ∃ t, exec (.waitForRecordAgeOut pkg die) s = .next t ∧ t = { s with dies := t.dies }
      ∧ (∀ dk, dk ≠ 128 * pkg + die → t.die dk = s.die dk)
      ∧ ∀ r, r ∈ (t.die (128 * pkg + die)).waits ↔ r ∈ (s.die (128 * pkg + die)).waits ∧ s.clk ≤ r.clk + 24000000)

/-- 05 R120, 09 R238, R239, R245: an instruction that waits does so first for its span, then for its condition; one whose condition holds goes on.
Constructors: clkrd, cwait, barwait, wsync. -/
def Obligations.WaitsHold : Prop :=
  -- 09 R238, R239: a wait-type instruction issued while results of its span are to come stands in SPAN-PARK at its own PC, its lanes unchanged; a FENCE
  -- does so in any case.
  (∀ (s : State) (w : Warp) (p : Split) (i : Instr), Issuer s w p → waitType s w p i → (¬Quiet w p ∨ ∃ f, i = .fence f) →
    ∃ t w' p', exec i s = .next t ∧ OnlyWarp s t s.cur.1 ∧ t.warp? s.cur.1 = some w' ∧ RegsKept w w' ∧ OthersKept w w' s.cur.2
      ∧ kget? w'.table s.cur.2 = some p' ∧ p'.st = .spanPark ∧ p'.pc = p.pc ∧ p'.lmask = p.lmask ∧ p'.jgrp = p.jgrp ∧ p'.jpc = p.jpc)
  ∧
  -- 05 R120, R121, R130, 07 R205, R207, R208: with nothing of its span to come, an instruction whose condition does not hold enters its wait state with
  -- the wait object and operand of the manual: CWAIT, BARWAIT, WSYNC, JOIN, JOIN.bnd, REGANG.
  (∀ (s : State) (w : Warp) (p : Split) (i : Instr) (st : SplitState) (wobj : Word) (waux : Lane), Issuer s w p → waitType s w p i →
    Quiet w p → (w.table.map Prod.fst).Nodup → (s.warps.map Prod.fst).Nodup →
    (match i with
      | .cwait f =>
        st = .cntWait ∧ wobj = BitVec.ofNat 64 f.num.toNat ∧ waux = (s.rdS f.sa.toNat).extractLsb' 0 32
          ∧ (kgetD s.curBlock.counters f.num.toNat 0 - s.rdS f.sa.toNat).getLsbD 31 = true
          ∧ ∀ k v, s.warp? k = some v → v.block = w.block → ∀ q ∈ v.table, q.2.eff ≠ .cntWait
      | .barwait f =>
        st = .barWait ∧ wobj = BitVec.ofNat 64 (32 * f.lvl.toNat + f.num.toNat) ∧ waux = 0
          ∧ w.barFree (16 * f.lvl.toNat + f.num.toNat) = false
      | .wsync f =>
        st = .barWait ∧ wobj = ((s.rdS f.sa.toNat).extractLsb' 0 32).setWidth 64 + 2 ^ 63 ∧ waux = 0 ∧ w.syncers = []
          ∧ (s.rdS f.sa.toNat).extractLsb' 0 32 &&& w.liveLanes &&& ~~~p.lmask ≠ 0
      | .join _ => st = .joinWait ∧ wobj = 0 ∧ waux = BitVec.allOnes 32
          ∧ ∃ k q, k ≠ s.cur.2 ∧ kget? w.table k = some q ∧ q.jgrp = p.jgrp ∧ q.jpc = p.jpc ∧ q.inJoin = false
      | .joinBnd f => st = .joinWait ∧ wobj = 0 ∧ waux = f.bofs.setWidth 32
          ∧ ∃ k q, k ≠ s.cur.2 ∧ kget? w.table k = some q ∧ q.jgrp = p.jgrp ∧ q.jpc = p.jpc ∧ q.inJoin = false
      | .regang f => st = .joinWait ∧ wobj = (s.rdM f.sa.toNat).setWidth 64 + 2 ^ 63 ∧ waux = (f.imm.extractLsb' 0 16).setWidth 32
      | _ => False) →
      ∃ t w', exec i s = .next t ∧ OnlyWarp s t s.cur.1 ∧ t.warp? s.cur.1 = some w' ∧ KeptWaiting w w' ∧ OthersKept w w' s.cur.2
        ∧ Waits w' s.cur.2 p st wobj waux)
  ∧
  -- 05 R120, R130, 07 R205, R207, R208, 08 R236, 09 R245: with nothing of its span to come, an instruction whose condition already holds completes in its
  -- clk of issue: CLKRD returns the clk; CWAIT the counter's value; BARWAIT the phase word; WSYNC of the split's own lanes releases; each goes on at PC +
  -- 1.
  (∀ (s : State) (w : Warp) (p : Split), Issuer s w p → Quiet w p →
    (∀ f, ∃ t w', exec (.clkrd f) s = .next t ∧ OnlyWarp s t s.cur.1 ∧ t.warp? s.cur.1 = some w' ∧ RegsKept w w' ∧ OthersKept w w' s.cur.2
      ∧ Woken s w' s.cur.2 p 4 ∧ WaitResult s w' s.orderKey f.sd.toNat 4 (s.clkRead s.curBlock.ck))
    ∧ (∀ f, (kgetD s.curBlock.counters f.num.toNat 0 - s.rdS f.sa.toNat).getLsbD 31 = false → w.captured = false →
        (s.warps.map Prod.fst).Nodup → (w.table.map Prod.fst).Nodup →
        (∀ k v, s.warp? k = some v → v.block = w.block → ∀ q ∈ v.table, q.2.eff ≠ .cntWait) →
        ∃ t w', exec (.cwait f) s = .next t ∧ t.warp? s.cur.1 = some w' ∧ KeptWaiting w w' ∧ OthersKept w w' s.cur.2
          ∧ Woken s w' s.cur.2 p 4 ∧ WaitResult s w' s.orderKey f.sd.toNat 4 (kgetD s.curBlock.counters f.num.toNat 0)
          ∧ t.mem = s.mem ∧ t.blocks = s.blocks)
    ∧ (∀ f, waitType s w p (.barwait f) → w.barFree (16 * f.lvl.toNat + f.num.toNat) = true →
        ∃ t w', exec (.barwait f) s = .next t ∧ t.warp? s.cur.1 = some w' ∧ KeptWaiting w w' ∧ OthersKept w w' s.cur.2
          ∧ Woken s w' s.cur.2 p (if f.lvl = 0 then 8 else 4)
          ∧ WaitResult s w' s.orderKey f.sd.toNat (if f.lvl = 0 then 8 else 4)
              (BitVec.ofNat 64 (kgetD w.wphase (16 * f.lvl.toNat + f.num.toNat) (0, false)).1)
          ∧ t.mem = s.mem ∧ t.blocks = s.blocks)
    ∧ (∀ f, waitType s w p (.wsync f) → w.syncers = [] → (s.rdS f.sa.toNat).extractLsb' 0 32 &&& w.liveLanes &&& ~~~p.lmask = 0 →
        ∃ t w', exec (.wsync f) s = .next t ∧ OnlyWarp s t s.cur.1 ∧ t.warp? s.cur.1 = some w' ∧ KeptWaiting w w'
          ∧ OthersKept w w' s.cur.2 ∧ Woken s w' s.cur.2 p 4))

/-- 07 R179, 09 R243 to R247: splits merge, move between slots and the overflow area, and park with their faults. Constructors: regang, swapEpochAdvance,
splitSwap, splitSwapDone, splitFill, splitFillDone, regangMerge, spanParkEnd, joinBoundExpiry, regangBoundExpiry. -/
def Obligations.SplitsManaged : Prop :=
  -- 05 R120, R130: when the last member of a join group arrives with nothing of its span to come, the group merges at the lowest entry that a member
  -- holds, with every member's lanes, at j + 1, one level out, and may issue 4 clk later; a REGANG whose awaited lanes are its split's own is released
  -- once the instructions of its clk have issued, and goes on 4 clk later.
  (∀ (s : State) (w : Warp) (p : Split), Issuer s w p → Quiet w p → w.table.Pairwise (fun a b => a.1 < b.1) →
    (∀ i, (∃ f, i = .join f ∨ i = .joinBnd f) → waitType s w p i →
      let l := w.table.filter fun q => q.2.jgrp == p.jgrp && q.2.jpc == p.jpc
      (∀ q ∈ l, q.1 ≠ s.cur.2 → q.2.inJoin = true) →
        ∃ t w' k q, exec i s = .next t ∧ OnlyWarp s t s.cur.1 ∧ t.warp? s.cur.1 = some w' ∧ KeptWaiting w w'
          ∧ (∃ x ∈ l, x.1 = k) ∧ (∀ x ∈ l, k ≤ x.1) ∧ kget? w'.table k = some q ∧ (∀ x ∈ l, x.1 ≠ k → kget? w'.table x.1 = none)
          ∧ (∀ j, (∀ x ∈ l, x.1 ≠ j) → kget? w'.table j = kget? w.table j)
          ∧ q.lmask = l.foldl (fun a x => a ||| x.2.lmask) 0 ∧ q.pc = p.jpc + 1 ∧ q.jgrp = p.jgrp - 1
          ∧ (p.jgrp = 1 → q.jpc = 0) ∧ q.wobj = 0 ∧ q.waux = 0 ∧ q.eff = .ready ∧ q.notBefore = s.clk + 4)
    ∧ (∀ f, w.gathering p.pc = [] → s.rdM f.sa.toNat &&& w.liveLanes &&& ~~~p.lmask = 0 →
        ∃ t w', exec (.regang f) s = .next t ∧ OnlyWarp s t s.cur.1 ∧ (t.regangCheck s.cur.1 p.pc).warp? s.cur.1 = some w' ∧ KeptWaiting w w'
          ∧ Woken s w' s.cur.2 p 4))
  ∧
  -- 01 R36, 09 R239, R246, R247: the swap epoch advances every 256 clk, and a swap falls due when a dormant split with HELD READY waits; a swap and a fill
  -- take 32 clk, in which neither split issues; a swap done exchanges the two splits, the outgoing state kept in HELD; a fill done moves the dormant split
  -- to its slot in its HELD state at the epoch in force; a split that comes in with a span that has ended parks while it awaits results; resident splits
  -- at an issue boundary that share PC, JGRP and JPC merge in the lower slot. No register changes.
  (∀ (s : State) (wid : Nat) (w : Warp), s.warp? wid = some w → Unique w.table → w.captured = false →
    let gives (i : Instr) (w' : Warp) : Prop := ∃ t, exec i s = .next t ∧ t = { s with warps := t.warps, nextId := t.nextId }
      ∧ t.warp? wid = some w' ∧ (∀ k, k ≠ wid → t.warp? k = s.warp? k)
    let ends (a : Split) : Prop := a.after = .ended ∧ a.held = .ready
    let comesIn (w' : Warp) (k : Nat) (a : Split) : Prop := ∃ a', kget? w'.table k = some a' ∧ a'.pc = a.pc ∧ a'.lmask = a.lmask ∧ a'.jgrp = a.jgrp
      ∧ a'.jpc = a.jpc ∧ a'.st = (if w.outstanding a = true then .spanPark else .ready)
    (w.ended = false → w.epochClk + 256 ≤ s.clk →
      gives (.swapEpochAdvance wid) { w with epoch := w.epoch + 1, epochClk := s.clk, swapPend := w.table.any fun q => decide (8 ≤ q.1) && !q.2.moving && q.2.held == .ready })
    ∧ (∀ o a k b, w.swapPend = true → oldestOf (w.table.filter fun q => 8 ≤ q.1 && !q.2.moving && q.2.held == .ready) = some (o, a) →
        w.swapCandidate = some (k, b) → o ≠ k → ∃ w', gives (.splitSwap wid) w' ∧ w' = { w with table := w'.table, moves := w'.moves, swapPend := false }
          ∧ kget? w'.moves o = some (k, s.clk + 32) ∧ kget? w'.table o = (kget? w.table o).map (fun x => { x with moving := true, age := w.epoch })
          ∧ kget? w'.table k = (kget? w.table k).map (fun x => { x with moving := true, age := w.epoch })
          ∧ ∀ j, j ≠ o → j ≠ k → kget? w'.table j = kget? w.table j)
    ∧ (∀ o k due a b, w.moves = [(o, (k, due))] → due ≤ s.clk → kget? w.table o = some a → kget? w.table k = some b → k < 8 → 8 ≤ o →
        (∀ q ∈ w.table, q.1 < 8 → q.2.after ≠ .ended) →
        ∃ w', gives (.splitSwapDone wid) w' ∧ w' = { w with table := w'.table, results := w'.results, moves := [] }
          ∧ (¬ends a → w'.results = w.results ∧ kget? w'.table k = some { a with st := a.held, held := .ready, moving := false })
          ∧ (ends a → comesIn w' k a)
          ∧ kget? w'.table o = some { b with st := .dormant, held := b.st, moving := false }
          ∧ ∀ j, j ≠ o → j ≠ k → kget? w'.table j = kget? w.table j)
    ∧ (∀ k o a, k < 8 → kget? w.table k = none → w.moves = [] → (∀ j, j < k → (kget? w.table j).isSome = true) →
        w.table.filter (fun q => decide (8 ≤ q.1)) = [(o, a)] → a.moving = false →
        ∃ w', gives (.splitFill wid) w' ∧ w' = { w with table := w'.table, moves := [(o, (k, s.clk + 32))] }
          ∧ kget? w'.table o = some { a with moving := true } ∧ ∀ j, j ≠ o → kget? w'.table j = kget? w.table j)
    ∧ (∀ o k due a, w.moves = [(o, (k, due))] → due ≤ s.clk → kget? w.table o = some a → kget? w.table k = none → k < 8 → 8 ≤ o →
        (∀ q ∈ w.table, q.1 < 8 → q.2.after ≠ .ended) →
        ∃ w', gives (.splitFillDone wid) w' ∧ w' = { w with table := w'.table, results := w'.results, moves := [] }
          ∧ (¬ends a → w'.results = w.results
              ∧ kget? w'.table k = some { a with st := a.held, held := .ready, age := w.epoch, moving := false })
          ∧ (ends a → comesIn w' k a) ∧ kget? w'.table o = none
          ∧ ∀ j, j ≠ o → j ≠ k → kget? w'.table j = kget? w.table j)
    ∧ (∀ i j a b, w.table = [(i, a), (j, b)] → i < j → j < 8 → a.atBoundary = true → b.atBoundary = true → a.notBefore ≤ s.clk → b.notBefore ≤ s.clk →
        a.pc = b.pc → a.jgrp = b.jgrp → a.jpc = b.jpc → a.halted = b.halted →
        ∃ w' q, gives (.regangMerge wid) w' ∧ w' = { w with table := [(i, q)] } ∧ q.lmask = a.lmask ||| b.lmask ∧ q.pc = a.pc ∧ q.jgrp = a.jgrp
          ∧ q.jpc = a.jpc ∧ q.st = .ready ∧ q.notBefore ≤ s.clk ∧ (olderThan (j, b.age) (i, a.age) = true → q.age = b.age)
          ∧ (olderThan (j, b.age) (i, a.age) = false → q.age = a.age)))
  ∧
  -- 05 R121, R130, 07 R179, 09 R239: SPAN_PARK_END makes a split whose results have all returned READY at its PC; one whose unfinished lanes have faulted
  -- divides: they park FAULTED in its place, and the others go on from the lowest free slot, in the same join group. A JOIN bound that expires sends the
  -- split past the join alone, one level out; a REGANG bound, its first arrival's or a bound of 0, merges the gathering at PC + 1 in the join group of its
  -- first arrival.
  (∀ (s : State) (wid slot : Nat) (w : Warp) (p : Split), s.warp? wid = some w → kget? w.table slot = some p →
    w.table.Pairwise (fun a b => a.1 < b.1) →
    let frame (t : State) : Prop := t = { s with warps := t.warps, nextId := t.nextId }
    let regs (w' : Warp) : Prop := w' = { w with table := w'.table, results := w'.results }
    (p.st = .spanPark → p.after = .none → Quiet w p → ∃ t w' p', exec (.spanParkEnd wid slot) s = .next t ∧ frame t ∧ t.warp? wid = some w'
      ∧ regs w' ∧ OthersKept w w' slot ∧ kget? w'.table slot = some p' ∧ p'.st = .ready ∧ p'.pc = p.pc ∧ p'.lmask = p.lmask
      ∧ p'.jgrp = p.jgrp ∧ p'.jpc = p.jpc ∧ p'.len = 0 ∧ s.clk ≤ p'.notBefore)
    ∧ (p.st = .spanPark → p.after = .none → w.outstanding p = true → s.settled wid p = true → w.moves = [] →
        ∀ free, free < 8 → kget? w.table free = none → (∀ j, j < free → (kget? w.table j).isSome = true) →
        let bad := (s.stuckReqs wid p).foldl (fun a q => a ||| q.2.lanes) 0 &&& p.lmask
        bad ≠ p.lmask → ∃ t w' p' q', exec (.spanParkEnd wid slot) s = .next t ∧ t.warp? wid = some w' ∧ w' = { w with table := w'.table, whole := w'.whole }
          ∧ kget? w'.table slot = some p' ∧ p'.st = .faulted ∧ p'.pc = p.pc ∧ p'.lmask = bad ∧ p'.jgrp = p.jgrp ∧ p'.jpc = p.jpc ∧ p'.age = p.age
          ∧ kget? w'.table free = some q' ∧ q'.st = .ready ∧ q'.pc = p.pc ∧ q'.lmask = p.lmask &&& ~~~bad ∧ q'.jgrp = p.jgrp ∧ q'.jpc = p.jpc)
    ∧ (∀ b j, p.after = .join b j → b < 2 ^ 32 - 1 → p.waux = 0 → p.inJoin = true →
        ∃ t w' p', exec (.joinBoundExpiry wid slot) s = .next t ∧ frame t ∧ t.warp? wid = some w' ∧ w' = { w with table := w'.table }
          ∧ kget? w'.table slot = some p' ∧ p'.eff = .ready ∧ p'.pc = p.jpc + 1 ∧ p'.lmask = p.lmask ∧ p'.jgrp = p.jgrp - 1
          ∧ p'.jpc = (if p.jgrp - 1 = 0 then 0 else p.jpc + j.signExtend 48) ∧ p'.wobj = 0 ∧ p'.waux = 0)
    ∧ (p.inRegang = true →
        let l := w.table.filter fun q => q.2.inRegang && q.2.pc == p.pc
        ∀ k0 f, (k0, f) ∈ l → (∀ x ∈ l, x ≠ (k0, f) → f.arr < x.2.arr) → f.waux = 0 ∨ (∃ x ∈ l, ∃ m, x.2.after = .regang m 0) →
        ∃ t w' k q, exec (.regangBoundExpiry wid slot) s = .next t ∧ frame t ∧ t.warp? wid = some w' ∧ w' = { w with table := w'.table }
          ∧ (∃ x ∈ l, x.1 = k) ∧ (∀ x ∈ l, k ≤ x.1) ∧ (∀ x ∈ l, x.1 ≠ k → kget? w'.table x.1 = none) ∧ kget? w'.table k = some q
          ∧ q.lmask = l.foldl (fun a x => a ||| x.2.lmask) 0 ∧ q.pc = p.pc + 1 ∧ q.jgrp = f.jgrp ∧ q.jpc = f.jpc ∧ q.eff = .ready
          ∧ q.wobj = 0 ∧ q.waux = 0))

/-- 07 R202, R203, 12 R317 to R320: arrivals at barriers are counted, and phases close and release. Constructors: bararv, barsync, mortarRootClose,
mortarPackageCompletion, mortarDieRelease. -/
def Obligations.BarriersRun : Prop :=
  -- 07 R202, R203, R205, 08 R237: BARARV adds the split's lanes to its warp's arrival set and goes on; BARSYNC adds them and waits; while live lanes are
  -- missing, nothing else changes. A lane that has already arrived takes BARDUP, and a grid-level number that is bound to no wire BARNCR.
  (∀ (s : State) (w : Warp) (p : Split) (f : XFmt), Issuer s w p →
    let key := 16 * f.lvl.toNat + f.num.toNat
    let free := f.lvl ≠ 2 ∨ (s.curLaunch.desc.wire f.num.toNat).isSome = true
    let set := kgetD w.arrSet key 0
    (free → set &&& p.lmask = 0 → w.liveLanes &&& ~~~(set ||| p.lmask) ≠ 0 →
      (∃ t w', exec (.bararv f) s = .next t ∧ OnlyWarp s t s.cur.1 ∧ t.warp? s.cur.1 = some w' ∧ kgetD w'.arrSet key 0 = set ||| p.lmask
        ∧ w' = { w with table := w'.table, results := w'.results, arrSet := w'.arrSet, arrCnt := w'.arrCnt }
        ∧ (∀ k, k ≠ key → kgetD w'.arrSet k 0 = kgetD w.arrSet k 0) ∧ OthersKept w w' s.cur.2 ∧ Proceeds w' s.cur.2 p f.sw 1)
      ∧ (Quiet w p → ∃ t w', exec (.barsync f) s = .next t ∧ OnlyWarp s t s.cur.1 ∧ t.warp? s.cur.1 = some w'
        ∧ kgetD w'.arrSet key 0 = set ||| p.lmask
        ∧ w' = { w with table := w'.table, results := w'.results, arrSet := w'.arrSet, arrCnt := w'.arrCnt, whole := w'.whole }
        ∧ (∀ k, k ≠ key → kgetD w'.arrSet k 0 = kgetD w.arrSet k 0) ∧ OthersKept w w' s.cur.2
        ∧ Waits w' s.cur.2 p .barWait (BitVec.ofNat 64 (32 * f.lvl.toNat + f.num.toNat)) 0))
    ∧ (set &&& p.lmask ≠ 0 → ∀ i, i = .bararv f ∨ i = .barsync f → ∃ t, exec i s = .next t
        ∧ TakesFault s t w p 0x0F (BitVec.ofNat 64 (f.lvl.toNat + 16 * f.num.toNat)))
    ∧ (¬free → ∀ i, i = .barwait f ∨ set &&& p.lmask = 0 ∧ (i = .bararv f ∨ i = .barsync f) → ∃ t, exec i s = .next t
        ∧ TakesFault s t w p 0x10 (BitVec.ofNat 64 (16 * f.num.toNat))))
  ∧
  -- 07 R204, R205, 09 R256, 12 R319, R320: MORTAR_ROOT_CLOSE closes the phase of a package once every core of its part of the region has arrived or is
  -- excused, with the root time of the last arrival; one of several packages waits for the others, whose completions MORTAR_PACKAGE_COMPLETION joins at
  -- the latest root time plus 1,040. MORTAR_DIE_RELEASE, 14 clk and 9 for each band later, advances the phase of the die's blocks, and a waiting split
  -- goes on 4 clk later with the phase word.
  (∀ (s : State) (l k n : Nat) (x : Launch), s.launch? l = some x →
    let key := levelKey k n
    let wire := x.wireOf k n
    let part := s.partBlocks l k
    let here (pkg : Nat) : List (Nat × Block) := part.filter fun q => q.2.pkg == pkg
    (∀ pkg, s.phaseOf l k n = none → (∀ q ∈ here pkg, q.2.resident = true) → (∃ q ∈ part, (q.2.bar key).blockArr = true) →
        (if k = 0 then (∃ ck ∈ x.region, ck / 48 / 128 = pkg) ∧ (∀ ck ∈ x.region, ck / 48 / 128 = pkg → s.coreArrived l key ck wire = true)
          else here pkg ≠ [] ∧ ∀ q ∈ here pkg, (q.2.bar key).blockArr = true ∨ s.isExcused q.2.ck wire = true) →
        ∃ t f, exec (.mortarRootClose l k n pkg) s = .next t ∧ t = { s with phases := t.phases, nextId := t.nextId } ∧ kget? t.phases s.nextId = some f
          ∧ f.launch = l ∧ f.num = n ∧ f.cluster = (if k = 0 then none else some (k - 1)) ∧ f.pkgs = [pkg] ∧ s.clk + 5 ≤ f.root
          ∧ (f.told = true ↔ k ≠ 0 ∨ ∀ ck ∈ x.region, ck / 48 / 128 = pkg)
          ∧ (∀ d, d ∈ f.dies ↔ ∃ q ∈ part, q.2.dk = d) ∧ (k ≠ 0 → (f.excused = true ↔ part.length < x.desc.csize))
          ∧ (k = 0 → (f.excused = true ↔ ∃ ck ∈ x.region, ck / 48 / 128 = pkg ∧ s.excuseMask (ck / 48) wire ≠ 0))
          ∧ (let now := (here pkg).filter fun q => (q.2.bar key).lastKey == s.clk
            (∀ q ∈ now, s.clk + 6 + 9 * bandOf q.2.die ≤ f.root) ∧ (now ≠ [] → ∃ q ∈ now, f.root = s.clk + 6 + 9 * bandOf q.2.die)
            ∧ (now = [] → x.excused.1 = s.clk → ∀ dk ∈ x.excused.2, dk / 128 = pkg → s.clk + 5 + 9 * bandOf (dk % 128) ≤ f.root)))
    ∧ (∀ pkg i f, k = 0 → s.phaseOf l 0 n = some (i, f) → f.told = false → s.clk ≥ f.root → (∃ ck ∈ x.region, ck / 48 / 128 = pkg) →
        (∀ ck ∈ x.region, pkg ≤ ck / 48 / 128 ∧ ck / 48 / 128 ∈ f.pkgs) →
        ∃ t f', exec (.mortarPackageCompletion l n pkg) s = .next t ∧ t = { s with phases := t.phases } ∧ kget? t.phases i = some f'
          ∧ f' = { f with told := true, root := f.root + 1040, dies := f'.dies } ∧ ∀ d, d ∈ f'.dies ↔ ∃ q ∈ part, q.2.dk = d)
    ∧ (∀ pkg die i f, s.phaseOf l k n = some (i, f) → f.told = true → 128 * pkg + die ∈ f.dies → f.root + 14 + 9 * bandOf die ≤ s.clk →
        (∀ q ∈ part, q.2.dk = 128 * pkg + die → q.2.saved = false) → Unique s.blocks → Unique s.warps → Unique s.phases →
        ∃ t, exec (.mortarDieRelease l k n pkg die) s = .next t
          ∧ t = { s with blocks := t.blocks, warps := t.warps, cores := t.cores, copies := t.copies, phases := t.phases, nextId := t.nextId, free := t.free }
          ∧ (∀ bid b, (bid, b) ∈ part → b.dk = 128 * pkg + die → (b.bar key).blockArr = true →
              kget? t.blocks bid = some { b with
                bars := kput b.bars key { b.bar key with phase := (b.bar key).phase + 1, count := 0, arrived := 0, blockArr := false } })
          ∧ (∀ bid b, (bid, b) ∈ s.blocks → ((bid, b) ∉ part ∨ b.dk ≠ 128 * pkg + die ∨ (b.bar key).blockArr = false) → kget? t.blocks bid = some b)
          ∧ (∀ bid b wid w slot p sd sc lvl num place ph, (bid, b) ∈ part → b.dk = 128 * pkg + die → (b.bar key).blockArr = true →
              s.warp? wid = some w → w.block = bid → w.table = [(slot, p)] → p.after = .barWait sd sc lvl num place → p.eff = .barWait →
              16 * lvl + num = key → kgetD w.wphase key (0, false) = (ph, true) → kgetD w.arrSet key 0 = 0 → (∀ a ∈ w.arrPend, a.1 ≠ key) → w.captured = false →
              ∃ w', t.warp? wid = some w' ∧ w' = { w with table := w'.table, results := w'.results, wphase := w'.wphase, acqAt := w'.acqAt }
                ∧ kgetD w'.wphase key (0, false) = (ph, false) ∧ WaitResult s w' place sd 4 (BitVec.ofNat 64 (ph + if f.excused then 65536 else 0))
                ∧ ∃ p', kget? w'.table slot = some p' ∧ p'.eff = .ready ∧ p'.pc = p.pc + 1 ∧ p'.lmask = p.lmask)
          ∧ (∀ f', kget? t.phases i = some f' → 128 * pkg + die ∉ f'.dies)))

/-- 01 R32, 07 R180, R190 to R192, 11 R290, R294, R295: writes and atomics are applied at their homes, or fail and are recorded. Constructors: storeApply,
atomicApply, stageAck. -/
def Obligations.WritesApply : Prop :=
  -- 07 R190, R191, R192, 11 R294: STORE_APPLY and ATOMIC_APPLY at the home. A store writes its bytes; a RED and an atomic apply the lanes of their group
  -- in order to the value in memory, as one sequence, and write what is left; no other byte of memory changes. The write is then acknowledged in stages;
  -- the atomic returns each lane's old value.
  (∀ (s : State) (id : Nat) (r : Req) (leaf : Word), MemoryOk s → AtHome s id r leaf → HomePasses s r leaf → r.op ≠ 2 ∨ r.kind ≠ .store →
    (r.kind = .store → ∃ t r', exec (.storeApply id) s = .next t ∧ MemorySide s t ∧ Puts s t (r.key leaf) r.data
      ∧ kget? t.reqs id = some r' ∧ r' = { r with phase := .applied, arrive := s.backTime r + r.slow, place := r'.place, wrote := r'.wrote }
      ∧ (leafTr leaf = true → s.wclock < t.wclock))
    ∧ ((r.size = 4 ∨ r.size = 8) → s.memPoison.contains (r.key leaf / 32) = false →
      (r.kind = .red → ∃ t r' v o, exec (.storeApply id) s = .next t ∧ MemorySide s t
        ∧ v 0 = bytesNat (memRead s.mem (r.key leaf) r.size) ∧ Sequence r v o
        ∧ Puts s t (r.key leaf) (natBytes (v r.opnds.length) r.size)
        ∧ kget? t.reqs id = some r' ∧ r' = { r with phase := .applied, arrive := s.backTime r + r.slow, place := r'.place, wrote := r'.wrote })
      ∧ (r.kind = .atom → ∃ t r' v, exec (.atomicApply id) s = .next t ∧ MemorySide s t
        ∧ v 0 = bytesNat (memRead s.mem (r.key leaf) r.size) ∧ Sequence r v r'.old ∧ r'.old.length = r.opnds.length
        ∧ Puts s t (r.key leaf) (natBytes (v r.opnds.length) r.size)
        ∧ kget? t.reqs id = some r' ∧ r' = { r with phase := .reply, old := r'.old, arrive := s.backTime r + r.slow, place := r'.place, wrote := r'.wrote })))
  ∧
  -- 01 R32, 07 R180, 10 R279, 11 R290, R295: a store that its home refuses, one into the launch's arguments, one to a line whose directory entry is LOST
  -- and one whose memory tag does not match are not made: no byte of memory changes, the core learns of it on the way back, and STAGE_ACK then adds the
  -- cause, one failure and the home to the warp's pending failure record.
  ((∀ (s : State) (id : Nat) (r : Req) (leaf : Word) (cause : Nat), AtHome s id r leaf → r.kind = .store → r.op ≠ 2 →
    (cause = 2 ∧ (r.permitted leaf = false ∨ s.readOnly r = true)
      ∨ cause = 4 ∧ r.permitted leaf = true ∧ s.readOnly r = false ∧ s.lineLost r leaf = true
      ∨ cause = 5 ∧ r.permitted leaf = true ∧ s.readOnly r = false ∧ s.lineLost r leaf = false ∧ s.homeTagOk r leaf = false) →
      ∃ t, exec (.storeApply id) s = .next t ∧ t = { s with reqs := t.reqs }
        ∧ kget? t.reqs id = some { r with phase := .failed, fault := cause, arrive := s.backTime r } ∧ ∀ k, k ≠ id → kget? t.reqs k = kget? s.reqs k)
  ∧ (∀ (s : State) (id : Nat) (r : Req) (w : Warp), kget? s.reqs id = some r → r.phase = .failed → r.arrive ≤ s.clk → r.work.1 = 0 →
      r.kind = .store ∨ r.kind = .red ∨ r.kind = .cwb ∨ r.kind = .cinv ∨ r.kind = .unlock → s.warp? r.wid = some w → w.ended = false →
      ∃ t w', exec (.stageAck id) s = .next t ∧ t.warp? r.wid = some w' ∧ w' = { w with pfr := w'.pfr }
        ∧ w'.pfr.causes = w.pfr.causes ||| ((1 : BitVec 8) <<< r.fault) ||| (if w.captured then 64 else 0)
        ∧ w'.pfr.count = min 65535 (w.pfr.count + 1)
        ∧ (w.pfr.has = false → w'.pfr.pkg = r.pkg ∧ w'.pfr.die = r.die) ∧ (w.pfr.has = true → w'.pfr.pkg = w.pfr.pkg ∧ w'.pfr.die = w.pfr.die)
        ∧ t = { s with warps := t.warps, reqs := kdel s.reqs id, copies := t.copies } ∧ ∀ k, k ≠ r.wid → t.warp? k = s.warp? k))

/-- 07 R179, R182, R188, R199, 11 R286: loads are served, and their replies are written. Constructors: homeServeLoad, loadReply. -/
def Obligations.LoadsServed : Prop :=
  -- 07 R179, R182, R188, R199, 11 R286: HOME_SERVE_LOAD. A load is served by the L1 copy that holds its sector, by the near copy, or at the home: the
  -- reply carries the bytes of that copy, with what its core wrote above it, and no byte of memory changes but those that copies give up for room. At the
  -- home a load without permission, of a LOST line or of another memory tag goes back as a completion fault, ACCESS, COHLOST or TAGCHK, which LOAD_REPLY
  -- leaves held by its split. A prefetch ends; LKQRY returns the state of the line's lock.
  (∀ (s : State) (id : Nat) (r : Req),
    (∀ leaf, AtHome s id r leaf → r.kind = .load → 2 ≤ r.stage → r.work.1 = 0 →
      (HomePasses s r leaf → s.memPoison.contains (r.key leaf / 32) = false →
        ∃ t r', exec (.homeServeLoad id) s = .next t ∧ MemorySide s t ∧ (CleanCopies s → t.mem = s.mem) ∧ kget? t.reqs id = some r'
          ∧ r' = { r with phase := .reply, data := s.mergeNear r none (memRead s.mem (r.key leaf) r.size), arrive := s.backTime r }
          ∧ (CleanCopies s → r'.data = memRead s.mem (r.key leaf) r.size))
      ∧ (∀ code, (code = 0x13 ∧ r.permitted leaf = false
          ∨ code = 0x15 ∧ r.permitted leaf = true ∧ s.lineLost r leaf = true
          ∨ code = 0x14 ∧ r.permitted leaf = true ∧ s.lineLost r leaf = false ∧ s.homeTagOk r leaf = false) →
        ∃ t r', exec (.homeServeLoad id) s = .next t ∧ t = { s with reqs := t.reqs } ∧ kget? t.reqs id = some r'
          ∧ r' = { r with phase := .failed, fault := code, info := r'.info, arrive := s.backTime r }))
    ∧ (kget? s.reqs id = some r → r.phase = .failed → r.arrive ≤ s.clk → r.work.1 = 0 → r.kind = .load ∨ r.kind = .atom ∨ r.kind = .lkqry →
        (∀ w, s.warp? r.wid = some w → ∀ q ∈ w.table, q.2.eff ≠ .faulted) →
        exec (.loadReply id) s = .next { s with reqs := kmod s.reqs id fun x => { x with phase := .faulted, fault := r.fault, info := r.info } })
    ∧ (∀ leaf, AtHome s id r leaf → r.kind = .prf → r.permitted leaf = true → s.lineLost r leaf = false →
        s.slowHome r = false →
        ∃ t, exec (.homeServeLoad id) s = .next t ∧ MemorySide s t ∧ (CleanCopies s → t.mem = s.mem) ∧ t.reqs = kdel s.reqs id)
    ∧ (∀ leaf, AtHome s id r leaf → r.kind = .lkqry → r.permitted leaf = true → leafTr leaf = true →
        let line := lineOf r.asid r.va.toNat (leafGrain leaf)
        let e := s.lockEntry (128 * r.pkg + r.die) line
        ∃ t r' x, exec (.homeServeLoad id) s = .next t ∧ t = { s with reqs := t.reqs } ∧ kget? t.reqs id = some r'
          ∧ r' = { r with phase := .reply, data := natBytes x 8, arrive := r'.arrive }
          ∧ x % 4 = (if s.lineLost r leaf then 3 else if e.holder = some r.wid then 1 else if e.holder.isSome || e.lostHolder then 2 else 0)
          ∧ x / 4 % 2 = (if ∃ q ∈ e.queue, q.key = r.wid then 1 else 0) ∧ x / 2 ^ 8 % 2 ^ 8 = min e.queue.length 255)
    ∧ (kget? s.reqs id = some r → r.phase = .out → r.arrive ≤ s.clk → s.linkHolds r = false → s.mayMake r = true → r.kind = .load →
        ∀ k c, (r.stage = 0 ∧ s.l1Hit r = some (k, c) ∨ r.stage = 1 ∧ s.nearHit r = some (k, c)) → c.tagOk r.va = true →
          c.poison.getLsbD (sectorOf r.va.toNat) = false → (c.tracked = true → s.entryLost (lineOf r.asid r.va.toNat c.grain) = false) →
          let bytes := (List.range r.size).map fun i => kgetD c.data (r.va.toNat % 512 + i) 0
          ∃ t r', exec (.homeServeLoad id) s = .next t ∧ MemorySide s t ∧ (CleanCopies s → t.mem = s.mem) ∧ kget? t.reqs id = some r'
            ∧ r' = { r with phase := .reply, data := s.mergeNear r (some c.place) bytes, arrive := r'.arrive }
            ∧ (CleanCopies s → r'.data = bytes)))
  ∧
  -- 01 R16, R18, 07 R181, R182, R183, R193, 10 R279: LOAD_REPLY. The bytes that returned are written: to a lane of the destination registers, low register
  -- first, one of fewer than 4 bytes extended to 32 bits; to a scalar extended to 64 bits, unless a write later in issue order has been made or takes its
  -- place; an atomic writes each lane's old value. Nothing else of the warp's registers changes, no tag, and no byte of memory.
  (∀ (s : State) (id : Nat) (r : Req) (w : Warp), kget? s.reqs id = some r → r.phase = .reply → r.arrive ≤ s.clk →
    s.warp? r.wid = some w → (∀ q ∈ w.table, q.2.eff ≠ .faulted) → r.work.1 = 0 →
    (∀ a ∈ w.results, ∀ b ∈ w.results, a.2.span = b.2.span → a.2.dest = b.2.dest → a.2.key = b.2.key) →
    (r.kind = .load →
      (s.launchOf r.wid).desc.args.toNat % 2 ^ 57 + 2048 ≤ r.va.toNat % 2 ^ 57
        ∨ r.va.toNat % 2 ^ 57 + r.data.length ≤ (s.launchOf r.wid).desc.args.toNat % 2 ^ 57 + 8 * (s.launchOf r.wid).desc.kern.narg) →
      let part (x : List Byte) (i : Nat) : Lane :=
        if r.size < 4 ∧ r.sext then (BitVec.ofNat (8 * r.size) (bytesNat x)).signExtend 32
        else BitVec.ofNat 32 (bytesNat ((x.drop (4 * i)).take 4))
      let kept (t : State) (w' : Warp) : Prop :=
        w' = { w with v := w'.v, sc := w'.sc, scKey := w'.scKey, results := w'.results, acqAt := w'.acqAt } ∧ t.mem = s.mem ∧ t.reqs = kdel s.reqs id
          ∧ (∀ j, j ≠ r.wid → t.warp? j = s.warp? j) ∧ (r.ord ≠ 2 → r.ord ≠ 4 → t.copies = s.copies ∧ t.cores = s.cores ∧ w'.acqAt = w.acqAt)
      (∀ lane (n : Nat → Nat), lane < 32 → r.lanes = 1#32 <<< lane → r.kind = .load → r.data.length = r.size → r.regs ≠ [] →
          ((r.size = 1 ∨ r.size = 2) ∧ r.regs.length = 1 ∨ r.size = 4 * r.regs.length) → r.regs.Nodup → (∀ i j, i < r.regs.length → j < r.regs.length → n i = n j → i = j) →
          (∀ i k, r.regs[i]? = some k → ∃ q, kget? w.results k = some q ∧ q.dest = .vec (n i)) →
          ∃ t w', exec (.loadReply id) s = .next t ∧ t.warp? r.wid = some w' ∧ kept t w' ∧ w'.sc = w.sc
            ∧ (∀ i, i < r.regs.length → kgetD w'.v (32 * n i + lane) 0 = part r.data i)
            ∧ (∀ j, (∀ i, i < r.regs.length → j ≠ 32 * n i + lane) → kgetD w'.v j 0 = kgetD w.v j 0))
      ∧ (∀ k q n, r.regs = [k] → kget? w.results k = some q → q.dest = .vec n → r.kind = .atom → r.size = 4 → (r.old.map Prod.fst).Nodup →
          (∀ x ∈ r.old, x.1 < 32) →
          ∃ t w', exec (.loadReply id) s = .next t ∧ t.warp? r.wid = some w' ∧ kept t w' ∧ w'.sc = w.sc
            ∧ (∀ l x, (l, x) ∈ r.old → kgetD w'.v (32 * n + l) 0 = x.setWidth 32)
            ∧ (∀ j, (∀ x ∈ r.old, j ≠ 32 * n + x.1) → kgetD w'.v j 0 = kgetD w.v j 0))
      ∧ (∀ k q n, r.regs = [k] → kget? w.results k = some q → q.dest = .sca n → n < 63 → r.kind = .load ∨ r.kind = .lkqry →
          0 < r.data.length → r.data.length ≤ 8 →
          ∃ t w', exec (.loadReply id) s = .next t ∧ t.warp? r.wid = some w' ∧ kept t w' ∧ w'.v = w.v
            ∧ kgetD w'.sc n 0 = (if q.key < kgetD w.scKey n 0 ∨ w.laterScalar q.key n q.span q.long = true then kgetD w.sc n 0
                else if r.sext then (BitVec.ofNat (8 * r.data.length) (bytesNat r.data)).signExtend 64 else BitVec.ofNat 64 (bytesNat r.data))
            ∧ ∀ j, j ≠ n → kgetD w'.sc j 0 = kgetD w.sc j 0))

/-- 11 R288, R289, R293, R294: copies are invalidated and written back; acknowledgements return in stages. Constructors: invalidation, probeAbsent,
evictionWriteback, stageAck. -/
def Obligations.CopyEvents : Prop :=
  -- 11 R288, R289, R293: INVALIDATION discards the line from every tracked copy of the die, and an anchor passes it on to the dies of its groups;
  -- PROBE_ABSENT changes no copy and is counted for the partition of the ASID; EVICTION_WRITEBACK moves the dirty bytes of a copy one level down: from an
  -- L1 of the home die to memory, else to the die's far copy where that has room.
  ((∀ (s : State) (v : Nat) (x : Inval), kget? s.invals v = some x → x.due ≤ s.clk → x.anchor = false → s.dieHas x = true →
      s.invalSource x ≠ some x.dk → (x.grain = 32 ∨ x.grain = 128 ∨ x.grain = 512) →
      ∃ t, exec (.invalidation v) s = .next t ∧ t = { s with copies := t.copies, invals := kdel s.invals v }
        ∧ (∀ k c a, kget? t.copies k = some c → c.tracked = true → c.onDie x.dk = true → c.asid = x.asid → c.blk = blkOf a →
            a % 2 ^ 57 / x.grain = x.line % 2 ^ 57 / x.grain → c.has a = false)
        ∧ ∀ k c, kget? s.copies k = some c → c.onDie x.dk = false → kget? t.copies k = some c)
  ∧ (∀ (s : State) (v : Nat) (x : Inval) (d : Nat), kget? s.invals v = some x → x.due ≤ s.clk → x.anchor = true → s.dieHas x = true → d < 128 →
      (s.dirOf x.dk (lineOf x.asid x.line x.grain)).groups.getLsbD (d / 4) = true → 128 * (x.dk / 128) + d ≠ x.dk →
      s.invalSource x ≠ some (128 * (x.dk / 128) + d) →
      ∃ t k y, exec (.invalidation v) s = .next t ∧ t = { s with copies := t.copies, invals := t.invals, dirs := t.dirs, nextId := t.nextId }
        ∧ kget? t.invals k = some y ∧ y = { x with dk := 128 * (x.dk / 128) + d, anchor := false, due := y.due } ∧ s.clk ≤ y.due)
  ∧ (∀ (s : State) (v : Nat) (x : Inval), kget? s.invals v = some x → x.due + 9 ≤ s.clk → x.anchor = false → s.dieHas x = false →
      ∃ t, exec (.probeAbsent v) s = .next t ∧ t = { s with dies := t.dies, invals := kdel s.invals v }
        ∧ Counted s t x.dk (9 + x.asid / 4096 % 16) ∧ (∀ k, k ≠ x.dk → t.die k = s.die k)
        ∧ t.die x.dk = { s.die x.dk with counters := (t.die x.dk).counters })
  ∧ (∀ (s : State) (c : Nat) (x : Copy) (hp hd : Nat), MemoryOk s → kget? s.copies c = some x → x.isL1 = true →
      (∀ o ∈ x.dirty, o < 512) → s.homeOf (x.place / 2 / 48 / 128) x.asid x.leaf (512 * x.blk) = some (hp, hd) →
      let dk := x.place / 2 / 48
      let leaf := s.homeLeaf dk x.asid x.blk x.leaf
      let far := copyKey (farPlace dk) x.asid x.blk
      (dk = 128 * hp + hd →
        ∃ t, exec (.evictionWriteback c) s = .next t ∧ t = { s with mem := t.mem, memPoison := t.memPoison, copies := kdel s.copies c }
          ∧ (∀ o ∈ x.dirty, memGet t.mem (frameKey dk leaf (512 * x.blk + o)) = kgetD x.data o 0)
          ∧ ∀ a, (∀ o ∈ x.dirty, a ≠ frameKey dk leaf (512 * x.blk + o)) → memGet t.mem a = memGet s.mem a)
      ∧ (dk ≠ 128 * hp + hd → c ≠ far → (kget? s.copies far).isSome = true ∨ (s.rivals (farPlace dk) x.asid x.blk).length < 128 →
        ∃ t, exec (.evictionWriteback c) s = .next t ∧ t = { s with copies := t.copies }
          ∧ ∃ y, kget? t.copies far = some y ∧ ∀ o ∈ x.dirty, kget? y.data o = some (kgetD x.data o 0) ∧ o ∈ y.dirty)))
  ∧
  -- 11 R290, R294, R295: STAGE_ACK. The next stage of an applied write returns once the copies that it counts hold the store or are invalidated; the last
  -- stage ends the request. The core stage of a store that the L1 copy holds returns 2 clk after issue. A LOST mark that a stage brings adds the COHLOST
  -- cause to the warp's pending failure record, and no count. No stage returns from a package that has failed: the write is a DPEER.
  (∀ (s : State) (id : Nat) (r : Req), kget? s.reqs id = some r → r.work.1 = 0 →
    let p := (s.blockOf r.wid).pkg
    let posted := r.kind = .store ∨ r.kind = .red ∨ r.kind = .unlock ∨ r.kind = .cwb ∨ r.kind = .cinv
    (posted → r.phase = .applied → r.arrive ≤ s.clk → r.pkg = p ∨ (s.pkg r.pkg).failed = false →
      (∀ v ∈ s.invals, v.2.delays r = true →
        r.stage ≤ 2 ∨ r.stage = 3 ∧ v.2.dk / 128 ≠ p ∨ r.stage = 4 ∧ v.2.dk / 128 / 2 ≠ p / 2) →
      (r.mark = 0 ∨ r.stage + 1 < r.mark →
        (r.stage < 5 → ∃ t, exec (.stageAck id) s = .next t ∧ t = { s with reqs := t.reqs } ∧ kget? t.reqs id = some { r with stage := r.stage + 1 }
          ∧ ∀ k, k ≠ id → kget? t.reqs k = kget? s.reqs k)
        ∧ (5 ≤ r.stage → exec (.stageAck id) s = .next { s with reqs := kdel s.reqs id }))
      ∧ (∀ w, s.warp? r.wid = some w → w.ended = false → w.pfr.count ≤ 65535 → r.mark ≠ 0 → r.mark ≤ r.stage + 1 →
        ∃ t w', exec (.stageAck id) s = .next t ∧ t = { s with reqs := t.reqs, warps := t.warps } ∧ t.warp? r.wid = some w'
          ∧ w' = { w with pfr := w'.pfr } ∧ w'.pfr.causes.getLsbD 4 = true ∧ w'.pfr.count = w.pfr.count))
    ∧ (∀ w, s.warp? r.wid = some w → w.ended = false → posted → r.phase = .applied → r.arrive ≤ s.clk → r.pkg ≠ p → (s.pkg r.pkg).failed = true →
        (s.pkg r.pkg).known = true → ∃ t w', exec (.stageAck id) s = .next t ∧ t = { s with reqs := kdel s.reqs id, warps := t.warps, copies := t.copies }
          ∧ t.warp? r.wid = some w' ∧ w' = { w with pfr := w'.pfr } ∧ w'.pfr.causes.getLsbD 3 = true
          ∧ w'.pfr.count = min 65535 (w.pfr.count + 1))
    ∧ (r.kind = .store → r.op = 1 → r.stage = 0 → r.clk + 2 ≤ s.clk → r.phase ≠ .applied → (r.phase = .failed → s.clk < r.arrive) →
        ∃ t r', exec (.stageAck id) s = .next t ∧ t = { s with reqs := t.reqs } ∧ kget? t.reqs id = some r'
          ∧ r' = { r with stage := if (s.launchOf r.wid).desc.kern.fuse then 2 else 1 }))

/-- 11 R290, 16 R378 to R381, R386, R388: requests find their homes; directory entries are lost and recovered. Constructors: plcMiss, tlbMissWalk,
mishome, stale, xlate, lost, cohlost, cohfix. -/
def Obligations.HomeLookups : Prop :=
  -- 16 R378 to R381, R386: PLC_MISS enters the leaf's home in the issuing die's placement cache and sends the request there, or to die 0 of its package
  -- for want of a leaf; TLB_MISS_WALK fills the controller's TLB, 320 clk for each table that it reads; MISHOME and STALE are counted and go back to the
  -- issuing die, which discards what misled the request and sends it again; XLATE writes one record to the driver's fault queue, and a later miss joins
  -- the record that waits.
  (∀ (s : State) (id : Nat) (r : Req), kget? s.reqs id = some r →
    let b := s.blockOf r.wid
    let va := r.va.toNat
    let home := 128 * r.pkg + r.die
    (r.phase = .plc → r.arrive ≤ s.clk →
      (∀ leaf n hp hd, s.lookup b.pkg r.asid va = some (leaf, n, hp, hd) → ∃ t r', exec (.plcMiss id) s = .next t
        ∧ t = { s with dies := t.dies, reqs := t.reqs } ∧ kget? (t.die b.dk).plc (tlbKey r.asid r.gen va) = some (tlbEntry r.asid r.gen va leaf)
        ∧ kget? t.reqs id = some r' ∧ r'.phase = .out ∧ r'.pkg = hp ∧ r'.die = hd)
      ∧ (s.lookup b.pkg r.asid va = none → ∃ t r', exec (.plcMiss id) s = .next t ∧ t = { s with reqs := t.reqs }
        ∧ kget? t.reqs id = some r' ∧ r'.phase = .out ∧ r'.pkg = b.pkg ∧ r'.die = 0))
    ∧ (r.phase = .out → r.arrive ≤ s.clk → s.linkHolds r = false →
      (∀ leaf tables, s.homeState r = .miss → s.ctlWalk home r.asid r.gen va = (some leaf, tables) → ∃ t r', exec (.tlbMissWalk id) s = .next t
        ∧ (kget? (t.die home).tlb (ctlKey (ctlOf home va) r.asid r.gen (leafSize leaf) va)).map (·.leaf) = some leaf
        ∧ kget? t.reqs id = some r' ∧ r' = { r with tr := r'.tr, arrive := s.clk + 320 * tables.length }
        ∧ (kget? (s.die home).frames (leafFrame leaf) = none → t = { s with dies := t.dies, reqs := t.reqs }
            ∧ ∃ f, kget? (t.die home).frames (leafFrame leaf) = some f ∧ f.asid = r.asid ∧ f.tracked = leafTr leaf))
      ∧ (s.homeState r = .mishome → ∃ t, exec (.mishome id) s = .next t ∧ t = { s with dies := t.dies, reqs := t.reqs } ∧ Counted s t home 6
        ∧ kget? t.reqs id = some { r with phase := .rejMis, arrive := s.backTime r })
      ∧ (s.homeState r = .stale → ∃ t, exec (.stale id) s = .next t ∧ t = { s with dies := t.dies, reqs := t.reqs } ∧ Counted s t home 7
        ∧ kget? t.reqs id = some { r with phase := .rejStale, gen := kgetD (s.die home).genReg r.asid 0, arrive := s.backTime r })
      ∧ (s.homeState r = .absent → r.kind ≠ .prf → r.kind ≠ .fetch →
          (∀ w, s.warp? r.wid = some w → ∀ q ∈ w.table, q.2.eff ≠ .faulted) →
        let same (x : Ticket) : Prop := x.pkg = r.pkg ∧ x.asid = r.asid ∧ x.page = va % 2 ^ 57 / 4096 * 4096 ∧ x.kind = r.akind
        ((∀ x ∈ s.tickets, ¬same x.2) → s.fe.fqHeld = [] → ringCount s.fe.fqprod s.fe.fqcons < 2 ^ s.fe.fqlog →
          (∃ n, n < 4096 ∧ ∀ x ∈ s.tickets, x.2.num ≠ n) →
          ∃ t n x k, exec (.xlate id) s = .next t ∧ (∀ y ∈ s.tickets, y.2.num ≠ n) ∧ n < 4096
            ∧ FqPosted s t [fqWord [(0, 24), (8, (s.launchOf r.wid).queue), (20, r.asid), (36, r.gen), (52, n)],
                fqWord [(0, va % 2 ^ 57 / 4096 * 4096), (0, r.akind)], fqWord [(0, r.pkg), (9, r.die)], 0]
            ∧ kget? t.reqs id = some { r with phase := .xlate } ∧ kget? t.tickets k = some x ∧ x.num = n ∧ same x ∧ x.reqs = [id])
        ∧ (∀ k x, kget? s.tickets k = some x → same x → (∀ j y, (j, y) ∈ s.tickets → same y → (j, y) = (k, x)) →
          ∃ t, exec (.xlate id) s = .next t ∧ t = { s with reqs := t.reqs, tickets := t.tickets } ∧ kget? t.reqs id = some { r with phase := .xlate }
            ∧ kget? t.tickets k = some { x with reqs := x.reqs ++ [id] })))
    ∧ (r.phase = .rejMis → r.arrive ≤ s.clk → ∃ t r', exec (.mishome id) s = .next t ∧ t = { s with dies := t.dies, reqs := t.reqs }
        ∧ (t.die b.dk).plc = kdel (s.die b.dk).plc (tlbKey r.asid r.gen va)
        ∧ kget? t.reqs id = some r' ∧ r'.phase = .plc ∧ r'.data = r.data ∧ r'.gen = r.gen)
    ∧ (r.phase = .rejStale → r.arrive ≤ s.clk → ∃ t r', exec (.stale id) s = .next t ∧ t = { s with dies := t.dies, cores := t.cores, reqs := t.reqs }
        ∧ kgetD (t.core b.ck).gens r.asid 0 = r.gen ∧ (∀ e ∈ (t.die b.dk).plc, e.2.asid = r.asid → e.2.gen = r.gen)
        ∧ kget? t.reqs id = some r' ∧ (r'.phase = .plc ∨ r'.phase = .out) ∧ r'.data = r.data ∧ r'.gen = r.gen ∧ r'.resent = true))
  ∧
  -- 11 R290, 16 R388: a directory entry enters LOST: signal 3 is pending at the die's firmware and the acknowledgements that it awaited return with a LOST
  -- mark; COHLOST is posted and a PURGE goes to a core of every live die of every live package; once every die has acknowledged and the recovery has taken
  -- its time, the entry is reset and COHFIX is posted with the clk it took. No byte of memory but the record's changes.
  (∀ (s : State) (pkg die line : Nat),
    let dk := 128 * pkg + die
    let d := s.dirOf dk line
    (d.lost = false → ∃ t, exec (.lost pkg die line) s = .next t
      ∧ t = { s with reqs := t.reqs, invals := t.invals, dirs := t.dirs, dies := t.dies }
      ∧ t.dirOf dk line = { d with lost := true, lostClk := s.clk, recover := false, purge := [] } ∧ Signalled t dk 3
      ∧ (∀ q ∈ t.invals, q ∈ s.invals ∧ ¬(q.2.asid = lineAsid line ∧ q.2.line / q.2.grain = lineVa line / q.2.grain))
      ∧ ∀ q ∈ s.invals, q.2.asid = lineAsid line → q.2.line / q.2.grain = lineVa line / q.2.grain → ∀ id r, kget? s.reqs id = some r →
          r.phase = .applied → q.2.delays r = true → ∃ r', kget? t.reqs id = some r' ∧ r' = { r with mark := r'.mark } ∧ 4 ≤ r'.mark ∧ r'.mark ≤ 6)
    ∧ (d.lost = true → d.recover = false → ∃ t, exec (.cohlost pkg die line) s = .next t
      ∧ FqPosted s t [fqWord [(0, 18), (8, 0xFFF), (20, lineAsid line)], fqWord [(0, lineVa line)], fqWord [(0, pkg), (9, die)], 0]
      ∧ (t.dirOf dk line).recover = true ∧ (t.dirOf dk line).lost = true
      ∧ ∀ q x c, q < Config.packages → x ∈ s.liveDies q → c < 48 → s.coreLive (48 * (128 * q + x) + c) = true →
          ∃ c', c' < 48 ∧ ∃ m ∈ (t.core (48 * (128 * q + x) + c')).cmds, m.op = 1 ∧ m.a = BitVec.ofNat 64 (lineAsid line)
            ∧ m.b = BitVec.ofNat 64 (lineVa line))
    ∧ (d.lost = true → d.recover = true → d.lostClk + 120000 ≤ s.clk → (∀ x ∈ d.purge, (s.pkg (x / 128)).known = true) →
      ∃ t, exec (.cohfix pkg die line) s = .next t ∧ t.dirs = kdel s.dirs (lineKey dk line)
        ∧ FqPosted s t [fqWord [(0, 19), (8, 0xFFF), (20, lineAsid line)], fqWord [(0, lineVa line)],
            fqWord [(0, pkg), (9, die), (32, (s.clk - d.lostClk) % 2 ^ 32)], 0]))

/-- 02 R65, 15 R360, 16 R385, R386: instruction fetches, and exception records that waited for room. Constructors: exceptionRecordHeld. -/
def Obligations.FetchCompletes : Prop :=
  -- 02 R65, 08 R237, 16 R375, R378 to R381, R386: a fetch that missed goes to the home that the placement cache or a look-up names. Under its leaf there
  -- the instruction cache is filled with the words in memory; a page without execute permission, and a home that works no more, take IACCESS at the word's
  -- address; an old generation or a wrong home is counted and forgotten; an address without a leaf puts one IFETCH record of its page, kind 3, on the
  -- driver's fault queue.
  (∀ (s : State) (w : Warp) (p : Split) (u : State) (h : Option (Nat × Nat)), Issuer s w p →
    let b := s.curBlock
    let asid := s.curLaunch.asid
    let va := 8 * p.pc.toNat
    let gen := s.genOf b.ck asid
    let i : Instr := .instructionFetch s.cur.1 s.cur.2
    kget? (s.core b.ck).icache (icKey asid p.pc) = none → s.fetchHome b asid gen va = (u, h) →
    let none_ (pkg die : Nat) : Prop :=
      (∀ x ∈ s.tickets, ¬(x.2.pkg = pkg ∧ x.2.asid = asid ∧ x.2.page = va / 4096 * 4096 ∧ x.2.kind = 3)) →
        s.fe.fqHeld = [] → ringCount s.fe.fqprod s.fe.fqcons < 2 ^ s.fe.fqlog → (∃ n, n < 4096 ∧ ∀ x ∈ s.tickets, x.2.num ≠ n) →
        ∃ t n, exec i s = .next t ∧ (∀ y ∈ s.tickets, y.2.num ≠ n) ∧ n < 4096 ∧ t.warps = s.warps
          ∧ FqPosted s t [fqWord [(0, 25), (8, s.curLaunch.queue), (20, asid), (36, gen), (52, n)],
              fqWord [(0, va / 4096 * 4096), (0, 3)], fqWord [(0, pkg), (9, die)], 0]
    (h = none → none_ b.pkg 0)
    ∧ ∀ hp hd, h = some (hp, hd) → (u.pkg hp).failed = false →
      let home := 128 * hp + hd
      let now := kgetD (u.die home).genReg asid 0
      (u.dieLive home = false → ∃ t, exec i s = .next t ∧ TakesFault u t w p 0x05 (BitVec.ofNat 64 va))
      ∧ (u.dieLive home = true → now ≠ gen → ∃ t, exec i s = .next t ∧ t = { s with dies := t.dies, cores := t.cores } ∧ Counted u t home 7
          ∧ kgetD (t.core b.ck).gens asid 0 = now ∧ ∀ e ∈ (t.die b.dk).plc, e.2.asid = asid → e.2.gen = now)
      ∧ (u.dieLive home = true → now = gen → u.tlbHit home asid gen va = none → (u.ctlWalk home asid gen va).1 = none → none_ hp hd)
      ∧ ∀ leaf, u.dieLive home = true → now = gen → u.tlbHit home asid gen va = some leaf
            ∨ u.tlbHit home asid gen va = none ∧ (u.ctlWalk home asid gen va).1 = some leaf ∧ kget? (u.die home).frames (leafFrame leaf) = none →
        (s.homeOf hp asid leaf va ≠ some (hp, hd) → ∃ t, exec i s = .next t ∧ t = { s with dies := t.dies } ∧ Counted u t home 6
          ∧ kget? (t.die b.dk).plc (tlbKey asid gen va) = none)
        ∧ (s.homeOf hp asid leaf va = some (hp, hd) → leafX leaf = true → ∃ t x, exec i s = .next t ∧ t = { s with cores := t.cores, dies := t.dies }
          ∧ (∀ k, k ≠ b.ck → t.core k = s.core k) ∧ t.core b.ck = { s.core b.ck with icache := (t.core b.ck).icache }
          ∧ kget? (t.core b.ck).icache (icKey asid p.pc) = some (BitVec.ofNat 64 (bytesNat ((x.drop (va % 32)).take 8)))
          ∧ x = s.codeBytes b.pkg asid va leaf hp hd ∧ (CleanCopies s → x = memRead s.mem (frameKey home leaf (va / 32 * 32)) 32))
        ∧ (s.homeOf hp asid leaf va = some (hp, hd) → leafX leaf = false → u.tlbHit home asid gen va = some leaf →
          ∃ t, exec i s = .next t ∧ TakesFault u t w p 0x05 (BitVec.ofNat 64 va)))
  ∧
  -- 15 R360: a held exception record is written, in order, when its queue has room: 64 bytes at the producer's place with the queue's next SEQ; OVF marks
  -- it and is cleared.
  (∀ (s : State) (q : Nat) (x : Queue) (r : ExcRec) (rest : List ExcRec), kget? s.queues q = some x → x.heldRecs = r :: rest →
    ringCount x.xprod x.xcons < 2 ^ x.xlog →
      ∃ t x', exec (.exceptionRecordHeld q) s = .next t
        ∧ t.mem = (s.feWrite s.drvAsid (x.exq.toNat + 64 * (x.xprod % 2 ^ x.xlog)) (r.bytes q x.seq x.ovf)).mem
        ∧ kget? t.queues q = some x' ∧ x'.heldRecs = rest ∧ x'.xprod = (x.xprod + 1) % 2 ^ 32 ∧ x'.seq = x.seq + 1 ∧ x'.ovf = false
        ∧ (r.noans = false → x'.waiting = x.waiting ++ [{ r with seq := x.seq }]) ∧ (r.noans = true → x'.waiting = x.waiting)
        ∧ ∀ k, k ≠ q → kget? t.queues k = kget? s.queues k)

/-- 08 R211 to R213, R220 to R231: engine commands check their operands, enter their queues, or fault. Constructors: cpy, cpyg, cpyLocal, cpyOut,
cpygScatter, task, taskOvr, taskCvt, kmv, mcst, msgx, tdesc. -/
def Obligations.CommandsEnter : Prop :=
  -- 01 R26, 08 R211 to R214, R218, R221, R226, R229, R230: a command whose checks pass enters its core's queue with its descriptors and scalars as they
  -- are at issue, and the split goes on past its extension word; no byte of memory or of local store changes. While the queue is full, nothing issues and
  -- nothing changes.
  (∀ (s : State) (w : Warp) (p : Split) (i : Instr) (g : GRule), Issuer s w p → i.wf = true → commandRule s i = some g →
    (∀ c ∈ g.checks, c.1 = false) →
    (queued s g.kind < (queueOf g.kind).2 →
      ∃ t w' e, exec i s = .next t ∧ t = { s with warps := t.warps, works := t.works, nextId := t.nextId, free := t.free }
        ∧ (∀ k, k ≠ s.cur.1 → t.warp? k = s.warp? k) ∧ t.warp? s.cur.1 = some w' ∧ RegsKept w w' ∧ OthersKept w w' s.cur.2
        ∧ Proceeds w' s.cur.2 p g.f.sw (if g.f.xw then 2 else 1) ∧ kget? t.works s.nextId = some e
        ∧ e.kind = g.kind ∧ e.wid = s.cur.1 ∧ e.block = w.block ∧ e.pc = p.pc ∧ e.clk = s.clk ∧ e.phase = .queued ∧ e.td1 = g.td1 ∧ e.td2 = g.td2
        ∧ e.td3 = g.td3 ∧ e.a = s.rdS g.f.sa.toNat ∧ e.b = s.rdS g.f.sb.toNat ∧ e.cnt = g.f.cnt.toNat ∧ e.scope = g.f.sc.toNat
        ∧ e.inc = g.f.imm.toNat ∧ e.sten = g.f.xw ∧ e.stofs = g.f.ext.toNat % 2 ^ 27
        ∧ e.grp = g.f.td1.toNat * 256 + g.f.td2.toNat * 16 + g.f.td3.toNat)
    ∧ ((queueOf g.kind).2 ≤ queued s g.kind → exec i s = .next s))
  ∧
  -- 08 R214, R218, R221, R226, R229, R230, R237: a command takes the fault of the first of its checks that fails, and enters no work.
  (∀ (s : State) (w : Warp) (p : Split) (i : Instr) (g : GRule) (c : Bool × Nat × Word), Issuer s w p → i.wf = true → commandRule s i = some g →
    g.checks.find? (fun c => c.1) = some c → ∃ t, exec i s = .next t ∧ TakesFault s t w p c.2.1 c.2.2)
  ∧
  -- 01 R24, R25, R26, 08 R220: TDESC writes its descriptor in the clk of issue; commands of that clk keep the old value; of the writes of one clk the
  -- lowest place stands. A value that fails a check takes TDINVAL, which names the descriptor, and writes nothing.
  (∀ (s : State) (w : Warp) (p : Split) (f : EFmt), Issuer s w p → (s.block? w.block).isSome = true →
    let v : BitVec 128 := s.rdS f.sb.toNat ++ s.rdS f.sa.toNat
    let d := kgetD s.curBlock.descs f.td1.toNat ⟨0, 0, 0, 0⟩
    let place := (32 * w.stage + w.widx) * 32 + s.cur.2
    (descriptorOk v (limit s) → ∃ t w' d', exec (.tdesc f) s = .next t
      ∧ t = { s with warps := t.warps, blocks := t.blocks, nextId := t.nextId, free := t.free }
      ∧ (∀ k, k ≠ s.cur.1 → t.warp? k = s.warp? k) ∧ (∀ k, k ≠ w.block → t.block? k = s.block? k)
      ∧ t.warp? s.cur.1 = some w' ∧ RegsKept w w' ∧ OthersKept w w' s.cur.2 ∧ Proceeds w' s.cur.2 p f.sw 1
      ∧ t.blockD w.block = { s.curBlock with descs := kput s.curBlock.descs f.td1.toNat d' }
      ∧ (d.clk ≠ s.clk + 1 → d'.val = v ∧ d'.prev = d.val ∧ d'.clk = s.clk + 1)
      ∧ (d.clk = s.clk + 1 → d'.prev = d.prev ∧ d'.clk = d.clk ∧ d'.val = if d.writer < place then d.val else v))
    ∧ (¬descriptorOk v (limit s) → ∃ t info, exec (.tdesc f) s = .next t ∧ TakesFault s t w p 0x08 info ∧ info.toNat % 16 = f.td1.toNat))

/-- 16 R393: DISPATCH and the commands that it sends to cores. Constructors: sigwaitWake, sigwaitTimeout, dispatch, dispatchComplete, purge, mask, genset,
rebind, mailboxMessage. -/
def Obligations.FirmwareCommands : Prop :=
  -- 16 R392, R393: a waiting SIGWAIT wakes with its signals or, when its time has passed, with 0. DISPATCH with REMOTE 0 queues its command at every
  -- target, writing 0, or writes 1 and sends nothing when a target's queue is full; with REMOTE 1 it is queued at the live cores of the live dies that it
  -- names, and DISPATCH_COMPLETE writes 0 when none has it still to perform, 2 when a target die is dead or the time has passed.
  ((∀ (s : State) (pkg die fw rd : Nat) (mask : Word) (dl : Nat),
      let n := 4 * (128 * pkg + die) + fw
      let c := s.fwCore n
      let gives (i : Instr) (c' : FwCore) : Prop := ∃ t, exec i s = .next t ∧ t = { s with dies := t.dies } ∧ CoreBecomes s t n c'
      c.wait = some (rd, mask, dl) →
      (c.sig &&& mask ≠ 0 → ∃ c', gives (.sigwaitWake pkg die fw) c' ∧ Wrote c c' rd (c.sig &&& mask) ∧ c'.sram = c.sram ∧ c'.sig = c.sig &&& ~~~mask)
      ∧ (c.sig &&& mask = 0 → dl ≠ 0 → dl ≤ s.clk → ∃ c', gives (.sigwaitTimeout pkg die fw) c' ∧ Wrote c c' rd 0 ∧ c'.sram = c.sram ∧ c'.sig = c.sig))
  ∧ (∀ (s : State) (f : RFmt),
      let n := s.cur.2
      let c := s.fwCore n
      let a := c.reg f.rs1.toNat
      let b := c.reg f.rs2.toNat
      let core := (b.extractLsb' 0 6).toNat
      let opc := c.ram a.toNat 1
      let mine (ck : Nat) : Prop := (core = 63 ∨ ck % 48 = core) ∧ s.coreLive ck = true
      let sent (t : State) (tgt : Nat → Prop) : Prop := (∀ ck, ¬tgt ck → t.core ck = s.core ck) ∧ ∀ ck, tgt ck →
        ∃ x, t.core ck = { s.core ck with cmds := (s.core ck).cmds ++ [x] } ∧ x.op = opc ∧ x.lost = false ∧ x.a.toNat = c.ram (a.toNat + 8) 8
          ∧ x.b.toNat = c.ram (a.toNat + 16) 8 ∧ x.c.toNat = c.ram (a.toNat + 24) 8 ∧ (b.getLsbD 22 = true → x.src = s.nextId)
      let plain (t : State) (c' : FwCore) (v : Word) : Prop := CoreBecomes s t n c' ∧ Wrote c c' f.rd.toNat v ∧ c'.sram = c.sram ∧ c'.sig = c.sig
      (DispatchRefused s n a b opc → ∃ t c' v, exec (.dispatch f) s = .next t ∧ t = { s with dies := t.dies } ∧ CoreBecomes s t n c'
          ∧ Trapped c c' 27 v ∧ (v = a ∨ v = b))
      ∧ (¬DispatchRefused s n a b opc →
          (b.getLsbD 22 = false → (∃ ck, ck / 48 = n / 4 ∧ mine ck ∧ Config.cmdRoom ≤ (s.core ck).cmds.length) →
            ∃ t c', exec (.dispatch f) s = .next t ∧ t = { s with dies := t.dies } ∧ plain t c' 1)
          ∧ (b.getLsbD 22 = false → (∀ ck, ck / 48 = n / 4 → mine ck → (s.core ck).cmds.length < Config.cmdRoom) →
            ∃ t c', exec (.dispatch f) s = .next t ∧ t = { s with dies := t.dies, cores := t.cores } ∧ plain t c' 0
              ∧ sent t fun ck => ck / 48 = n / 4 ∧ mine ck)
          ∧ (b.getLsbD 22 = true → ∃ t dead, exec (.dispatch f) s = .next t
              ∧ t = { s with dies := t.dies, cores := t.cores, nextId := t.nextId } ∧ s.nextId < t.nextId
              ∧ CoreBecomes s t n { c with disp := some (f.rd.toNat, s.nextId, s.clk + 24000, dead) }
              ∧ sent t (fun ck => Names s b (ck / 48) ∧ mine ck)
              ∧ (b.getLsbD 24 = false → b.getLsbD 23 = false →
                  dead = !s.dieLive (128 * (b.extractLsb' 13 9).toNat + (b.extractLsb' 6 7).toNat)))))
  ∧ ∀ (s : State) (pkg die fw rd id dl : Nat) (dead : Bool),
      let n := 4 * (128 * pkg + die) + fw
      let c := s.fwCore n
      let open' (q : Nat × Core) : Prop := ∃ x ∈ q.2.cmds, x.src = id
      let gives (v : Word) : Prop := ∃ t c', exec (.dispatchComplete pkg die fw) s = .next t ∧ t = { s with dies := t.dies } ∧ CoreBecomes s t n c'
        ∧ Wrote c c' rd v ∧ c'.sram = c.sram ∧ c'.sig = c.sig
      c.disp = some (rd, id, dl, dead) →
      ((∀ q ∈ s.cores, ¬open' q) → gives (if dead then 2 else 0))
      ∧ ((∃ q ∈ s.cores, open' q) → dl ≤ s.clk ∨ (∀ q ∈ s.cores, open' q → s.dieLive (q.1 / 48) = false) → gives 2))
  ∧
  -- 16 R381, R388, R391, R393: PURGE discards a line from the core's L1 copies and its die's far copies; sent by the recovery of a LOST entry, from every
  -- copy of the die, which then acknowledges. MASK marks the core dead and excuses it on every wire; GENSET writes its generation table; REBIND gives the
  -- locks of a warp their new location. A mailbox message sets SIG bit 4.
  ((∀ (s : State) (pkg die core : Nat) (x : FwCmd) (rest : List FwCmd),
      let dk := 128 * pkg + die
      let ck := 48 * dk + core
      let only (t : State) : Prop := t.core ck = { s.core ck with cmds := (t.core ck).cmds }
      (s.core ck).cmds = x :: rest →
      (x.op = 1 → ∃ t, exec (.purge pkg die core) s = .next t ∧ t = { s with cores := t.cores, copies := t.copies, dirs := t.dirs } ∧ Command s t ck 1 x ∧ only t
        ∧ (∀ k c, kget? s.copies k = some c →
            let on : Prop := c.asid = x.a.toNat % 2 ^ 16 ∧ c.blk = x.b.toNat % 2 ^ 57 / 512
              ∧ if x.lost then c.onDie dk = true else c.place = l1Place ck ∨ c.place = farPlace dk
            (¬on → kget? t.copies k = some c)
            ∧ (on → ∃ c', kget? t.copies k = some c' ∧ c' = { c with valid := c'.valid, dirty := c'.dirty }
                ∧ ∀ i, i < 16 → (c'.valid.getLsbD i = true ↔
                    c.valid.getLsbD i = true ∧ (c.blk * 512 + 32 * i) / c.grain ≠ x.b.toNat % 2 ^ 57 / c.grain)))
        ∧ (x.lost = false → t.dirs = s.dirs)
        ∧ (x.lost = true → ∀ k d, kget? s.dirs k = some d → d.recover = true → k % 2 ^ 73 = x.a.toNat % 2 ^ 16 * 2 ^ 57 + x.b.toNat % 2 ^ 57 →
            ∃ d', kget? t.dirs k = some d' ∧ ∀ j, j ∈ d'.purge ↔ j ∈ d.purge ∧ j ≠ dk))
      ∧ (x.op = 2 → ∃ t, exec (.mask pkg die core) s = .next t ∧ t = { s with cores := t.cores, dies := t.dies } ∧ Command s t ck 2 x
          ∧ (∀ n, n < 17 → t.isExcused ck n = true)
          ∧ t.core ck = { s.core ck with cmds := (t.core ck).cmds, dead := true } ∧ t.coreLive ck = false)
      ∧ (x.op = 3 → ∃ t, exec (.genset pkg die core) s = .next t ∧ t = { s with cores := t.cores } ∧ Command s t ck 3 x
          ∧ t.core ck = { s.core ck with cmds := (t.core ck).cmds, gens := (t.core ck).gens }
          ∧ kgetD (t.core ck).gens (x.a.toNat % 2 ^ 16) 0 = x.b.toNat % 2 ^ 16
          ∧ ∀ g, g ≠ x.a.toNat % 2 ^ 16 → kgetD (t.core ck).gens g 0 = kgetD (s.core ck).gens g 0)
      ∧ (x.op = 4 → ∃ t, exec (.rebind pkg die core) s = .next t ∧ t = { s with cores := t.cores, lockTab := t.lockTab } ∧ Command s t ck 4 x ∧ only t
          ∧ ∀ k e, kget? s.lockTab k = some e →
            (e.holder ≠ some x.a.toNat → kget? t.lockTab k = some e)
            ∧ (e.holder = some x.a.toNat → kget? t.lockTab k = some { e with
                saved := false, hcore := (x.b.extractLsb' 0 6).toNat, hdie := (x.b.extractLsb' 6 7).toNat, hpkg := (x.b.extractLsb' 13 9).toNat })))
  ∧ ∀ (s : State) (pkg die fw : Nat), fw < 4 → ∃ t, exec (.mailboxMessage pkg die fw) s = .next t ∧ t = { s with dies := t.dies }
      ∧ CoreBecomes s t (4 * (128 * pkg + die) + fw)
          { s.fwCore (4 * (128 * pkg + die) + fw) with sig := (s.fwCore (4 * (128 * pkg + die) + fw)).sig ||| (1 <<< 4) })

/-- 08 R211 to R217, R231: engine work forks, and joins with its counter and status word. Constructors: engineFork, engineJoin. -/
def Obligations.EngineCommands : Prop :=
  -- 08 R212, R214, R226, R229, R230: ENGINE_FORK. Once the warp's earlier writes are acknowledged at the command's scope and its earlier local-store
  -- accesses are made, hod commands and tasks may run, and a send takes its 256 bytes or its payload from local store in this clk. KMV takes its request
  -- and the bytes of memory whose writes have returned, and goes to the stack that homes the matrix, by the placement cache; a request that breaks a limit
  -- is not performed, and ends with CODE 11 in its result record, with no output written; one whose record itself cannot stand writes no byte of local
  -- store.
  (∀ (s : State) (id : Nat) (e : Work) (b : Block), kget? s.works id = some e → e.phase = .queued → s.workStuck id = false → MayFork s e →
    kget? s.blocks e.block = some b →
    let ofs := e.a.toNat % 2 ^ 27
    let gives (t : State) (e' : Work) : Prop := exec (.engineFork id) s = .next t ∧ t = { s with works := t.works } ∧ WorkIs s t id e'
    (e.kind.isHod = true ∨ e.kind.isTask = true → (s.warpD e.wid).captured = false → ∃ t, gives t { e with phase := .forked, fork := s.clk })
    ∧ (e.kind = .mcst → s.planeHeld id e = false →
        ∃ t e', gives t e' ∧ e' = { e with phase := .sent, fork := s.clk, buf := b.lsRead ofs 256, plane := e'.plane, due := e'.due } ∧ s.clk < e'.due)
    ∧ (e.kind = .msgx → ∃ t e', gives t e' ∧ s.clk < e'.due
        ∧ e' = { e with phase := .sent, fork := s.clk, buf := b.lsRead ofs (16 * ((e.b.extractLsb' 32 4).toNat + 1)), plane := e'.plane, due := e'.due })
    ∧ (e.kind = .kmv →
        let q := b.lsRead ofs 64
        let place := (kvRange q 2).1
        let gen := s.genOf b.ck (s.workAsid e)
        let entry := kget? (s.die b.dk).plc (tlbKey (s.workAsid e) gen (kvField q 0 64))
        (∀ leaf hp hd, kvRecordOk q b.usable = true → kvOk q b.usable = true →
          entry.map (·.leaf) = some leaf ∨ entry = none ∧ (∃ n h, s.lookup b.pkg (s.workAsid e) (kvField q 0 64) = some (leaf, n, h)) →
          s.homeOf b.pkg (s.workAsid e) leaf (kvField q 0 64) = some (hp, hd) →
          ∃ t e', exec (.engineFork id) s = .next t ∧ t = { s with works := t.works, dies := t.dies } ∧ WorkIs s t id e' ∧ s.clk ≤ e'.due
            ∧ e' = { e with buf := q, fork := s.clk, snap := s.homeNow, gen := gen, phase := .sent, wait := [128 * hp + hd], due := e'.due, plane := e'.plane })
        ∧ (kvRecordOk q b.usable = true → kvOk q b.usable = false → NoWaiter s e.block → e.fails = [] → e.aborted = false →
          ∃ t e' b' word, exec (.engineFork id) s = .next t ∧ t = { s with works := t.works, blocks := t.blocks, free := t.free } ∧ WorkIs s t id e'
            ∧ e'.phase = .finished ∧ e'.due = s.clk ∧ BlockIs s t e.block b' ∧ b' = { b with ls := b'.ls, full := b'.full }
            ∧ word % 2 ^ 32 = 11 + 2 ^ 16 ∧ word / 2 ^ 48 = 0
            ∧ Filled b b' [(place, natBytes word 8 ++ natBytes (kvField q 256 16) 2 ++ natBytes 0 6)])
        ∧ (kvRecordOk q b.usable = false → ∃ t e', exec (.engineFork id) s = .next t ∧ t = { s with works := t.works, free := t.free } ∧ WorkIs s t id e'
            ∧ e' = { e with buf := q, fork := s.clk, phase := .finished, due := s.clk, noStatus := true, fails := e'.fails }
            ∧ ∃ p d, e'.fails = e.fails ++ [(0, 11, p, d)])))
  ∧
  -- 08 R212, R214, R215: ENGINE_JOIN. In one clk the failures of the work's writes join the pending failure record of its warp, or the retire record of
  -- its block when the warp has ended; the status word stands at its offset, its granule full; and the counter takes the increment. With no status word
  -- asked for, a nonzero CODE posts one ENGERR record that parks no split. Aborted work joins with nothing.
  (∀ (s : State) (id : Nat) (e : Work) (b : Block), kget? s.works id = some e → e.phase = .finished → e.due ≤ s.clk → kget? s.blocks e.block = some b →
    (e.aborted = true → exec (.engineJoin id) s = .next { s with works := kdel s.works id })
    ∧ (∀ w, e.aborted = false → e.noStatus = false → s.warp? e.wid = some w → w.block = e.block → NoCwait s e.block →
        (e.sten = true ∧ NoWaiter s e.block ∨ e.sten = false ∧ (e.kind = .kmv ∨ e.fails = [])) →
        ∃ t b' word, exec (.engineJoin id) s = .next t ∧ t = { s with works := kdel s.works id, blocks := t.blocks, warps := t.warps }
          ∧ BlockIs s t e.block b' ∧ b' = { b with ls := b'.ls, full := b'.full, counters := b'.counters, rrec := b'.rrec }
          ∧ StatusOf (unitsOf e) e.fails word ∧ Filled b b' (if e.sten then [(e.stofs, natBytes word 8)] else [])
          ∧ kgetD b'.counters e.cnt 0 = kgetD b.counters e.cnt 0 + BitVec.ofNat 64 e.inc
          ∧ (∀ n, n ≠ e.cnt → kgetD b'.counters n 0 = kgetD b.counters n 0)
          ∧ (∀ k, k ≠ e.wid → t.warp? k = s.warp? k)
          ∧ (e.wfail.has = false → t.warp? e.wid = some w ∧ b'.rrec = b.rrec)
          ∧ (e.wfail.has = true → w.ended = false → w.captured = false → b'.rrec = b.rrec ∧ ∃ w', t.warp? e.wid = some w' ∧ w' = { w with pfr := w'.pfr }
              ∧ w'.pfr.causes = (w.pfr.causes ||| e.wfail.causes) ∧ w'.pfr.count = min 65535 (w.pfr.count + e.wfail.count)
              ∧ w'.pfr.pkg = (if w.pfr.has then w.pfr.pkg else e.wfail.pkg) ∧ w'.pfr.die = if w.pfr.has then w.pfr.die else e.wfail.die)
          ∧ (e.wfail.has = true → w.ended = true → t.warp? e.wid = some w ∧ b'.rrec.causes = (b.rrec.causes ||| e.wfail.causes)
              ∧ b'.rrec.count = min 65535 (b.rrec.count + e.wfail.count)))
    ∧ (e.aborted = false → e.wfail.has = false → e.sten = false → NoCwait s e.block →
        (e.noStatus = true ∨ e.kind ≠ .kmv ∧ e.fails ≠ [] ∧ ∀ f ∈ e.fails, 1 ≤ f.2.1 ∧ f.2.1 ≤ 13) →
        let n := (s.launchOf e.wid).queue
        let x := s.queueD n
        x.heldRecs = [] → ringCount x.xprod x.xcons < 2 ^ x.xlog →
        ∃ t word, ∃ r : ExcRec, exec (.engineJoin id) s = .next t ∧ t.works = kdel s.works id ∧ t.warps = s.warps
          ∧ r.code = 0x1B ∧ r.noans = true ∧ r.info = BitVec.ofNat 64 word ∧ r.pc = e.pc
          ∧ t.mem = (s.feWrite s.drvAsid (x.exq.toNat + 64 * (x.xprod % 2 ^ x.xlog)) (r.bytes n x.seq x.ovf)).mem
          ∧ (e.noStatus = true → word = 11 + 2 ^ 16) ∧ (e.noStatus = false → StatusOf (unitsOf e) e.fails word)
          ∧ t.queues = kmod s.queues n (fun x => { x with xprod := (x.xprod + 1) % 2 ^ 32, seq := x.seq + 1, ovf := false })
          ∧ ∃ b', BlockIs s t e.block b' ∧ b' = { b with counters := b'.counters }
            ∧ kgetD b'.counters e.cnt 0 = kgetD b.counters e.cnt 0 + BitVec.ofNat 64 e.inc))

/-- 04 R94 to R97, 08 R220 to R228, 12 R321 to R324: tile tasks and kiln requests run and leave their values. Constructors: taskStart, taskKblockCommit,
taskEnd, kilnRequestArrival, kilnComplete. -/
def Obligations.TileTasks : Prop :=
  -- 04 R95, R97, R98, 08 R222, R223, R224, 12 R322: TASK_START: the first task of the core whose dependence and hazard conditions hold takes the lowest
  -- free engine, with its destination's mantissas, or zeros for TASK.ovr. TASK_KBLOCK_COMMIT: the block sums of one k-block are accumulated, committed
  -- whole, or the task ends with BFAOVF or with the status of its scale stream. TASK_END: the destination takes the mantissas or the converted elements,
  -- full, and its descriptor the exponent.
  (∀ (s : State) (id : Nat) (e : Work) (b : Block), kget? s.works id = some e → e.kind.isTask = true → kget? s.blocks e.block = some b →
    let works (t : State) (e' : Work) : Prop := t = { s with works := t.works } ∧ WorkIs s t id e'
    let cells := tdRows e.td1 * tdCols e.td1
    (∀ n, e.phase = .forked → s.blockHalted e.block = false → Depends b e → NoHazard s id e → n < 4 →
        (∀ q ∈ s.works, q.1 < id → q.2.kind.isTask = true → s.workCore q.2 = b.ck → s.mayStart q.1 q.2 = false) →
        let busy (m : Nat) : Prop := ∃ q ∈ s.works, q.2.kind.isTask = true ∧ s.workCore q.2 = b.ck ∧ q.2.phase = .running ∧ q.2.engine = m
        ¬busy n → (∀ m, m < n → busy m) →
        ∃ t e', exec (.taskStart id) s = .next t ∧ works t e' ∧ e' = { e with phase := .running, engine := n, fork := s.clk, base := e.next, mant := e'.mant }
          ∧ (e.kind = .taskOvr → e.next = 0 → e'.mant = List.replicate cells 0)
          ∧ (e.kind = .task ∨ e.kind = .taskOvr ∧ e.next ≠ 0 → e'.mant.length = cells ∧ ∀ i j, i < tdRows e.td1 → j < tdCols e.td1 → tdTag e.td1 = 15 →
              e'.mant[i * tdCols e.td1 + j]? = some (BitVec.ofNat 48 (bytesNat (b.lsRead (tdOfs e.td1 i j) 8))).toInt))
    ∧ (e.kind ≠ .taskCvt → e.phase = .running → e.fails = [] → e.next < cdiv (tdCols e.td2) 32 → e.blockEnd (e.next + 1) ≤ s.clk →
        let nb := cdiv (tdCols e.td2) 32
        (∀ sa sb r, b.scales e.td2 (tdRows e.td2) nb = .ok sa → b.scales e.td3 (tdCols e.td3) nb = .ok sb →
          -32768 ≤ e.etmp → Accumulates e.etmp e.mant (b.sums e.td2 e.td3 sa sb e.next) r →
          (r = none → ∃ t e', exec (.taskKblockCommit id) s = .next t ∧ t = { s with works := t.works, free := t.free } ∧ WorkIs s t id e'
            ∧ e' = { e with fails := e'.fails } ∧ ∃ p d, e'.fails = [(0, 2, p, d)])
          ∧ (∀ m x, r = some (m, x) → s.blockHalted e.block = false ∨ e.next + 1 = nb →
            ∃ t, exec (.taskKblockCommit id) s = .next t ∧ works t { e with mant := m, etmp := x, next := e.next + 1 }))
        ∧ (∀ c, b.scales e.td2 (tdRows e.td2) nb = .error c → ∃ t e', exec (.taskKblockCommit id) s = .next t
            ∧ t = { s with works := t.works, free := t.free } ∧ WorkIs s t id e' ∧ e' = { e with fails := e'.fails } ∧ ∃ p d, e'.fails = [(0, c, p, d)]))
    ∧ (e.phase = .running → e.aborted = false → NoWaiter s e.block →
        let gives (b' : Block) (e' : Work) : Prop := ∃ t, exec (.taskEnd id) s = .next t
          ∧ t = { s with works := t.works, blocks := t.blocks, free := t.free } ∧ BlockIs s t e.block b' ∧ WorkIs s t id e'
        (e.kind ≠ .taskCvt → cdiv (tdCols e.td2) 32 ≤ e.next → tdTag e.td1 = 15 → e.mant.length = cells → e.fails = [] →
          (kgetD b.descs e.tdn ⟨0, 0, 0, 0⟩).clk ≤ e.clk →
          ∃ b', gives b' { e with phase := .finished, due := s.clk } ∧ b' = { b with ls := b'.ls, full := b'.full, descs := b'.descs }
            ∧ TileFilled b b' e.td1 8 (fun i j => wrapInt 64 (e.mant.getD (i * tdCols e.td1 + j) 0))
            ∧ (kgetD b'.descs e.tdn ⟨0, 0, 0, 0⟩).val.extractLsb' 80 16 = BitVec.ofInt 16 e.etmp
            ∧ ∀ n, n ≠ e.tdn → kgetD b'.descs n ⟨0, 0, 0, 0⟩ = kgetD b.descs n ⟨0, 0, 0, 0⟩)
        ∧ (e.kind = .taskCvt → e.fork + 32 + cdiv cells 64 ≤ s.clk → tdTag e.td1 ≠ 15 →
          ∃ b', gives b' { e with phase := .finished, due := s.clk } ∧ b' = { b with ls := b'.ls, full := b'.full }
            ∧ TileFilled b b' e.td1 (tagSize (tdTag e.td1)) fun i j => cvtCode (tdTag e.td1) (cvtValue e.td2 (b.elem e.td2 i j)))
        ∧ (e.kind ≠ .taskCvt → ∀ u c h rest, e.fails = (u, c, h) :: rest → c ≠ 2 →
          ∃ t, exec (.taskEnd id) s = .next t ∧ works t { e with phase := .finished, due := s.clk })))
  ∧
  -- 08 R226, R227, R228, 12 R324: KILN_REQUEST_ARRIVAL: the first request to reach a stack with room is queued there, after the time of those before it;
  -- one of an old generation is counted STALE and goes back. KILN_COMPLETE: the output takes the accumulated mantissas, then the result record its status
  -- and exponent, every granule full, and the request leaves the kiln; a read that failed leaves the output as it was, with its CODE in the record.
  (∀ (s : State) (id : Nat) (e : Work) (b : Block) (dk : Nat), kget? s.works id = some e → e.kind = .kmv → kget? s.blocks e.block = some b →
    e.wait = [dk] → e.due ≤ s.clk → e.aborted = false →
    let m := kvRows e.buf
    let k := kvK e.buf
    let exp := intOf true 16 (kvField e.buf 256 16)
    (e.phase = .sent → (∀ q ∈ s.works, q.1 ≠ id → q.2.kind = .kmv → q.2.phase = .sent → q.2.wait.headD 0 = dk → s.kilnRank e ≤ s.kilnRank q.2) →
        (s.pkg (dk / 128)).failed = false → s.dieLive dk = true → s.noRoute b.pkg b.die (dk / 128) (dk % 128) e.plane = false →
        let now := kgetD (s.die dk).genReg (s.workAsid e) 0
        (now ≠ e.gen → ∃ t e', exec (.kilnRequestArrival id) s = .next t ∧ t = { s with works := t.works, dies := t.dies } ∧ WorkIs s t id e'
          ∧ e' = { e with phase := .forked, gen := now, due := e'.due } ∧ Counted s t dk 7)
        ∧ (now = e.gen → (∀ leaf, s.kilnLeaf e dk (kvField e.buf 0 64) = some leaf →
              s.homeOf (dk / 128) (s.workAsid e) leaf (kvField e.buf 0 64) = some (dk / 128, dk % 128)) → (s.die dk).kiln.length < 256 →
          ∃ t e', exec (.kilnRequestArrival id) s = .next t ∧ t = { s with works := t.works, dies := t.dies, mem := t.mem, fe := t.fe, copies := t.copies }
            ∧ WorkIs s t id e' ∧ e' = { e with phase := .running, due := e'.due } ∧ (∀ j, j ≠ dk → t.die j = s.die j)
            ∧ (t.die dk).kiln = (s.die dk).kiln ++ [id] ∧ (t.die dk).kilnFree ≤ e'.due
            ∧ (t.die dk).kilnFree = max e.due (s.die dk).kilnFree + 400 + cdiv k 64 + cdiv (3 * m * k) 32000 + cdiv (8 * m) 64))
    ∧ (e.phase = .running → s.workStuck id = false → NoWaiter s e.block → e.fails = [] →
        let reads := (s.kilnRuns e).map fun r => s.kilnRun e dk (sectorPieces r.1 r.2)
        let gives (b' : Block) : Prop := ∃ t e', exec (.kilnComplete id) s = .next t
          ∧ t = { s with works := t.works, blocks := t.blocks, dies := t.dies, free := t.free } ∧ BlockIs s t e.block b'
          ∧ b' = { b with ls := b'.ls, full := b'.full } ∧ WorkIs s t id e' ∧ e'.phase = .finished ∧ e'.due = s.clk
          ∧ t.die dk = { s.die dk with kiln := (s.die dk).kiln.filter (· != id) } ∧ ∀ j, j ≠ dk → t.die j = s.die j
        let record (word : Nat) (x : Int) : Nat × List Byte := ((kvRange e.buf 2).1, natBytes word 8 ++ natBytes (wrapInt 16 x) 2 ++ natBytes 0 6)
        (∀ (l : List (List Byte)) (sc : List Nat), reads = l.map KilnRead.bytes →
          (if kvField e.buf 220 1 = 1 then sd4Decode (fun i => some (s.kilnByte e i)) (m * (k / 32)) else .ok []) = .ok sc →
          let vec := (b.lsRead (kvRange e.buf 0).1 k).map fun x => intOf (kvField e.buf 219 1 == 1) 8 x.toNat
          let m0 := (List.range m).map fun i => if kvField e.buf 221 1 = 1 then intOf true 48 (bytesNat (b.lsRead ((kvRange e.buf 1).1 + 8 * i) 8)) else 0
          let out := kilnGo ((l.take m).map fun l => l.map fun y => duoVal y.toNat) vec sc (k / 32) (k / 32) 0 m0 exp
          ∃ b' word, gives b' ∧ Filled b b' [((kvRange e.buf 1).1, out.1.flatMap mantBytes), record word out.2.1]
            ∧ (out.2.2 = false → word = 2 ^ 48) ∧ (out.2.2 = true → word % 2 ^ 32 = 2 + 2 ^ 16 ∧ word / 2 ^ 48 = 0))
        ∧ (∀ c p d, KilnRead.poison ∉ reads → (∀ va, KilnRead.miss va ∉ reads) → (reads.filterMap fun r => match r with | .fail c p d => some (c, p, d) | _ => none).head? = some (c, p, d) →
          ∃ b', gives b' ∧ Filled b b' [record (c + 2 ^ 16 + 2 ^ 32 * p + 2 ^ 41 * d) exp])))

/-- 10 R262 to R266, R269, 15 R365: clusters are handed down, stolen, placed and started. Constructors: clusterHanddown, clusterSteal, clusterPlace,
coresidentPlace, blockStart. -/
def Obligations.ClustersPlaced : Prop :=
  -- 10 R263, R264, R265, 15 R365: CLUSTER_HANDDOWN moves the head of a child's pending list to the child of its home while that child holds fewer than 16.
  -- CLUSTER_STEAL moves the upper half of the busiest sibling's list, the lowest id on equal counts, to the idle thief's. CLUSTER_PLACE puts the head
  -- cluster of a die's own list on the first free site after the one last used, block by block.
  (∀ (s : State) (l : Nat) (x : Launch), s.launch? l = some x → Dealing x → x.desc.cores = false → Unique x.pend →
    (∀ node k rest, x.list node = k :: rest → node < 100000 → x.held node < 16 →
      let child := s.childFor x node (s.clusterHome x k)
      ∃ t p, exec (.clusterHanddown l node) s = .next t ∧ PendBecomes s t l x p ∧ kgetD p node [] = rest
        ∧ (∀ c, c ∈ kgetD p child [] ↔ c = k ∨ c ∈ x.list child) ∧ (∀ n, n ≠ node → n ≠ child → kgetD p n [] = x.list n)
        ∧ (node = 0 → child = nodeTray (s.clusterHome x k / 128)))
    ∧ (∀ node v, (1000 ≤ node ∧ node < 1256 ∨ 2000 ≤ node ∧ node < 2512 ∨ 10000 ≤ node ∧ node < 75536) → s.nodeIdle x node = true →
        let sibs := (nodeChildren (nodeParent node)).filter (· != node)
        let all := x.stealable v
        v ∈ sibs → (∀ c ∈ sibs, (x.stealable c).length ≤ all.length ∧ (c < v → (x.stealable c).length < all.length)) → 2 ≤ all.length →
        let up := all.drop (all.length - all.length / 2)
        ∃ t p, exec (.clusterSteal l node) s = .next t ∧ PendBecomes s t l x p
          ∧ (∀ c, c ∈ kgetD p node [] ↔ c ∈ up ∨ c ∈ x.list node) ∧ kgetD p v [] = (x.list v).filter (fun c => !up.contains c)
          ∧ ∀ n, n ≠ node → n ≠ v → kgetD p n [] = x.list n)
    ∧ (∀ pkg die k rest o, s.placeChoice (128 * pkg + die) = some (l, x) →
        let dk := 128 * pkg + die
        x.list (100000 + dk) = k :: rest → s.nextSite dk x.desc.kern (kgetD x.lastSite dk 48) = some o →
        (∀ q ∈ s.blocks, q.1 < s.nextId) → (∀ q ∈ s.warps, q.1 < 32 * s.nextId) → x.desc.kern.warpList.length ≤ 32 →
        ∃ t y, exec (.clusterPlace pkg die) s = .next t
          ∧ t = { s with launches := t.launches, blocks := t.blocks, warps := t.warps, nextId := t.nextId, dies := t.dies }
          ∧ t.launch? l = some y ∧ y = { x with pend := y.pend, lastSite := y.lastSite } ∧ kgetD y.lastSite dk 48 = o
          ∧ kgetD y.pend (100000 + dk) [] = rest ∧ (∀ n, n ≠ 100000 + dk → kgetD y.pend n [] = x.list n)
          ∧ (∀ r, r < x.desc.csize → Placed t l k r (48 * dk + siteCore x.desc.kern.shape o r) x.desc)
          ∧ (∀ j, j < s.nextId → kget? t.blocks j = kget? s.blocks j) ∧ (∀ j, j < 32 * s.nextId → t.warp? j = s.warp? j)
          ∧ Counted s t dk (if s.clusterHome x k = dk then 1 else 0)))
  ∧
  -- 10 R262, R269: CORESIDENT_PLACE places every cluster of a co-resident launch, each block on a core, and takes its wires, or changes nothing while one
  -- does not fit. BLOCK_START makes every block of a cluster resident in one clk.
  ((∀ (s : State) (l : Nat) (x : Launch), s.launch? l = some x → Dealing x → x.desc.cores = true → x.placed = false → s.wireBusy l x = false →
      (State.coPlace l (List.range x.desc.clusters) s = none → exec (.coresidentPlace l) s = .next s)
      ∧ ((State.coPlace l (List.range x.desc.clusters) s).isSome = true → (∀ q ∈ s.blocks, q.1 < s.nextId ∧ q.2.launch ≠ l) →
          (∀ q ∈ s.warps, q.1 < 32 * s.nextId) → x.desc.kern.warpList.length ≤ 32 → x.desc.wires.Nodup →
          ∃ t y, exec (.coresidentPlace l) s = .next t ∧ t.launch? l = some y ∧ y.placed = true ∧ t.mem = s.mem ∧ t.queues = s.queues
            ∧ (∀ k r, k < x.desc.clusters → r < x.desc.csize → ∃ ck, Placed t l k r ck x.desc ∧ ck ∈ y.region)
            ∧ (∀ p ∈ x.pset, ∀ w ∈ x.desc.wires, kget? (t.pkg p).wires w = some l)
            ∧ ∀ j, j < s.nextId → kget? t.blocks j = kget? s.blocks j))
  ∧ ∀ (s : State) (l k : Nat), ∃ t, exec (.blockStart l k) s = .next t
      ∧ t = { s with blocks := t.blocks, warps := t.warps, cores := t.cores, copies := t.copies }
      ∧ (∀ bid b, kget? s.blocks bid = some b →
          kget? t.blocks bid = some (if b.launch = l ∧ b.cluster = k ∧ b.resident = false ∧ b.saved = false then { b with resident := true } else b))
      ∧ ∀ i w, s.warp? i = some w → ∃ w', t.warp? i = some w' ∧ w' = { w with epochClk := w'.epochClk, acqAt := w'.acqAt }
          ∧ ((∀ b, (w.block, b) ∈ s.blocks → b.resident = true) → w' = w))

/-- 10 R273 to R276: blocks retire, and the nodes of their paths drain. Constructors: blockRetire, nodeDrain. -/
def Obligations.BlocksRetire : Prop :=
  -- 10 R273, R274, 11 R284: BLOCK_RETIRE, in the first clk in which every warp has ended, every engine command has joined and every write has been
  -- acknowledged at RSCOPE: the block and its warps are gone, the L1 slices that held its stores keep no dirty untracked byte of its address space, and no
  -- copy when the last block of a fused cluster retires; its record is merged into that of every node of its path, its core is excused from its site's
  -- barriers, and every node whose count of blocks has come to zero is to drain.
  (∀ (s : State) (bid : Nat) (b : Block) (x : Launch), s.block? bid = some b → Unique s.blocks → s.launch? b.launch = some x → b.resident = true →
    (∀ w ∈ s.warpsOf bid, (s.warpD w).ended = true) → (∀ q ∈ s.works, q.2.block ≠ bid) → (∀ q ∈ s.posts, q.2.wid ∉ s.warpsOf bid) →
    (∀ q ∈ s.reqs, q.2.wid ∈ s.warpsOf bid → if q.2.isPosted = true then q.2.completeAt x.desc.rscope = true
      else q.2.kind = .atom → q.2.unmade = false ∨ q.2.stuck = true) →
      let k := x.desc.kern
      let last := ∀ q ∈ s.blocks, q.1 ≠ bid → q.2.launch = b.launch → q.2.cluster = b.cluster → q.2.saved = true
      ∃ t y, exec (.blockRetire bid) s = .next t ∧ kget? t.blocks bid = none ∧ (∀ k, k ≠ bid → kget? t.blocks k = kget? s.blocks k)
        ∧ (∀ q ∈ t.warps, q ∈ s.warps ∧ q.2.block ≠ bid) ∧ (∀ q ∈ s.warps, q.2.block ≠ bid → q ∈ t.warps)
        ∧ (∀ q ∈ t.reqs, q.2.wid ∉ s.warpsOf bid) ∧ t.queues = s.queues
        ∧ t.launch? b.launch = some y ∧ y = { x with rrec := y.rrec, excused := y.excused, drains := y.drains }
        ∧ (∀ n ∈ b.path, let a := kgetD x.rrec n FailRec.empty
            let r := kgetD y.rrec n FailRec.empty
            r.causes = (a.causes ||| b.rrec.causes ||| if b.aborted then 128 else 0) ∧ r.count = min 65535 (a.count + b.rrec.count)
              ∧ (a.has = true → r.pkg = a.pkg ∧ r.die = a.die) ∧ (a.has = false → r.pkg = b.rrec.pkg ∧ r.die = b.rrec.die))
        ∧ (∀ n, n ∉ b.path → kgetD y.rrec n FailRec.empty = kgetD x.rrec n FailRec.empty)
        ∧ (∀ n, n ∈ y.drains ↔ n ∈ x.drains ∨ n ∈ b.path ∧ t.nodeCount b.launch n = 0)
        ∧ ((∀ c ∈ s.copies, c.2.place ∈ b.l1s k → c.2.asid = x.asid → c.2.tracked = true ∨ c.2.dirty = []) → t.mem = s.mem)
        ∧ (∀ c ∈ t.copies, c.2.place ∈ b.l1s k → c.2.asid = x.asid → (c.2.tracked = true ∨ c.2.dirty = []) ∧ ¬(k.fuse = true ∧ last))
        ∧ (1 < x.desc.csize → t.isExcused b.ck 16 = true))
  ∧
  -- 10 R274, R275, 15 R358, R363: NODE_DRAIN raises the event of a node whose level is enabled: a signal of the die's firmware, with the node, the launch
  -- and the merged record, for a core or die; a record of KIND 1 or 2 for a package or tray; the rack's drain completes the launch with KIND 3 and the
  -- merged record, whether its level is enabled or not.
  (∀ (s : State) (l node : Nat) (x : Launch), s.launch? l = some x → node ∈ x.drains →
    let r := kgetD x.rrec node FailRec.empty
    let body := r.causes.toNat + 2 ^ 8 * r.count + 2 ^ 24 * r.pkg + 2 ^ 33 * r.die
    let drained (t : State) : Prop := t.launch? l = some { x with drains := x.drains.filter (· != node) } ∧ ∀ k, k ≠ l → t.launch? k = s.launch? k
    (node = 0 → Unique s.launches → (∀ q ∈ s.queues, ∀ p ∈ q.2.active, p.opc ≠ 8 ∧ p.opc ≠ 9) →
      let status := if x.badImage then 3 else if x.aborted then 1 else 0
      ∃ t, exec (.nodeDrain l node) s = .next t ∧ t.launch? l = none ∧ (∀ k, k ≠ l → t.launch? k = s.launch? k) ∧ t.blocks = s.blocks
        ∧ (x.packet = none → x.desc.irq = false → EventAppended s t x.queue 3 status x.tag l 0 body)
        ∧ (x.packet = none → x.desc.irq = true → t.mem = s.mem ∧ t.queues = s.queues
            ∧ t.fe.irqs = s.fe.irqs ++ [((s.queueD x.queue).ivec, (s.queueD x.queue).itgt)])
        ∧ (∀ i, x.packet = some i → (s.queueD x.queue).active.any (fun p => p.idx == i) = true →
            ∀ p ∈ (t.queueD x.queue).active, p.idx ≠ i)
        ∧ (∀ key buf a, x.firing = some (key, buf) → kget? s.armed key = some a → ∃ a', kget? t.armed key = some a' ∧ buf ∉ a'.busy
            ∧ a' = { a with busy := a'.busy }))
    ∧ (∀ kind n level, (1000 ≤ node ∧ node < 2000 ∧ kind = 2 ∧ n = node - 1000 ∧ level = 3
          ∨ 2000 ≤ node ∧ node < 10000 ∧ kind = 1 ∧ n = node - 2000 ∧ level = 2) →
        (x.desc.even.getLsbD level = true → x.desc.irq = false → ∃ t, exec (.nodeDrain l node) s = .next t ∧ drained t
          ∧ EventAppended s t x.queue kind 0 x.tag l n body)
        ∧ (x.desc.even.getLsbD level = false → ∃ t, exec (.nodeDrain l node) s = .next t ∧ drained t ∧ t = { s with launches := t.launches }))
    ∧ (∀ dk bit level, (10000 ≤ node ∧ node < 200000 ∧ dk = node - 10000 ∧ bit = 1 ∧ level = 1
          ∨ 200000 ≤ node ∧ dk = (node - 200000) / 48 ∧ bit = 0 ∧ level = 0) →
        (x.desc.even.getLsbD level = true → ∃ t, exec (.nodeDrain l node) s = .next t ∧ drained t ∧ t = { s with launches := t.launches, dies := t.dies }
          ∧ Signalled t dk bit ∧ (t.die dk).drains = (s.die dk).drains ++ [(node, l, r)])
        ∧ (x.desc.even.getLsbD level = false → ∃ t, exec (.nodeDrain l node) s = .next t ∧ drained t ∧ t = { s with launches := t.launches })))

/-- 09 R250 to R253, 10 R270 to R272, 15 R368, R370: warps halt and are captured; clusters are saved and restored. Constructors: haltRequestArrival,
checkpointBudgetExpiry, warpCapture, haltComplete, saveComplete, clusterRestore. -/
def Obligations.ClustersSaved : Prop :=
  -- 09 R250, R251, R252, R253, 15 R368: HALT_REQUEST_ARRIVAL halts, in every warp of the launch on the core, the splits that wait, are dormant or belong
  -- to a stopped warp, with the whole allocation; the others go on to a checkpoint. CHECKPOINT_BUDGET_EXPIRY, 4,800 clk later, halts them all, and the
  -- whole context is saved. WARP_CAPTURE makes a warp absent once the halt on its core is complete; its splits are kept as they stand.
  ((∀ (s : State) (l pkg die core : Nat), (s.launchD l).halting = true ∨ (s.die (128 * pkg + die)).update.isSome = true → Unique s.warps →
      let chosen (k : Nat) (w : Warp) : Prop := s.warp? k = some w ∧ w.ended = false ∧ w.haltH = 0 ∧ (s.blockD w.block).launch = l
        ∧ (s.blockD w.block).ck = 48 * (128 * pkg + die) + core ∧ (s.blockD w.block).resident = true
      ∃ t, exec (.haltRequestArrival l pkg die core) s = .next t ∧ t = { s with warps := t.warps }
        ∧ (∀ k w, s.warp? k = some w → ¬chosen k w → t.warp? k = some w)
        ∧ ∀ k w, chosen k w → ∃ w', t.warp? k = some w' ∧ w' = { w with table := w'.table, haltH := s.clk + 1, whole := w'.whole }
            ∧ (w'.whole = true ↔ w.whole = true ∨ ∃ q ∈ w.table, HaltsAtOnce w q.2)
            ∧ ∀ n p, kget? w.table n = some p → ∃ p', kget? w'.table n = some p' ∧ p' = { p with halted := p'.halted }
                ∧ (p'.halted = true ↔ p.halted = true ∨ HaltsAtOnce w p))
  ∧ (∀ (s : State) (wid : Nat) (w : Warp), s.warp? wid = some w → w.haltH ≠ 0 → w.captured = false →
      (w.haltH - 1 + 4800 ≤ s.clk → (∃ q ∈ w.table, q.2.halted = false) →
        ∃ t w', exec (.checkpointBudgetExpiry wid) s = .next t ∧ t = { s with warps := t.warps } ∧ (∀ k, k ≠ wid → t.warp? k = s.warp? k)
          ∧ t.warp? wid = some w' ∧ w' = { w with whole := true, table := w'.table }
          ∧ ∀ n, kget? w'.table n = (kget? w.table n).map fun p => { p with halted := true })
      ∧ (w.ended = false → (s.blockD w.block).resident = true → s.haltDone (s.blockD w.block).launch (s.blockD w.block).ck = true →
          (∀ q ∈ w.table, q.2.eff ≠ .spanPark) → Unique w.table →
          ∃ t w', exec (.warpCapture wid) s = .next t ∧ t = { s with warps := t.warps, works := t.works } ∧ (∀ k, k ≠ wid → t.warp? k = s.warp? k)
            ∧ t.warp? wid = some w' ∧ w' = { w with captured := true, moves := [], swapPend := false, movedAt := s.clk, table := w'.table }
            ∧ (∀ n, kget? w'.table n = (kget? w.table n).map fun p => { p with moving := false })
            ∧ ∀ i e, kget? s.works i = some e → kget? t.works i = some
                (if e.block = w.block ∧ e.kind.isHod = true ∧ e.phase = .running then { e with phase := .forked } else e))))
  ∧
  -- 10 R270, R272, 15 R363, R368, R370: HALT_COMPLETE posts KIND 4 once every warp of the chosen launches is captured. SAVE_COMPLETE takes the clusters
  -- with a captured warp from their sites once nothing of theirs is under way, posts KIND 5 with the numbers of clusters saved and pending, and completes
  -- the packet. CLUSTER_RESTORE brings every block of a saved cluster to the core of its rank at a free site, with the registers of its warps.
  ((∀ (s : State) (n : Nat) (x : Packet), s.packetOf n 8 = some x →
      let q := n % 4096
      (x.step = 0 → (∀ k ∈ s.haltWarps x, (s.warpD k).captured = true) →
        ∃ t u l, exec (.haltComplete n) s = .next t ∧ u = { s with queues := u.queues }
          ∧ u.queues = kmod s.queues q (fun y => { y with active := y.active.map fun p => if p.idx = x.idx then { p with step := 4 } else p })
          ∧ EventAppended u t q 4 0 x.tag l 0 0 ∧ (x.w1.extractLsb' 0 2 = 0 → l = (x.w2.extractLsb' 0 16).toNat) ∧ t.warps = s.warps ∧ t.blocks = s.blocks)
      ∧ (∀ l y, x.step = 4 → x.launches = [l] → s.launch? l = some y → y.halting = true → s.saveReady l = true → (∀ p ∈ (s.queueD q).active, p.idx = x.idx → p.evt = false) →
          (∀ z ∈ s.queues, ∀ p ∈ z.2.active, p.opc ≠ 9) → Unique s.blocks →
          ∃ t u v name y', exec (.saveComplete n) s = .next t ∧ u.queues = s.queues ∧ u.fe = s.fe ∧ u.drvAsid = s.drvAsid
            ∧ EventAppended u v q 5 0 x.tag name 0 (2 ^ 32 * (s.halted l).length + 2 ^ 64 * y.pending)
            ∧ (x.w1.extractLsb' 0 2 = 0 → name = (x.w2.extractLsb' 0 16).toNat)
            ∧ t.mem = v.mem ∧ t.queues = kmod v.queues q (fun z => { z with active := z.active.filter fun p => p.idx != x.idx })
            ∧ t.launch? l = some y' ∧ y'.halting = false ∧ y'.saved = true ∧ y'.pend = y.pend
            ∧ (∀ bid b, kget? s.blocks bid = some b → kget? t.blocks bid = some
                (if s.toSave l (bid, b) = true then { b with resident := false, saved := true } else b))
            ∧ t.warps = s.warps))
  ∧ ∀ (s : State) (l k : Nat) (x : Launch), s.launch? l = some x → Dealing x → x.desc.cores = false → x.answers = [] → s.fes = [] → Unique s.blocks → Unique s.warps →
      (∃ b ∈ s.blocks, b.2.launch = l ∧ b.2.cluster = k ∧ b.2.saved = true) → (State.moveClusters l [k] s).isSome = true →
      let mine (b : Block) : Prop := b.launch = l ∧ b.cluster = k ∧ b.saved = true
      (∀ i w, s.warp? i = some w → mine (s.blockD w.block) → (w.captured = true ∨ w.table = []) ∧ ∀ q ∈ w.table, q.2.st = .ready ∧ q.2.len = 0) →
      (∀ b ∈ s.blocks, b.2.launch = l → b.2.cluster = k → b.2.resident = true → mine b.2) →
        ∃ t dk o, exec (.clusterRestore l k) s = .next t
          ∧ (∀ bid b, kget? s.blocks bid = some b → mine b → ∃ b', kget? t.blocks bid = some b' ∧ b'.resident = true ∧ b'.saved = false
              ∧ b'.ck = 48 * dk + siteCore x.desc.kern.shape o b.rank
              ∧ b' = { b with pkg := b'.pkg, die := b'.die, core := b'.core, bank := b'.bank, saved := false, resident := true })
          ∧ (∀ i w, s.warp? i = some w → ¬mine (s.blockD w.block) → t.warp? i = some w)
          ∧ ∀ i w, s.warp? i = some w → mine (s.blockD w.block) → w.captured = true → ∃ w', t.warp? i = some w' ∧ w'.captured = false ∧ w'.haltH = 0
              ∧ w'.m = w.m ∧ w'.seed = w.seed ∧ w'.fstat = w.fstat ∧ w'.pfr = w.pfr ∧ w'.locks = w.locks ∧ w'.epoch = w.epoch
              ∧ (w.whole = true ∨ w.ckpts = [] → w'.sc = w.sc ∧ w'.v = w.v ∧ w'.tags = w.tags)
              ∧ (∀ n p, kget? w.table n = some p → ∃ p', kget? w'.table n = some p' ∧ p'.st = .ready ∧ p'.halted = false ∧ p'.pc = p.pc ∧ p'.lmask = p.lmask
                  ∧ p'.jgrp = p.jgrp ∧ p'.jpc = p.jpc ∧ s.clk ≤ p'.notBefore))

/-- 15 R355 to R357, R359, 16 R390, 17 R409: QCTL and the registers of queues, driver and attestation. Constructors: qctlCreate, qctlStop, qctlRestart,
qctlDestroy, qtail, registerWrite. -/
def Obligations.QueuesControlled : Prop :=
  -- 15 R355, R357, R359: QCTL makes a queue from its descriptor, or stops, restarts or destroys one, and completes. A restart takes a STOPPED queue to RUN
  -- and with skip moves QHEAD past the refused packet.
  (∀ (s : State) (q : Nat) (x : Queue) (h : Head), HeadReady s q x h 11 →
    let p := packetAt x h s.clk
    let b := begun s q x h
    let k := (p.w1.extractLsb' 0 12).toNat
    let op := (p.w2.extractLsb' 0 2).toNat
    (∀ y, op = 0 → k ≠ q → h.qdesc = some y → ∃ t u z, exec (.qctlCreate q) s = .next t ∧ u = { b with queues := u.queues }
      ∧ (∀ j, j ≠ k → kget? u.queues j = kget? b.queues j) ∧ kget? u.queues k = some z ∧ Finished u t q p
      ∧ z.qstate = 1 ∧ z.ring.toNat = bitsOf y 0 64 ∧ z.rlog = bitsOf y 64 5 ∧ z.prio = bitsOf y 69 3 ∧ (z.kq = true ↔ bitsOf y 72 1 = 1) ∧ z.asid = bitsOf y 80 16
      ∧ z.opmask.toNat = bitsOf y 96 16 ∧ z.ivec = bitsOf y 112 12 ∧ z.itgt = bitsOf y 124 2 ∧ z.exq.toNat = bitsOf y 128 64 ∧ z.xlog = bitsOf y 192 5
      ∧ z.evr.toNat = bitsOf y 256 64 ∧ z.elog = bitsOf y 320 5 ∧ z.ranges.length = bitsOf y 448 3 + 1
      ∧ z.qhead = 0 ∧ z.qcause = 0 ∧ z.xprod = 0 ∧ z.xcons = 0 ∧ z.eprod = 0 ∧ z.econs = 0 ∧ z.eovf = 0 ∧ z.active = [] ∧ z.waiting = [])
    ∧ (op = 1 → ∃ t, exec (.qctlStop q) s = .next t
        ∧ Finished { b with queues := kmod b.queues k fun z => { z with qstate := 2, head := none } } t q p)
    ∧ (op = 2 → ∃ t, exec (.qctlRestart q) s = .next t ∧ Finished { b with queues := kmod b.queues k fun z =>
          if z.qstate = 2 then { z with qstate := 1, head := none, qhead := if p.w2.getLsbD 2 = true then (z.qhead + 1) % 2 ^ z.rlog else z.qhead } else z } t q p)
    ∧ (op = 3 → ∃ t, exec (.qctlDestroy q) s = .next t
        ∧ Finished { b with queues := kmod b.queues k fun z => { z with qstate := 0, head := none } } t q p))
  ∧
  -- 00 R9, 15 R356, 16 R390, 17 R409: a read of a queue's register gives its field, or zero where it is write only; a write to a register of a queue or of
  -- the driver sets its field; QTAIL is taken modulo the ring, EOVF is cleared by writing ones, LOCKTO is copied to every package; the nonce and the
  -- address of an attestation are those of the package written.
  (∀ (s : State) (v : Nat),
    (∀ q x, kget? s.queues q = some x → q < 4096 →
      exec (.qtail q v) s = .next { s with queues := kmod s.queues q fun x => { x with qtail := v % 2 ^ 21 % 2 ^ x.rlog } }
      ∧ ∀ f g, s.fe.primary < 512 → (f, g) ∈ [(0x24, fun (x : Queue) => { x with xcons := v % 2 ^ 32 }), (0x2C, fun x => { x with econs := v % 2 ^ 32 }),
            (0x30, fun x => { x with eovf := x.eovf - (x.eovf &&& v) })] →
          exec (.registerWrite (2 ^ 32 * s.fe.primary + 0x01000000 + 64 * q + f) v) s = .next { s with queues := kmod s.queues q g })
    ∧ (∀ q x, kget? s.queues q = some x → q < 4096 → s.fe.primary < 512 →
        let read (o n : Nat) : Nat := s.readRegister (2 ^ 32 * s.fe.primary + 0x01000000 + 64 * q + o) n
        read 0x00 4 = 0 ∧ read 0x18 8 = 0 ∧ read 0x08 4 = x.qhead % 2 ^ 21 ∧ read 0x10 1 = x.qstate % 4 ∧ read 0x11 1 = x.qcause % 2 ^ 8
          ∧ read 0x20 4 = x.xprod % 2 ^ 32 ∧ read 0x24 4 = x.xcons % 2 ^ 32 ∧ read 0x28 4 = x.eprod % 2 ^ 32 ∧ read 0x2C 4 = x.econs % 2 ^ 32
          ∧ read 0x30 4 = x.eovf % 2 ^ 32)
    ∧ (s.fe.primary < 512 →
        let at_ (o : Nat) : Instr := .registerWrite (2 ^ 32 * s.fe.primary + 0x00F00000 + o) v
        exec (at_ 0) s = .next { s with fe := { s.fe with fqbase := BitVec.ofNat 64 v } }
        ∧ exec (at_ 8) s = .next { s with fe := { s.fe with fqlog := v % 32 } }
        ∧ (s.fe.fqHeld = [] → exec (at_ 0x14) s = .next { s with fe := { s.fe with fqcons := v % 2 ^ 32 } })
        ∧ (∀ r, s.fe.fqHeld = [r] → (s.fe.fqprod + 2 ^ 32 - v % 2 ^ 32) % 2 ^ 32 < 2 ^ s.fe.fqlog →
            ∃ t u, exec (at_ 0x14) s = .next t ∧ u = { s with fe := { s.fe with fqcons := v % 2 ^ 32, fqHeld := [] } }
              ∧ t = { u with mem := t.mem, copies := t.copies, fe := t.fe } ∧ FqPosted u t r)
        ∧ ∃ t, exec (at_ 0x30) s = .next t ∧ t = { s with fe := t.fe, pkgs := t.pkgs } ∧ t.fe = { s.fe with lockto := v % 2 ^ 32 }
            ∧ ∀ k, k < 512 → t.pkg k = { s.pkg k with lockto := v % 2 ^ 32 })
    ∧ ∀ k, k < 512 →
        (∃ t, exec (.registerWrite (2 ^ 32 * k + 0x02041040) v) s = .next t ∧ t = { s with pkgs := t.pkgs } ∧ t.pkg k = { s.pkg k with abuf := BitVec.ofNat 64 v }
          ∧ ∀ j, j ≠ k → t.pkg j = s.pkg j)
        ∧ ∀ i, i < 8 → ∃ t, exec (.registerWrite (2 ^ 32 * k + 0x02041000 + 8 * i) v) s = .next t ∧ t = { s with pkgs := t.pkgs }
            ∧ (∀ j, j ≠ k → t.pkg j = s.pkg j) ∧ t.pkg k = { s.pkg k with nonce := (t.pkg k).nonce }
            ∧ ∀ n, kget? (t.pkg k).nonce n = if 8 * i ≤ n ∧ n < 8 * i + 8 then some (BitVec.ofNat 8 (v / 2 ^ (8 * (n - 8 * i)) % 256)) else kget? (s.pkg k).nonce n)

/-- 10 R264, 15 R357, R364, R365, R368 to R370: launches start, are held and go on. Constructors: launch, preempt, resume. -/
def Obligations.LaunchesStart : Prop :=
  -- 10 R264, 15 R357, R364, R365, R369: a LAUNCH starts its launch, and stays until the launch completes; one that a kind-0 halt waits for is held: its
  -- queue enters HELD with the packet unstarted and KIND 4 with STATUS HELD is posted.
  (∀ (s : State) (q : Nat) (x : Queue) (h : Head) (d : LaunchDesc), HeadReady s q x h 1 → h.desc = some d →
    let p := packetAt x h s.clk
    (x.heldNext = none → d.cores = false → ∃ t, exec (.launch q) s = .next t ∧ Started (begun s q x h) t q x.asid p.tag d (some p.idx) none
      ∧ t.queues = (begun s q x h).queues ∧ t.mem = s.mem ∧ t.warps = s.warps ∧ t.blocks = s.blocks ∧ t.fe.startedL = s.clk + 1)
    ∧ ∀ k tag l, x.heldNext = some (k, tag, l) → ∃ t u, exec (.launch q) s = .next t
        ∧ u = { s with queues := kmod s.queues q fun x => { x with qstate := 3, heldNext := none } }
        ∧ EventAppended u t k 4 4 tag l 0 0 ∧ t.launches = s.launches ∧ t.fe = s.fe)
  ∧
  -- 15 R368, R369, R370: PREEMPT halts the launches that it names by id, by queue or all of them, and holds the queues of kinds 1 and 2; one that names no
  -- launch in flight completes. RESUME checks the images of the saved launches, of which a refused one aborts its launch with BADIMAGE, and returns the
  -- queues to RUN.
  (∀ (s : State) (q opc : Nat) (x : Queue) (h : Head), HeadReady s q x h opc → Unique s.launches → Unique s.queues →
    let p := packetAt x h s.clk
    let b := begun s q x h
    let kind := (p.w1.extractLsb' 0 2).toNat
    let concerned (i : Nat) : Prop := kind = 1 ∧ p.w2.toNat = i ∨ kind = 2 ∧ i ≠ q
    let named (l : Nat) (y : Launch) : Prop := s.launch? l = some y ∧ (kind = 0 → l = p.w2.toNat) ∧ (kind = 1 → y.queue = p.w2.toNat)
    let chosen (l : Nat) (y : Launch) : Prop := named l y ∧ y.aborted = false ∧ y.halting = false ∧ y.saved = false
    (opc = 8 → (kind = 0 → ∃ l y, chosen l y) →
      ∃ t z ls, exec (.preempt q) s = .next t ∧ t = { b with launches := t.launches, queues := t.queues }
        ∧ (∀ l y, chosen l y → t.launch? l = some { y with halting := true }) ∧ (∀ l y, s.launch? l = some y → ¬chosen l y → t.launch? l = some y)
        ∧ kget? t.queues q = some z ∧ z.active = x.active ++ [{ p with launches := ls }] ∧ (∀ l, l ∈ ls ↔ ∃ y, chosen l y)
        ∧ (∀ i y, kget? s.queues i = some y → i ≠ q → concerned i → y.qstate = 1 ∨ y.qstate = 2 → kget? t.queues i = some { y with qstate := 3 })
        ∧ (∀ i y, kget? s.queues i = some y → i ≠ q → (¬concerned i ∨ y.qstate ≠ 1 ∧ y.qstate ≠ 2) → kget? t.queues i = some y)
        ∧ (z.qstate = 3 ↔ concerned q))
    ∧ (opc = 8 → kind = 0 → (∀ l y, ¬chosen l y) → ∃ t, exec (.preempt q) s = .next t ∧ Finished b t q p)
    ∧ (opc = 9 → p.evt = false → (∀ l y, named l y → y.saved = false ∧ y.halting = false) → (∀ z ∈ s.queues, ∀ y ∈ z.2.active, y.opc ≠ 9) →
        ∃ t u v n, exec (.resume q) s = .next t ∧ u = { b with queues := u.queues }
          ∧ (∀ i y, kget? b.queues i = some y → kind = 1 ∧ p.w2.toNat = i ∨ kind = 2 → kget? u.queues i = some { y with qstate := if y.qstate = 3 then 1 else y.qstate, heldNext := none })
          ∧ (∀ i y, kget? b.queues i = some y → ¬(kind = 1 ∧ p.w2.toNat = i ∨ kind = 2) → kget? u.queues i = some y)
          ∧ EventAppended u v q 6 0 p.tag n 0 0 ∧ (kind = 0 → n = p.w2.toNat % 65536) ∧ t.launches = s.launches ∧ t.mem = v.mem
          ∧ t.queues = kmod v.queues q fun y => { y with active := y.active.filter fun y => y.idx != p.idx })
    ∧ ∀ l y, opc = 9 → kind = 0 → named l y → y.saved = true → y.aborted = false → (∀ z ∈ s.queues, ∀ y ∈ z.2.active, y.opc ≠ 9) →
        (State.loadImages l (b.savedClusters l) b = none →
          ∃ t y', exec (.resume q) s = .next t ∧ t.launch? l = some y' ∧ y'.badImage = true ∧ y'.aborted = true ∧ y'.images = [] ∧ y'.pend = [])
        ∧ ∀ u bid c, State.loadImages l (b.savedClusters l) b = some u → kget? u.blocks bid = some c → c.launch = l → c.saved = true →
            ∃ t y' z, exec (.resume q) s = .next t ∧ t = { u with launches := t.launches, queues := t.queues } ∧ u.launch? l = some y'
              ∧ t.launch? l = some { y' with saved := false } ∧ kget? t.queues q = some z ∧ z.active = x.active ++ [{ p with launches := [l] }])

/-- 17 R406 to R409: counters, power states and attestation reports. Constructors: clear, pstate, powerCapDown, powerCapRestore, attestRequest,
attestComplete. -/
def Obligations.PowerAndReports : Prop :=
  -- 17 R406, R407, R408: CLEAR zeroes the counters that it names. PSTATE enters PS1 and PS2 at once, PS3 only with no launch in flight, and PS4 turns the
  -- package off; the way out to PS0 takes 1,200 clk, from PS3 120,000. After two averages above the cap the limits of the next state down apply, after two
  -- below the requested state's cap the requested state returns.
  (∀ (s : State) (pkg v : Nat),
    let p := s.pkg pkg
    let flight := ∃ l ∈ s.launches, pkg ∈ l.2.pset
    let asked := { p with pstate := v, above := 0, below := 0, pExit := 0 }
    let sets (i : Instr) (p' : Pkg) : Prop := ∃ t, exec i s = .next t ∧ t = { s with pkgs := t.pkgs } ∧ t.pkg pkg = p' ∧ ∀ k, k ≠ pkg → t.pkg k = s.pkg k
    (∀ die, ∃ t, exec (.clear pkg die v) s = .next t ∧ t = { s with dies := t.dies } ∧ (∀ k, k ≠ 128 * pkg + die → t.die k = s.die k)
      ∧ t.die (128 * pkg + die) = { s.die (128 * pkg + die) with counters := (t.die (128 * pkg + die)).counters }
      ∧ ∀ n, kgetD (t.die (128 * pkg + die)).counters n 0 = if n < 25 ∧ v.testBit n = true then 0 else kgetD (s.die (128 * pkg + die)).counters n 0)
    ∧ (5 ≤ v → v < 8 → exec (.pstate pkg v) s = .next s)
    ∧ (v = 4 → sets (.pstate pkg v) { asked with pnow := 4, failed := true })
    ∧ (p.pnow ≠ 4 → v = 3 → (flight → sets (.pstate pkg v) asked) ∧ (¬flight → sets (.pstate pkg v) { asked with pnow := 3 }))
    ∧ (p.pnow ≤ 2 → v = 1 ∨ v = 2 → sets (.pstate pkg v) { asked with pnow := v })
    ∧ (v = 0 → p.pnow = 0 → sets (.pstate pkg v) asked) ∧ (v = 0 → p.pnow = 1 ∨ p.pnow = 2 → sets (.pstate pkg v) { asked with pExit := s.clk + 1200 })
    ∧ (v ≤ 2 → p.pnow = 3 → sets (.pstate pkg v) { asked with pExit := s.clk + 120000 })
    ∧ (2 ≤ p.above → (p.pnow < 2 ∨ p.pnow = 2 ∧ ¬flight) → sets (.powerCapDown pkg) { p with pnow := p.pnow + 1, above := 0, below := 0 })
    ∧ ((p.above < 2 ∨ p.pnow = 2 ∧ flight) → exec (.powerCapDown pkg) s = .next s)
    ∧ (2 ≤ p.below → p.pstate < p.pnow → sets (.powerCapRestore pkg) { p with pnow := p.pstate, above := 0, below := 0 })
    ∧ (p.below < 2 → exec (.powerCapRestore pkg) s = .next s))
  ∧
  -- 17 R409: a report begins when 1 is written to its start register. The 420 bytes written to its buffer are the format, package and tray, the nonce, the
  -- three hashes, the mask of dead dies, CLK and the signature over bytes 0 to 287; the bit of completion is then 1.
  (∀ (s : State) (pkg : Nat),
    (∀ v, v % 2 = 1 → ∃ t, exec (.attestRequest pkg v) s = .next t ∧ t = { s with pkgs := t.pkgs }
      ∧ t.pkg pkg = { s.pkg pkg with attest := true, attestDone := false } ∧ ∀ k, k ≠ pkg → t.pkg k = s.pkg k)
    ∧ (∀ v, v % 2 = 0 → exec (.attestRequest pkg v) s = .next s)
    ∧ ((s.pkg pkg).attest = true →
        let p := s.pkg pkg
        ∃ t l, exec (.attestComplete pkg) s = .next t ∧ t = { s with mem := t.mem, copies := t.copies, pkgs := t.pkgs }
          ∧ t.pkg pkg = { p with attest := false, attestDone := true } ∧ t.mem = (s.feWrite s.drvAsid p.abuf.toNat l).mem ∧ l.length = 420
          ∧ l.take 8 = natBytes (1 + 2 ^ 8 * pkg + 2 ^ 24 * (pkg / 2)) 8 ∧ (∀ i, i < 64 → l[8 + i]? = some (kgetD p.nonce i 0))
          ∧ (l.drop 72).take 64 = digest ((List.range 64).map (Config.imageHash 0))
          ∧ (∃ m : List Byte, (l.drop 136).take 64 = digest m ∧ m.length = 8192
              ∧ ∀ d i, d < 128 → i < 64 → m[64 * d + i]? = some (if (s.die (128 * pkg + d)).dead = true then 0 else Config.imageHash (d + 1) i))
          ∧ (l.drop 200).take 64 = digest (p.journal.flatMap fun e => natBytes e.toNat 16)
          ∧ (∃ m, (l.drop 264).take 16 = natBytes m 16 ∧ ∀ d, m.testBit d = (decide (d < 128) && (s.die (128 * pkg + d)).dead))
          ∧ (l.drop 280).take 8 = natBytes s.clk 8 ∧ ∀ i, i < 132 → l[288 + i]? = some (Config.signature (l.take 288) i)))

/-- 07 R180, R182, 11 R295, 17 R403, R406: flits are retried, and links die. Constructors: flitCrcFail, flitRetryTimer, linkDead. -/
def Obligations.LinksDie : Prop :=
  -- 17 R403, R406: a flit that fails its check is sent again and counted; its timer sends it again after 128 clk, at most 16 times, unless it has been
  -- acknowledged.
  (∀ (s : State) (link : Nat),
    let again (i : Instr) (n first : Nat) : Prop := ∃ t, exec i s = .next t ∧ t = { s with links := t.links, dies := t.dies }
      ∧ kget? t.links link = some ⟨n, s.clk, first⟩ ∧ (∀ k, k ≠ link → kget? t.links k = kget? s.links k)
      ∧ Counted s t (dieOfLink link) 4 ∧ ∀ k, k ≠ dieOfLink link → t.die k = s.die k
    (linkExists link = false → exec (.flitCrcFail link) s = .next s) ∧ (kget? s.links link = none → exec (.flitRetryTimer link) s = .next s)
    ∧ (linkExists link = true → kget? s.links link = none → again (.flitCrcFail link) 1 s.clk)
    ∧ ∀ x, kget? s.links link = some x →
        (linkExists link = true → x.retries < 16 → again (.flitCrcFail link) (x.retries + 1) x.first) ∧ (16 ≤ x.retries → exec (.flitCrcFail link) s = .next s)
        ∧ (s.clk < x.sent + 128 → exec (.flitRetryTimer link) s = .next s)
        ∧ (x.sent + 128 ≤ s.clk → Config.flitAck link x.sent = true → exec (.flitRetryTimer link) s = .next { s with links := kdel s.links link })
        ∧ (x.sent + 128 ≤ s.clk → Config.flitAck link x.sent = false → x.retries < 16 → again (.flitRetryTimer link) (x.retries + 1) x.first))
  ∧
  -- 07 R180, R182, 11 R295, 17 R403, R406: a link whose flit has not crossed it for 2,400 clk, or whose 16 retries have failed, is dead: counted and told
  -- to the die's firmware. A dead Elpor port takes its plane from its package's mask at once and is reported to the others; a store under way there fails
  -- with DLINK, a load takes PEERDEAD. Both ends of a die-to-die link mark it dead.
  (∀ (s : State) (link : Nat) (x : Link), kget? s.links link = some x →
    let lost := x.first + 2400 ≤ s.clk ∨ 16 ≤ x.retries ∧ x.sent + 128 ≤ s.clk ∧ Config.flitAck link x.sent = false
    let pkg := link % 512
    let plane := link / 512
    let dk := dieOfLink link
    let there (r : Req) : Prop := r.phase = .out ∧ r.tr = none ∧ x.first < r.arrive ∧ r.plane = plane ∧ ((s.siteOf r.wid).1 = pkg ∨ r.pkg = pkg)
    let dead (t : State) : Prop := t.links = kdel s.links link ∧ t.mem = s.mem ∧ Counted s t dk 5 ∧ Signalled t dk 5
      ∧ (t.pkg pkg).live = (s.pkg pkg).live &&& ~~~(1#128 <<< plane) ∧ (t.pkg pkg).deadPorts = (s.pkg pkg).deadPorts ++ [(plane, s.clk)]
      ∧ PlaneReported s t pkg plane false
    (¬lost → exec (.linkDead link) s = .next s)
    ∧ (lost → link < 2 ^ 16 → s.invals = [] → s.works = [] →
        ((∀ q ∈ s.reqs, ¬there q.2) → ∃ t, exec (.linkDead link) s = .next t ∧ t = { s with links := t.links, dies := t.dies, pkgs := t.pkgs } ∧ dead t)
        ∧ ∀ id r w, (id, r) ∈ s.reqs → there r → (∀ q ∈ s.reqs, there q.2 → q = (id, r)) → Unique s.reqs → s.warp? r.wid = some w → w.ended = false →
            (r.kind = .store → ∃ t, exec (.linkDead link) s = .next t ∧ dead t ∧ FailureAdded s t r.wid 1 r.pkg r.die ∧ t.reqs = kdel s.reqs id)
            ∧ ((r.kind = .load ∨ r.kind = .atom) → (∀ q ∈ w.table, q.2.eff ≠ .faulted) → ∃ t, exec (.linkDead link) s = .next t ∧ dead t ∧ t.warps = s.warps
                ∧ t.reqs = kmod s.reqs id fun r => { r with phase := .faulted, fault := fcPeerdead, info := BitVec.ofNat 64 r.pkg }))
    ∧ (lost → 2 ^ 20 ≤ link →
        let dir := (link - 2 ^ 20) % 4
        let peer := if dir = 0 then dk - 1 else if dir = 1 then dk + 1 else if dir = 2 then dk - 16 else dk + 16
        let back := if dir = 0 then 1 else if dir = 1 then 0 else if dir = 2 then 3 else 2
        ∃ t, exec (.linkDead link) s = .next t ∧ t = { s with links := kdel s.links link, dies := t.dies } ∧ Counted s t dk 5 ∧ Signalled t dk 5
          ∧ dir ∈ (t.die dk).deadLinks ∧ back ∈ (t.die peer).deadLinks))

/-- 11 R290, 12 R313, R314, 15 R362, 17 R402, R405, R406: units fail and soft errors are handled. Constructors: coreFail, dieHeartbeat, dieLost,
packageHeartbeat, packageDead, eccCorrectable, eccUncorrectable, lost. -/
def Obligations.UnitsFail : Prop :=
  -- 12 R314, 17 R402, R405, R406: a core, a die silent for 12,000 clk and a package silent for 12,000 clk are masked; every launch that holds a block
  -- there is aborted and every other goes on. The neighbours of a die and the primary's dies are told. With a package go its memory, its copies and its
  -- locks, whose waiters receive DEADHOME. A heartbeat puts the clk off.
  ((∀ (s : State) (pkg die core : Nat),
      let dk := 128 * pkg + die
      (∃ t, exec (.coreFail pkg die core) s = .next t ∧ (t.core (48 * dk + core)).dead = true ∧ (∀ n, n < 17 → t.isExcused (48 * dk + core) n = true) ∧ t.mem = s.mem ∧ AbortsWhere s t fun b => b.ck = 48 * dk + core)
      ∧ ((s.die dk).dead = false → ((s.die dk).beating = true → ∃ t, exec (.dieHeartbeat pkg die) s = .next t ∧ t = { s with dies := t.dies }
            ∧ t.die dk = { s.die dk with lastBeat := s.clk } ∧ ∀ k, k ≠ dk → t.die k = s.die k)
          ∧ (s.clk < (s.die dk).lastBeat + 12000 → exec (.dieLost pkg die) s = .next s)
          ∧ ((s.die dk).lastBeat + 12000 ≤ s.clk → ∃ t, exec (.dieLost pkg die) s = .next t ∧ (t.die dk).dead = true ∧ t.mem = s.mem
              ∧ (∀ d, d < 128 → meshHops d die = 1 → Signalled t (128 * pkg + d) 5) ∧ AbortsWhere s t fun b => b.dk = dk))
      ∧ ((s.pkg pkg).failed = false → ∃ t, exec (.packageHeartbeat pkg) s = .next t ∧ t = { s with pkgs := t.pkgs }
          ∧ t.pkg pkg = { s.pkg pkg with lastBeat := s.clk } ∧ ∀ k, k ≠ pkg → t.pkg k = s.pkg k))
  ∧ ∀ (s : State) (pkg : Nat), (s.pkg pkg).known = false → (s.pkg pkg).failed = true →
      (s.clk < (s.pkg pkg).lastBeat + 12000 → exec (.packageDead pkg) s = .next s)
      ∧ ((s.pkg pkg).lastBeat + 12000 ≤ s.clk → ∃ t, exec (.packageDead pkg) s = .next t ∧ (t.pkg pkg).known = true
          ∧ (AbortsWhere s t fun b => b.pkg = pkg) ∧ (∀ d, d < 128 → Signalled t (128 * s.fe.primary + d) 5)
          ∧ (∀ a, memGet t.mem a = if a / 2 ^ 36 / 128 = pkg then 0 else memGet s.mem a)
          ∧ (∀ q ∈ t.lockTab, q.1 / 2 ^ 73 / 128 ≠ pkg) ∧ (∀ q ∈ t.dirs, q.1 / 2 ^ 73 / 128 ≠ pkg)
          ∧ ((∀ b ∈ s.blocks, b.2.pkg ≠ pkg) → ∀ q ∈ s.lockTab, q.1 / 2 ^ 73 / 128 = pkg → ∀ w ∈ q.2.queue, Granted t w.key (q.1 % 2 ^ 73) 4 0)))
  ∧
  -- 11 R290, 12 R311, R313, R314, 15 R362, 17 R402, R406: a soft error is counted on its die. An uncorrectable one aborts the launch of the register or
  -- block, discards a clean copy and a TLB entry, poisons a dirty copy or a sector of memory, puts a directory entry in LOST, ends a lock's holder fatally
  -- and drops a waiter.
  (∀ (s : State) (pkg die : Nat),
    let dk := 128 * pkg + die
    let counted (t : State) (k n : Nat) : Prop := Counted s t k n ∧ ∀ j, j ≠ k → t.die j = s.die j
    (∃ t, exec (.eccCorrectable pkg die) s = .next t ∧ t = { s with dies := t.dies } ∧ counted t dk 2)
    ∧ (∀ wid w, s.warp? wid = some w → Unique s.warps → Unique s.blocks → Unique s.works → ∃ t u, exec (.eccUncorrectable (.register wid)) s = .next t
        ∧ u = { s with dies := u.dies } ∧ counted u (s.blockD w.block).dk 3 ∧ Aborts u t (s.blockD w.block).launch)
    ∧ (∀ bid b, kget? s.blocks bid = some b → Unique s.warps → Unique s.blocks → Unique s.works → ∃ t u, exec (.eccUncorrectable (.localStore bid)) s = .next t
        ∧ u = { s with dies := u.dies } ∧ counted u b.dk 3 ∧ Aborts u t b.launch)
    ∧ (∀ k c, kget? s.copies k = some c → (∀ o ∈ c.dirty, o < 512) → ∃ t, exec (.eccUncorrectable (.copy k)) s = .next t ∧ t = { s with dies := t.dies, copies := t.copies }
        ∧ (∀ j, j ≠ k → kget? t.copies j = kget? s.copies j) ∧ (c.dirty = [] → t.copies = kdel s.copies k)
        ∧ (c.dirty ≠ [] → ∃ c', kget? t.copies k = some c' ∧ c' = { c with valid := c'.valid, poison := c'.poison }
            ∧ ∀ n, n < 16 → (c'.poison.getLsbD n = true ↔ c.poison.getLsbD n = true ∨ ∃ o ∈ c.dirty, o / 32 = n)
                ∧ (c'.valid.getLsbD n = true ↔ c.valid.getLsbD n = true ∧ ∃ o ∈ c.dirty, o / 32 = n)))
    ∧ (∀ sector, sector < 2 ^ 31 → ∃ t, exec (.eccUncorrectable (.hbm pkg die sector)) s = .next t ∧ t = { s with dies := t.dies, memPoison := t.memPoison }
        ∧ counted t dk 3 ∧ ∀ n, n ∈ t.memPoison ↔ n = dk * 2 ^ 31 + sector ∨ n ∈ s.memPoison)
    ∧ (∀ key, ∃ t, exec (.eccUncorrectable (.tlb pkg die key)) s = .next t ∧ t = { s with dies := t.dies } ∧ Counted s t dk 3
        ∧ (t.die dk).tlb = kdel (s.die dk).tlb key)
    ∧ ∀ line, line < 2 ^ 73 →
        (∃ u, u = { s with dies := u.dies } ∧ counted u dk 3 ∧ exec (.eccUncorrectable (.directory pkg die line)) s = exec (.lost pkg die line) u)
        ∧ (∀ e key, s.lockEntry dk line = e → e.holder.isSome = true → ∃ t, exec (.eccUncorrectable (.lockWaiter pkg die line key)) s = .next t
            ∧ t = { s with dies := t.dies, lockTab := t.lockTab } ∧ counted t dk 3
            ∧ t.lockEntry dk line = { e with queue := e.queue.filter fun w => w.key != key })
        ∧ ∀ e, s.lockEntry dk line = e → e.holder.isSome = true → ∃ t e', exec (.eccUncorrectable (.lockHolder pkg die line)) s = .next t ∧ counted t dk 3
            ∧ t.lockEntry dk line = e' ∧ (e.queue = [] → e'.holder = none ∧ e'.broken = true ∧ e'.queue = [])
            ∧ ∀ w rest, e.queue = w :: rest → w.present = true → HeldBy e e' w.key w.pkg w.die w.core rest ∧ Granted t w.key line 1 0)

/-- 16 R376, R389, R394 to R397: dies start and are updated; the standby takes over. Constructors: bootStart, journalClear, dieUpdate, hostHeartbeat,
streamRecord, takeover. -/
def Obligations.DiesStart : Prop :=
  -- 16 R376, R394, R395, R396: a start of a die whose journal has no failed entry appends one entry for each step, clears the stack's tag region and joins
  -- the package; a failed self-test leaves it dark, the second time for good. An update takes the die out of service, one at a time, and with nothing
  -- resident starts it from the other bank; a bad image returns it to the old one. JOURNAL_CLEAR removes the die's entries.
  (∀ (s : State) (pkg die : Nat), die < 128 →
    let dk := 128 * pkg + die
    let p := s.pkg pkg
    let d := s.die dk
    let mine (e : BitVec 128) : Prop := (e.extractLsb' 8 8).toNat = die
    let entry (step outcome n : Nat) : BitVec 128 := BitVec.ofNat 128 (step + 2 ^ 8 * die + 2 ^ 16 * outcome + 2 ^ 24 * (n % 256) + 2 ^ 64 * s.clk)
    let tries (step : Nat) : Nat := (p.journal.filter fun e => e.toNat % 256 == step && e.toNat / 256 % 256 == die).length + 1
    let fresh := (∀ e ∈ p.journal, mine e → (e.extractLsb' 16 8).toNat ≠ 1) ∧ die ∉ p.darkForGood ∧ p.failed = false
    let speaks (v : Nat × Nat) : Prop := v.1 ≤ p.pver ∧ p.pver ≤ v.2
    (fresh → d.dead = false → d.cleared = false → d.banks.1 ≤ 1 → speaks (if d.banks.1 = 0 then d.banks.2.1 else d.banks.2.2) →
      ∃ t, exec (.bootStart pkg die []) s = .next t ∧ t = { s with pkgs := t.pkgs, dies := t.dies, mem := t.mem }
        ∧ t.pkg pkg = { p with journal := p.journal ++ (List.range 7).map fun k => entry k 0 (tries k) }
        ∧ t.die dk = { d with beating := true, lastBeat := s.clk, joined := true }
        ∧ ∀ a, memGet t.mem a = if a / 2 ^ 36 = dk ∧ 0xFC0000 * 4096 ≤ a % 2 ^ 36 then 0 else memGet s.mem a)
    ∧ (die ∉ p.darkForGood → p.failed = false → ∃ t u, exec (.bootStart pkg die [0]) s = .next t
        ∧ (t.die dk).dead = true ∧ (t.die dk).beating = false ∧ (t.pkg pkg).journal = p.journal ++ [entry 0 1 (tries 0)]
        ∧ u.fe = s.fe ∧ u.drvAsid = s.drvAsid ∧ u.mem = s.mem ∧ FqPosted u t [fqWord [(0, 21), (8, 0xFFF), (28, die), (35, 1)], 0, 0, 0]
        ∧ ((∃ e ∈ p.journal, mine e ∧ (e.extractLsb' 0 8).toNat = 0 ∧ (e.extractLsb' 16 8).toNat = 1) → die ∈ (t.pkg pkg).darkForGood))
    ∧ (die ∈ p.darkForGood → p.failed = false → ∀ l, exec (.bootStart pkg die l) s = .next s)
    ∧ (∃ t, exec (.journalClear pkg die) s = .next t ∧ t = { s with pkgs := t.pkgs, dies := t.dies } ∧ t.die dk = { d with cleared := true }
        ∧ (∀ e, e ∈ (t.pkg pkg).journal ↔ e ∈ p.journal ∧ ¬mine e) ∧ ∀ k, k ∈ (t.pkg pkg).darkForGood ↔ k ∈ p.darkForGood ∧ k ≠ die)
    ∧ ∀ pmin pmax good,
        (∀ k, k < 128 → k ≠ die → (s.die (128 * pkg + k)).update.isSome = true → exec (.dieUpdate pkg die pmin pmax good) s = .next s)
        ∧ ((∀ k, k < 128 → k ≠ die → (s.die (128 * pkg + k)).update = none) →
            (d.update = none →
              ∃ t, exec (.dieUpdate pkg die pmin pmax good) s = .next t ∧ t = { s with dies := t.dies } ∧ t.die dk = { d with update := some (pmin, pmax, good) }
                ∧ ∀ k, k ≠ dk → t.die k = s.die k)
            ∧ (d.update = some (pmin, pmax, good) → (∀ b ∈ s.blocks, b.2.dk = dk → b.2.resident = false) → fresh → d.dead = false → d.cleared = false →
                (d.banks.1 = 0 → speaks d.banks.2.1 ∧ speaks (pmin, pmax) →
                  ∃ t, exec (.dieUpdate pkg die pmin pmax good) s = .next t ∧ (t.die dk).update = none ∧ (t.die dk).joined = true
                    ∧ (t.die dk).banks = (if good = true then 1 else 0, d.banks.2.1, (pmin, pmax))
                    ∧ p.pver ≤ (t.pkg pkg).pver ∧ (good = false → entry 1 1 (tries 1) ∈ (t.pkg pkg).journal)))))
  ∧
  -- 16 R389, R397: the primary's heartbeat and stream put off its failure; the standby mirrors every queue's QTAIL and QHEAD. After 24,000 clk without
  -- either, once the primary has failed, the standby becomes primary, posts TAKEOVER and resumes every queue from its mirror.
  (∀ (s : State),
    let failed := (s.pkg s.fe.primary).failed
    (failed = false → exec .hostHeartbeat s = .next { s with fe := { s.fe with lastBeat := s.clk } })
    ∧ (failed = false → s.fe.standby.isSome = true → ∃ t, exec .streamRecord s = .next t ∧ t = { s with fe := t.fe }
        ∧ t.fe = { s.fe with mirror := t.fe.mirror, lastBeat := s.clk }
        ∧ ∀ q x, kget? s.queues q = some x → kget? t.fe.mirror q = some (x.qtail, if x.head.isSome = true then (x.qhead + 1) % 2 ^ x.rlog else x.qhead))
    ∧ ∀ p, s.fe.standby = some p →
        ((failed = false ∨ s.clk < s.fe.lastBeat + 24000) → exec .takeover s = .next s)
        ∧ (failed = true → s.fe.lastBeat + 24000 ≤ s.clk →
            ∃ t u, exec .takeover s = .next t ∧ u = { s with queues := u.queues, fe := { s.fe with primary := p, standby := none, lastBeat := s.clk } }
              ∧ (∀ q x, kget? s.queues q = some x →
                  kget? u.queues q = some { x with qtail := (kgetD s.fe.mirror q (x.qtail, 0)).1, head := none })
              ∧ t = { u with mem := t.mem, copies := t.copies, fe := t.fe }
              ∧ FqPosted u t [fqWord [(0, 20), (8, 0xFFF), (20, p)], BitVec.ofNat 64 s.clk, 0, 0]))
end

