-- ==== Sys2Proof/Laws/Map.lean ====
section
/-! SUPPORT. Laws of sparse maps: reading after an update. They hold of every list of pairs, rising keys or not. -/

set_option Elab.async false

namespace Sys2Proof.Laws

open Sys2Proof.Machine

variable {α : Type}

@[simp] theorem kget?_nil (i : Nat) : kget? ([] : KMap α) i = none := rfl

theorem kget?_kput (m : KMap α) (i j : Nat) (x : α) : kget? (kput m i x) j = if j = i then some x else kget? m j := by
  induction m with
  | nil => rfl
  | cons a r ih =>
    obtain ⟨k, v⟩ := a
    simp only [kput]
    split
    · rfl
    · split
      · subst_vars; simp only [kget?]; split <;> rfl
      · simp only [kget?, ih]
        by_cases h1 : j = k <;> by_cases h2 : j = i <;> simp_all

@[simp] theorem kget?_kput_self (m : KMap α) (i : Nat) (x : α) : kget? (kput m i x) i = some x := by
  simp [kget?_kput]

theorem kget?_kput_ne (m : KMap α) {i j : Nat} (x : α) (h : j ≠ i) : kget? (kput m i x) j = kget? m j := by
  simp [kget?_kput, h]

theorem kget?_kmod (m : KMap α) (i j : Nat) (f : α → α) :
    kget? (kmod m i f) j = if j = i then (kget? m i).map f else kget? m j := by
  induction m with
  | nil => simp [kmod, kget?]
  | cons a r ih =>
    obtain ⟨k, v⟩ := a
    simp only [kmod]
    split
    · subst_vars; simp only [kget?]; split <;> simp_all
    · simp only [kget?, ih]
      by_cases h1 : j = k <;> by_cases h2 : j = i <;> simp_all

@[simp] theorem kget?_kmod_self (m : KMap α) (i : Nat) (f : α → α) : kget? (kmod m i f) i = (kget? m i).map f := by
  simp [kget?_kmod]

theorem kget?_kmod_ne (m : KMap α) {i j : Nat} (f : α → α) (h : j ≠ i) : kget? (kmod m i f) j = kget? m j := by
  simp [kget?_kmod, h]

theorem kget?_kdel_ne (m : KMap α) {i j : Nat} (h : j ≠ i) : kget? (kdel m i) j = kget? m j := by
  induction m with
  | nil => rfl
  | cons a r ih =>
    obtain ⟨k, v⟩ := a
    simp only [kdel]
    split
    · subst_vars; simp [kget?, h]
    · simp only [kget?, ih]

theorem kmod_kmod (m : KMap α) (i : Nat) (f g : α → α) : kmod (kmod m i f) i g = kmod m i fun x => g (f x) := by
  induction m with
  | nil => rfl
  | cons a r ih =>
    obtain ⟨k, v⟩ := a
    simp only [kmod]
    by_cases h : i = k <;> simp [kmod, h]
    simpa [h] using ih

theorem kmod_id (m : KMap α) (i : Nat) : kmod m i (fun x => x) = m := by
  induction m with
  | nil => rfl
  | cons a r ih =>
    obtain ⟨k, v⟩ := a
    simp only [kmod, ih]
    split <;> rfl

theorem kmod_congr (m : KMap α) (i : Nat) {f g : α → α} {x : α} (hx : kget? m i = some x) (h : f x = g x) :
    kmod m i f = kmod m i g := by
  induction m with
  | nil => rfl
  | cons a r ih =>
    obtain ⟨k, v⟩ := a
    simp only [kget?] at hx
    simp only [kmod]
    by_cases hk : i = k <;> simp_all

theorem kget?_filter (m : KMap α) (c : Nat × α → Bool) {i : Nat} {x : α} (h : kget? m i = some x) (hc : c (i, x) = true) :
    kget? (m.filter c) i = some x := by
  induction m with
  | nil => simp [kget?] at h
  | cons a r ih =>
    obtain ⟨k, v⟩ := a
    simp only [kget?] at h
    by_cases hk : i = k
    · subst hk
      simp only [if_true, Option.some.injEq] at h
      subst h
      simp [hc, kget?]
    · simp only [hk, if_false] at h
      by_cases hv : c (k, v) <;> simp [hv, kget?, hk, ih h]

/-- Reading a map after a list of pairs has been put: the last pair of the key, or the map. -/
theorem kget?_kputs_of_not_mem (l : List (Nat × α)) (m : KMap α) (i : Nat) (h : ∀ p ∈ l, p.1 ≠ i) :
    kget? (kputs m l) i = kget? m i := by
  induction l generalizing m with
  | nil => rfl
  | cons a r ih =>
    have h1 := h a (by simp)
    exact (ih (kput m a.1 a.2) fun p hp => h p (by simp [hp])).trans (kget?_kput_ne m a.2 (Ne.symm h1))

end Sys2Proof.Laws
end

