-- ==== Sys2Proof/Laws/State.lean ====
section
/-! SUPPORT. One lemma for each field of the state and each update of it. -/

set_option Elab.async false

namespace Sys2Proof.Laws

open Sys2Proof.Machine

variable (s : State)

/-! modPkg -/
@[simp] theorem modPkg_clk (p : Nat) (f : Pkg → Pkg) : (s.modPkg p f).clk = s.clk := rfl
@[simp] theorem modPkg_agenda (p : Nat) (f : Pkg → Pkg) : (s.modPkg p f).agenda = s.agenda := rfl
@[simp] theorem modPkg_inputs (p : Nat) (f : Pkg → Pkg) : (s.modPkg p f).inputs = s.inputs := rfl
@[simp] theorem modPkg_cur (p : Nat) (f : Pkg → Pkg) : (s.modPkg p f).cur = s.cur := rfl
@[simp] theorem modPkg_free (p : Nat) (f : Pkg → Pkg) : (s.modPkg p f).free = s.free := rfl
@[simp] theorem modPkg_nextId (p : Nat) (f : Pkg → Pkg) : (s.modPkg p f).nextId = s.nextId := rfl
@[simp] theorem modPkg_wclock (p : Nat) (f : Pkg → Pkg) : (s.modPkg p f).wclock = s.wclock := rfl
@[simp] theorem modPkg_mem (p : Nat) (f : Pkg → Pkg) : (s.modPkg p f).mem = s.mem := rfl
@[simp] theorem modPkg_memPoison (p : Nat) (f : Pkg → Pkg) : (s.modPkg p f).memPoison = s.memPoison := rfl
@[simp] theorem modPkg_drvAsid (p : Nat) (f : Pkg → Pkg) : (s.modPkg p f).drvAsid = s.drvAsid := rfl
@[simp] theorem modPkg_pkgs (p : Nat) (f : Pkg → Pkg) : (s.modPkg p f).pkgs = kput s.pkgs p (f (s.pkg p)) := rfl
@[simp] theorem modPkg_dies (p : Nat) (f : Pkg → Pkg) : (s.modPkg p f).dies = s.dies := rfl
@[simp] theorem modPkg_cores (p : Nat) (f : Pkg → Pkg) : (s.modPkg p f).cores = s.cores := rfl
@[simp] theorem modPkg_copies (p : Nat) (f : Pkg → Pkg) : (s.modPkg p f).copies = s.copies := rfl
@[simp] theorem modPkg_homes (p : Nat) (f : Pkg → Pkg) : (s.modPkg p f).homes = s.homes := rfl
@[simp] theorem modPkg_dirs (p : Nat) (f : Pkg → Pkg) : (s.modPkg p f).dirs = s.dirs := rfl
@[simp] theorem modPkg_lockTab (p : Nat) (f : Pkg → Pkg) : (s.modPkg p f).lockTab = s.lockTab := rfl
@[simp] theorem modPkg_blocks (p : Nat) (f : Pkg → Pkg) : (s.modPkg p f).blocks = s.blocks := rfl
@[simp] theorem modPkg_warps (p : Nat) (f : Pkg → Pkg) : (s.modPkg p f).warps = s.warps := rfl
@[simp] theorem modPkg_reqs (p : Nat) (f : Pkg → Pkg) : (s.modPkg p f).reqs = s.reqs := rfl
@[simp] theorem modPkg_fes (p : Nat) (f : Pkg → Pkg) : (s.modPkg p f).fes = s.fes := rfl
@[simp] theorem modPkg_posts (p : Nat) (f : Pkg → Pkg) : (s.modPkg p f).posts = s.posts := rfl
@[simp] theorem modPkg_invals (p : Nat) (f : Pkg → Pkg) : (s.modPkg p f).invals = s.invals := rfl
@[simp] theorem modPkg_grants (p : Nat) (f : Pkg → Pkg) : (s.modPkg p f).grants = s.grants := rfl
@[simp] theorem modPkg_withdraws (p : Nat) (f : Pkg → Pkg) : (s.modPkg p f).withdraws = s.withdraws := rfl
@[simp] theorem modPkg_waitFors (p : Nat) (f : Pkg → Pkg) : (s.modPkg p f).waitFors = s.waitFors := rfl
@[simp] theorem modPkg_works (p : Nat) (f : Pkg → Pkg) : (s.modPkg p f).works = s.works := rfl
@[simp] theorem modPkg_msgs (p : Nat) (f : Pkg → Pkg) : (s.modPkg p f).msgs = s.msgs := rfl
@[simp] theorem modPkg_phases (p : Nat) (f : Pkg → Pkg) : (s.modPkg p f).phases = s.phases := rfl
@[simp] theorem modPkg_tickets (p : Nat) (f : Pkg → Pkg) : (s.modPkg p f).tickets = s.tickets := rfl
@[simp] theorem modPkg_bumps (p : Nat) (f : Pkg → Pkg) : (s.modPkg p f).bumps = s.bumps := rfl
@[simp] theorem modPkg_bumpReqs (p : Nat) (f : Pkg → Pkg) : (s.modPkg p f).bumpReqs = s.bumpReqs := rfl
@[simp] theorem modPkg_links (p : Nat) (f : Pkg → Pkg) : (s.modPkg p f).links = s.links := rfl
@[simp] theorem modPkg_queues (p : Nat) (f : Pkg → Pkg) : (s.modPkg p f).queues = s.queues := rfl
@[simp] theorem modPkg_launches (p : Nat) (f : Pkg → Pkg) : (s.modPkg p f).launches = s.launches := rfl
@[simp] theorem modPkg_armed (p : Nat) (f : Pkg → Pkg) : (s.modPkg p f).armed = s.armed := rfl
@[simp] theorem modPkg_steers (p : Nat) (f : Pkg → Pkg) : (s.modPkg p f).steers = s.steers := rfl
@[simp] theorem modPkg_groups (p : Nat) (f : Pkg → Pkg) : (s.modPkg p f).groups = s.groups := rfl
@[simp] theorem modPkg_fe (p : Nat) (f : Pkg → Pkg) : (s.modPkg p f).fe = s.fe := rfl

/-! modDie -/
@[simp] theorem modDie_clk (k : Nat) (f : Die → Die) : (s.modDie k f).clk = s.clk := rfl
@[simp] theorem modDie_agenda (k : Nat) (f : Die → Die) : (s.modDie k f).agenda = s.agenda := rfl
@[simp] theorem modDie_inputs (k : Nat) (f : Die → Die) : (s.modDie k f).inputs = s.inputs := rfl
@[simp] theorem modDie_cur (k : Nat) (f : Die → Die) : (s.modDie k f).cur = s.cur := rfl
@[simp] theorem modDie_free (k : Nat) (f : Die → Die) : (s.modDie k f).free = s.free := rfl
@[simp] theorem modDie_nextId (k : Nat) (f : Die → Die) : (s.modDie k f).nextId = s.nextId := rfl
@[simp] theorem modDie_wclock (k : Nat) (f : Die → Die) : (s.modDie k f).wclock = s.wclock := rfl
@[simp] theorem modDie_mem (k : Nat) (f : Die → Die) : (s.modDie k f).mem = s.mem := rfl
@[simp] theorem modDie_memPoison (k : Nat) (f : Die → Die) : (s.modDie k f).memPoison = s.memPoison := rfl
@[simp] theorem modDie_drvAsid (k : Nat) (f : Die → Die) : (s.modDie k f).drvAsid = s.drvAsid := rfl
@[simp] theorem modDie_pkgs (k : Nat) (f : Die → Die) : (s.modDie k f).pkgs = s.pkgs := rfl
@[simp] theorem modDie_dies (k : Nat) (f : Die → Die) : (s.modDie k f).dies = kput s.dies k (f (s.die k)) := rfl
@[simp] theorem modDie_cores (k : Nat) (f : Die → Die) : (s.modDie k f).cores = s.cores := rfl
@[simp] theorem modDie_copies (k : Nat) (f : Die → Die) : (s.modDie k f).copies = s.copies := rfl
@[simp] theorem modDie_homes (k : Nat) (f : Die → Die) : (s.modDie k f).homes = s.homes := rfl
@[simp] theorem modDie_dirs (k : Nat) (f : Die → Die) : (s.modDie k f).dirs = s.dirs := rfl
@[simp] theorem modDie_lockTab (k : Nat) (f : Die → Die) : (s.modDie k f).lockTab = s.lockTab := rfl
@[simp] theorem modDie_blocks (k : Nat) (f : Die → Die) : (s.modDie k f).blocks = s.blocks := rfl
@[simp] theorem modDie_warps (k : Nat) (f : Die → Die) : (s.modDie k f).warps = s.warps := rfl
@[simp] theorem modDie_reqs (k : Nat) (f : Die → Die) : (s.modDie k f).reqs = s.reqs := rfl
@[simp] theorem modDie_fes (k : Nat) (f : Die → Die) : (s.modDie k f).fes = s.fes := rfl
@[simp] theorem modDie_posts (k : Nat) (f : Die → Die) : (s.modDie k f).posts = s.posts := rfl
@[simp] theorem modDie_invals (k : Nat) (f : Die → Die) : (s.modDie k f).invals = s.invals := rfl
@[simp] theorem modDie_grants (k : Nat) (f : Die → Die) : (s.modDie k f).grants = s.grants := rfl
@[simp] theorem modDie_withdraws (k : Nat) (f : Die → Die) : (s.modDie k f).withdraws = s.withdraws := rfl
@[simp] theorem modDie_waitFors (k : Nat) (f : Die → Die) : (s.modDie k f).waitFors = s.waitFors := rfl
@[simp] theorem modDie_works (k : Nat) (f : Die → Die) : (s.modDie k f).works = s.works := rfl
@[simp] theorem modDie_msgs (k : Nat) (f : Die → Die) : (s.modDie k f).msgs = s.msgs := rfl
@[simp] theorem modDie_phases (k : Nat) (f : Die → Die) : (s.modDie k f).phases = s.phases := rfl
@[simp] theorem modDie_tickets (k : Nat) (f : Die → Die) : (s.modDie k f).tickets = s.tickets := rfl
@[simp] theorem modDie_bumps (k : Nat) (f : Die → Die) : (s.modDie k f).bumps = s.bumps := rfl
@[simp] theorem modDie_bumpReqs (k : Nat) (f : Die → Die) : (s.modDie k f).bumpReqs = s.bumpReqs := rfl
@[simp] theorem modDie_links (k : Nat) (f : Die → Die) : (s.modDie k f).links = s.links := rfl
@[simp] theorem modDie_queues (k : Nat) (f : Die → Die) : (s.modDie k f).queues = s.queues := rfl
@[simp] theorem modDie_launches (k : Nat) (f : Die → Die) : (s.modDie k f).launches = s.launches := rfl
@[simp] theorem modDie_armed (k : Nat) (f : Die → Die) : (s.modDie k f).armed = s.armed := rfl
@[simp] theorem modDie_steers (k : Nat) (f : Die → Die) : (s.modDie k f).steers = s.steers := rfl
@[simp] theorem modDie_groups (k : Nat) (f : Die → Die) : (s.modDie k f).groups = s.groups := rfl
@[simp] theorem modDie_fe (k : Nat) (f : Die → Die) : (s.modDie k f).fe = s.fe := rfl

/-! modCore -/
@[simp] theorem modCore_clk (k : Nat) (f : Core → Core) : (s.modCore k f).clk = s.clk := rfl
@[simp] theorem modCore_agenda (k : Nat) (f : Core → Core) : (s.modCore k f).agenda = s.agenda := rfl
@[simp] theorem modCore_inputs (k : Nat) (f : Core → Core) : (s.modCore k f).inputs = s.inputs := rfl
@[simp] theorem modCore_cur (k : Nat) (f : Core → Core) : (s.modCore k f).cur = s.cur := rfl
@[simp] theorem modCore_free (k : Nat) (f : Core → Core) : (s.modCore k f).free = s.free := rfl
@[simp] theorem modCore_nextId (k : Nat) (f : Core → Core) : (s.modCore k f).nextId = s.nextId := rfl
@[simp] theorem modCore_wclock (k : Nat) (f : Core → Core) : (s.modCore k f).wclock = s.wclock := rfl
@[simp] theorem modCore_mem (k : Nat) (f : Core → Core) : (s.modCore k f).mem = s.mem := rfl
@[simp] theorem modCore_memPoison (k : Nat) (f : Core → Core) : (s.modCore k f).memPoison = s.memPoison := rfl
@[simp] theorem modCore_drvAsid (k : Nat) (f : Core → Core) : (s.modCore k f).drvAsid = s.drvAsid := rfl
@[simp] theorem modCore_pkgs (k : Nat) (f : Core → Core) : (s.modCore k f).pkgs = s.pkgs := rfl
@[simp] theorem modCore_dies (k : Nat) (f : Core → Core) : (s.modCore k f).dies = s.dies := rfl
@[simp] theorem modCore_cores (k : Nat) (f : Core → Core) : (s.modCore k f).cores = kput s.cores k (f (s.core k)) := rfl
@[simp] theorem modCore_copies (k : Nat) (f : Core → Core) : (s.modCore k f).copies = s.copies := rfl
@[simp] theorem modCore_homes (k : Nat) (f : Core → Core) : (s.modCore k f).homes = s.homes := rfl
@[simp] theorem modCore_dirs (k : Nat) (f : Core → Core) : (s.modCore k f).dirs = s.dirs := rfl
@[simp] theorem modCore_lockTab (k : Nat) (f : Core → Core) : (s.modCore k f).lockTab = s.lockTab := rfl
@[simp] theorem modCore_blocks (k : Nat) (f : Core → Core) : (s.modCore k f).blocks = s.blocks := rfl
@[simp] theorem modCore_warps (k : Nat) (f : Core → Core) : (s.modCore k f).warps = s.warps := rfl
@[simp] theorem modCore_reqs (k : Nat) (f : Core → Core) : (s.modCore k f).reqs = s.reqs := rfl
@[simp] theorem modCore_fes (k : Nat) (f : Core → Core) : (s.modCore k f).fes = s.fes := rfl
@[simp] theorem modCore_posts (k : Nat) (f : Core → Core) : (s.modCore k f).posts = s.posts := rfl
@[simp] theorem modCore_invals (k : Nat) (f : Core → Core) : (s.modCore k f).invals = s.invals := rfl
@[simp] theorem modCore_grants (k : Nat) (f : Core → Core) : (s.modCore k f).grants = s.grants := rfl
@[simp] theorem modCore_withdraws (k : Nat) (f : Core → Core) : (s.modCore k f).withdraws = s.withdraws := rfl
@[simp] theorem modCore_waitFors (k : Nat) (f : Core → Core) : (s.modCore k f).waitFors = s.waitFors := rfl
@[simp] theorem modCore_works (k : Nat) (f : Core → Core) : (s.modCore k f).works = s.works := rfl
@[simp] theorem modCore_msgs (k : Nat) (f : Core → Core) : (s.modCore k f).msgs = s.msgs := rfl
@[simp] theorem modCore_phases (k : Nat) (f : Core → Core) : (s.modCore k f).phases = s.phases := rfl
@[simp] theorem modCore_tickets (k : Nat) (f : Core → Core) : (s.modCore k f).tickets = s.tickets := rfl
@[simp] theorem modCore_bumps (k : Nat) (f : Core → Core) : (s.modCore k f).bumps = s.bumps := rfl
@[simp] theorem modCore_bumpReqs (k : Nat) (f : Core → Core) : (s.modCore k f).bumpReqs = s.bumpReqs := rfl
@[simp] theorem modCore_links (k : Nat) (f : Core → Core) : (s.modCore k f).links = s.links := rfl
@[simp] theorem modCore_queues (k : Nat) (f : Core → Core) : (s.modCore k f).queues = s.queues := rfl
@[simp] theorem modCore_launches (k : Nat) (f : Core → Core) : (s.modCore k f).launches = s.launches := rfl
@[simp] theorem modCore_armed (k : Nat) (f : Core → Core) : (s.modCore k f).armed = s.armed := rfl
@[simp] theorem modCore_steers (k : Nat) (f : Core → Core) : (s.modCore k f).steers = s.steers := rfl
@[simp] theorem modCore_groups (k : Nat) (f : Core → Core) : (s.modCore k f).groups = s.groups := rfl
@[simp] theorem modCore_fe (k : Nat) (f : Core → Core) : (s.modCore k f).fe = s.fe := rfl

/-! modWarp -/
@[simp] theorem modWarp_clk (w : Nat) (f : Warp → Warp) : (s.modWarp w f).clk = s.clk := rfl
@[simp] theorem modWarp_agenda (w : Nat) (f : Warp → Warp) : (s.modWarp w f).agenda = s.agenda := rfl
@[simp] theorem modWarp_inputs (w : Nat) (f : Warp → Warp) : (s.modWarp w f).inputs = s.inputs := rfl
@[simp] theorem modWarp_cur (w : Nat) (f : Warp → Warp) : (s.modWarp w f).cur = s.cur := rfl
@[simp] theorem modWarp_free (w : Nat) (f : Warp → Warp) : (s.modWarp w f).free = s.free := rfl
@[simp] theorem modWarp_nextId (w : Nat) (f : Warp → Warp) : (s.modWarp w f).nextId = s.nextId := rfl
@[simp] theorem modWarp_wclock (w : Nat) (f : Warp → Warp) : (s.modWarp w f).wclock = s.wclock := rfl
@[simp] theorem modWarp_mem (w : Nat) (f : Warp → Warp) : (s.modWarp w f).mem = s.mem := rfl
@[simp] theorem modWarp_memPoison (w : Nat) (f : Warp → Warp) : (s.modWarp w f).memPoison = s.memPoison := rfl
@[simp] theorem modWarp_drvAsid (w : Nat) (f : Warp → Warp) : (s.modWarp w f).drvAsid = s.drvAsid := rfl
@[simp] theorem modWarp_pkgs (w : Nat) (f : Warp → Warp) : (s.modWarp w f).pkgs = s.pkgs := rfl
@[simp] theorem modWarp_dies (w : Nat) (f : Warp → Warp) : (s.modWarp w f).dies = s.dies := rfl
@[simp] theorem modWarp_cores (w : Nat) (f : Warp → Warp) : (s.modWarp w f).cores = s.cores := rfl
@[simp] theorem modWarp_copies (w : Nat) (f : Warp → Warp) : (s.modWarp w f).copies = s.copies := rfl
@[simp] theorem modWarp_homes (w : Nat) (f : Warp → Warp) : (s.modWarp w f).homes = s.homes := rfl
@[simp] theorem modWarp_dirs (w : Nat) (f : Warp → Warp) : (s.modWarp w f).dirs = s.dirs := rfl
@[simp] theorem modWarp_lockTab (w : Nat) (f : Warp → Warp) : (s.modWarp w f).lockTab = s.lockTab := rfl
@[simp] theorem modWarp_blocks (w : Nat) (f : Warp → Warp) : (s.modWarp w f).blocks = s.blocks := rfl
@[simp] theorem modWarp_warps (w : Nat) (f : Warp → Warp) : (s.modWarp w f).warps = kmod s.warps w f := rfl
@[simp] theorem modWarp_reqs (w : Nat) (f : Warp → Warp) : (s.modWarp w f).reqs = s.reqs := rfl
@[simp] theorem modWarp_fes (w : Nat) (f : Warp → Warp) : (s.modWarp w f).fes = s.fes := rfl
@[simp] theorem modWarp_posts (w : Nat) (f : Warp → Warp) : (s.modWarp w f).posts = s.posts := rfl
@[simp] theorem modWarp_invals (w : Nat) (f : Warp → Warp) : (s.modWarp w f).invals = s.invals := rfl
@[simp] theorem modWarp_grants (w : Nat) (f : Warp → Warp) : (s.modWarp w f).grants = s.grants := rfl
@[simp] theorem modWarp_withdraws (w : Nat) (f : Warp → Warp) : (s.modWarp w f).withdraws = s.withdraws := rfl
@[simp] theorem modWarp_waitFors (w : Nat) (f : Warp → Warp) : (s.modWarp w f).waitFors = s.waitFors := rfl
@[simp] theorem modWarp_works (w : Nat) (f : Warp → Warp) : (s.modWarp w f).works = s.works := rfl
@[simp] theorem modWarp_msgs (w : Nat) (f : Warp → Warp) : (s.modWarp w f).msgs = s.msgs := rfl
@[simp] theorem modWarp_phases (w : Nat) (f : Warp → Warp) : (s.modWarp w f).phases = s.phases := rfl
@[simp] theorem modWarp_tickets (w : Nat) (f : Warp → Warp) : (s.modWarp w f).tickets = s.tickets := rfl
@[simp] theorem modWarp_bumps (w : Nat) (f : Warp → Warp) : (s.modWarp w f).bumps = s.bumps := rfl
@[simp] theorem modWarp_bumpReqs (w : Nat) (f : Warp → Warp) : (s.modWarp w f).bumpReqs = s.bumpReqs := rfl
@[simp] theorem modWarp_links (w : Nat) (f : Warp → Warp) : (s.modWarp w f).links = s.links := rfl
@[simp] theorem modWarp_queues (w : Nat) (f : Warp → Warp) : (s.modWarp w f).queues = s.queues := rfl
@[simp] theorem modWarp_launches (w : Nat) (f : Warp → Warp) : (s.modWarp w f).launches = s.launches := rfl
@[simp] theorem modWarp_armed (w : Nat) (f : Warp → Warp) : (s.modWarp w f).armed = s.armed := rfl
@[simp] theorem modWarp_steers (w : Nat) (f : Warp → Warp) : (s.modWarp w f).steers = s.steers := rfl
@[simp] theorem modWarp_groups (w : Nat) (f : Warp → Warp) : (s.modWarp w f).groups = s.groups := rfl
@[simp] theorem modWarp_fe (w : Nat) (f : Warp → Warp) : (s.modWarp w f).fe = s.fe := rfl

/-! modSplit -/
@[simp] theorem modSplit_clk (w t : Nat) (f : Split → Split) : (s.modSplit w t f).clk = s.clk := rfl
@[simp] theorem modSplit_agenda (w t : Nat) (f : Split → Split) : (s.modSplit w t f).agenda = s.agenda := rfl
@[simp] theorem modSplit_inputs (w t : Nat) (f : Split → Split) : (s.modSplit w t f).inputs = s.inputs := rfl
@[simp] theorem modSplit_cur (w t : Nat) (f : Split → Split) : (s.modSplit w t f).cur = s.cur := rfl
@[simp] theorem modSplit_free (w t : Nat) (f : Split → Split) : (s.modSplit w t f).free = s.free := rfl
@[simp] theorem modSplit_nextId (w t : Nat) (f : Split → Split) : (s.modSplit w t f).nextId = s.nextId := rfl
@[simp] theorem modSplit_wclock (w t : Nat) (f : Split → Split) : (s.modSplit w t f).wclock = s.wclock := rfl
@[simp] theorem modSplit_mem (w t : Nat) (f : Split → Split) : (s.modSplit w t f).mem = s.mem := rfl
@[simp] theorem modSplit_memPoison (w t : Nat) (f : Split → Split) : (s.modSplit w t f).memPoison = s.memPoison := rfl
@[simp] theorem modSplit_drvAsid (w t : Nat) (f : Split → Split) : (s.modSplit w t f).drvAsid = s.drvAsid := rfl
@[simp] theorem modSplit_pkgs (w t : Nat) (f : Split → Split) : (s.modSplit w t f).pkgs = s.pkgs := rfl
@[simp] theorem modSplit_dies (w t : Nat) (f : Split → Split) : (s.modSplit w t f).dies = s.dies := rfl
@[simp] theorem modSplit_cores (w t : Nat) (f : Split → Split) : (s.modSplit w t f).cores = s.cores := rfl
@[simp] theorem modSplit_copies (w t : Nat) (f : Split → Split) : (s.modSplit w t f).copies = s.copies := rfl
@[simp] theorem modSplit_homes (w t : Nat) (f : Split → Split) : (s.modSplit w t f).homes = s.homes := rfl
@[simp] theorem modSplit_dirs (w t : Nat) (f : Split → Split) : (s.modSplit w t f).dirs = s.dirs := rfl
@[simp] theorem modSplit_lockTab (w t : Nat) (f : Split → Split) : (s.modSplit w t f).lockTab = s.lockTab := rfl
@[simp] theorem modSplit_blocks (w t : Nat) (f : Split → Split) : (s.modSplit w t f).blocks = s.blocks := rfl
@[simp] theorem modSplit_warps (w t : Nat) (f : Split → Split) : (s.modSplit w t f).warps = kmod s.warps w fun x => { x with table := kmod x.table t f } := rfl
@[simp] theorem modSplit_reqs (w t : Nat) (f : Split → Split) : (s.modSplit w t f).reqs = s.reqs := rfl
@[simp] theorem modSplit_fes (w t : Nat) (f : Split → Split) : (s.modSplit w t f).fes = s.fes := rfl
@[simp] theorem modSplit_posts (w t : Nat) (f : Split → Split) : (s.modSplit w t f).posts = s.posts := rfl
@[simp] theorem modSplit_invals (w t : Nat) (f : Split → Split) : (s.modSplit w t f).invals = s.invals := rfl
@[simp] theorem modSplit_grants (w t : Nat) (f : Split → Split) : (s.modSplit w t f).grants = s.grants := rfl
@[simp] theorem modSplit_withdraws (w t : Nat) (f : Split → Split) : (s.modSplit w t f).withdraws = s.withdraws := rfl
@[simp] theorem modSplit_waitFors (w t : Nat) (f : Split → Split) : (s.modSplit w t f).waitFors = s.waitFors := rfl
@[simp] theorem modSplit_works (w t : Nat) (f : Split → Split) : (s.modSplit w t f).works = s.works := rfl
@[simp] theorem modSplit_msgs (w t : Nat) (f : Split → Split) : (s.modSplit w t f).msgs = s.msgs := rfl
@[simp] theorem modSplit_phases (w t : Nat) (f : Split → Split) : (s.modSplit w t f).phases = s.phases := rfl
@[simp] theorem modSplit_tickets (w t : Nat) (f : Split → Split) : (s.modSplit w t f).tickets = s.tickets := rfl
@[simp] theorem modSplit_bumps (w t : Nat) (f : Split → Split) : (s.modSplit w t f).bumps = s.bumps := rfl
@[simp] theorem modSplit_bumpReqs (w t : Nat) (f : Split → Split) : (s.modSplit w t f).bumpReqs = s.bumpReqs := rfl
@[simp] theorem modSplit_links (w t : Nat) (f : Split → Split) : (s.modSplit w t f).links = s.links := rfl
@[simp] theorem modSplit_queues (w t : Nat) (f : Split → Split) : (s.modSplit w t f).queues = s.queues := rfl
@[simp] theorem modSplit_launches (w t : Nat) (f : Split → Split) : (s.modSplit w t f).launches = s.launches := rfl
@[simp] theorem modSplit_armed (w t : Nat) (f : Split → Split) : (s.modSplit w t f).armed = s.armed := rfl
@[simp] theorem modSplit_steers (w t : Nat) (f : Split → Split) : (s.modSplit w t f).steers = s.steers := rfl
@[simp] theorem modSplit_groups (w t : Nat) (f : Split → Split) : (s.modSplit w t f).groups = s.groups := rfl
@[simp] theorem modSplit_fe (w t : Nat) (f : Split → Split) : (s.modSplit w t f).fe = s.fe := rfl

/-! modBlock -/
@[simp] theorem modBlock_clk (b : Nat) (f : Block → Block) : (s.modBlock b f).clk = s.clk := rfl
@[simp] theorem modBlock_agenda (b : Nat) (f : Block → Block) : (s.modBlock b f).agenda = s.agenda := rfl
@[simp] theorem modBlock_inputs (b : Nat) (f : Block → Block) : (s.modBlock b f).inputs = s.inputs := rfl
@[simp] theorem modBlock_cur (b : Nat) (f : Block → Block) : (s.modBlock b f).cur = s.cur := rfl
@[simp] theorem modBlock_free (b : Nat) (f : Block → Block) : (s.modBlock b f).free = s.free := rfl
@[simp] theorem modBlock_nextId (b : Nat) (f : Block → Block) : (s.modBlock b f).nextId = s.nextId := rfl
@[simp] theorem modBlock_wclock (b : Nat) (f : Block → Block) : (s.modBlock b f).wclock = s.wclock := rfl
@[simp] theorem modBlock_mem (b : Nat) (f : Block → Block) : (s.modBlock b f).mem = s.mem := rfl
@[simp] theorem modBlock_memPoison (b : Nat) (f : Block → Block) : (s.modBlock b f).memPoison = s.memPoison := rfl
@[simp] theorem modBlock_drvAsid (b : Nat) (f : Block → Block) : (s.modBlock b f).drvAsid = s.drvAsid := rfl
@[simp] theorem modBlock_pkgs (b : Nat) (f : Block → Block) : (s.modBlock b f).pkgs = s.pkgs := rfl
@[simp] theorem modBlock_dies (b : Nat) (f : Block → Block) : (s.modBlock b f).dies = s.dies := rfl
@[simp] theorem modBlock_cores (b : Nat) (f : Block → Block) : (s.modBlock b f).cores = s.cores := rfl
@[simp] theorem modBlock_copies (b : Nat) (f : Block → Block) : (s.modBlock b f).copies = s.copies := rfl
@[simp] theorem modBlock_homes (b : Nat) (f : Block → Block) : (s.modBlock b f).homes = s.homes := rfl
@[simp] theorem modBlock_dirs (b : Nat) (f : Block → Block) : (s.modBlock b f).dirs = s.dirs := rfl
@[simp] theorem modBlock_lockTab (b : Nat) (f : Block → Block) : (s.modBlock b f).lockTab = s.lockTab := rfl
@[simp] theorem modBlock_blocks (b : Nat) (f : Block → Block) : (s.modBlock b f).blocks = kmod s.blocks b f := rfl
@[simp] theorem modBlock_warps (b : Nat) (f : Block → Block) : (s.modBlock b f).warps = s.warps := rfl
@[simp] theorem modBlock_reqs (b : Nat) (f : Block → Block) : (s.modBlock b f).reqs = s.reqs := rfl
@[simp] theorem modBlock_fes (b : Nat) (f : Block → Block) : (s.modBlock b f).fes = s.fes := rfl
@[simp] theorem modBlock_posts (b : Nat) (f : Block → Block) : (s.modBlock b f).posts = s.posts := rfl
@[simp] theorem modBlock_invals (b : Nat) (f : Block → Block) : (s.modBlock b f).invals = s.invals := rfl
@[simp] theorem modBlock_grants (b : Nat) (f : Block → Block) : (s.modBlock b f).grants = s.grants := rfl
@[simp] theorem modBlock_withdraws (b : Nat) (f : Block → Block) : (s.modBlock b f).withdraws = s.withdraws := rfl
@[simp] theorem modBlock_waitFors (b : Nat) (f : Block → Block) : (s.modBlock b f).waitFors = s.waitFors := rfl
@[simp] theorem modBlock_works (b : Nat) (f : Block → Block) : (s.modBlock b f).works = s.works := rfl
@[simp] theorem modBlock_msgs (b : Nat) (f : Block → Block) : (s.modBlock b f).msgs = s.msgs := rfl
@[simp] theorem modBlock_phases (b : Nat) (f : Block → Block) : (s.modBlock b f).phases = s.phases := rfl
@[simp] theorem modBlock_tickets (b : Nat) (f : Block → Block) : (s.modBlock b f).tickets = s.tickets := rfl
@[simp] theorem modBlock_bumps (b : Nat) (f : Block → Block) : (s.modBlock b f).bumps = s.bumps := rfl
@[simp] theorem modBlock_bumpReqs (b : Nat) (f : Block → Block) : (s.modBlock b f).bumpReqs = s.bumpReqs := rfl
@[simp] theorem modBlock_links (b : Nat) (f : Block → Block) : (s.modBlock b f).links = s.links := rfl
@[simp] theorem modBlock_queues (b : Nat) (f : Block → Block) : (s.modBlock b f).queues = s.queues := rfl
@[simp] theorem modBlock_launches (b : Nat) (f : Block → Block) : (s.modBlock b f).launches = s.launches := rfl
@[simp] theorem modBlock_armed (b : Nat) (f : Block → Block) : (s.modBlock b f).armed = s.armed := rfl
@[simp] theorem modBlock_steers (b : Nat) (f : Block → Block) : (s.modBlock b f).steers = s.steers := rfl
@[simp] theorem modBlock_groups (b : Nat) (f : Block → Block) : (s.modBlock b f).groups = s.groups := rfl
@[simp] theorem modBlock_fe (b : Nat) (f : Block → Block) : (s.modBlock b f).fe = s.fe := rfl

/-! modLaunch -/
@[simp] theorem modLaunch_clk (l : Nat) (f : Launch → Launch) : (s.modLaunch l f).clk = s.clk := rfl
@[simp] theorem modLaunch_agenda (l : Nat) (f : Launch → Launch) : (s.modLaunch l f).agenda = s.agenda := rfl
@[simp] theorem modLaunch_inputs (l : Nat) (f : Launch → Launch) : (s.modLaunch l f).inputs = s.inputs := rfl
@[simp] theorem modLaunch_cur (l : Nat) (f : Launch → Launch) : (s.modLaunch l f).cur = s.cur := rfl
@[simp] theorem modLaunch_free (l : Nat) (f : Launch → Launch) : (s.modLaunch l f).free = s.free := rfl
@[simp] theorem modLaunch_nextId (l : Nat) (f : Launch → Launch) : (s.modLaunch l f).nextId = s.nextId := rfl
@[simp] theorem modLaunch_wclock (l : Nat) (f : Launch → Launch) : (s.modLaunch l f).wclock = s.wclock := rfl
@[simp] theorem modLaunch_mem (l : Nat) (f : Launch → Launch) : (s.modLaunch l f).mem = s.mem := rfl
@[simp] theorem modLaunch_memPoison (l : Nat) (f : Launch → Launch) : (s.modLaunch l f).memPoison = s.memPoison := rfl
@[simp] theorem modLaunch_drvAsid (l : Nat) (f : Launch → Launch) : (s.modLaunch l f).drvAsid = s.drvAsid := rfl
@[simp] theorem modLaunch_pkgs (l : Nat) (f : Launch → Launch) : (s.modLaunch l f).pkgs = s.pkgs := rfl
@[simp] theorem modLaunch_dies (l : Nat) (f : Launch → Launch) : (s.modLaunch l f).dies = s.dies := rfl
@[simp] theorem modLaunch_cores (l : Nat) (f : Launch → Launch) : (s.modLaunch l f).cores = s.cores := rfl
@[simp] theorem modLaunch_copies (l : Nat) (f : Launch → Launch) : (s.modLaunch l f).copies = s.copies := rfl
@[simp] theorem modLaunch_homes (l : Nat) (f : Launch → Launch) : (s.modLaunch l f).homes = s.homes := rfl
@[simp] theorem modLaunch_dirs (l : Nat) (f : Launch → Launch) : (s.modLaunch l f).dirs = s.dirs := rfl
@[simp] theorem modLaunch_lockTab (l : Nat) (f : Launch → Launch) : (s.modLaunch l f).lockTab = s.lockTab := rfl
@[simp] theorem modLaunch_blocks (l : Nat) (f : Launch → Launch) : (s.modLaunch l f).blocks = s.blocks := rfl
@[simp] theorem modLaunch_warps (l : Nat) (f : Launch → Launch) : (s.modLaunch l f).warps = s.warps := rfl
@[simp] theorem modLaunch_reqs (l : Nat) (f : Launch → Launch) : (s.modLaunch l f).reqs = s.reqs := rfl
@[simp] theorem modLaunch_fes (l : Nat) (f : Launch → Launch) : (s.modLaunch l f).fes = s.fes := rfl
@[simp] theorem modLaunch_posts (l : Nat) (f : Launch → Launch) : (s.modLaunch l f).posts = s.posts := rfl
@[simp] theorem modLaunch_invals (l : Nat) (f : Launch → Launch) : (s.modLaunch l f).invals = s.invals := rfl
@[simp] theorem modLaunch_grants (l : Nat) (f : Launch → Launch) : (s.modLaunch l f).grants = s.grants := rfl
@[simp] theorem modLaunch_withdraws (l : Nat) (f : Launch → Launch) : (s.modLaunch l f).withdraws = s.withdraws := rfl
@[simp] theorem modLaunch_waitFors (l : Nat) (f : Launch → Launch) : (s.modLaunch l f).waitFors = s.waitFors := rfl
@[simp] theorem modLaunch_works (l : Nat) (f : Launch → Launch) : (s.modLaunch l f).works = s.works := rfl
@[simp] theorem modLaunch_msgs (l : Nat) (f : Launch → Launch) : (s.modLaunch l f).msgs = s.msgs := rfl
@[simp] theorem modLaunch_phases (l : Nat) (f : Launch → Launch) : (s.modLaunch l f).phases = s.phases := rfl
@[simp] theorem modLaunch_tickets (l : Nat) (f : Launch → Launch) : (s.modLaunch l f).tickets = s.tickets := rfl
@[simp] theorem modLaunch_bumps (l : Nat) (f : Launch → Launch) : (s.modLaunch l f).bumps = s.bumps := rfl
@[simp] theorem modLaunch_bumpReqs (l : Nat) (f : Launch → Launch) : (s.modLaunch l f).bumpReqs = s.bumpReqs := rfl
@[simp] theorem modLaunch_links (l : Nat) (f : Launch → Launch) : (s.modLaunch l f).links = s.links := rfl
@[simp] theorem modLaunch_queues (l : Nat) (f : Launch → Launch) : (s.modLaunch l f).queues = s.queues := rfl
@[simp] theorem modLaunch_launches (l : Nat) (f : Launch → Launch) : (s.modLaunch l f).launches = kmod s.launches l f := rfl
@[simp] theorem modLaunch_armed (l : Nat) (f : Launch → Launch) : (s.modLaunch l f).armed = s.armed := rfl
@[simp] theorem modLaunch_steers (l : Nat) (f : Launch → Launch) : (s.modLaunch l f).steers = s.steers := rfl
@[simp] theorem modLaunch_groups (l : Nat) (f : Launch → Launch) : (s.modLaunch l f).groups = s.groups := rfl
@[simp] theorem modLaunch_fe (l : Nat) (f : Launch → Launch) : (s.modLaunch l f).fe = s.fe := rfl

/-! modQueue -/
@[simp] theorem modQueue_clk (q : Nat) (f : Queue → Queue) : (s.modQueue q f).clk = s.clk := rfl
@[simp] theorem modQueue_agenda (q : Nat) (f : Queue → Queue) : (s.modQueue q f).agenda = s.agenda := rfl
@[simp] theorem modQueue_inputs (q : Nat) (f : Queue → Queue) : (s.modQueue q f).inputs = s.inputs := rfl
@[simp] theorem modQueue_cur (q : Nat) (f : Queue → Queue) : (s.modQueue q f).cur = s.cur := rfl
@[simp] theorem modQueue_free (q : Nat) (f : Queue → Queue) : (s.modQueue q f).free = s.free := rfl
@[simp] theorem modQueue_nextId (q : Nat) (f : Queue → Queue) : (s.modQueue q f).nextId = s.nextId := rfl
@[simp] theorem modQueue_wclock (q : Nat) (f : Queue → Queue) : (s.modQueue q f).wclock = s.wclock := rfl
@[simp] theorem modQueue_mem (q : Nat) (f : Queue → Queue) : (s.modQueue q f).mem = s.mem := rfl
@[simp] theorem modQueue_memPoison (q : Nat) (f : Queue → Queue) : (s.modQueue q f).memPoison = s.memPoison := rfl
@[simp] theorem modQueue_drvAsid (q : Nat) (f : Queue → Queue) : (s.modQueue q f).drvAsid = s.drvAsid := rfl
@[simp] theorem modQueue_pkgs (q : Nat) (f : Queue → Queue) : (s.modQueue q f).pkgs = s.pkgs := rfl
@[simp] theorem modQueue_dies (q : Nat) (f : Queue → Queue) : (s.modQueue q f).dies = s.dies := rfl
@[simp] theorem modQueue_cores (q : Nat) (f : Queue → Queue) : (s.modQueue q f).cores = s.cores := rfl
@[simp] theorem modQueue_copies (q : Nat) (f : Queue → Queue) : (s.modQueue q f).copies = s.copies := rfl
@[simp] theorem modQueue_homes (q : Nat) (f : Queue → Queue) : (s.modQueue q f).homes = s.homes := rfl
@[simp] theorem modQueue_dirs (q : Nat) (f : Queue → Queue) : (s.modQueue q f).dirs = s.dirs := rfl
@[simp] theorem modQueue_lockTab (q : Nat) (f : Queue → Queue) : (s.modQueue q f).lockTab = s.lockTab := rfl
@[simp] theorem modQueue_blocks (q : Nat) (f : Queue → Queue) : (s.modQueue q f).blocks = s.blocks := rfl
@[simp] theorem modQueue_warps (q : Nat) (f : Queue → Queue) : (s.modQueue q f).warps = s.warps := rfl
@[simp] theorem modQueue_reqs (q : Nat) (f : Queue → Queue) : (s.modQueue q f).reqs = s.reqs := rfl
@[simp] theorem modQueue_fes (q : Nat) (f : Queue → Queue) : (s.modQueue q f).fes = s.fes := rfl
@[simp] theorem modQueue_posts (q : Nat) (f : Queue → Queue) : (s.modQueue q f).posts = s.posts := rfl
@[simp] theorem modQueue_invals (q : Nat) (f : Queue → Queue) : (s.modQueue q f).invals = s.invals := rfl
@[simp] theorem modQueue_grants (q : Nat) (f : Queue → Queue) : (s.modQueue q f).grants = s.grants := rfl
@[simp] theorem modQueue_withdraws (q : Nat) (f : Queue → Queue) : (s.modQueue q f).withdraws = s.withdraws := rfl
@[simp] theorem modQueue_waitFors (q : Nat) (f : Queue → Queue) : (s.modQueue q f).waitFors = s.waitFors := rfl
@[simp] theorem modQueue_works (q : Nat) (f : Queue → Queue) : (s.modQueue q f).works = s.works := rfl
@[simp] theorem modQueue_msgs (q : Nat) (f : Queue → Queue) : (s.modQueue q f).msgs = s.msgs := rfl
@[simp] theorem modQueue_phases (q : Nat) (f : Queue → Queue) : (s.modQueue q f).phases = s.phases := rfl
@[simp] theorem modQueue_tickets (q : Nat) (f : Queue → Queue) : (s.modQueue q f).tickets = s.tickets := rfl
@[simp] theorem modQueue_bumps (q : Nat) (f : Queue → Queue) : (s.modQueue q f).bumps = s.bumps := rfl
@[simp] theorem modQueue_bumpReqs (q : Nat) (f : Queue → Queue) : (s.modQueue q f).bumpReqs = s.bumpReqs := rfl
@[simp] theorem modQueue_links (q : Nat) (f : Queue → Queue) : (s.modQueue q f).links = s.links := rfl
@[simp] theorem modQueue_queues (q : Nat) (f : Queue → Queue) : (s.modQueue q f).queues = kmod s.queues q f := rfl
@[simp] theorem modQueue_launches (q : Nat) (f : Queue → Queue) : (s.modQueue q f).launches = s.launches := rfl
@[simp] theorem modQueue_armed (q : Nat) (f : Queue → Queue) : (s.modQueue q f).armed = s.armed := rfl
@[simp] theorem modQueue_steers (q : Nat) (f : Queue → Queue) : (s.modQueue q f).steers = s.steers := rfl
@[simp] theorem modQueue_groups (q : Nat) (f : Queue → Queue) : (s.modQueue q f).groups = s.groups := rfl
@[simp] theorem modQueue_fe (q : Nat) (f : Queue → Queue) : (s.modQueue q f).fe = s.fe := rfl

/-! modReq -/
@[simp] theorem modReq_clk (r : Nat) (f : Req → Req) : (s.modReq r f).clk = s.clk := rfl
@[simp] theorem modReq_agenda (r : Nat) (f : Req → Req) : (s.modReq r f).agenda = s.agenda := rfl
@[simp] theorem modReq_inputs (r : Nat) (f : Req → Req) : (s.modReq r f).inputs = s.inputs := rfl
@[simp] theorem modReq_cur (r : Nat) (f : Req → Req) : (s.modReq r f).cur = s.cur := rfl
@[simp] theorem modReq_free (r : Nat) (f : Req → Req) : (s.modReq r f).free = s.free := rfl
@[simp] theorem modReq_nextId (r : Nat) (f : Req → Req) : (s.modReq r f).nextId = s.nextId := rfl
@[simp] theorem modReq_wclock (r : Nat) (f : Req → Req) : (s.modReq r f).wclock = s.wclock := rfl
@[simp] theorem modReq_mem (r : Nat) (f : Req → Req) : (s.modReq r f).mem = s.mem := rfl
@[simp] theorem modReq_memPoison (r : Nat) (f : Req → Req) : (s.modReq r f).memPoison = s.memPoison := rfl
@[simp] theorem modReq_drvAsid (r : Nat) (f : Req → Req) : (s.modReq r f).drvAsid = s.drvAsid := rfl
@[simp] theorem modReq_pkgs (r : Nat) (f : Req → Req) : (s.modReq r f).pkgs = s.pkgs := rfl
@[simp] theorem modReq_dies (r : Nat) (f : Req → Req) : (s.modReq r f).dies = s.dies := rfl
@[simp] theorem modReq_cores (r : Nat) (f : Req → Req) : (s.modReq r f).cores = s.cores := rfl
@[simp] theorem modReq_copies (r : Nat) (f : Req → Req) : (s.modReq r f).copies = s.copies := rfl
@[simp] theorem modReq_homes (r : Nat) (f : Req → Req) : (s.modReq r f).homes = s.homes := rfl
@[simp] theorem modReq_dirs (r : Nat) (f : Req → Req) : (s.modReq r f).dirs = s.dirs := rfl
@[simp] theorem modReq_lockTab (r : Nat) (f : Req → Req) : (s.modReq r f).lockTab = s.lockTab := rfl
@[simp] theorem modReq_blocks (r : Nat) (f : Req → Req) : (s.modReq r f).blocks = s.blocks := rfl
@[simp] theorem modReq_warps (r : Nat) (f : Req → Req) : (s.modReq r f).warps = s.warps := rfl
@[simp] theorem modReq_reqs (r : Nat) (f : Req → Req) : (s.modReq r f).reqs = kmod s.reqs r f := rfl
@[simp] theorem modReq_fes (r : Nat) (f : Req → Req) : (s.modReq r f).fes = s.fes := rfl
@[simp] theorem modReq_posts (r : Nat) (f : Req → Req) : (s.modReq r f).posts = s.posts := rfl
@[simp] theorem modReq_invals (r : Nat) (f : Req → Req) : (s.modReq r f).invals = s.invals := rfl
@[simp] theorem modReq_grants (r : Nat) (f : Req → Req) : (s.modReq r f).grants = s.grants := rfl
@[simp] theorem modReq_withdraws (r : Nat) (f : Req → Req) : (s.modReq r f).withdraws = s.withdraws := rfl
@[simp] theorem modReq_waitFors (r : Nat) (f : Req → Req) : (s.modReq r f).waitFors = s.waitFors := rfl
@[simp] theorem modReq_works (r : Nat) (f : Req → Req) : (s.modReq r f).works = s.works := rfl
@[simp] theorem modReq_msgs (r : Nat) (f : Req → Req) : (s.modReq r f).msgs = s.msgs := rfl
@[simp] theorem modReq_phases (r : Nat) (f : Req → Req) : (s.modReq r f).phases = s.phases := rfl
@[simp] theorem modReq_tickets (r : Nat) (f : Req → Req) : (s.modReq r f).tickets = s.tickets := rfl
@[simp] theorem modReq_bumps (r : Nat) (f : Req → Req) : (s.modReq r f).bumps = s.bumps := rfl
@[simp] theorem modReq_bumpReqs (r : Nat) (f : Req → Req) : (s.modReq r f).bumpReqs = s.bumpReqs := rfl
@[simp] theorem modReq_links (r : Nat) (f : Req → Req) : (s.modReq r f).links = s.links := rfl
@[simp] theorem modReq_queues (r : Nat) (f : Req → Req) : (s.modReq r f).queues = s.queues := rfl
@[simp] theorem modReq_launches (r : Nat) (f : Req → Req) : (s.modReq r f).launches = s.launches := rfl
@[simp] theorem modReq_armed (r : Nat) (f : Req → Req) : (s.modReq r f).armed = s.armed := rfl
@[simp] theorem modReq_steers (r : Nat) (f : Req → Req) : (s.modReq r f).steers = s.steers := rfl
@[simp] theorem modReq_groups (r : Nat) (f : Req → Req) : (s.modReq r f).groups = s.groups := rfl
@[simp] theorem modReq_fe (r : Nat) (f : Req → Req) : (s.modReq r f).fe = s.fe := rfl

/-! modWork -/
@[simp] theorem modWork_clk (e : Nat) (f : Work → Work) : (s.modWork e f).clk = s.clk := rfl
@[simp] theorem modWork_agenda (e : Nat) (f : Work → Work) : (s.modWork e f).agenda = s.agenda := rfl
@[simp] theorem modWork_inputs (e : Nat) (f : Work → Work) : (s.modWork e f).inputs = s.inputs := rfl
@[simp] theorem modWork_cur (e : Nat) (f : Work → Work) : (s.modWork e f).cur = s.cur := rfl
@[simp] theorem modWork_free (e : Nat) (f : Work → Work) : (s.modWork e f).free = s.free := rfl
@[simp] theorem modWork_nextId (e : Nat) (f : Work → Work) : (s.modWork e f).nextId = s.nextId := rfl
@[simp] theorem modWork_wclock (e : Nat) (f : Work → Work) : (s.modWork e f).wclock = s.wclock := rfl
@[simp] theorem modWork_mem (e : Nat) (f : Work → Work) : (s.modWork e f).mem = s.mem := rfl
@[simp] theorem modWork_memPoison (e : Nat) (f : Work → Work) : (s.modWork e f).memPoison = s.memPoison := rfl
@[simp] theorem modWork_drvAsid (e : Nat) (f : Work → Work) : (s.modWork e f).drvAsid = s.drvAsid := rfl
@[simp] theorem modWork_pkgs (e : Nat) (f : Work → Work) : (s.modWork e f).pkgs = s.pkgs := rfl
@[simp] theorem modWork_dies (e : Nat) (f : Work → Work) : (s.modWork e f).dies = s.dies := rfl
@[simp] theorem modWork_cores (e : Nat) (f : Work → Work) : (s.modWork e f).cores = s.cores := rfl
@[simp] theorem modWork_copies (e : Nat) (f : Work → Work) : (s.modWork e f).copies = s.copies := rfl
@[simp] theorem modWork_homes (e : Nat) (f : Work → Work) : (s.modWork e f).homes = s.homes := rfl
@[simp] theorem modWork_dirs (e : Nat) (f : Work → Work) : (s.modWork e f).dirs = s.dirs := rfl
@[simp] theorem modWork_lockTab (e : Nat) (f : Work → Work) : (s.modWork e f).lockTab = s.lockTab := rfl
@[simp] theorem modWork_blocks (e : Nat) (f : Work → Work) : (s.modWork e f).blocks = s.blocks := rfl
@[simp] theorem modWork_warps (e : Nat) (f : Work → Work) : (s.modWork e f).warps = s.warps := rfl
@[simp] theorem modWork_reqs (e : Nat) (f : Work → Work) : (s.modWork e f).reqs = s.reqs := rfl
@[simp] theorem modWork_fes (e : Nat) (f : Work → Work) : (s.modWork e f).fes = s.fes := rfl
@[simp] theorem modWork_posts (e : Nat) (f : Work → Work) : (s.modWork e f).posts = s.posts := rfl
@[simp] theorem modWork_invals (e : Nat) (f : Work → Work) : (s.modWork e f).invals = s.invals := rfl
@[simp] theorem modWork_grants (e : Nat) (f : Work → Work) : (s.modWork e f).grants = s.grants := rfl
@[simp] theorem modWork_withdraws (e : Nat) (f : Work → Work) : (s.modWork e f).withdraws = s.withdraws := rfl
@[simp] theorem modWork_waitFors (e : Nat) (f : Work → Work) : (s.modWork e f).waitFors = s.waitFors := rfl
@[simp] theorem modWork_works (e : Nat) (f : Work → Work) : (s.modWork e f).works = kmod s.works e f := rfl
@[simp] theorem modWork_msgs (e : Nat) (f : Work → Work) : (s.modWork e f).msgs = s.msgs := rfl
@[simp] theorem modWork_phases (e : Nat) (f : Work → Work) : (s.modWork e f).phases = s.phases := rfl
@[simp] theorem modWork_tickets (e : Nat) (f : Work → Work) : (s.modWork e f).tickets = s.tickets := rfl
@[simp] theorem modWork_bumps (e : Nat) (f : Work → Work) : (s.modWork e f).bumps = s.bumps := rfl
@[simp] theorem modWork_bumpReqs (e : Nat) (f : Work → Work) : (s.modWork e f).bumpReqs = s.bumpReqs := rfl
@[simp] theorem modWork_links (e : Nat) (f : Work → Work) : (s.modWork e f).links = s.links := rfl
@[simp] theorem modWork_queues (e : Nat) (f : Work → Work) : (s.modWork e f).queues = s.queues := rfl
@[simp] theorem modWork_launches (e : Nat) (f : Work → Work) : (s.modWork e f).launches = s.launches := rfl
@[simp] theorem modWork_armed (e : Nat) (f : Work → Work) : (s.modWork e f).armed = s.armed := rfl
@[simp] theorem modWork_steers (e : Nat) (f : Work → Work) : (s.modWork e f).steers = s.steers := rfl
@[simp] theorem modWork_groups (e : Nat) (f : Work → Work) : (s.modWork e f).groups = s.groups := rfl
@[simp] theorem modWork_fe (e : Nat) (f : Work → Work) : (s.modWork e f).fe = s.fe := rfl

/-! The updates of the issuer -/
@[simp] theorem modCur_clk (f : Split → Split) : (s.modCur f).clk = s.clk := rfl
@[simp] theorem modCur_agenda (f : Split → Split) : (s.modCur f).agenda = s.agenda := rfl
@[simp] theorem modCur_inputs (f : Split → Split) : (s.modCur f).inputs = s.inputs := rfl
@[simp] theorem modCur_cur (f : Split → Split) : (s.modCur f).cur = s.cur := rfl
@[simp] theorem modCur_free (f : Split → Split) : (s.modCur f).free = s.free := rfl
@[simp] theorem modCur_nextId (f : Split → Split) : (s.modCur f).nextId = s.nextId := rfl
@[simp] theorem modCur_wclock (f : Split → Split) : (s.modCur f).wclock = s.wclock := rfl
@[simp] theorem modCur_mem (f : Split → Split) : (s.modCur f).mem = s.mem := rfl
@[simp] theorem modCur_memPoison (f : Split → Split) : (s.modCur f).memPoison = s.memPoison := rfl
@[simp] theorem modCur_drvAsid (f : Split → Split) : (s.modCur f).drvAsid = s.drvAsid := rfl
@[simp] theorem modCur_pkgs (f : Split → Split) : (s.modCur f).pkgs = s.pkgs := rfl
@[simp] theorem modCur_dies (f : Split → Split) : (s.modCur f).dies = s.dies := rfl
@[simp] theorem modCur_cores (f : Split → Split) : (s.modCur f).cores = s.cores := rfl
@[simp] theorem modCur_copies (f : Split → Split) : (s.modCur f).copies = s.copies := rfl
@[simp] theorem modCur_homes (f : Split → Split) : (s.modCur f).homes = s.homes := rfl
@[simp] theorem modCur_dirs (f : Split → Split) : (s.modCur f).dirs = s.dirs := rfl
@[simp] theorem modCur_lockTab (f : Split → Split) : (s.modCur f).lockTab = s.lockTab := rfl
@[simp] theorem modCur_blocks (f : Split → Split) : (s.modCur f).blocks = s.blocks := rfl
@[simp] theorem modCur_reqs (f : Split → Split) : (s.modCur f).reqs = s.reqs := rfl
@[simp] theorem modCur_fes (f : Split → Split) : (s.modCur f).fes = s.fes := rfl
@[simp] theorem modCur_posts (f : Split → Split) : (s.modCur f).posts = s.posts := rfl
@[simp] theorem modCur_invals (f : Split → Split) : (s.modCur f).invals = s.invals := rfl
@[simp] theorem modCur_grants (f : Split → Split) : (s.modCur f).grants = s.grants := rfl
@[simp] theorem modCur_withdraws (f : Split → Split) : (s.modCur f).withdraws = s.withdraws := rfl
@[simp] theorem modCur_waitFors (f : Split → Split) : (s.modCur f).waitFors = s.waitFors := rfl
@[simp] theorem modCur_works (f : Split → Split) : (s.modCur f).works = s.works := rfl
@[simp] theorem modCur_msgs (f : Split → Split) : (s.modCur f).msgs = s.msgs := rfl
@[simp] theorem modCur_phases (f : Split → Split) : (s.modCur f).phases = s.phases := rfl
@[simp] theorem modCur_tickets (f : Split → Split) : (s.modCur f).tickets = s.tickets := rfl
@[simp] theorem modCur_bumps (f : Split → Split) : (s.modCur f).bumps = s.bumps := rfl
@[simp] theorem modCur_bumpReqs (f : Split → Split) : (s.modCur f).bumpReqs = s.bumpReqs := rfl
@[simp] theorem modCur_links (f : Split → Split) : (s.modCur f).links = s.links := rfl
@[simp] theorem modCur_queues (f : Split → Split) : (s.modCur f).queues = s.queues := rfl
@[simp] theorem modCur_launches (f : Split → Split) : (s.modCur f).launches = s.launches := rfl
@[simp] theorem modCur_armed (f : Split → Split) : (s.modCur f).armed = s.armed := rfl
@[simp] theorem modCur_steers (f : Split → Split) : (s.modCur f).steers = s.steers := rfl
@[simp] theorem modCur_groups (f : Split → Split) : (s.modCur f).groups = s.groups := rfl
@[simp] theorem modCur_fe (f : Split → Split) : (s.modCur f).fe = s.fe := rfl
@[simp] theorem modCurWarp_clk (f : Warp → Warp) : (s.modCurWarp f).clk = s.clk := rfl
@[simp] theorem modCurWarp_agenda (f : Warp → Warp) : (s.modCurWarp f).agenda = s.agenda := rfl
@[simp] theorem modCurWarp_inputs (f : Warp → Warp) : (s.modCurWarp f).inputs = s.inputs := rfl
@[simp] theorem modCurWarp_cur (f : Warp → Warp) : (s.modCurWarp f).cur = s.cur := rfl
@[simp] theorem modCurWarp_free (f : Warp → Warp) : (s.modCurWarp f).free = s.free := rfl
@[simp] theorem modCurWarp_nextId (f : Warp → Warp) : (s.modCurWarp f).nextId = s.nextId := rfl
@[simp] theorem modCurWarp_wclock (f : Warp → Warp) : (s.modCurWarp f).wclock = s.wclock := rfl
@[simp] theorem modCurWarp_mem (f : Warp → Warp) : (s.modCurWarp f).mem = s.mem := rfl
@[simp] theorem modCurWarp_memPoison (f : Warp → Warp) : (s.modCurWarp f).memPoison = s.memPoison := rfl
@[simp] theorem modCurWarp_drvAsid (f : Warp → Warp) : (s.modCurWarp f).drvAsid = s.drvAsid := rfl
@[simp] theorem modCurWarp_pkgs (f : Warp → Warp) : (s.modCurWarp f).pkgs = s.pkgs := rfl
@[simp] theorem modCurWarp_dies (f : Warp → Warp) : (s.modCurWarp f).dies = s.dies := rfl
@[simp] theorem modCurWarp_cores (f : Warp → Warp) : (s.modCurWarp f).cores = s.cores := rfl
@[simp] theorem modCurWarp_copies (f : Warp → Warp) : (s.modCurWarp f).copies = s.copies := rfl
@[simp] theorem modCurWarp_homes (f : Warp → Warp) : (s.modCurWarp f).homes = s.homes := rfl
@[simp] theorem modCurWarp_dirs (f : Warp → Warp) : (s.modCurWarp f).dirs = s.dirs := rfl
@[simp] theorem modCurWarp_lockTab (f : Warp → Warp) : (s.modCurWarp f).lockTab = s.lockTab := rfl
@[simp] theorem modCurWarp_blocks (f : Warp → Warp) : (s.modCurWarp f).blocks = s.blocks := rfl
@[simp] theorem modCurWarp_reqs (f : Warp → Warp) : (s.modCurWarp f).reqs = s.reqs := rfl
@[simp] theorem modCurWarp_fes (f : Warp → Warp) : (s.modCurWarp f).fes = s.fes := rfl
@[simp] theorem modCurWarp_posts (f : Warp → Warp) : (s.modCurWarp f).posts = s.posts := rfl
@[simp] theorem modCurWarp_invals (f : Warp → Warp) : (s.modCurWarp f).invals = s.invals := rfl
@[simp] theorem modCurWarp_grants (f : Warp → Warp) : (s.modCurWarp f).grants = s.grants := rfl
@[simp] theorem modCurWarp_withdraws (f : Warp → Warp) : (s.modCurWarp f).withdraws = s.withdraws := rfl
@[simp] theorem modCurWarp_waitFors (f : Warp → Warp) : (s.modCurWarp f).waitFors = s.waitFors := rfl
@[simp] theorem modCurWarp_works (f : Warp → Warp) : (s.modCurWarp f).works = s.works := rfl
@[simp] theorem modCurWarp_msgs (f : Warp → Warp) : (s.modCurWarp f).msgs = s.msgs := rfl
@[simp] theorem modCurWarp_phases (f : Warp → Warp) : (s.modCurWarp f).phases = s.phases := rfl
@[simp] theorem modCurWarp_tickets (f : Warp → Warp) : (s.modCurWarp f).tickets = s.tickets := rfl
@[simp] theorem modCurWarp_bumps (f : Warp → Warp) : (s.modCurWarp f).bumps = s.bumps := rfl
@[simp] theorem modCurWarp_bumpReqs (f : Warp → Warp) : (s.modCurWarp f).bumpReqs = s.bumpReqs := rfl
@[simp] theorem modCurWarp_links (f : Warp → Warp) : (s.modCurWarp f).links = s.links := rfl
@[simp] theorem modCurWarp_queues (f : Warp → Warp) : (s.modCurWarp f).queues = s.queues := rfl
@[simp] theorem modCurWarp_launches (f : Warp → Warp) : (s.modCurWarp f).launches = s.launches := rfl
@[simp] theorem modCurWarp_armed (f : Warp → Warp) : (s.modCurWarp f).armed = s.armed := rfl
@[simp] theorem modCurWarp_steers (f : Warp → Warp) : (s.modCurWarp f).steers = s.steers := rfl
@[simp] theorem modCurWarp_groups (f : Warp → Warp) : (s.modCurWarp f).groups = s.groups := rfl
@[simp] theorem modCurWarp_fe (f : Warp → Warp) : (s.modCurWarp f).fe = s.fe := rfl

/-! addReq -/
@[simp] theorem addReq_clk (r : Req) : (s.addReq r).clk = s.clk := rfl
@[simp] theorem addReq_agenda (r : Req) : (s.addReq r).agenda = s.agenda := rfl
@[simp] theorem addReq_inputs (r : Req) : (s.addReq r).inputs = s.inputs := rfl
@[simp] theorem addReq_cur (r : Req) : (s.addReq r).cur = s.cur := rfl
@[simp] theorem addReq_free (r : Req) : (s.addReq r).free = s.free := rfl
@[simp] theorem addReq_nextId (r : Req) : (s.addReq r).nextId = s.nextId + 1 := rfl
@[simp] theorem addReq_wclock (r : Req) : (s.addReq r).wclock = s.wclock := rfl
@[simp] theorem addReq_mem (r : Req) : (s.addReq r).mem = s.mem := rfl
@[simp] theorem addReq_memPoison (r : Req) : (s.addReq r).memPoison = s.memPoison := rfl
@[simp] theorem addReq_drvAsid (r : Req) : (s.addReq r).drvAsid = s.drvAsid := rfl
@[simp] theorem addReq_pkgs (r : Req) : (s.addReq r).pkgs = s.pkgs := rfl
@[simp] theorem addReq_dies (r : Req) : (s.addReq r).dies = s.dies := rfl
@[simp] theorem addReq_cores (r : Req) : (s.addReq r).cores = s.cores := rfl
@[simp] theorem addReq_copies (r : Req) : (s.addReq r).copies = s.copies := rfl
@[simp] theorem addReq_homes (r : Req) : (s.addReq r).homes = s.homes := rfl
@[simp] theorem addReq_dirs (r : Req) : (s.addReq r).dirs = s.dirs := rfl
@[simp] theorem addReq_lockTab (r : Req) : (s.addReq r).lockTab = s.lockTab := rfl
@[simp] theorem addReq_blocks (r : Req) : (s.addReq r).blocks = s.blocks := rfl
@[simp] theorem addReq_warps (r : Req) : (s.addReq r).warps = s.warps := rfl
@[simp] theorem addReq_reqs (r : Req) : (s.addReq r).reqs = kput s.reqs s.nextId r := rfl
@[simp] theorem addReq_fes (r : Req) : (s.addReq r).fes = s.fes := rfl
@[simp] theorem addReq_posts (r : Req) : (s.addReq r).posts = s.posts := rfl
@[simp] theorem addReq_invals (r : Req) : (s.addReq r).invals = s.invals := rfl
@[simp] theorem addReq_grants (r : Req) : (s.addReq r).grants = s.grants := rfl
@[simp] theorem addReq_withdraws (r : Req) : (s.addReq r).withdraws = s.withdraws := rfl
@[simp] theorem addReq_waitFors (r : Req) : (s.addReq r).waitFors = s.waitFors := rfl
@[simp] theorem addReq_works (r : Req) : (s.addReq r).works = s.works := rfl
@[simp] theorem addReq_msgs (r : Req) : (s.addReq r).msgs = s.msgs := rfl
@[simp] theorem addReq_phases (r : Req) : (s.addReq r).phases = s.phases := rfl
@[simp] theorem addReq_tickets (r : Req) : (s.addReq r).tickets = s.tickets := rfl
@[simp] theorem addReq_bumps (r : Req) : (s.addReq r).bumps = s.bumps := rfl
@[simp] theorem addReq_bumpReqs (r : Req) : (s.addReq r).bumpReqs = s.bumpReqs := rfl
@[simp] theorem addReq_links (r : Req) : (s.addReq r).links = s.links := rfl
@[simp] theorem addReq_queues (r : Req) : (s.addReq r).queues = s.queues := rfl
@[simp] theorem addReq_launches (r : Req) : (s.addReq r).launches = s.launches := rfl
@[simp] theorem addReq_armed (r : Req) : (s.addReq r).armed = s.armed := rfl
@[simp] theorem addReq_steers (r : Req) : (s.addReq r).steers = s.steers := rfl
@[simp] theorem addReq_groups (r : Req) : (s.addReq r).groups = s.groups := rfl
@[simp] theorem addReq_fe (r : Req) : (s.addReq r).fe = s.fe := rfl

end Sys2Proof.Laws
end

