-- ==== Sys2Proof/Laws/Ops.lean ====
section
/-! SUPPORT. What the shared operations on registers, results and spans do, each said once. -/

set_option Elab.async false

namespace Sys2Proof.Laws

open Sys2Proof.Machine Sys2Proof.Safety

theorem warp?_modWarp (s : State) (w k : Nat) (f : Warp → Warp) :
    (s.modWarp w f).warp? k = if k = w then (s.warp? w).map f else s.warp? k := kget?_kmod s.warps w k f

theorem issuer_curWarp {s : State} {w : Warp} {p : Split} (h : Issuer s w p) : s.curWarp = w := by
  simp [State.curWarp, State.warpD, h.1]

theorem issuer_curSplit {s : State} {w : Warp} {p : Split} (h : Issuer s w p) : s.curSplit = p := by
  simp [State.curSplit, State.splitD, State.split?, h.1, h.2.1]

/-! ## A change of the issuing warp alone -/

/-- The issuing warp changes, and the model's counters. -/
def issued (s : State) (ids frees : Nat) (f : Warp → Warp) : State :=
  { s with nextId := s.nextId + ids, free := s.free + frees, warps := kmod s.warps s.cur.1 f }

@[simp] theorem issued_cur (s : State) (a b : Nat) (f : Warp → Warp) : (issued s a b f).cur = s.cur := rfl
@[simp] theorem issued_clk (s : State) (a b : Nat) (f : Warp → Warp) : (issued s a b f).clk = s.clk := rfl
@[simp] theorem issued_nextId (s : State) (a b : Nat) (f : Warp → Warp) : (issued s a b f).nextId = s.nextId + a := rfl
@[simp] theorem issued_mem (s : State) (a b : Nat) (f : Warp → Warp) : (issued s a b f).mem = s.mem := rfl
@[simp] theorem issued_orderKey (s : State) (a b : Nat) (f : Warp → Warp) : (issued s a b f).orderKey = s.orderKey := rfl

theorem issued_issued (s : State) (a b c d : Nat) (f g : Warp → Warp) :
    issued (issued s a b f) c d g = issued s (a + c) (b + d) fun w => g (f w) := by
  simp [issued, kmod_kmod, Nat.add_assoc]

theorem issued_congr {s : State} {w : Warp} (hw : s.warp? s.cur.1 = some w) (a b : Nat) {f g : Warp → Warp} (h : f w = g w) :
    issued s a b f = issued s a b g := by
  simp only [issued, kmod_congr s.warps s.cur.1 hw h]

theorem issued_warp (s : State) (a b : Nat) (f : Warp → Warp) :
    (issued s a b f).warp? s.cur.1 = (s.warp? s.cur.1).map f := kget?_kmod_self s.warps s.cur.1 f

theorem issued_only (s : State) (a b : Nat) (f : Warp → Warp) : OnlyIssuer s (issued s a b f) :=
  ⟨rfl, fun _ hk => kget?_kmod_ne s.warps f hk⟩

theorem issued_issuer {s : State} {w : Warp} {p : Split} (h : Issuer s w p) (a b : Nat) {f : Warp → Warp}
    (hf : (f w).table = w.table) : Issuer (issued s a b f) (f w) p :=
  ⟨by rw [issued_cur, issued_warp, h.1]; rfl, by rw [hf]; exact h.2.1, h.2.2⟩

/-! ## Results -/

/-- The result that `addResult` enters. -/
def newResult (s : State) (w : Warp) (p : Split) (d : Dest) (lat : Nat) (lanes : Lanes) (vals : KMap Lane)
    (sval : Word) (mem : Bool) : Result :=
  { dest := match d with | .sca 63 => .none | x => x
    span := p.span, own := p.lmask, key := s.orderKey, due := if mem then 0 else s.clk + lat, mem := mem
    lanes := lanes, pend := lanes, vals := vals
    olds := match d with | .vec n => (lanesOf lanes).map fun l => (l, kgetD w.v (32 * n + l) 0) | _ => []
    sval := sval
    sold := match d with | .sca n => kgetD w.sc n 0 | .msk n => (kgetD w.m n 0).setWidth 64 | _ => 0
    coming := [], done := mem && lanes == 0 }

/-- A result enters the warp under the next number; no register changes yet. -/
def enter (k : Nat) (r : Result) (w : Warp) : Warp := { w with results := kput w.results k r }

theorem addResult_eq {s : State} {w : Warp} {p : Split} (h : Issuer s w p) (d : Dest) (lat : Nat) (lanes : Lanes)
    (vals : KMap Lane) (sval : Word) (mem : Bool) :
    s.addResult d lat lanes vals sval mem = issued s 1 0 (enter s.nextId (newResult s w p d lat lanes vals sval mem)) := by
  simp only [State.addResult, issuer_curWarp h, issuer_curSplit h]; rfl

theorem outstanding_of_result {w : Warp} {p : Split} {k : Nat} {r : Result} (hr : kget? w.results k = some r)
    (hl : p.len ≠ 0) (hw : r.waits p = true) : w.outstanding p = true := by
  have hmem : ∀ (l : KMap Result), kget? l k = some r → (k, r) ∈ l := by
    intro l
    induction l with
    | nil => simp
    | cons a t ih =>
      obtain ⟨i, v⟩ := a
      simp only [kget?]
      split
      · subst_vars; intro h; cases h; simp
      · intro h; simp [ih h]
  simp only [Warp.outstanding, Bool.and_eq_true, bne_iff_ne, ne_eq, hl, not_false_eq_true, true_and, List.any_eq_true]
  exact ⟨(k, r), hmem _ hr, hw⟩

/-- A result that is no memory result keeps its split waiting. -/
theorem newResult_waits {s : State} {w : Warp} {p q : Split} {d : Dest} {lat : Nat} {lanes : Lanes} {vals : KMap Lane} {x : Word}
    (hs : q.span = p.span) (hm : q.lmask = p.lmask) (hp : p.lmask ≠ 0) :
    (newResult s w p d lat lanes vals x false).waits q = true := by
  have : (p.lmask &&& q.lmask) ≠ 0 := by rw [hm, BitVec.and_self]; exact hp
  simp only [Result.waits, newResult, hs]
  cases d <;> simp_all

/-! ## Going on -/

/-- Where `retire` takes a split whose span has a result still to come. -/
def goneOn (s : State) (sw : Bool) (lat words : Nat) (p : Split) : Split :=
  let q := { p with pc := p.pc + BitVec.ofNat 48 words, len := p.len + 1, rdy := max p.rdy (s.clk + lat) }
  if spanEnds sw p then { q with st := .spanPark, after := .none } else q

/-- A warp whose split goes on. -/
def onward (slot : Nat) (g : Split → Split) (w : Warp) : Warp := { w with table := kmod w.table slot g }

theorem outstanding_table (w : Warp) (t : KMap Split) (q : Split) :
    Warp.outstanding { w with table := t } q = w.outstanding q := rfl

theorem retire_waiting {s : State} {w : Warp} {p : Split} (h : Issuer s w p) (sw : Bool) (lat words : Nat)
    (ho : ∀ q : Split, q.span = p.span → q.lmask = p.lmask → q.len ≠ 0 → w.outstanding q = true) :
    s.retire sw lat words = issued s 0 1 (onward s.cur.2 (goneOn s sw lat words)) := by
  obtain ⟨hw, hp, hst, -⟩ := h
  have hcs : s.curSplit = p := by simp [State.curSplit, State.splitD, State.split?, hw, hp]
  have hw' : kget? s.warps s.cur.1 = some w := hw
  simp only [State.retire, hcs]
  by_cases hsp : spanEnds sw p
  · simp only [hsp, if_true]
    simp only [State.endSpan, State.modCur, State.modSplit, State.modWarp, State.warp?, State.split?, kget?_kmod_self, hw',
      Option.map_some, Option.bind_some, hp, kmod_kmod]
    simp only [outstanding_table, ho, ne_eq, Nat.add_eq_zero_iff, Nat.one_ne_zero, and_false, not_false_eq_true]
    simp only [if_true, issued, State.mk.injEq, true_and, and_true, Nat.add_zero]
    refine kmod_congr _ _ hw' ?_
    simp only [onward]
    congr 1
    refine kmod_congr _ _ hp ?_
    simp [goneOn, hsp, Split.setEff, hst]
  · simp only [hsp]
    simp only [State.modCur, State.modSplit, State.modWarp, Bool.false_eq_true, if_false, issued, State.mk.injEq, true_and, and_true,
      Nat.add_zero]
    refine kmod_congr _ _ hw' ?_
    simp only [onward]
    congr 1
    refine kmod_congr _ _ hp ?_
    simp [goneOn, hsp]

theorem goneOn_goesOn {s : State} {w : Warp} {p : Split} (h : Issuer s w p) (sw : Bool) (lat words : Nat) :
    GoesOn (onward s.cur.2 (goneOn s sw lat words) w) s.cur.2 p sw words := by
  refine ⟨goneOn s sw lat words p, by simp [onward, h.2.1], ?_⟩
  by_cases hs : spanEnds sw p <;> simp [goneOn, hs, h.2.2.1]

/-- What `retire` does (09 R238, R239): the split goes on and no register changes. -/
theorem retire_proceeds {s : State} {w : Warp} {p : Split} (h : Issuer s w p) (sw : Bool) (lat words : Nat) :
    ∃ ids f, s.retire sw lat words = issued s ids 1 f ∧ RegsKept w (f w) ∧ OthersKept w (f w) s.cur.2
      ∧ Proceeds (f w) s.cur.2 p sw words ∧ ∀ k r, kget? w.results k = some r → r.done = false → kget? (f w).results k = some r := by
  obtain ⟨hw, hp, hst, -⟩ := h
  have hcs : s.curSplit = p := by simp [State.curSplit, State.splitD, State.split?, hw, hp]
  have hw' : kget? s.warps s.cur.1 = some w := hw
  simp only [State.retire, hcs]
  by_cases hsp : spanEnds sw p
  · simp only [hsp, if_true]
    simp only [State.endSpan, State.modCur, State.modSplit, State.modWarp, State.warp?, State.split?, kget?_kmod_self, hw',
      Option.map_some, Option.bind_some, hp, kmod_kmod, outstanding_table]
    split
    · refine ⟨0, onward s.cur.2 (goneOn s sw lat words), ?_, rfl, fun k hk => by simp [onward, kget?_kmod_ne _ _ hk], ?_,
        fun k r hk _ => hk⟩
      · simp only [issued, State.mk.injEq, true_and, and_true, Nat.add_zero]
        refine kmod_congr _ _ hw' ?_
        simp only [onward]
        congr 1
        refine kmod_congr _ _ hp ?_
        simp [goneOn, hsp, Split.setEff, hst]
      · exact ⟨goneOn s sw lat words p, by simp [onward, hp], by simp [goneOn, hsp]⟩
    · refine ⟨1, fun w => Warp.gc (onward s.cur.2 (fun p => { p with
          pc := p.pc + BitVec.ofNat 48 words, st := .ready, span := s.nextId, len := 0, after := .none, rdy := 0
          notBefore := max (max (max p.rdy (s.clk + lat)) p.notBefore) (s.clk + 1), fault := none }) w), ?_, rfl,
          fun k hk => by simp [onward, Warp.gc, kget?_kmod_ne _ _ hk], ?_, fun k r hk hd => ?_⟩
      · simp only [State.freshReady, issued, State.modWarp, State.mk.injEq, true_and, and_true, kmod_kmod]
        refine kmod_congr _ _ hw' ?_
        simp only [onward]
        congr 2
        refine kmod_congr _ _ hp ?_
        simp [Split.setEff, hst]
      · exact ⟨_, by simp [onward, Warp.gc, hp]; rfl, by simp [hsp]⟩
      · exact kget?_filter _ _ hk (by simp [hd])
  · refine ⟨0, onward s.cur.2 (goneOn s sw lat words), ?_, rfl, fun k hk => by simp [onward, kget?_kmod_ne _ _ hk], ?_,
      fun k r hk _ => hk⟩
    · simp only [hsp, State.modCur, State.modSplit, State.modWarp, Bool.false_eq_true, if_false, issued, State.mk.injEq, true_and,
        and_true, Nat.add_zero]
      refine kmod_congr _ _ hw' ?_
      simp only [onward]
      congr 1
      refine kmod_congr _ _ hp ?_
      simp [goneOn, hsp]
    · exact ⟨goneOn s sw lat words p, by simp [onward, hp], by simp [goneOn, hsp, hst]⟩

/-- What a scalar instruction does (05 R100, 09 R238, R239). -/
theorem scalarOp_done {s : State} {w : Warp} {p : Split} (h : Issuer s w p) (sw : Bool) (sd lat words : Nat) (x : Word) :
    ScalarDone s (s.scalarOp sw sd lat words x) w p sw sd lat words x := by
  generalize hr : newResult s w p (.sca sd) lat (BitVec.allOnes 32) [] x false = r
  have hi := issued_issuer h 1 0 (f := enter s.nextId r) rfl
  have ht : s.scalarOp sw sd lat words x =
      issued s 1 1 fun w => onward s.cur.2 (goneOn s sw lat words) (enter s.nextId r w) := by
    rw [State.scalarOp, State.putS, addResult_eq h, hr, retire_waiting hi sw lat words fun q h1 h2 h3 =>
      outstanding_of_result (k := s.nextId) (r := r) (by simp [enter]) h3 (hr ▸ newResult_waits h1 h2 h.2.2.2), issued_issued]
    rfl
  rw [ht]
  refine ⟨issued_only s _ _ _, onward s.cur.2 (goneOn s sw lat words) (enter s.nextId r w), ?_, rfl, fun k hk => ?_, ?_,
    ⟨r, ?_, ?_⟩, fun k hk => ?_⟩
  · rw [issued_warp, h.1]; rfl
  · simp [onward, enter, kget?_kmod_ne _ _ hk]
  · exact goneOn_goesOn hi sw lat words
  · subst hr
    refine ⟨by simp [onward, enter], ?_, rfl, rfl, rfl, rfl⟩
    by_cases h63 : sd = 63
    · subst h63; rfl
    · simp only [newResult, h63, if_false]
      split <;> simp_all
  · subst hr; rfl
  · simp [onward, enter, kget?_kput_ne _ _ hk]

end Sys2Proof.Laws
end

