-- ==== Sys2Proof/Laws/Faults.lean ====
section
/-! SUPPORT. Taking an exception, said once. -/

set_option Elab.async false

namespace Sys2Proof.Laws

open Sys2Proof.Machine Sys2Proof.Safety

/-! ## What a translation reads -/

theorem walkFrom_congr {s t : State} (h : s.mem = t.mem) (pkg va n die frame : Nat) :
    s.walkFrom pkg va n die frame = t.walkFrom pkg va n die frame := by
  induction n generalizing die frame with
  | zero => rfl
  | succ n ih =>
    have e : ∀ k, s.mem8 k = t.mem8 k := fun k => by simp only [State.mem8, h]
    rw [State.walkFrom, State.walkFrom, e, ih]

theorem lookup_congr {s t : State} (h : s.mem = t.mem) (hp : s.pkgs = t.pkgs) (pkg asid va : Nat) :
    s.lookup pkg asid va = t.lookup pkg asid va := by
  have e : s.asidEntry pkg asid = t.asidEntry pkg asid := by simp only [State.asidEntry, State.mem8, h]
  have w : s.walk pkg asid va = t.walk pkg asid va := by
    unfold State.walk; dsimp only; rw [e, walkFrom_congr h]
  have o : ∀ l, s.homeOf pkg asid l va = t.homeOf pkg asid l va := by
    intro l
    have q : ∀ n, s.poolPkgs pkg n = t.poolPkgs pkg n := fun n => by simp only [State.poolPkgs, State.pkg, hp]
    unfold State.homeOf; dsimp only; rw [e, q]
  unfold State.lookup
  rw [w]
  split
  · rfl
  · rw [o]

/-! ## The front end's writes -/

theorem homeByte_eq (s : State) (pkg asid va : Nat) (b : Byte) :
    s.homeByte pkg asid va b = { s with mem := (s.homeByte pkg asid va b).mem } := by
  unfold State.homeByte
  split <;> rfl

theorem homeByte_congr {s t : State} (h : s.mem = t.mem) (hp : s.pkgs = t.pkgs) (pkg asid va : Nat) (b : Byte) :
    (s.homeByte pkg asid va b).mem = (t.homeByte pkg asid va b).mem := by
  unfold State.homeByte
  rw [lookup_congr h hp]
  split <;> simp [h]

/-- The bytes that the front end writes. -/
def feBytes (s : State) (asid : Nat) (va : Nat) (l : List (Nat × Byte)) : State :=
  l.foldl (fun s p => s.homeByte s.fe.primary asid (va + p.1) p.2) s

theorem feBytes_eq (asid va : Nat) (l : List (Nat × Byte)) (s : State) :
    feBytes s asid va l = { s with mem := (feBytes s asid va l).mem } := by
  induction l generalizing s with
  | nil => rfl
  | cons a r ih =>
    have e := homeByte_eq s s.fe.primary asid (va + a.1) a.2
    have i := ih (s.homeByte s.fe.primary asid (va + a.1) a.2)
    have c : feBytes s asid va (a :: r) = feBytes (s.homeByte s.fe.primary asid (va + a.1) a.2) asid va r := rfl
    rw [c, i, e]

theorem feBytes_congr (asid va : Nat) (l : List (Nat × Byte)) {s t : State} (h : s.mem = t.mem) (hp : s.pkgs = t.pkgs)
    (hf : s.fe = t.fe) : (feBytes s asid va l).mem = (feBytes t asid va l).mem := by
  induction l generalizing s t with
  | nil => exact h
  | cons a r ih =>
    refine ih (s := s.homeByte s.fe.primary asid (va + a.1) a.2) (t := t.homeByte t.fe.primary asid (va + a.1) a.2) ?_ ?_ ?_
    · rw [hf]; exact homeByte_congr h hp _ _ _ _
    · rw [homeByte_eq s, homeByte_eq t]; exact hp
    · rw [homeByte_eq s, homeByte_eq t]; exact hf

/-- A write of the front end changes memory and copies alone (15 R355). -/
theorem feWrite_eq (s : State) (asid va : Nat) (l : List Byte) :
    s.feWrite asid va l = { s with mem := (s.feWrite asid va l).mem, copies := (s.feWrite asid va l).copies } := by
  have e := feBytes_eq asid va (List.zip (List.range l.length) l) s
  simp only [feBytes] at e
  unfold State.feWrite
  split
  · exact e ▸ rfl
  · simp only [State.dropCopies]; rw [e]

theorem feWrite_mem_congr {s t : State} (h : s.mem = t.mem) (hp : s.pkgs = t.pkgs) (hf : s.fe = t.fe) (asid va : Nat)
    (l : List Byte) : (s.feWrite asid va l).mem = (t.feWrite asid va l).mem := by
  have e := feBytes_congr asid va (List.zip (List.range l.length) l) h hp hf
  simp only [feBytes] at e
  unfold State.feWrite
  split <;> simpa [State.dropCopies] using e

/-! ## Taking an exception -/

/-- The split parked by an exception. -/
def parked (s : State) (kind : FaultKind) (code : Nat) (info : Word) (now : Bool) (w : Warp) (p : Split) : Split :=
  { ({ p.setEff .faulted with wobj := 0, waux := 0, arr := s.nextId, halted := p.halted || w.haltH != 0 } : Split) with
    fault := some ⟨kind, code, info, p.pc, noSeq, noSeq, now⟩ }

/-- The warp of a split parked by an exception. -/
def parkedWarp (s : State) (kind : FaultKind) (code : Nat) (info : Word) (now : Bool) (w : Warp) : Warp :=
  { w with whole := w.whole || w.haltH != 0, table := kmod w.table s.cur.2 (parked s kind code info now w) }

theorem enterFault_eq (s : State) (kind : FaultKind) (code : Nat) (info : Word) (now : Bool) :
    ((s.enterWait s.cur.1 s.cur.2 .faulted 0 0).modSplit s.cur.1 s.cur.2 fun p =>
      { p with fault := some ⟨kind, code, info, p.pc, noSeq, noSeq, now⟩ })
      = issued s 1 0 (parkedWarp s kind code info now) := by
  simp only [State.enterWait, State.modSplit, State.modWarp, issued, kmod_kmod, Nat.add_zero]
  congr 1
  apply congrArg
  funext w
  congr 1
  apply congrArg
  funext p
  cases hp : p.st <;> simp [parked, Split.setEff, hp]

theorem raiseAt_eq {s : State} {w : Warp} {p : Split} (h : Issuer s w p) (kind : FaultKind) (code : Nat) (info : Word) :
    s.raiseAt s.cur.1 s.cur.2 kind code info =
      let s1 := issued s 1 0 (parkedWarp s kind code info (!w.awaits p))
      if w.awaits p then s1
      else s1.postExc (s1.launchOf s.cur.1).queue (s1.excOf s.cur.1 s.cur.2 code info p.pc p.lmask true) := by
  have e : s.split? s.cur.1 s.cur.2 = some p := by simp [State.split?, h.1, h.2.1]
  have d : s.warpD s.cur.1 = w := by simp [State.warpD, h.1]
  unfold State.raiseAt
  rw [e]
  dsimp only
  rw [d, enterFault_eq]
  cases w.awaits p <;> rfl

theorem issued_launchOf {s : State} {w : Warp} {p : Split} (h : Issuer s w p) (a b : Nat) {f : Warp → Warp}
    (hf : (f w).block = w.block) : (issued s a b f).launchOf s.cur.1 = s.curLaunch := by
  have e : (issued s a b f).warpD s.cur.1 = f w := by simp [State.warpD, issued_warp, h.1]
  simp only [State.launchOf, State.blockOf, e, hf, State.curLaunch, State.curBlock, issuer_curWarp h]
  rfl

theorem parked_facts {s : State} {w : Warp} {p : Split} (h : Issuer s w p) (kind : FaultKind) (code : Nat) (info : Word) (now : Bool) :
    kget? (parkedWarp s kind code info now w).table s.cur.2 = some (parked s kind code info now w p) := by
  simp [parkedWarp, h.2.1]

/-- Naming the record of a fault changes the fault's numbers alone. -/
def nameFault (code seq : Nat) (m : Lanes) (t : Nat × Split) : Nat × Split :=
  if t.2.eff = .faulted ∧ t.2.lmask = m then (t.1, { t.2 with fault := t.2.fault.map fun f => f.named code seq }) else t

theorem kget?_map_name (code seq : Nat) (m : Lanes) (l : KMap Split) (k : Nat) :
    kget? (l.map (nameFault code seq m)) k = (kget? l k).map fun p => (nameFault code seq m (k, p)).2 := by
  induction l with
  | nil => rfl
  | cons a r ih =>
    obtain ⟨j, q⟩ := a
    have e : (nameFault code seq m (j, q)).1 = j := by simp only [nameFault]; split <;> rfl
    have c : (nameFault code seq m (j, q)) = (j, (nameFault code seq m (j, q)).2) := by rw [Prod.ext_iff]; exact ⟨e, rfl⟩
    rw [List.map_cons, c]
    simp only [kget?]
    split
    · next hk => subst hk; rfl
    · exact ih

theorem writeExc_eq (s : State) (q : Nat) (r : ExcRec) (hl : r.last = true) (hn : r.noans = false) :
    s.writeExc q r =
      { s with
        mem := (s.feWrite s.drvAsid ((s.queueD q).exq.toNat + 64 * ((s.queueD q).xprod % 2 ^ (s.queueD q).xlog))
          (r.bytes q (s.queueD q).seq (s.queueD q).ovf)).mem
        copies := (s.writeExc q r).copies
        queues := (s.writeExc q r).queues
        warps := kmod s.warps r.wid fun w => { w with table := w.table.map (nameFault r.code (s.queueD q).seq r.lmask) } } := by
  unfold State.writeExc
  simp only [hl, hn, Bool.not_false, Bool.and_self, if_true]
  rw [feWrite_eq]
  simp only [State.modQueue, State.modWarp]
  rfl

theorem issued_feWrite (s : State) (a b : Nat) (f : Warp → Warp) (asid va : Nat) (l : List Byte) :
    ((issued s a b f).feWrite asid va l).mem = (s.feWrite asid va l).mem :=
  feWrite_mem_congr (s := issued s a b f) (t := s) rfl rfl rfl asid va l

theorem named_facts (f : FaultInfo) (c n : Nat) : (f.named c n).code = f.code ∧ (f.named c n).info = f.info
    ∧ (f.named c n).pc = f.pc := by
  unfold FaultInfo.named; split <;> exact ⟨rfl, rfl, rfl⟩

/-- Taking an exception (02 R63, 07 R178). -/
theorem raiseAt_takes {s : State} {w : Warp} {p : Split} (h : Issuer s w p) (kind : FaultKind) (code : Nat) (info : Word) :
    TakesFault s (s.raiseAt s.cur.1 s.cur.2 kind code info) w p code info := by
  have hs : p.st ≠ .dormant := by rw [h.2.2.1]; decide
  have pst : (parked s kind code info (!w.awaits p) w p).st = .faulted := by simp [parked, Split.setEff, hs]
  rw [raiseAt_eq h]
  have hl : (issued s 1 0 (parkedWarp s kind code info (!w.awaits p))).launchOf s.cur.1 = s.curLaunch :=
    issued_launchOf h _ _ rfl
  have pf := parked_facts h kind code info (!w.awaits p)
  have base : ∀ (t : State), t.warp? s.cur.1 = some (parkedWarp s kind code info (!w.awaits p) w) →
      ∃ w' p' f, t.warp? s.cur.1 = some w' ∧ w' = { w with table := w'.table, whole := w'.whole }
        ∧ (∀ k q, k ≠ s.cur.2 → kget? w.table k = some q → q.lmask ≠ p.lmask → kget? w'.table k = some q)
        ∧ kget? w'.table s.cur.2 = some p' ∧ p'.st = .faulted ∧ p'.pc = p.pc ∧ p'.lmask = p.lmask
        ∧ p'.fault = some f ∧ f.code = code ∧ f.info = info ∧ f.pc = p.pc := by
    intro t ht
    refine ⟨_, _, ⟨kind, code, info, p.pc, noSeq, noSeq, !w.awaits p⟩, ht, rfl, ?_, pf, pst, ?_, ?_, rfl, rfl, rfl, rfl⟩
    · intro k q hk hq _
      simpa [parkedWarp, kget?_kmod_ne _ _ hk] using hq
    · simp [parked, Split.setEff, hs]
    · simp [parked, Split.setEff, hs]
  have hw : (issued s 1 0 (parkedWarp s kind code info (!w.awaits p))).warp? s.cur.1
      = some (parkedWarp s kind code info (!w.awaits p) w) := by rw [issued_warp, h.1]; rfl
  dsimp only
  cases ha : w.awaits p
  · simp only [Bool.false_eq_true, if_false]
    rw [ha] at hl hw base pf pst
    rw [hl]
    unfold State.postExc
    have hq : (issued s 1 0 (parkedWarp s kind code info (!false))).queueD s.curLaunch.queue = s.queueD s.curLaunch.queue := rfl
    rw [hq]
    dsimp only
    by_cases hc : (s.queueD s.curLaunch.queue).heldRecs.isEmpty = true ∧
        ringCount (s.queueD s.curLaunch.queue).xprod (s.queueD s.curLaunch.queue).xcons < 2 ^ (s.queueD s.curLaunch.queue).xlog
    · rw [if_pos hc, writeExc_eq _ _ _ rfl rfl, hq]
      generalize hM : (State.feWrite _ _ _ _).mem = M
      generalize (State.writeExc _ _ _).copies = C
      generalize (State.writeExc _ _ _).queues = Q
      have hc' := hc
      rw [List.isEmpty_iff] at hc'
      refine ⟨rfl, ?_, ?_, ?_⟩
      · intro k hk
        simp only [State.warp?, State.excOf]
        rw [kget?_kmod_ne _ _ hk]
        exact kget?_kmod_ne _ _ hk
      · refine ⟨{ parkedWarp s kind code info (!false) w with
            table := (parkedWarp s kind code info (!false) w).table.map
              (nameFault code (s.queueD s.curLaunch.queue).seq p.lmask) },
          (nameFault code (s.queueD s.curLaunch.queue).seq p.lmask (s.cur.2, parked s kind code info (!false) w p)).2,
          FaultInfo.named ⟨kind, code, info, p.pc, noSeq, noSeq, !false⟩ code (s.queueD s.curLaunch.queue).seq, ?_, rfl, ?_, ?_, ?_, ?_,
          ?_, ?_, ?_⟩
        · simp only [State.warp?, State.excOf]
          rw [kget?_kmod_self]
          simp only [State.warp?] at hw
          rw [hw]; rfl
        · intro k q hk hq' hm
          simp only [kget?_map_name, parkedWarp, kget?_kmod_ne _ _ hk, hq', Option.map_some]
          simp [nameFault, hm]
        · simp only [kget?_map_name, pf, Option.map_some]
        · simp only [nameFault]; split <;> simpa using pst
        · simp only [nameFault]; split <;> simp [parked, Split.setEff, hs]
        · simp only [nameFault]; split <;> simp [parked, Split.setEff, hs]
        · have e : (parked s kind code info (!false) w p).eff = .faulted := by
            unfold Split.eff; rw [pst]; rfl
          have m : (parked s kind code info (!false) w p).lmask = p.lmask := by simp [parked, Split.setEff, hs]
          simp only [nameFault, e, m, and_self, if_true]
          rfl
        · have n := named_facts ⟨kind, code, info, p.pc, noSeq, noSeq, !false⟩ code (s.queueD s.curLaunch.queue).seq
          exact ⟨n.1, n.2.1, n.2.2⟩
      · rw [if_pos ⟨ha, hc'.1, hc'.2⟩]
        refine ⟨(issued s 1 0 (parkedWarp s kind code info (!false))).excOf s.cur.1 s.cur.2 code info p.pc p.lmask true,
          rfl, rfl, rfl, rfl, rfl, rfl, ?_⟩
        rw [issued_feWrite] at hM
        exact hM.symm
    · rw [if_neg hc]
      refine ⟨rfl, fun k hk => kget?_kmod_ne _ _ hk, base _ hw, ?_⟩
      rw [if_neg (by rw [← List.isEmpty_iff]; exact fun x => hc x.2)]
      exact ⟨rfl, rfl⟩
  · simp only [if_true]
    rw [ha] at hw base
    refine ⟨rfl, fun k hk => kget?_kmod_ne _ _ hk, base _ hw, ?_⟩
    rw [if_neg (fun x => by simp [ha] at x)]
    exact ⟨rfl, rfl⟩

end Sys2Proof.Laws
end

