-- ==== Sys2Proof/Laws/Memory.lean ====
section
/-! SUPPORT. Laws of memory: reading after writing, and the canonical form that every write keeps. -/

set_option Elab.async false

namespace Sys2Proof.Laws

open Sys2Proof.Machine

/-- Every address listed lies above `a`. -/
def Above (a : Nat) (m : List Host.Cell) : Prop := ∀ p ∈ m, a < p.1

theorem wf_cons (k : Nat) (v : Byte) (r : List Host.Cell) :
    Memory.wf ((k, v) :: r) = true ↔ v ≠ 0 ∧ Above k r ∧ Memory.wf r = true := by
  simp [Memory.wf, Above, and_assoc]

theorem memGet_above (m : List Host.Cell) (a : Nat) (h : Above a m) : memGet m a = 0 := by
  induction m with
  | nil => rfl
  | cons p r ih =>
    have h1 : a < p.1 := h p (by simp)
    simp only [memGet]
    rw [if_neg (by omega)]
    exact ih fun q hq => h q (by simp [hq])

theorem memDel_mem (m : List Host.Cell) (a : Nat) (p : Host.Cell) (h : p ∈ memDel m a) : p ∈ m := by
  induction m with
  | nil => simp [memDel] at h
  | cons q r ih =>
    simp only [memDel] at h
    split at h
    · simp [h]
    · rcases List.mem_cons.mp h with h | h
      · simp [h]
      · simp [ih h]

theorem memDel_wf (m : List Host.Cell) (a : Nat) (h : Memory.wf m = true) : Memory.wf (memDel m a) = true := by
  induction m with
  | nil => rfl
  | cons q r ih =>
    obtain ⟨h1, h2, h3⟩ := (wf_cons _ _ _).mp h
    simp only [memDel]
    split
    · exact h3
    · exact (wf_cons _ _ _).mpr ⟨h1, fun p hp => h2 p (memDel_mem r a p hp), ih h3⟩

theorem memIns_mem (m : List Host.Cell) (a : Nat) (b : Byte) (p : Host.Cell) (h : p ∈ memIns m a b) : p = (a, b) ∨ p ∈ m := by
  induction m with
  | nil => simpa [memIns] using h
  | cons q r ih =>
    simp only [memIns] at h
    split at h
    · simpa using h
    · split at h
      · rcases List.mem_cons.mp h with h | h
        · exact .inl h
        · exact .inr (by simp [h])
      · rcases List.mem_cons.mp h with h | h
        · exact .inr (by simp [h])
        · rcases ih h with h | h
          · exact .inl h
          · exact .inr (by simp [h])

theorem memIns_wf (m : List Host.Cell) (a : Nat) (b : Byte) (hb : b ≠ 0) (h : Memory.wf m = true) :
    Memory.wf (memIns m a b) = true := by
  induction m with
  | nil => simpa [memIns, Memory.wf] using hb
  | cons q r ih =>
    obtain ⟨h1, h2, h3⟩ := (wf_cons _ _ _).mp h
    simp only [memIns]
    split
    · rename_i hlt
      refine (wf_cons _ _ _).mpr ⟨hb, fun p hp => ?_, h⟩
      rcases List.mem_cons.mp hp with hp | hp
      · simpa [hp] using hlt
      · have := h2 p hp; omega
    · split
      · subst_vars; exact (wf_cons _ _ _).mpr ⟨hb, h2, h3⟩
      · refine (wf_cons _ _ _).mpr ⟨h1, fun p hp => ?_, ih h3⟩
        rcases memIns_mem r a b p hp with hp | hp
        · subst hp; simp only; omega
        · exact h2 p hp

/-- Writing a byte keeps the canonical form. -/
theorem memPut_wf (m : List Host.Cell) (a : Nat) (b : Byte) (h : Memory.wf m = true) : Memory.wf (memPut m a b) = true := by
  unfold memPut
  split
  · exact memDel_wf m a h
  · exact memIns_wf m a b ‹_› h

/-- Writing bytes keeps the canonical form. -/
theorem memWrite_wf (l : List Byte) (m : List Host.Cell) (a : Nat) (h : Memory.wf m = true) :
    Memory.wf (memWrite m a l) = true := by
  induction l generalizing m a with
  | nil => exact h
  | cons b r ih => exact ih _ _ (memPut_wf m a b h)

theorem memGet_memDel (m : List Host.Cell) (a i : Nat) (h : Memory.wf m = true) :
    memGet (memDel m a) i = if i = a then 0 else memGet m i := by
  induction m with
  | nil => simp [memDel, memGet]
  | cons q r ih =>
    obtain ⟨h1, h2, h3⟩ := (wf_cons _ _ _).mp h
    simp only [memDel]
    split
    · subst_vars
      by_cases hi : i = q.1
      · simp [hi, memGet_above r q.1 h2]
      · simp [memGet, hi]
    · simp only [memGet, ih h3]
      by_cases hi : i = a <;> by_cases hk : i = q.1 <;> simp_all

theorem memGet_memIns (m : List Host.Cell) (a i : Nat) (b : Byte) :
    memGet (memIns m a b) i = if i = a then b else memGet m i := by
  induction m with
  | nil => simp [memIns, memGet]
  | cons q r ih =>
    simp only [memIns]
    split
    · rfl
    · split
      · subst_vars; simp only [memGet]; split <;> rfl
      · simp only [memGet, ih]
        by_cases hi : i = a <;> by_cases hk : i = q.1 <;> simp_all

/-- Reading after writing a byte. -/
theorem memGet_memPut (m : List Host.Cell) (a i : Nat) (b : Byte) (h : Memory.wf m = true) :
    memGet (memPut m a b) i = if i = a then b else memGet m i := by
  unfold memPut
  split
  · subst_vars; simpa using memGet_memDel m a i h
  · exact memGet_memIns m a i b

/-- Two memories in canonical form that read alike are equal. -/
theorem memory_ext (m n : List Host.Cell) (hm : Memory.wf m = true) (hn : Memory.wf n = true)
    (h : ∀ a, memGet m a = memGet n a) : m = n := by
  induction m generalizing n with
  | nil =>
    cases n with
    | nil => rfl
    | cons q r =>
      obtain ⟨h1, -, -⟩ := (wf_cons _ _ _).mp hn
      exact absurd (h q.1).symm (by simpa [memGet] using h1)
  | cons p r ih =>
    obtain ⟨k, v⟩ := p
    obtain ⟨h1, h2, h3⟩ := (wf_cons _ _ _).mp hm
    cases n with
    | nil => exact absurd (h k) (by simpa [memGet] using h1)
    | cons q r' =>
      obtain ⟨k', v'⟩ := q
      obtain ⟨g1, g2, g3⟩ := (wf_cons _ _ _).mp hn
      have hk : k = k' := by
        refine Decidable.byContradiction fun hne => ?_
        rcases Nat.lt_or_gt_of_ne hne with hlt | hlt
        · have := h k
          simp only [memGet, if_true, if_neg hne] at this
          exact h1 (this.trans (memGet_above r' k fun p hp => Nat.lt_trans hlt (g2 p hp)))
        · have := h k'
          simp only [memGet, if_true, if_neg (Ne.symm hne)] at this
          exact g1 (this.symm.trans (memGet_above r k' fun p hp => Nat.lt_trans hlt (h2 p hp)))
      subst hk
      have hv : v = v' := by simpa [memGet] using h k
      subst hv
      congr 1
      refine ih r' h3 g3 fun a => ?_
      by_cases ha : a = k
      · subst ha; rw [memGet_above r a h2, memGet_above r' a g2]
      · simpa [memGet, ha] using h a

end Sys2Proof.Laws
end

