-- ==== Sys2Proof/Laws/Vector.lean ====
section
/-! SUPPORT. What the shared operations on vector registers, tags and masks do. -/

set_option Elab.async false

namespace Sys2Proof.Laws

open Sys2Proof.Machine Sys2Proof.Safety

theorem setTag_issued (s : State) (r : Nat) (t : BitVec 4) : s.setTag r t = issued s 0 0 fun w => w.setTag s.orderKey r t := rfl

theorem setTag_kept (w : Warp) (k r : Nat) (t : BitVec 4) :
    (w.setTag k r t).table = w.table ∧ (w.setTag k r t).results = w.results ∧ RegsKeptButTags w (w.setTag k r t) := by
  unfold Warp.setTag RegsKeptButTags; split <;> simp

theorem regsKeptButTags_trans {a b c : Warp} (h1 : RegsKeptButTags a b) (h2 : RegsKeptButTags b c) : RegsKeptButTags a c := by
  unfold RegsKeptButTags at *
  rw [h2, h1]

theorem setTag_tag (w : Warp) (k r : Nat) (t : BitVec 4) (h : kgetD w.tagKey r 0 ≤ k) : kgetD (w.setTag k r t).tags r 0 = t := by
  rw [Warp.setTag, if_pos h]; simp [kgetD]

theorem setTag_other (w : Warp) (k r i : Nat) (t : BitVec 4) (h : i ≠ r) : kgetD (w.setTag k r t).tags i 0 = kgetD w.tags i 0 := by
  unfold Warp.setTag; split <;> simp [kgetD, kget?_kput_ne _ _ h]

theorem setTag_otherKey (w : Warp) (k r i : Nat) (t : BitVec 4) (h : i ≠ r) :
    kgetD (w.setTag k r t).tagKey i 0 = kgetD w.tagKey i 0 := by
  unfold Warp.setTag; split <;> simp [kgetD, kget?_kput_ne _ _ h]

/-- A value for each lane of a mask. -/
theorem lanes_valued {β : Type} (m : Lanes) (g : Nat → β) (l : Nat) (h : m.getLsbD l = true) :
    (kget? ((lanesOf m).map fun l => (l, g l)) l).isSome := by
  have hl : l ∈ lanesOf m := by
    simp only [lanesOf, List.mem_filter, List.mem_range]
    exact ⟨BitVec.lt_of_getLsbD h, h⟩
  generalize lanesOf m = L at hl
  induction L with
  | nil => simp at hl
  | cons a r ih =>
    simp only [List.map_cons, kget?]
    split
    · rfl
    · rename_i hne
      exact ih (by simpa [hne] using hl)

/-- Whether values are given for every lane of a mask. -/
def Valued {β : Type} (m : Lanes) (vals : List (Nat × β)) : Prop := ∀ l, m.getLsbD l = true → (kget? vals l).isSome

theorem valued_map {β γ : Type} {m : Lanes} {vals : List (Nat × β)} (h : Valued m vals) (g : Nat → β → γ) :
    Valued m (vals.map fun p => (p.1, g p.1 p.2)) := by
  intro l hl
  have := h l hl
  clear h hl
  induction vals with
  | nil => simp [kget?] at this
  | cons a r ih =>
    simp only [List.map_cons, kget?] at *
    split
    · rfl
    · rename_i hne; simp only [hne, if_false] at this; exact ih this

/-- The effect of a vector instruction on its warp: results and tags alone, its destination given by `P`. -/
def VecEff (s s' : State) (w : Warp) (ids : Nat) (P : Warp → Prop) : Prop :=
  ∃ g : Warp → Warp, s' = issued s ids 0 g ∧ (g w).table = w.table ∧ RegsKeptButTags w (g w) ∧ P (g w)

theorem putV_eff {s : State} {w : Warp} {p : Split} (h : Issuer s w p) (vd lat : Nat) (m : Lanes) (vals : KMap Lane) (t : BitVec 4)
    (hv : Valued m vals) :
    VecEff s (s.putV vd lat m vals t) w 1 fun w' =>
      LanesDue s w' s.nextId lat vd m ∧ TagSet s w w' vd t ∧ TagsKept w w' [vd] ∧
      w'.results = kput w.results s.nextId (newResult s w p (.vec vd) lat m vals 0 false) ∧ ∀ i, i ≠ vd → kgetD w'.tagKey i 0 = kgetD w.tagKey i 0 := by
  generalize hr : newResult s w p (.vec vd) lat m vals 0 false = r
  refine ⟨fun x => (enter s.nextId r x).setTag s.orderKey vd t, ?_, ?_, ?_, ⟨r, ⟨?_, ?_⟩, ?_⟩, ?_, ?_, ?_, ?_⟩
  · rw [State.putV, addResult_eq h, hr, setTag_issued, issued_issued]; rfl
  · rw [(setTag_kept _ _ _ _).1]; rfl
  · simp only [Warp.setTag]; split <;> rfl
  · rw [(setTag_kept _ _ _ _).2.1]; simp [enter]
  · subst hr; simp [newResult]
  · subst hr; exact ⟨rfl, rfl, hv⟩
  · intro hk; exact setTag_tag _ _ _ _ hk
  · intro i hi; exact setTag_other _ _ _ _ _ (by simpa using hi)
  · rw [(setTag_kept _ _ _ _).2.1]; rfl
  · intro i hi; exact setTag_otherKey _ _ _ _ _ hi

theorem eff_issuer {s s' : State} {w : Warp} {p : Split} {a : Nat} {P : Warp → Prop} (h : Issuer s w p) (he : VecEff s s' w a P) :
    ∃ w', Issuer s' w' p ∧ P w' ∧ s'.cur = s.cur ∧ s'.nextId = s.nextId + a ∧ s'.orderKey = s.orderKey := by
  obtain ⟨g, rfl, ht, -, hP⟩ := he
  exact ⟨g w, issued_issuer h a 0 ht, hP, rfl, rfl, rfl⟩

/-- A tag set after an effect. -/
theorem eff_setTag {s s' : State} {w : Warp} {a : Nat} {P Q : Warp → Prop} (he : VecEff s s' w a P) (r : Nat) (t : BitVec 4)
    (hQ : ∀ w', P w' → Q (w'.setTag s.orderKey r t)) : VecEff s (s'.setTag r t) w a Q := by
  obtain ⟨g, rfl, ht, hk, hP⟩ := he
  refine ⟨fun x => (g x).setTag s.orderKey r t, ?_, ?_, ?_, hQ _ hP⟩
  · rw [setTag_issued, issued_issued]; rfl
  · rw [(setTag_kept _ _ _ _).1, ht]
  · show RegsKeptButTags w ((g w).setTag s.orderKey r t)
    exact regsKeptButTags_trans hk (setTag_kept (g w) s.orderKey r t).2.2

theorem due_kept {s : State} {w w' : Warp} {k i lat : Nat} {d : Dest} {r q : Result} (h : Due s w k lat d r) (hk : k ≠ i)
    (hr : w'.results = kput w.results i q) : Due s w' k lat d r := by
  refine ⟨?_, h.2⟩
  rw [hr, kget?_kput_ne _ _ hk]; exact h.1

theorem putPair_eff {s : State} {w : Warp} {p : Split} (h : Issuer s w p) (vd lat : Nat) (m : Lanes) (vals : List (Nat × Word))
    (t : BitVec 4) (hv : Valued m vals) :
    VecEff s (s.putPair vd lat m vals t) w 2 fun w' => Written s w w' lat m (.pair vd t 15) := by
  have h1 := putV_eff h vd lat m (vals.map fun p => (p.1, p.2.setWidth 32)) t (valued_map hv fun _ x => x.setWidth 32)
  obtain ⟨g1, e1, ht1, hk1, hl1, hts1, htk1, hr1, hky1⟩ := h1
  have hi := issued_issuer h 1 0 ht1
  have h2 := putV_eff hi (vd + 1) lat m (vals.map fun p => (p.1, p.2.extractLsb' 32 32)) 15
    (valued_map hv fun _ x => x.extractLsb' 32 32)
  obtain ⟨g2, e2, ht2, hk2, hl2, hts2, htk2, hr2, hky2⟩ := h2
  refine ⟨fun x => g2 (g1 x), ?_, by rw [ht2, ht1], ?_, ?_, ?_, ?_, ?_, ?_⟩
  · rw [State.putPair, e1, e2, issued_issued]
  · exact regsKeptButTags_trans hk1 hk2
  · obtain ⟨q, hq, hql, hqp, hqv⟩ := hl1
    exact ⟨q, due_kept hq (by simp) hr2, hql, hqp, hqv⟩
  · obtain ⟨q, hq, hqr⟩ := hl2
    exact ⟨q, hq, hqr⟩
  · intro hk
    rw [htk2 vd (by simp)]; exact hts1 hk
  · intro hk
    exact hts2 (by rw [hky1 _ (by omega)]; exact hk)
  · intro r hr
    simp only [List.mem_cons, List.not_mem_nil, or_false, not_or] at hr
    rw [htk2 r (by simp [hr.2]), htk1 r (by simp [hr.1])]

theorem putTyped_eff {s : State} {w : Warp} {p : Split} (h : Issuer s w p) (vd ty lat : Nat) (m : Lanes) (vals : List (Nat × Nat))
    (hv : Valued m vals) :
    VecEff s (s.putTyped vd ty lat m vals) w (if isPairTy ty then 2 else 1) fun w' =>
      Written s w w' lat m (if isPairTy ty then .pair vd (BitVec.ofNat 4 ty) 15 else .reg vd (BitVec.ofNat 4 ty)) := by
  unfold State.putTyped
  split
  · exact putPair_eff h vd lat m _ _ (valued_map hv fun _ x => BitVec.ofNat 64 x)
  · obtain ⟨g, e, ht, hk, hl, hts, htk, -⟩ := putV_eff h vd lat m (vals.map fun p => (p.1, BitVec.ofNat 32 p.2)) (BitVec.ofNat 4 ty)
      (valued_map hv fun _ x => BitVec.ofNat 32 x)
    exact ⟨g, e, ht, hk, hl, hts, htk⟩

theorem enter_eff {s : State} {w : Warp} {p : Split} (h : Issuer s w p) (d : Dest) (lat : Nat) (m : Lanes) (x : Word) :
    VecEff s (s.addResult d lat m [] x false) w 1 fun w' =>
      (∃ q, Due s w' s.nextId lat (match d with | .sca 63 => .none | x => x) q ∧ q.lanes = m) ∧ TagsKept w w' [] := by
  refine ⟨enter s.nextId (newResult s w p d lat m [] x false), addResult_eq h _ _ _ _ _ _, rfl, rfl,
    ⟨newResult s w p d lat m [] x false, ⟨by simp [enter], rfl, rfl, rfl, rfl, rfl⟩, rfl⟩, fun _ _ => rfl⟩

theorem putMaskLanes_eff {s : State} {w : Warp} {p : Split} (h : Issuer s w p) (md lat : Nat) (m x : Lanes) :
    VecEff s (s.putMaskLanes md lat m x) w 1 fun w' => Written s w w' lat m (.mask md) :=
  enter_eff h (.msk md) lat m _

theorem putS_eff {s : State} {w : Warp} {p : Split} (h : Issuer s w p) (sd lat : Nat) (m : Lanes) (x : Word) :
    VecEff s (s.putS sd lat x) w 1 fun w' => Written s w w' lat m (.scalar sd) := by
  obtain ⟨g, e, ht, hk, ⟨q, hq, -⟩, htk⟩ := enter_eff h (.sca sd) lat (BitVec.allOnes 32) x
  refine ⟨g, e, ht, hk, ⟨q, ?_⟩, htk⟩
  by_cases h63 : sd = 63
  · subst h63; exact hq
  · simp only [h63, if_false]
    have : (match Dest.sca sd with | .sca 63 => Dest.none | x => x) = .sca sd := by
      split
      · rename_i h1; cases h1; exact absurd rfl h63
      · rfl
    rw [this] at hq; exact hq

/-- The faults of a vector instruction are absent (06 R132). -/
theorem vecFault_none (s : State) (regs : List Nat) (raw : Bool) (chk : List TagCheck) (hr : ∀ r ∈ regs, r < s.curWarp.budget)
    (hc : raw = true ∨ ∀ c ∈ chk, (s.tagOfReg c.1).toNat ∈ c.2.1) : s.vecFault regs raw chk = none := by
  unfold State.vecFault
  have h1 : regs.find? (fun r => decide (s.curWarp.budget ≤ r)) = none := by
    simp only [List.find?_eq_none, decide_eq_true_eq]
    intro r h; have := hr r h; omega
  simp only [h1]
  split
  · rfl
  · rename_i hraw
    rcases hc with h | h
    · exact absurd h hraw
    · have h2 : chk.find? (fun c => !c.2.1.contains (s.tagOfReg c.1).toNat) = none := by
        simp only [List.find?_eq_none, Bool.not_eq_true']
        intro c hcm; simpa using h c hcm
      simp only [h2]

theorem advanceSeed_issued (s : State) : s.advanceSeed = issued s 0 0 fun w => { w with seed := w.seed + 0x9E3779B97F4A7C15 } := rfl

theorem due_mono {s s0 : State} {w1 w2 : Warp} {k k0 lat : Nat} {d : Dest} {r : Result} (hres : ∀ k r, kget? w1.results k = some r →
    r.done = false → kget? w2.results k = some r) (hk : k0 = k) (ho : s0.orderKey = s.orderKey) (hc : s0.clk = s.clk)
    (h : Due s0 w1 k0 lat d r) : Due s w2 k lat d r := by
  subst hk
  obtain ⟨h1, h2, h3, h4, h5, h6⟩ := h
  exact ⟨hres _ _ h1 h6, h2, by rw [h3, ho], by rw [h4, hc], h5, h6⟩

theorem written_mono {s s0 : State} {w w0 w1 w2 : Warp} {lat : Nat} {m : Lanes} {d : VDest} (hrk : RegsKept w1 w2)
    (hres : ∀ k r, kget? w1.results k = some r → r.done = false → kget? w2.results k = some r) (hn : s0.nextId = s.nextId)
    (ho : s0.orderKey = s.orderKey) (hc : s0.clk = s.clk) (hw0 : w0 = { w with seed := w0.seed })
    (h : Written s0 w0 w1 lat m d) : Written s w w2 lat m d := by
  have htg : w2.tags = w1.tags := by rw [RegsKept] at hrk; rw [hrk]
  have ht0 : w0.tags = w.tags := by rw [hw0]
  have hk0 : w0.tagKey = w.tagKey := by rw [hw0]
  have hts : ∀ r t, TagSet s0 w0 w1 r t → TagSet s w w2 r t := by
    intro r t h hk; unfold TagSet at h; rw [htg]; exact h (by rw [hk0, ho]; exact hk)
  have htk : ∀ l, TagsKept w0 w1 l → TagsKept w w2 l := by
    intro l h r hr; rw [htg, h r hr, ht0]
  have hld : ∀ k0 k r, k0 = k → LanesDue s0 w1 k0 lat r m → LanesDue s w2 k lat r m := by
    intro k0 k r hk ⟨q, hq, hr⟩; exact ⟨q, due_mono hres hk ho hc hq, hr⟩
  cases d with
  | reg vd t => exact ⟨hld _ _ _ hn h.1, hts _ _ h.2.1, htk _ h.2.2⟩
  | pair vd t o =>
    exact ⟨hld _ _ _ hn h.1, hld _ _ _ (by rw [hn]) h.2.1, hts _ _ h.2.2.1, hts _ _ h.2.2.2.1, htk _ h.2.2.2.2⟩
  | mask md => obtain ⟨⟨q, hq, hl⟩, h2⟩ := h; exact ⟨⟨q, due_mono hres hn ho hc hq, hl⟩, htk _ h2⟩
  | scalar sd => obtain ⟨⟨q, hq⟩, h2⟩ := h; exact ⟨⟨q, due_mono hres hn ho hc hq⟩, htk _ h2⟩
  | tag vd pr t => exact ⟨hts _ _ h.1, fun hp => hts _ _ (h.2.1 hp), htk _ h.2.2⟩

/-- A vector instruction without a fault (06 R132). -/
theorem runVec_done {s : State} {w : Warp} {p : Split} (h : Issuer s w p) {sw seed raw : Bool} {regs : List Nat} {chk : List TagCheck}
    {lat : Nat} {eff : State → State} {a : Nat} {m : Lanes} {d : VDest} (hf : s.vecFault regs raw chk = none)
    (he : ∀ (s0 : State) (w0 : Warp), Issuer s0 w0 p → s0.nextId = s.nextId → s0.orderKey = s.orderKey → s0.clk = s.clk →
      w0 = { w with seed := w0.seed } → s0.free = s.free → s0.cur = s.cur → VecEff s0 (eff s0) w0 a fun w' => Written s0 w0 w' lat m d) :
    ∃ t, s.runVec sw seed regs raw chk lat eff = .next t ∧ VectorDone s t w p sw seed false lat m d := by
  -- the state after the advance of SEED
  let w0 : Warp := if seed then { w with seed := w.seed + 0x9E3779B97F4A7C15 } else w
  let s0 : State := if seed then s.advanceSeed else s
  have hs0 : s0 = issued s 0 0 fun x => if seed then { x with seed := x.seed + 0x9E3779B97F4A7C15 } else x := by
    cases seed
    · simp only [s0, issued, Bool.false_eq_true, if_false, Nat.add_zero]
      have : kmod s.warps s.cur.1 (fun x => x) = s.warps := kmod_id _ _
      rw [this]
    · rfl
  have hw0 : w0 = { w with seed := w0.seed } := by cases seed <;> rfl
  have hi0 : Issuer s0 w0 p := by
    rw [hs0]
    exact issued_issuer h 0 0 (f := fun x => if seed then { x with seed := x.seed + 0x9E3779B97F4A7C15 } else x)
      (by cases seed <;> simp)
  have hn : s0.nextId = s.nextId := by rw [hs0]; rfl
  have ho : s0.orderKey = s.orderKey := by rw [hs0]; rfl
  have hc : s0.clk = s.clk := by rw [hs0]; rfl
  have hcur : s0.cur = s.cur := by rw [hs0]; rfl
  obtain ⟨g, e, ht, hk, hw⟩ := he s0 w0 hi0 hn ho hc hw0 (by rw [hs0]; rfl) hcur
  have hi1 : Issuer (eff s0) (g w0) p := by rw [e]; exact issued_issuer hi0 a 0 ht
  obtain ⟨ids, f, er, hrk, hok, hpr, hres⟩ := retire_proceeds hi1 sw lat 1
  have hcur1 : (eff s0).cur = s.cur := by rw [e, hs0]; rfl
  have e1 : (eff s0).retire sw lat 1 =
      issued s (a + ids) 1 fun x => f (g (if seed then { x with seed := x.seed + 0x9E3779B97F4A7C15 } else x)) := by
    rw [er, e, hs0, issued_issued, issued_issued]; simp
  refine ⟨_, by simp only [State.runVec, hf]; rfl, ?_⟩
  rw [show (if seed then s.advanceSeed else s) = s0 from rfl, e1]
  refine ⟨issued_only s _ _ _, fun _ => rfl, f (g w0), ?_, ?_, ?_, ?_, ?_, ?_⟩
  · rw [issued_warp, h.1]; rfl
  · unfold RegsKept at hrk; unfold RegsKeptButTags at hk
    rw [hrk, hk]; cases seed <;> simp [w0]
  · unfold RegsKept at hrk; unfold RegsKeptButTags at hk
    rw [hrk, hk]; cases seed <;> simp [w0]
  · intro k hk'
    rw [hok k (by rw [hcur1]; exact hk'), ht, hw0]
  · rw [hcur1] at hpr; exact hpr
  · exact written_mono hrk hres hn ho hc hw0 hw

end Sys2Proof.Laws
end

