-- ==== Sys2Proof/Tests/Slice0.lean ====
section
/-! SUPPORT. Small tests: each field rule refuses an ill-formed term; words written out from the layouts of the manual decode to
their instructions; one step of small states; for each statement of Certificates/Slice0/Obligations.lean states and
operands that meet its hypotheses. Expected values are the manual's or worked out by hand from it. -/

set_option Elab.async false

namespace Sys2Proof.Tests

open Sys2Proof Sys2Proof.Machine Sys2Proof.Safety Sys2Proof.Rules

/-! ## Field rules: one ill-formed term for each (02 R62) -/

theorem test_wf_sadd : check (.sadd ⟨false, 1, 2, 3, 0⟩) = none := by decide +kernel
theorem test_ill_opcode : decode 0 0 = .error .opcode := rfl
theorem test_ill_variant_decode : decode 0x1650000000000000 0 = .error .variant := rfl
theorem test_ill_reserved : decode 0x1610000000000001 0 = .error .reserved := rfl
theorem test_ill_unused_scalar : check (.smov ⟨false, 1, 2, 3, 0⟩) = some .unused := by decide +kernel
theorem test_ill_unused_vector : check (.vtag ⟨false, 1, 0, 0, 0, 1, 2, 0, 0⟩) = some .unused := by decide +kernel
theorem test_ill_unused_immediate : check (.vmovImm ⟨false, 1, 4, 5, 0, false, 7⟩) = some .unused := by decide +kernel
theorem test_ill_unused_control : check (.exit ⟨false, 0, 0, 1, 0⟩) = some .unused := by decide +kernel
theorem test_ill_unused_memory : check (.lds ⟨false, 8, 4, 5, 0, 0, 2, 0, 0, 0⟩) = some .unused := by decide +kernel
theorem test_ill_unused_engine : check (.cpy ⟨false, 3, 1, 0, 6, 7, 9, 4, false, 1, 0⟩) = some .unused := by decide +kernel
theorem test_ill_unused_counter : check (.cpy ⟨false, 3, 0, 0, 6, 7, 9, 4, false, 0, 0⟩) = some .unused := by decide +kernel
theorem test_ill_unused_system : check (.fence ⟨false, 11, 1, 4, 0, 0, 0⟩) = some .unused := by decide +kernel
theorem test_ill_flag : check (.vadd ⟨false, 1, 2, 3, 0, 0, 1, 0, 2⟩) = some .flag := by decide +kernel
theorem test_ill_flag_required : check (.vmovs ⟨false, 1, 0, 3, 0, 0, 1, 0, 0⟩) = some .flag := by decide +kernel
theorem test_ill_flag_immediate : check (.vandImm ⟨false, 1, 4, 5, 0, true, 7⟩) = some .flag := by decide +kernel
theorem test_ill_xword_vector : check (.vadd ⟨false, 1, 2, 3, 0, 0, 1, 0, 0x100⟩) = some .xword := by decide +kernel
theorem test_ill_xword_engine : check (.kmv ⟨false, 0, 0, 0, 1, 0, 9, 0, true, 1, 0⟩) = some .xword := by decide +kernel
theorem test_ill_type : check (.vmul ⟨false, 2, 4, 6, 0, 0, 13, 0, 0⟩) = some .type := by decide +kernel
theorem test_ill_type_immediate : check (.vfaddImm ⟨false, 1, 4, 5, 0, false, 7⟩) = some .type := by decide +kernel
theorem test_ill_type_size : check (.ld 3 ⟨false, 8, 4, 255, 0, 0, 0, 0, 0, 0⟩) = some .type := by decide +kernel
theorem test_ill_rounding : check (.vfadd ⟨false, 1, 2, 3, 0, 0, 3, 6, 0⟩) = some .rounding := by decide +kernel
theorem test_ill_condition_vector : check (.vcmp ⟨false, 1, 2, 3, 0, 0, 1, 6, 0⟩) = some .rounding := by decide +kernel
theorem test_ill_scope_memory : check (.ld 1 ⟨false, 8, 4, 255, 0, 6, 2, 1, 0, 0⟩) = some .scope := by decide +kernel
theorem test_ill_scope_engine : check (.mcst ⟨false, 3, 0, 0, 6, 7, 9, 4, false, 1, 0⟩) = some .scope := by decide +kernel
theorem test_ill_scope_system : check (.fence ⟨false, 11, 0, 7, 0, 0, 0⟩) = some .scope := by decide +kernel
theorem test_ill_size : check (.ld 1 ⟨false, 8, 4, 255, 0, 0, 5, 0, 0, 0⟩) = some .size := by decide +kernel
theorem test_ill_ordering : check (.ld 1 ⟨false, 8, 4, 255, 0, 1, 2, 3, 0, 0⟩) = some .ordering := by decide +kernel
theorem test_ill_ordering_weak : check (.ld 1 ⟨false, 8, 4, 255, 0, 1, 2, 0, 0, 0⟩) = some .ordering := by decide +kernel
theorem test_ill_hint : check (.ldl 1 ⟨false, 8, 4, 255, 0, 0, 2, 0, 1, 0⟩) = some .hint := by decide +kernel
theorem test_ill_condition : check (.brc ⟨true, 2, 0, 5, 6⟩) = some .condition := by decide +kernel
theorem test_ill_register_pair : check (.vadd ⟨false, 1, 2, 4, 0, 0, 13, 0, 0⟩) = some .register := by decide +kernel
theorem test_ill_register_mask : check (.mand ⟨false, 8, 1, 2, 0⟩) = some .register := by decide +kernel
theorem test_ill_register_data : check (.ld 0 ⟨false, 9, 4, 255, 0, 0, 3, 0, 0, 0⟩) = some .register := by decide +kernel
theorem test_ill_register_target : check (.jmpi ⟨false, 0, 0, 3, 0⟩) = some .register := by decide +kernel
theorem test_ill_subField : check (.scmp ⟨false, 1, 2, 3, 6⟩) = some .subField := by decide +kernel
theorem test_ill_subField_width : check (.sbfx ⟨false, 1, 2, 0, 63 + 64 * 2⟩) = some .subField := by decide +kernel
theorem test_ill_subField_signal : check (.csig ⟨false, 0, 0, 0, 0, 3, 0⟩) = some .subField := by decide +kernel
theorem test_ill_subField_bound : check (.joinBnd ⟨false, 0, 4, 0, 0⟩) = some .subField := by decide +kernel
theorem test_ill_variant_element : check (.vunpk 2 ⟨false, 1, 2, 0, 4, 0, 3, 0, 0⟩) = some .variant := by decide +kernel
theorem test_ill_level : check (.bararv ⟨false, 0, 0, 5, 3, 0, 0⟩) = some .level := by decide +kernel
theorem test_ill_level_number : check (.barwait ⟨false, 0, 0, 5, 0, 16, 0⟩) = some .level := by decide +kernel
theorem test_ill_extension : check (.cpy ⟨false, 3, 0, 0, 6, 7, 9, 4, true, 1, 8⟩) = some .extension := by decide +kernel

/-! ## Decoding: words written out bit by bit from the encodings of chapter 02 -/

/-- Opcode 0x05, FN 0, SD 1, register 12. -/
theorem test_decode_srd : decode 0x050040000000000C 0 = .ok (.srd ⟨false, 1, 0, 0, 12⟩) := rfl
/-- Opcode 0x16, FN 1: the manual's word of NOP. -/
theorem test_decode_nop : decode 0x1610000000000000 0 = .ok (.nop ⟨false, 0, 0, 0, 0⟩) := rfl
/-- The manual's own word. -/
theorem test_decode_ldl : decode 0x5410813FC0480040 0 = .ok (.ldl 1 ⟨false, 8, 4, 255, 0, 0, 2, 2, 0, 0x40⟩) := rfl
theorem test_decode_brc : decode 0x910FFFFF80000148 0 = .ok (.brc ⟨true, 0x3FFFFE, 0, 5, 1⟩) := rfl
theorem test_decode_fence : decode 0x6802C08000000000 0 = .ok (.fence ⟨false, 11, 0, 4, 0, 0, 0⟩) := rfl
theorem test_decode_engine : decode 0x7003001874C80001 0x10 = .ok (.cpy ⟨false, 3, 0, 0, 6, 7, 9, 4, true, 1, 0x10⟩) := rfl
/-- VADD.i32 v1, v2, v3 under m4: opcode 0x20, FN 0, VD 1, VA 2, VB 3, MK 4, TY 1. -/
theorem test_decode_vadd : decode 0x2000102030082000 0 = .ok (.vadd ⟨false, 1, 2, 3, 0, 4, 1, 0, 0⟩) := rfl
/-- VSHFL v1, v2, v3, width code 5, RAWOK: opcode 0x48, FN 0. -/
theorem test_decode_vshfl : decode 0x4800102030500010 0 = .ok (.vshfl ⟨false, 1, 2, 3, 5, 0, 0, 0, 16⟩) := rfl
/-- MAND m1, m2, m3: opcode 0x18, FN 0. -/
theorem test_decode_mand : decode 0x1800420C00000000 0 = .ok (.mand ⟨false, 1, 2, 3, 0⟩) := rfl
/-- LD of type 2, SZ 2, ORD 2, scope 5: opcode 0x50. -/
theorem test_decode_ld : decode 0x5020813FC5480040 0 = .ok (.ld 2 ⟨false, 8, 4, 255, 0, 5, 2, 2, 0, 0x40⟩) := rfl
/-- ATOM exchange under m1: opcode 0x60, FN 9, a negative offset. -/
theorem test_decode_atom : decode 0x60908101CB4CFFF0 0 = .ok (.atom 9 ⟨false, 8, 4, 7, 1, 3, 2, 3, 0, 0xFFF0⟩) := rfl
/-- LOCK s5, s6 at rack scope: opcode 0x63, FN 0. -/
theorem test_decode_lock : decode 0x630051BFC5000000 0 = .ok (.lock ⟨false, 5, 6, 255, 0, 5, 0, 0, 0, 0⟩) := rfl
/-- BARARV of grid barrier 15 with count 32: opcode 0x69. -/
theorem test_decode_bararv : decode 0x690000B3C0000020 0 = .ok (.bararv ⟨false, 0, 0, 5, 2, 15, 32⟩) := rfl
/-- TRAP: opcode 0x78. -/
theorem test_decode_trap : decode 0x7800000000ABCDEF 0 = .ok (.trap ⟨false, 0, 0, 0, 0, 0, 0xABCDEF⟩) := rfl
theorem test_decode_firmware : decodeXkarb 0x00C5950B = some (.kbfx ⟨12, 11, 10⟩) := rfl
theorem test_decode_marker : decode 0xA230A02030406000 0 = .ok (.vfma ⟨true, 10, 2, 3, 4, 0, 3, 0, 0⟩) := rfl
theorem test_encode_immediate : encode (.saddImm ⟨false, 1, 2, 0, 0x3FFFFFFFF⟩) = some (0x02004203FFFFFFFF, none) := by decide +kernel
theorem test_encode_extension : (encode (.cpy ⟨false, 3, 0, 0, 6, 7, 9, 4, true, 1, 0x10⟩)) = some (0x7003001874C80001, some 0x10) := by decide +kernel

/-! ## One step -/

/-- What a next state holds. -/
def leaves (o : Out) (f : State → Bool) : Bool := match o with | .next t => f t | _ => false

/-- The one result that warp 0 has under way: clk in which it is due, and its scalar. -/
def soon (t : State) : Option (Nat × Word) := match (t.warpD 0).results with | [(_, r)] => some (r.due, r.sval) | _ => none

/-- SADD s1, s2, s3 of a fresh warp: 0, due 2 clk after issue. -/
theorem test_step_sadd : leaves (step (State.reset.withFetchWord 64 0x0100420C00000000)) (fun t => soon t == some (2, 0)) = true := by decide +kernel
/-- SADD s1, s2, -1: all ones. -/
theorem test_step_sadd_imm :
    leaves (step (State.reset.withFetchWord 64 0x02004203FFFFFFFF)) (fun t => soon t == some (2, BitVec.allOnes 64)) = true := by decide +kernel
/-- The all-zero word parks the split FAULTED with ILLOP. -/
theorem test_step_illop :
    leaves (step (State.reset.withFetchWord 64 0)) (fun t => (t.splitD 0 0).st == .faulted && ((t.splitD 0 0).fault.map (·.code)) == some 1) = true := by
  decide +kernel
/-- NOP advances the PC. -/
theorem test_step_nop : leaves (step (State.reset.withFetchWord 64 0x1610000000000000)) (fun t => (t.splitD 0 0).pc == 1) = true := by decide +kernel
/-- A word that is neither Xkarb's nor of its opcode is refused by name. -/
theorem test_step_base : step (State.reset.withFetchWord 32 0x13) = .refused (.baseIsa 0x13) := rfl
/-- KBFX whose descriptor has width 0 takes its exception, cause 25. -/
theorem test_step_kbfx_trap : leaves (step (State.reset.withFetchWord 32 0x00C5950B)) (fun t => (t.fwCore 0).mcause == 25) = true := by decide +kernel
/-- From reset an empty agenda begins a clk. -/
theorem test_step_reset : step State.reset = .next { State.reset with agenda := [.phase 0] } := rfl
theorem test_reset_memory : Memory.wf State.reset.mem = true := by decide +kernel


/-! ## Witnesses: states and operands that meet the hypotheses of the statements -/

/-- A resident warp of 256 registers on core 0, its one split the issuer. -/
def base : State := { State.reset.withWarp 0 0 with cur := (0, 0) }
/-- The same with the warp changed. -/
def warpAt (f : Warp → Warp) : State := base.modWarp 0 f
/-- The same with the split changed. -/
def splitAt (f : Split → Split) : State := base.modSplit 0 0 f
/-- A split of other lanes. -/
def other (f : Split → Split) : Split := f base.curSplit

theorem base_issuer : Issuer base base.curWarp base.curSplit := ⟨rfl, rfl, rfl, by decide +kernel⟩

/-- ScalarResults: every instruction of its table. -/
theorem witness_scalar : Issuer base base.curWarp base.curSplit ∧ ([.sadd ⟨false, 63, 2, 3, 0⟩, .ssub ⟨false, 1, 2, 3, 0⟩, .smul ⟨false, 1, 2, 3, 0⟩,
    .smulh ⟨false, 1, 2, 3, 0⟩, .sand ⟨false, 1, 2, 3, 0⟩, .sor ⟨false, 1, 2, 3, 0⟩, .sxor ⟨false, 1, 2, 3, 0⟩, .sshl ⟨false, 1, 2, 3, 0⟩,
    .sshr ⟨false, 1, 2, 3, 0⟩, .ssra ⟨false, 1, 2, 3, 0⟩, .smin ⟨false, 1, 2, 3, 0⟩, .smax ⟨false, 1, 2, 3, 0⟩, .smov ⟨false, 1, 2, 0, 0⟩,
    .spopc ⟨false, 1, 2, 0, 0⟩, .sclz ⟨false, 1, 2, 0, 0⟩, .saddImm ⟨false, 1, 2, 0, 7⟩, .ssubImm ⟨false, 1, 2, 0, 7⟩,
    .smulImm ⟨false, 1, 2, 0, 7⟩, .smulhImm ⟨false, 1, 2, 0, 7⟩, .sandImm ⟨false, 1, 2, 0, 7⟩, .sorImm ⟨false, 1, 2, 0, 7⟩,
    .sxorImm ⟨false, 1, 2, 0, 7⟩, .sshlImm ⟨false, 1, 2, 0, 64⟩, .sshrImm ⟨false, 1, 2, 0, 63⟩, .ssraImm ⟨false, 1, 2, 0, 64⟩,
    .sminImm ⟨false, 1, 2, 0, 7⟩, .smaxImm ⟨false, 1, 2, 0, 7⟩, .smovImm ⟨false, 1, 0, 0, 7⟩, .smulhU ⟨false, 1, 2, 3, 0⟩,
    .sminU ⟨false, 1, 2, 3, 0⟩, .smaxU ⟨false, 1, 2, 3, 0⟩, .scmp ⟨false, 1, 2, 3, 5⟩, .scmpU ⟨false, 1, 2, 3, 0⟩, .ssel ⟨false, 1, 2, 3, 63⟩,
    .sbfx ⟨false, 1, 2, 0, 64 * 64⟩, .sbfxU ⟨false, 1, 2, 0, 63 + 64⟩, .sbfi ⟨false, 1, 2, 3, 64⟩, .slea ⟨false, 1, 2, 3, 7⟩,
    .sldi ⟨false, 1, 0, 0, 0⟩ 9] : List Instr).all (fun i => i.wf && (scalarRule base i).isSome) = true :=
  ⟨base_issuer, by decide +kernel⟩

/-- What VectorCompletes asks of an instruction in `base`. -/
def vectorRuns (i : Instr) : Bool :=
  i.wf && match vecRule base i with
    | none => false
    | some r => r.regs.all (· < base.curWarp.budget) && (r.rawok || r.tags.all fun c => c.2.contains (base.tagOfReg c.1).toNat)

theorem witness_vector_integer : ([.vadd ⟨false, 2, 4, 4, 0, 0, 13, 0, 0⟩, .vsub ⟨false, 255, 4, 4, 0, 0, 1, 0, 0⟩, .vmul ⟨false, 2, 4, 4, 0, 0, 1, 0, 0⟩,
    .vmulh ⟨false, 2, 4, 4, 0, 0, 1, 0, 0⟩, .vmad ⟨false, 2, 4, 4, 0, 0, 1, 0, 0⟩, .vmin ⟨false, 2, 4, 4, 0, 0, 1, 0, 0⟩,
    .vmax ⟨false, 2, 4, 4, 0, 0, 1, 0, 0⟩, .vabs ⟨false, 2, 4, 0, 0, 0, 1, 0, 0⟩, .vneg ⟨false, 2, 4, 0, 0, 0, 1, 0, 0⟩,
    .vaddc ⟨false, 2, 4, 4, 0, 0, 1, 0, 0⟩, .vsubb ⟨false, 2, 4, 4, 0, 0, 1, 0, 0⟩, .vsad ⟨false, 2, 4, 4, 0, 0, 4, 0, 0⟩,
    .vavg ⟨false, 2, 4, 4, 0, 0, 1, 0, 0⟩, .vcmp ⟨false, 2, 4, 4, 0, 0, 1, 0, 0⟩, .vsel ⟨false, 2, 4, 4, 0, 0, 1, 0, 0⟩,
    .vmov ⟨false, 2, 4, 0, 0, 0, 1, 0, 0⟩, .vand ⟨false, 2, 4, 4, 0, 0, 1, 0, 0⟩, .vor ⟨false, 2, 4, 4, 0, 0, 1, 0, 0⟩,
    .vxor ⟨false, 2, 4, 4, 0, 0, 1, 0, 0⟩, .vnot ⟨false, 2, 4, 0, 0, 0, 1, 0, 0⟩, .vshl ⟨false, 2, 4, 4, 0, 0, 1, 0, 0⟩,
    .vshr ⟨false, 2, 4, 4, 0, 0, 1, 0, 0⟩, .vsra ⟨false, 2, 4, 4, 0, 0, 1, 0, 0⟩, .vrot ⟨false, 2, 4, 4, 0, 0, 1, 0, 0⟩,
    .vclz ⟨false, 2, 4, 0, 0, 0, 1, 0, 0⟩, .vpopc ⟨false, 2, 4, 0, 0, 0, 1, 0, 0⟩, .vbfx ⟨false, 2, 4, 4, 0, 0, 1, 0, 0⟩,
    .vbfi ⟨false, 2, 4, 4, 0, 0, 1, 0, 0⟩, .vmovs ⟨false, 2, 0, 4, 0, 0, 1, 0, 64⟩, .vaddImm ⟨false, 1, 2, 4, 0, false, 7⟩,
    .vsubImm ⟨false, 1, 2, 4, 0, false, 7⟩, .vmulImm ⟨false, 1, 2, 4, 0, false, 7⟩, .vandImm ⟨false, 1, 2, 4, 0, false, 7⟩,
    .vorImm ⟨false, 1, 2, 4, 0, false, 7⟩, .vxorImm ⟨false, 1, 2, 4, 0, false, 7⟩, .vshlImm ⟨false, 1, 2, 4, 0, false, 7⟩,
    .vshrImm ⟨false, 1, 2, 4, 0, false, 7⟩, .vsraImm ⟨false, 1, 2, 4, 0, false, 7⟩, .vminImm ⟨false, 1, 2, 4, 0, false, 7⟩,
    .vmaxImm ⟨false, 1, 2, 4, 0, false, 7⟩, .vmovImm ⟨false, 1, 2, 0, 0, false, 7⟩, .vtag ⟨false, 2, 0, 0, 0, 0, 1, 0, 0⟩] : List Instr).all
    vectorRuns = true := by decide +kernel

theorem witness_vector_float : ([.vfadd ⟨false, 2, 4, 4, 0, 0, 3, 5, 0⟩, .vfsub ⟨false, 2, 4, 4, 0, 0, 3, 0, 0⟩, .vfmul ⟨false, 2, 4, 4, 0, 0, 3, 0, 0⟩,
    .vfma ⟨false, 2, 4, 4, 0, 0, 3, 0, 0⟩, .vfmin ⟨false, 2, 4, 4, 0, 0, 3, 0, 0⟩, .vfmax ⟨false, 2, 4, 4, 0, 0, 3, 0, 0⟩,
    .vfcmp ⟨false, 2, 4, 4, 0, 0, 3, 0, 0⟩, .vfdot2 ⟨false, 2, 4, 4, 0, 0, 6, 0, 0⟩, .vfdot4 ⟨false, 2, 4, 4, 0, 0, 10, 0, 0⟩,
    .vfclass ⟨false, 2, 4, 0, 0, 0, 3, 0, 0⟩, .vfrnd ⟨false, 2, 4, 0, 0, 0, 3, 0, 0⟩, .vfrcp ⟨false, 2, 4, 0, 0, 0, 3, 0, 0⟩,
    .vfrsq ⟨false, 2, 4, 0, 0, 0, 3, 0, 0⟩, .vfsqrt ⟨false, 2, 4, 0, 0, 0, 3, 0, 0⟩, .vfexp2 ⟨false, 2, 4, 0, 0, 0, 3, 0, 0⟩,
    .vflog2 ⟨false, 2, 4, 0, 0, 0, 3, 0, 0⟩, .vfsin ⟨false, 2, 4, 0, 0, 0, 3, 0, 0⟩, .vfcos ⟨false, 2, 4, 0, 0, 0, 3, 0, 0⟩,
    .vcvt ⟨false, 2, 4, 0, 3, 0, 1, 0, 0⟩, .vpackX2 ⟨false, 2, 4, 4, 3, 0, 4, 0, 0⟩, .vpackX4 ⟨false, 2, 4, 4, 6, 0, 8, 0, 0⟩,
    .vunpk 0 ⟨false, 2, 4, 0, 6, 0, 1, 0, 0⟩, .vqduo ⟨false, 2, 4, 0, 0, 0, 12, 0, 128⟩, .vscale ⟨false, 2, 4, 4, 0, 0, 3, 0, 0⟩,
    .vfaddImm ⟨false, 3, 2, 4, 0, false, 7⟩, .vfmulImm ⟨false, 3, 2, 4, 0, false, 7⟩, .vfminImm ⟨false, 3, 2, 4, 0, false, 7⟩,
    .vfmaxImm ⟨false, 3, 2, 4, 0, false, 7⟩] : List Instr).all vectorRuns = true := by decide +kernel

theorem witness_vector_lanes : ([.vshfl ⟨false, 2, 4, 4, 0, 0, 0, 0, 0⟩, .vshflUp ⟨false, 2, 4, 4, 0, 0, 0, 0, 0⟩, .vshflDown ⟨false, 2, 4, 4, 0, 0, 0, 0, 0⟩,
    .vshflXor ⟨false, 2, 4, 4, 0, 0, 0, 0, 0⟩, .vshflx ⟨false, 2, 4, 4, 0, 0, 0, 0, 0⟩, .vbcast ⟨false, 2, 4, 4, 0, 0, 0, 0, 64⟩,
    .vfunl ⟨false, 2, 4, 4, 3, 0, 0, 0, 0⟩, .vbperm ⟨false, 2, 4, 4, 0, 0, 0, 0, 0⟩, .vballot ⟨false, 2, 4, 0, 0, 0, 0, 0, 0⟩,
    .vmatch ⟨false, 2, 4, 0, 0, 0, 1, 0, 0⟩, .vcompr ⟨false, 2, 4, 4, 0, 0, 0, 0, 0⟩, .vred 0 ⟨false, 2, 4, 0, 0, 0, 1, 0, 0⟩,
    .vscan 3 ⟨false, 2, 4, 0, 0, 0, 1, 0, 0⟩, .vlutn ⟨false, 2, 4, 4, 0, 0, 9, 0, 0xC0⟩] : List Instr).all vectorRuns = true := by
  decide +kernel

/-- StepRunsDecoded: the issue of a READY split whose next words are SLDI and its extension word. -/
theorem witness_decoded : let s := State.reset.withFetchWord 128 (0x0404000000000000 + 2 ^ 64 * 9)
    s.agenda = [.issue 0 0] ∧ s.split? 0 0 = some (s.splitD 0 0) ∧ (s.splitD 0 0).st = .ready
      ∧ Holds s 0 (s.splitD 0 0).pc 0x0404000000000000 9 ∧ decode 0x0404000000000000 9 = .ok (.sldi ⟨false, 16, 0, 0, 0⟩ 9) :=
  ⟨rfl, rfl, rfl, ⟨by decide +kernel, fun _ => by decide +kernel, fun h => absurd h (by decide +kernel)⟩, rfl⟩

/-- StepTakesIllop: the all-zero word. -/
theorem witness_illop : let s := State.reset.withFetchWord 64 0
    s.agenda = [.issue 0 0] ∧ s.warp? 0 = some (s.warpD 0) ∧ kget? (s.warpD 0).table 0 = some (s.splitD 0 0) ∧ (s.splitD 0 0).st = .ready
      ∧ (s.splitD 0 0).lmask ≠ 0 ∧ Holds s 0 (s.splitD 0 0).pc 0 0 ∧ decode 0 0 = .error .opcode :=
  ⟨rfl, rfl, rfl, rfl, by decide +kernel, ⟨by decide +kernel, fun h => absurd h (by decide +kernel), fun _ => rfl⟩, rfl⟩

/-- A firmware core in whose SRAM a word stands at its pc, and whose next step the agenda names. -/
def firmwareAt (w : Nat) : State := State.reset.withFetchWord 32 w

/-- StepFirmware: one state for each clause. -/
theorem witness_firmware_steps :
    (let s := (firmwareAt 0).modFw 0 fun c => { c with wait := some (1, 1, 0) };
      s.agenda = [.firmware 0 0 0] ∧ (s.fwCore 0).wait ≠ none)
    ∧ (∀ x ∈ [0x00C5950B, 0xFE00700B, 0x13], (firmwareAt x).agenda = [.firmware 0 0 0] ∧ ((firmwareAt x).fwCore 0).wait = none
        ∧ ((firmwareAt x).fwCore 0).disp = none ∧ ((firmwareAt x).fwCore 0).ram 0 4 = x)
    ∧ decodeXkarb 0x00C5950B = some (.kbfx ⟨12, 11, 10⟩) ∧ decodeXkarb 0xFE00700B = none ∧ (0xFE00700B#32).extractLsb' 0 7 = 0x0B
    ∧ decodeXkarb 0x13 = none ∧ (0x13#32).extractLsb' 0 7 ≠ 0x0B := by decide +kernel

/-- StepRunsEvents. -/
theorem witness_events : ({ State.reset with agenda := [.event .hostHeartbeat] } : State).agenda = [.event .hostHeartbeat]
    ∧ State.reset.agenda = [] := ⟨rfl, rfl⟩

/-- ScalarDivide: by a register and by an immediate, zero and minus one. -/
theorem witness_divide : ([.sdiv ⟨false, 1, 2, 3, 0⟩, .sdivImm ⟨false, 1, 2, 0, 0⟩, .sdivImm ⟨false, 1, 2, 0, 0x3FFFFFFFF⟩,
    .sdivU ⟨false, 63, 2, 3, 0⟩] : List Instr).all (fun i => i.wf && (divideRule base i).isSome) = true := by decide +kernel

/-- MaskResults. -/
theorem witness_masks : ([.mand ⟨false, 1, 2, 3, 0⟩, .mor ⟨false, 0, 2, 3, 0⟩, .mxor ⟨false, 7, 7, 7, 0⟩, .mnot ⟨false, 1, 2, 0, 0⟩,
    .mmov ⟨false, 1, 2, 0, 0⟩, .mrest ⟨false, 1, 63, 0, 0⟩] : List Instr).all (fun i => i.wf && (maskRule base i).isSome) = true := by decide +kernel

/-- ReadResults. -/
theorem witness_reads : (∀ i ∈ ([.mpopc ⟨false, 1, 2, 0, 0⟩, .mffs ⟨false, 1, 2, 0, 0⟩, .msave ⟨false, 1, 2, 0, 0⟩, .splitq ⟨false, 1, 0, 0, 0⟩,
    .crd ⟨false, 1, 0, 0, 0, 31, 0⟩] : List Instr), i.wf = true ∧ (readRule base base.curWarp base.curSplit i).isSome = true) := by decide +kernel

/-- NarrowExecutionMask: with and without a destination. -/
theorem witness_msetem : check (.msetem ⟨false, 0, 2, 0, 0⟩) = none ∧ check (.msetem ⟨false, 7, 2, 0, 0⟩) = none ∧ (7#6) ≠ 0 := by decide +kernel

/-- SpecialReads and LaneRead: registers 1, 15 and 0; a vector register below the budget and at it. -/
theorem witness_srd : (1 : BitVec 34).toNat % 16 ≠ 0 ∧ (15 : BitVec 34).toNat % 16 ≠ 0 ∧ (0xFF0 : BitVec 34).toNat % 16 = 0
    ∧ (0xFF0 : BitVec 34).toNat / 16 % 256 < base.curWarp.budget
    ∧ (warpAt fun w => { w with budget := 32 }).curWarp.budget ≤ (0x200 : BitVec 34).toNat / 16 % 256 := by decide +kernel

theorem small_budget_issuer : let s := warpAt fun w => { w with budget := 32 }
    Issuer s s.curWarp s.curSplit := ⟨rfl, rfl, rfl, by decide +kernel⟩

/-- A result due now. -/
def due (d : Dest) : Result :=
  { (default : Result) with dest := d, mem := false, done := false, due := 0, lanes := 1, pend := 1, vals := [(0, 7)], sval := 5 }
def landing (d : Dest) : State := warpAt fun w => { w with results := [(3, due d)] }

/-- ResultLands and LanesLand: one result of each kind. -/
theorem witness_landing : ∀ d ∈ [Dest.sca 62, .vec 255, .msk 7],
    (landing d).warp? 0 = some ((landing d).warpD 0) ∧ kget? ((landing d).warpD 0).results 3 = some (due d) ∧ (due d).mem = false
      ∧ (due d).done = false ∧ (due d).due ≤ (landing d).clk ∧ (∀ q ∈ ((landing d).warpD 0).results, q.2.done = false)
      ∧ ((due d).vals.map Prod.fst).Nodup := by decide +kernel

/-- WarpStart. -/
theorem witness_start : (newWarps oneWarp 0 0 0 [(0, 0)]).map Prod.fst = [0] := by decide +kernel

/-! ### Control -/

/-- GoesOnInSequence: with a join group that the split is not at the PC of, and branches that are not taken. -/
theorem witness_sequence : ([.nop ⟨false, 0, 0, 0, 0⟩, .brc ⟨false, 5, 0, 1, 1⟩, .brx ⟨false, 5, 0, 1, 0⟩, .join ⟨false, 0, 0, 0, 0⟩,
    .joinBnd ⟨false, 9, 0, 0, 0⟩, .bkpt ⟨false, 0, 0, 0, 0, 0, 1⟩, .ckpt ⟨false, 0, 0, 0, 0, 0, 0⟩] : List Instr).all
    (fun i => i.wf && (sequenceRule base base.curSplit i).isSome) = true := by decide +kernel

/-- A warp whose v4:v5 hold a target of N64 in every lane, but 8 in lane 1. -/
def targets : State :=
  warpAt fun w => { w with m := kput w.m 2 1, tags := [(4, 14), (5, 15)], v := [(32 * 4 + 1, 8)] }

theorem targets_issuer : Issuer targets targets.curWarp targets.curSplit := ⟨rfl, rfl, rfl, by decide +kernel⟩

/-- TransferWhole: each transfer with one target. -/
theorem witness_whole : ([.bra ⟨false, 5, 0, 0, 0⟩, .brc ⟨false, 5, 0, 1, 0⟩, .brx ⟨false, 5, 0, 0, 0⟩, .yield ⟨false, 0, 0, 0, 0⟩,
    .jmpi ⟨false, 0, 0, 6, 0⟩, .ret ⟨false, 0, 0, 6, 0⟩] : List Instr).all (fun i => i.wf && match transferRule targets targets.curSplit i with
      | some (_, _, tgt) => (List.range 32).all fun l => tgt l == tgt 0
      | none => false) = true
    ∧ PairPasses targets targets.curWarp (.jmpi ⟨false, 0, 0, 6, 0⟩) :=
  ⟨by decide +kernel, fun r rd h => by obtain ⟨rfl, rfl⟩ : 6 = r ∧ true = rd := by simpa [targetPair] using h
                                       decide +kernel⟩

/-- TransferDivides: lanes 0 and 1 have different targets, with and without JOFS. -/
theorem witness_divides : ([.brx ⟨false, 5, 3, 2, 0⟩, .jmpi ⟨false, 0, 0, 4, 0⟩, .ret ⟨false, 0, 3, 4, 0⟩] : List Instr).all
      (fun i => i.wf && match transferRule targets targets.curSplit i with
        | some (_, _, tgt) => tgt 0 != tgt 1
        | none => false) = true
    ∧ targets.curSplit.lmask.getLsbD 0 = true ∧ targets.curSplit.lmask.getLsbD 1 = true ∧ targets.curSplit.jgrp = 0
    ∧ targets.curWarp.table.length + (List.range 32).countP targets.curSplit.lmask.getLsbD ≤ 33
    ∧ targetPair (.ret ⟨false, 0, 3, 4, 0⟩) = some (4, true) ∧ 4 + 1 < targets.curWarp.budget
    ∧ targets.tagOfReg 4 ∈ [(0 : BitVec 4), 14] ∧ targets.tagOfReg 5 ∈ [(0 : BitVec 4), 15] := by decide +kernel

/-- CallMoves: CALL, and CALL.ind of a pair that holds one target. -/
theorem witness_calls : ([.call ⟨false, 5, 0, 4, 0⟩, .callInd ⟨false, 0, 0, 6, 0⟩] : List Instr).all
    (fun i => i.wf && match callRule targets targets.curSplit i with
      | some (r, _, _, tgt) => decide (r + 1 < targets.curWarp.budget) && (List.range 32).all fun l => tgt l == tgt 0
      | none => false) = true := by decide +kernel

/-- A warp with a budget of 32, a pair v8:v9 of F32, an N64 pair v10:v11 with a wrong odd tag. -/
def wrongPairs : State := warpAt fun w => { w with budget := 32, m := kput w.m 2 1, tags := [(8, 3), (10, 14), (11, 2)] }

/-- TransferFaults: REGRANGE at the budget and one below it, FMTTAG of either register, JDEPTH. -/
theorem witness_transfer_faults :
    Issuer wrongPairs wrongPairs.curWarp wrongPairs.curSplit
    ∧ (targetPair (.ret ⟨false, 0, 0, 32, 0⟩) = some (32, true) ∧ wrongPairs.curWarp.budget ≤ 32 + 1
      ∧ targetPair (.call ⟨false, 0, 0, 31, 0⟩) = some (31, false) ∧ wrongPairs.curWarp.budget ≤ 31 + 1
      ∧ targetPair (.jmpi ⟨false, 0, 0, 8, 0⟩) = some (8, true) ∧ 8 + 1 < wrongPairs.curWarp.budget ∧ wrongPairs.tagOfReg 8 ∉ [(0 : BitVec 4), 14]
      ∧ targetPair (.callInd ⟨false, 0, 0, 10, 0⟩) = some (10, true) ∧ wrongPairs.tagOfReg 10 ∈ [(0 : BitVec 4), 14]
      ∧ wrongPairs.tagOfReg 11 ∉ [(0 : BitVec 4), 15]) := ⟨⟨rfl, rfl, rfl, by decide +kernel⟩, by decide +kernel⟩

/-- A split at depth 31. -/
def deep : State := targets.modSplit 0 0 fun p => { p with jgrp := 31, jpc := 9 }
theorem witness_depth : Issuer deep deep.curWarp deep.curSplit ∧ (deep.curSplit.jgrp = 31 ∧ (3#16) ≠ 0
    ∧ (transferRule deep deep.curSplit (.brx ⟨false, 5, 3, 2, 0⟩)).map (fun x => (x.1, x.2.2 0 != x.2.2 1)) = some (3, true)
    ∧ (callRule deep deep.curSplit (.callInd ⟨false, 0, 3, 4, 0⟩)).map (fun x => (x.2.1, x.2.2.2 0 != x.2.2.2 1)) = some (3, true)) :=
  ⟨⟨rfl, rfl, rfl, by decide +kernel⟩, by decide +kernel⟩

/-- A lock that the warp holds, on the line at 0. -/
def heldLock : LockSlot := { (default : LockSlot) with line := 0, held := true, live := true }
/-- A second split, in lanes that the issuer lacks, in slot 1. -/
def second (f : Split → Split) : State :=
  warpAt fun w => { w with table := [(0, { base.curSplit with lmask := 3 }), (1, f { base.curSplit with lmask := 12 })] }

/-- ExitEnds: the last split with a lock and without; one of two splits. -/
theorem witness_exit :
    (let s := warpAt fun w => { w with locks := [heldLock] };
      (Issuer s s.curWarp s.curSplit) ∧ (s.curWarp.table.map Prod.fst).Nodup ∧ s.curWarp.table.length = 1 ∧ s.curWarp.heldLocks ≠ [])
    ∧ (base.curWarp.heldLocks = [] ∧ base.curSplit.jgrp = 0 ∧ base.curWarp.arrSet = []
      ∧ (∀ q ∈ base.curWarp.table, q.2.st = .ready))
    ∧ (let s := second id;
      (Issuer s s.curWarp s.curSplit) ∧ s.curWarp.table.length ≠ 1 ∧ ∀ q ∈ s.curWarp.table, q.2.st = .ready) :=
  ⟨⟨⟨rfl, rfl, rfl, by decide +kernel⟩, by decide +kernel, by decide +kernel, by decide +kernel⟩, by decide +kernel, ⟨rfl, rfl, rfl, by decide +kernel⟩, by decide +kernel, by decide +kernel⟩

/-! ### Memory, local store, locks and waits -/

/-- s4 holds the canonical address 0x1000. -/
def memory : State := warpAt fun w => { w with sc := [(4, 0x1000)] }
theorem memory_issuer : Issuer memory memory.curWarp memory.curSplit := ⟨rfl, rfl, rfl, by decide +kernel⟩

/-- What MRule.Passes asks. -/
def passes (s : State) (r : MRule) : Bool :=
  r.regs.all (· < s.curWarp.budget) && r.tags.all (fun c => c.2.contains (s.tagOfReg c.1).toNat)
    && r.addrs.all fun a => a.2.extractLsb' 57 3 == 0 && a.2.toNat % r.align == 0

/-- LoadsIssue, StoresIssue, AtomicsIssue, CacheOperationsIssue: every instruction of memRule, with and without an index register. -/
theorem witness_memory : ([.ld 2 ⟨false, 8, 4, 255, 0, 0, 2, 0, 0, 0x40⟩, .ld 14 ⟨false, 8, 4, 3, 0, 5, 3, 2, 0, 0⟩,
    .st 0 ⟨false, 8, 4, 3, 0, 0, 4, 0, 0, 0⟩, .lds ⟨false, 63, 4, 255, 0, 0, 3, 0, 0, 0⟩, .ldsSx ⟨false, 8, 4, 255, 0, 0, 2, 0, 0, 0⟩,
    .sts ⟨false, 8, 4, 255, 0, 0, 3, 0, 0, 8⟩, .lkqry ⟨false, 8, 4, 255, 0, 0, 0, 0, 0, 0⟩, .atom 5 ⟨false, 8, 4, 255, 0, 1, 3, 1, 0, 0⟩,
    .red 0 ⟨false, 8, 4, 3, 0, 1, 2, 1, 0, 0⟩, .atomc ⟨false, 8, 4, 255, 0, 1, 3, 1, 0, 0⟩, .cwb ⟨false, 0, 4, 255, 0, 0, 0, 0, 0, 0⟩,
    .cinv ⟨false, 0, 4, 3, 0, 0, 0, 0, 0, 1⟩] : List Instr).all (fun i => i.wf && match memRule memory i with
      | some r => passes memory r
      | none => false) = true := by decide +kernel

theorem witness_prefetch : ([.prf ⟨false, 0, 4, 255, 0, 0, 0, 0, 0, 0⟩, .prfL2 ⟨false, 0, 4, 3, 0, 0, 0, 0, 0, 0⟩] : List Instr).all Instr.wf = true
    ∧ (∀ v ∈ indexRule ⟨false, 0, 4, 3, 0, 0, 0, 0, 0, 0⟩, v < memory.curWarp.budget)
    ∧ ∀ c ∈ indexTags ⟨false, 0, 4, 3, 0, 0, 0, 0, 0, 0⟩, (memory.tagOfReg c.1).toNat ∈ c.2 := by decide +kernel

/-- A budget of 32; v3 of F32; s4 not canonical; s5 odd. -/
def wrongMemory : State := warpAt fun w => { w with budget := 32, tags := [(3, 3)], sc := [(4, 0x0200000000000000), (5, 1)] }

/-- MemoryFaults: REGRANGE at the budget, FMTTAG, ADDRNC, MISALIGN. -/
theorem witness_memory_faults : Issuer wrongMemory wrongMemory.curWarp wrongMemory.curSplit
    ∧ ((memRule wrongMemory (.ld 2 ⟨false, 32, 5, 255, 0, 0, 2, 0, 0, 0⟩)).bind (fun r => r.regs.find? fun v => decide (wrongMemory.curWarp.budget ≤ v)) = some 32
      ∧ ((memRule wrongMemory (.ld 2 ⟨false, 31, 5, 3, 0, 0, 2, 0, 0, 0⟩)).bind (fun r => r.tags.find? fun c => !c.2.contains (wrongMemory.tagOfReg c.1).toNat)).isSome = true
      ∧ ((memRule wrongMemory (.ld 2 ⟨false, 31, 4, 255, 0, 0, 2, 0, 0, 0⟩)).bind (fun r => r.addrs.find? fun a => a.2.extractLsb' 57 3 != 0)).isSome = true
      ∧ ((memRule wrongMemory (.lds ⟨false, 31, 5, 255, 0, 0, 1, 0, 0, 0⟩)).bind (fun r => r.addrs.find? fun a => a.2.toNat % r.align != 0)).isSome = true
      ∧ (memRule wrongMemory (.lds ⟨false, 31, 5, 255, 0, 0, 1, 0, 0, 0⟩)).map (fun r => r.addrs.all fun a => a.2.extractLsb' 57 3 == 0) = some true) :=
  ⟨⟨rfl, rfl, rfl, by decide +kernel⟩, by decide +kernel⟩

/-- LocalAccessIssues: forms that wait and do not; the last offset below the limit. -/
theorem witness_local : ([.ldl 1 ⟨false, 8, 0, 255, 0, 0, 2, 2, 0, 0x40⟩, .ldl 1 ⟨false, 8, 0, 255, 0, 0, 2, 0, 0, 0⟩,
    .stl 0 ⟨false, 8, 0, 3, 0, 0, 3, 0, 0, 0⟩, .stl 2 ⟨false, 8, 0, 255, 0, 0, 2, 5, 0, 0⟩] : List Instr).all (fun i => i.wf && match localRule i with
      | none => false
      | some (f, _, tags) => (dataRule f ++ indexRule f).all (· < base.curWarp.budget) && tags.all (fun c => c.2.contains (base.tagOfReg c.1).toNat)
        && (activeLanes base f).all fun l => (laneAddr base f l).toNat % 2 ^ f.sz.toNat == 0
          && decide ((laneAddr base f l).toNat + 2 ^ f.sz.toNat ≤ base.curBlock.alloc - 1536 * base.curBlock.warps)) = true
    ∧ (∀ q ∈ base.fes, q.2.reach ≠ 0) := by decide +kernel

/-- LocalFaults: an odd offset, and the first offset past the limit. -/
theorem witness_local_faults : let s := warpAt fun w => { w with sc := [(5, 1), (6, 391680)] }
    (activeLanes s ⟨false, 8, 5, 255, 0, 0, 2, 0, 0, 0⟩).find? (fun l => (laneAddr s ⟨false, 8, 5, 255, 0, 0, 2, 0, 0, 0⟩ l).toNat % 4 != 0) = some 0
    ∧ (∀ l ∈ activeLanes s ⟨false, 8, 6, 255, 0, 0, 2, 0, 0, 0⟩, (laneAddr s ⟨false, 8, 6, 255, 0, 0, 2, 0, 0, 0⟩ l).toNat % 4 = 0)
    ∧ s.curBlock.alloc - 1536 * s.curBlock.warps = 391680 := by decide +kernel

/-- LocksIssue: no lock; the line waited for or held; four other lines. -/
theorem witness_locks :
    (∀ f : MFmt, f ∈ [(⟨false, 5, 4, 255, 0, 5, 0, 0, 0, 0⟩ : MFmt)] → (onceAddr memory f).extractLsb' 57 3 = 0 ∧ (memory.curWarp.locks.filter fun k => k.live) = [])
    ∧ (let s := warpAt fun w => { w with locks := [heldLock] };
      (onceAddr s ⟨false, 5, 4, 255, 0, 5, 0, 0, 0, 0⟩).extractLsb' 57 3 = 0
        ∧ lineOf s.curLaunch.asid (onceAddr s ⟨false, 5, 4, 255, 0, 5, 0, 0, 0, 0⟩).toNat (s.grainAt s.curBlock.pkg s.curLaunch.asid 0) = heldLock.line)
    ∧ (let s := warpAt fun w => { w with locks := [1, 2, 3, 4].map fun n => { heldLock with line := 512 * n } };
      (s.curWarp.locks.filter fun k => k.live).length = 4 ∧ ∀ k ∈ s.curWarp.locks, k.line ≠ 0) := by decide +kernel

/-- A memory result of the split's span under way, and its warp. -/
def under : Result :=
  { (default : Result) with
    dest := .sca 5, mem := true, lanes := 1, pend := 1, span := base.curSplit.span, own := base.curSplit.lmask }
def busy : State := warpAt fun w => { w with results := [(3, under)] }

/-- Nothing of the split's span is to come, as a test. -/
def quiet (s : State) : Bool := s.curWarp.results.all fun q => !q.2.waits s.curSplit

/-- WaitsForSpan. -/
theorem witness_waits_for_span : (Issuer busy busy.curWarp busy.curSplit) ∧ quiet busy = false ∧ quiet base = true :=
  ⟨⟨rfl, rfl, rfl, by decide +kernel⟩, by decide +kernel, by decide +kernel⟩

/-- The issuer holds lanes 0 and 1 at join depth 1 at its join PC; split 1 holds lanes 2 and 3 and has still to come, or waits. -/
def joining (st : SplitState) : State :=
  (warpAt fun w => { w with table := [(0, { base.curSplit with lmask := 3, jgrp := 1, jpc := base.curSplit.pc }),
    (1, { base.curSplit with lmask := 12, jgrp := 1, jpc := base.curSplit.pc, st := st })] })

/-- WaitsForCondition: one state for each instruction. -/
theorem witness_waits_for_condition :
    (let s := joining .ready;
      (∀ q ∈ s.curWarp.results, q.2.waits s.curSplit = false) ∧ (s.curWarp.table.map Prod.fst).Nodup ∧ (s.warps.map Prod.fst).Nodup
        ∧ s.curSplit.jgrp ≠ 0 ∧ s.curSplit.pc = s.curSplit.jpc ∧ (s.splitD 0 1).jgrp = s.curSplit.jgrp ∧ (s.splitD 0 1).jpc = s.curSplit.jpc
        ∧ (s.splitD 0 1).inJoin = false ∧ (4 : BitVec 22) ≠ 0
        ∧ s.curWarp.gathering s.curSplit.pc = [] ∧ s.rdM 0 &&& s.curWarp.liveLanes &&& ~~~s.curSplit.lmask ≠ 0)
    ∧ (let s := (second id).modWarp 0 fun w => { w with sc := [(4, 1), (5, 15)], wphase := [(0, (0, true))] };
      (kgetD s.curBlock.counters 31 0 - s.rdS 4).getLsbD 31 = true ∧ (∀ q ∈ s.curWarp.table, q.2.eff ≠ .cntWait)
        ∧ s.curWarp.barFree 0 = false ∧ s.curWarp.syncers = [] ∧ (s.rdS 5).extractLsb' 0 32 &&& s.curWarp.liveLanes &&& ~~~s.curSplit.lmask ≠ 0
        ∧ s.curSplit.lmask &&& ~~~(s.rdS 5).extractLsb' 0 32 = 0) := by decide +kernel

/-- WaitsComplete. -/
theorem witness_waits_complete : quiet base = true ∧ (kgetD base.curBlock.counters 31 0 - base.rdS 4).getLsbD 31 = false ∧ base.curWarp.captured = false
    ∧ (base.warps.map Prod.fst).Nodup ∧ (base.curWarp.table.map Prod.fst).Nodup ∧ (∀ q ∈ base.curWarp.table, q.2.eff ≠ .cntWait)
    ∧ base.curWarp.barFree 0 = true ∧ base.curWarp.syncers = []
    ∧ (let s := warpAt fun w => { w with sc := [(5, 0xFFFFFFFF)] };
      s.curSplit.lmask &&& ~~~(s.rdS 5).extractLsb' 0 32 = 0 ∧ (s.rdS 5).extractLsb' 0 32 &&& s.curWarp.liveLanes &&& ~~~s.curSplit.lmask = 0) := by decide +kernel

/-- SplitsMerge: the last member of a join group, and a gathering of the split's own lanes. -/
theorem witness_merge : let s := joining .joinWait
    (Issuer s s.curWarp s.curSplit) ∧ (quiet s = true ∧ (∀ q ∈ s.curWarp.table, q.1 ≠ 0 → q.2.inJoin = true)
      ∧ s.curWarp.table.map Prod.fst = [0, 1] ∧ base.curWarp.gathering base.curSplit.pc = []
      ∧ base.rdM 2 &&& base.curWarp.liveLanes &&& ~~~base.curSplit.lmask = 0) :=
  ⟨⟨rfl, rfl, rfl, by decide +kernel⟩, by decide +kernel⟩

/-- BarrierArrival: lanes still missing at a block barrier; a lane that has arrived; a grid barrier without a wire. -/
theorem witness_arrival :
    (let s := second id;
      kgetD s.curWarp.arrSet 0 0 &&& s.curSplit.lmask = 0 ∧ s.curWarp.liveLanes &&& ~~~(kgetD s.curWarp.arrSet 0 0 ||| s.curSplit.lmask) ≠ 0
        ∧ quiet s = true)
    ∧ (let s := warpAt fun w => { w with arrSet := [(15, 1)] }; kgetD s.curWarp.arrSet 15 0 &&& s.curSplit.lmask ≠ 0)
    ∧ (base.curLaunch.desc.wire 15).isSome = false := by decide +kernel

/-- A store of the warp that is still to apply. -/
def storing : State := { base with reqs := [(3, { (default : Req) with kind := .store, wid := 0, seq := 0, phase := .out, scope := 5, own := base.curSplit.lmask })] }

/-- SignalsIssue: nothing outstanding; a store outstanding; a mask that lacks a lane of the split. -/
theorem witness_signals : base.signalReady 0 base.nextId 0 = true ∧ (base.block? base.curWarp.block).isSome = true
    ∧ storing.signalReady 0 storing.nextId 5 = false ∧ base.curSplit.lmask &&& ~~~(base.rdS 5).extractLsb' 0 32 ≠ 0 := by decide +kernel

/-! ### Accesses on their way -/

/-- A leaf of 1 GiB on die 0 of package 0 with R, W, X and tracking; without W; with tag checks. -/
def leafAll : Word := 0x80000123F
def leafRead : Word := 0x800001237
def leafTags : Word := 0x80000133F

/-- A request for the 4 bytes at 4,096 that its home has accepted. -/
def req (k : ReqKind) : Req :=
  { (default : Req) with
    kind := k, own := base.curSplit.lmask, lanes := 1, va := 4096, size := 4, phase := .out, filled := true, data := [1, 2, 3, 4],
    opnds := [(0, 5, 0), (1, 6, 0)] }

/-- A machine in which that request stands at its home, whose home region holds its block under the leaf. -/
def homed (l : Word) (r : Req) : State :=
  { base with reqs := [(3, r)], homes := [(homeKey 0 0 8, ⟨0xFFFF, l, 1⟩)] }

theorem home_all (k : ReqKind) (h : k = .store ∨ k = .red ∨ k = .atom ∨ k = .load ∨ k = .prf ∨ k = .lkqry ∨ k = .lock ∨ k = .lockTry ∨ k = .unlock) :
    AtHome (homed leafAll (req k)) 3 (req k) leafAll ∧ HomePasses (homed leafAll (req k)) (req k) leafAll := by
  rcases h with rfl | rfl | rfl | rfl | rfl | rfl | rfl | rfl | rfl <;>
    exact ⟨⟨rfl, rfl, by decide +kernel, by decide +kernel, by decide +kernel, by decide +kernel⟩, by decide +kernel, by decide +kernel, by decide +kernel,
      by decide +kernel, by decide +kernel⟩

/-- WritesApply: its home conditions are those of home_all. -/
theorem witness_applies : MemoryOk (homed leafAll (req .store)) ∧ ((req .store).op ≠ 2 ∧ (req .red).size = 4
    ∧ (homed leafAll (req .red)).memPoison.contains ((req .red).key leafAll / 32) = false) := ⟨rfl, by decide +kernel⟩

/-- The line of the request is LOST at its home. -/
def lostLine (k : ReqKind) : State :=
  { homed leafAll (req k) with dirs := [(lineKey 0 (lineOf 0 4096 32), { (default : Dir) with lost := true })] }
/-- The request carries a tag that memory does not. -/
def wrongTag (k : ReqKind) : Req := { req k with va := 0x1000000000001000 }

/-- The store of `req` reaches the launch's arguments. -/
def toArgs : State :=
  (homed leafAll (req .store)).modLaunch 0 fun l => { l with desc := { l.desc with args := 4096, kern := { l.desc.kern with narg := 1 } } }

/-- WritesFail: no permission, a LOST line, another tag, a store to the arguments. -/
theorem witness_fails :
    (AtHome (homed leafRead (req .store)) 3 (req .store) leafRead ∧ (req .store).permitted leafRead = false)
    ∧ (AtHome (lostLine .store) 3 (req .store) leafAll ∧ (req .store).permitted leafAll = true ∧ leafTr leafAll = true ∧ (lostLine .store).lineLost (req .store) leafAll = true)
    ∧ (AtHome (homed leafTags (wrongTag .store)) 3 (wrongTag .store) leafTags ∧ (wrongTag .store).permitted leafTags = true
      ∧ (homed leafTags (wrongTag .store)).lineLost (wrongTag .store) leafTags = false ∧ (homed leafTags (wrongTag .store)).homeTagOk (wrongTag .store) leafTags = false)
    ∧ (req .store).work.1 = 0 ∧ (lostLine .store).readOnly (req .store) = false ∧ (homed leafTags (wrongTag .store)).readOnly (wrongTag .store) = false
    ∧ (AtHome toArgs 3 (req .store) leafAll ∧ toArgs.readOnly (req .store) = true)
    ∧ base.curWarp.ended = false ∧ base.curWarp.pfr.has = false :=
  ⟨⟨⟨rfl, rfl, by decide +kernel, by decide +kernel, by decide +kernel, rfl⟩, by decide +kernel⟩, ⟨⟨rfl, rfl, by decide +kernel, by decide +kernel, by decide +kernel, rfl⟩, by decide +kernel, by decide +kernel, by decide +kernel⟩,
    ⟨⟨rfl, rfl, by decide +kernel, by decide +kernel, by decide +kernel, rfl⟩, by decide +kernel, by decide +kernel, by decide +kernel⟩, rfl,
    by decide +kernel, by decide +kernel, ⟨⟨rfl, rfl, by decide +kernel, by decide +kernel, by decide +kernel, rfl⟩, by decide +kernel⟩,
    by decide +kernel, by decide +kernel⟩

/-- WritesFail, LoadsServed: a failure that has come back to its core, of a store and of a load. -/
def failedBack (k : ReqKind) : Req := { req k with phase := .failed, fault := 2 }
theorem witness_failed : ∀ k ∈ [ReqKind.store, .load], kget? (homed leafAll (failedBack k)).reqs 3 = some (failedBack k)
    ∧ (failedBack k).phase = .failed ∧ (failedBack k).arrive ≤ base.clk ∧ (failedBack k).work.1 = 0 ∧ (homed leafAll (failedBack k)).warp? 0 = some base.curWarp
    ∧ base.curWarp.ended = false ∧ ∀ q ∈ base.curWarp.table, q.2.eff ≠ .faulted := by decide +kernel

/-- A load that has passed the near copies. -/
def homeLoad : Req := { req .load with stage := 2 }
/-- A copy of the block of 4,096 at a place: 0 is the L1 of core 0, 1 the far region of die 0. -/
def copyIn (place : Nat) : Copy := { (default : Copy) with place := place, asid := 0, blk := 8, leaf := leafAll, valid := 1 }
def copied (place : Nat) (r : Req) : State := { homed leafAll r with copies := [(copyKey place 0 8, copyIn place)] }

/-- LoadsServed: at the home, refused, of a LOST line, of another tag; a prefetch and LKQRY by home_all; from the L1. -/
theorem witness_served :
    (AtHome (homed leafAll homeLoad) 3 homeLoad leafAll ∧ HomePasses (homed leafAll homeLoad) homeLoad leafAll ∧ 2 ≤ homeLoad.stage)
    ∧ (AtHome (homed 0x80000123B (req .load)) 3 (req .load) 0x80000123B ∧ (req .load).permitted 0x80000123B = false)
    ∧ (AtHome (lostLine .load) 3 (req .load) leafAll ∧ (lostLine .load).lineLost (req .load) leafAll = true)
    ∧ (AtHome (homed leafTags (wrongTag .load)) 3 (wrongTag .load) leafTags ∧ (homed leafTags (wrongTag .load)).homeTagOk (wrongTag .load) leafTags = false)
    ∧ ((copied 0 (req .load)).l1Hit (req .load) = some (copyKey 0 0 8, copyIn 0) ∧ (copyIn 0).tagOk 4096 = true
      ∧ (copyIn 0).poison.getLsbD (sectorOf 4096) = false ∧ (copied 0 (req .load)).linkHolds (req .load) = false
      ∧ (copied 0 (req .load)).mayMake (req .load) = true
      ∧ (copied 0 (req .load)).entryLost (lineOf 0 4096 (copyIn 0).grain) = false) :=
  ⟨⟨⟨rfl, rfl, by decide +kernel, by decide +kernel, by decide +kernel, rfl⟩,
      ⟨by decide +kernel, by decide +kernel, by decide +kernel, by decide +kernel, by decide +kernel⟩, by decide +kernel⟩,
    ⟨⟨rfl, rfl, by decide +kernel, by decide +kernel, by decide +kernel, rfl⟩, by decide +kernel⟩,
    ⟨⟨rfl, rfl, by decide +kernel, by decide +kernel, by decide +kernel, rfl⟩, by decide +kernel⟩,
    ⟨⟨rfl, rfl, by decide +kernel, by decide +kernel, by decide +kernel, rfl⟩, by decide +kernel⟩, by decide +kernel⟩

/-- The request's line lies on die 1, and die 0 has a far copy of it. -/
theorem witness_near :
    let s : State := { copied 1 { req .load with die := 1, stage := 1 } with mem := [] }
    s.nearHit { req .load with die := 1, stage := 1 } = some (copyKey 1 0 8, copyIn 1) := by decide +kernel

/-- A reply on its way back to its warp, whose result 5 is to be written. -/
def replying (r : Req) (d : Dest) : State :=
  { (warpAt fun w => { w with results := [(5, { (default : Result) with dest := d, mem := true, lanes := 3, pend := 3 })] }) with reqs := [(3, r)] }
def back (k : ReqKind) : Req := { req k with phase := .reply, va := 8192, regs := [5], old := [(0, 7), (1, 8)] }

/-- GranuleAccess: a value of a load that is due. -/
theorem witness_coming : let q : Result := { (default : Result) with dest := .vec 9, mem := true, lanes := 1, pend := 1, coming := [(0, (0, 7))] }
    q.mem = true ∧ (q.coming.map Prod.fst).Nodup ∧ (∀ x ∈ q.coming, x.1 < 32) ∧ ∃ x ∈ q.coming, x.2.1 ≤ base.clk := by decide +kernel

/-- RepliesLand: a lane, an atomic and a scalar. -/
theorem witness_replies :
    (∀ q ∈ (replying (back .load) (.vec 9)).curWarp.table, q.2.eff ≠ .faulted) ∧ (back .load).work.1 = 0
    ∧ (∀ q ∈ (replying (back .load) (.vec 9)).curWarp.results, q.1 = 5)
    ∧ (replying (back .load) (.vec 9)).curLaunch.desc.args.toNat % 2 ^ 57 + 2048 ≤ (back .load).va.toNat % 2 ^ 57
    ∧ (back .load).lanes = 1#32 <<< 0 ∧ (back .load).data.length = (back .load).size ∧ (back .load).size = 4 * (back .load).regs.length
    ∧ ((back .atom).old.map Prod.fst).Nodup ∧ (∀ x ∈ (back .atom).old, (3#32).getLsbD x.1 = true)
    ∧ (kget? (replying (back .load) (.sca 62)).curWarp.results 5).map (·.dest) = some (.sca 62) := by decide +kernel

/-! ### Copies, stages, look-ups, lost entries -/

/-- An invalidation of the line at 4,096 that is due at a die, with no store behind it. -/
def inval (dk : Nat) (anchor : Bool) : Inval := { (default : Inval) with dk := dk, line := 4096, grain := 32, anchor := anchor }
def invalidating (x : Inval) (s : State) : State := { s with invals := [(4, x)] }

/-- CopyEvents: a die with a copy, an anchor with a group, a die without a copy, write-backs on the home die and on another. -/
theorem witness_copies :
    ((invalidating (inval 0 false) (copied 1 (req .load))).dieHas (inval 0 false) = true
      ∧ (invalidating (inval 0 false) (copied 1 (req .load))).invalSource (inval 0 false) ≠ some 0)
    ∧ (let s : State := invalidating (inval 0 true) { base with dirs := [(lineKey 0 (lineOf 0 4096 32), { (default : Dir) with groups := 1 })] };
      (s.dirOf 0 (lineOf 0 4096 32)).groups.getLsbD (3 / 4) = true ∧ 128 * (0 / 128) + 3 ≠ 0 ∧ s.invalSource (inval 0 true) ≠ some 3)
    ∧ (({ invalidating (inval 2 false) base with clk := 9 } : State).dieHas (inval 2 false) = false) := by decide +kernel

/-- Page tables of ASID 0 on die 0 of package 0: the ASID entry, tables in frames 1 to 3, a leaf of 1 GiB in the last. -/
def tables (leaf : Word) : List Host.Cell :=
  memWrite (memWrite (memWrite (memWrite [] 0 (natBytes (1 + 2 ^ 8) 8)) 4096 (natBytes (1 + 2 ^ 10) 8)) 8192 (natBytes (1 + 3 * 2 ^ 9) 8))
    12288 (natBytes leaf.toNat 8)
def mapped (s : State) (leaf : Word) : State := { s with mem := tables leaf }

/-- Dirty bytes in the L1 of a core. -/
def dirtyIn (place : Nat) : Copy := { copyIn place with leaf := 0x80000121F, data := [(3, 7)], dirty := [3, 511] }
theorem witness_writeback :
    (∀ place ∈ [0, 96], let s := mapped { base with copies := [(copyKey place 0 8, dirtyIn place)] } 0x80000121F
      s.homeOf (place / 2 / 48 / 128) 0 (dirtyIn place).leaf (512 * 8) = some (0, 0) ∧ (dirtyIn place).isL1 = true
        ∧ (∀ o ∈ (dirtyIn place).dirty, o < 512) ∧ copyKey place 0 8 ≠ copyKey (farPlace (place / 2 / 48)) 0 8
        ∧ (s.rivals (farPlace (place / 2 / 48)) 0 8).length < 128)
    ∧ 0 / 2 / 48 = 128 * 0 + 0 ∧ 96 / 2 / 48 ≠ 128 * 0 + 0 := by decide +kernel
theorem mapped_ok : MemoryOk (mapped base leafAll) := by
  have h : Memory.wf (mapped base leafAll).mem = true := by decide +kernel
  exact h

/-- An applied store, its stage and LOST mark. -/
def acked (stage mark : Nat) : Req := { req .store with phase := .applied, stage := stage, mark := mark }
/-- StagesReturn: a stage without a mark and before it, the last stage, a marked stage, one with an invalidation elsewhere, a home that has failed, the
core stage of a store in the L1. -/
theorem witness_stages : (∀ x ∈ [(0, 0), (2, 4), (5, 0), (3, 4)], kget? (homed leafAll (acked x.1 x.2)).reqs 3 = some (acked x.1 x.2)
      ∧ (acked x.1 x.2).work.1 = 0 ∧ (acked x.1 x.2).phase = .applied ∧ (acked x.1 x.2).arrive ≤ base.clk)
    ∧ (acked 3 0).pkg = (base.blockOf 0).pkg
    ∧ (let s := invalidating { (inval 128 false) with req := 3, ord := 1 } (homed leafAll (acked 3 0));
      ∀ v ∈ s.invals, v.2.dk / 128 ≠ (s.blockOf 0).pkg)
    ∧ (let r := { acked 0 0 with pkg := 1 }
       let s : State := { homed leafAll r with pkgs := [(1, { Pkg.reset with failed := true, known := true })] }
      (s.pkg r.pkg).failed = true ∧ (s.pkg r.pkg).known = true ∧ r.pkg ≠ (s.blockOf 0).pkg ∧ s.curWarp.ended = false)
    ∧ base.curWarp.pfr.count ≤ 65535
    ∧ (let s : State := { homed leafAll { req .store with op := 1 } with clk := 2 };
      ∀ q ∈ s.reqs, q.2.op = 1 ∧ q.2.stage = 0 ∧ q.2.clk + 2 ≤ s.clk ∧ q.2.phase ≠ .applied ∧ q.2.phase ≠ .failed) := by decide +kernel

/-- LostEntries: an entry before, in and after its recovery. -/
def lostEntry (recover : Bool) : State :=
  { base with clk := 120000, dirs := [(lineKey 0 7, { (default : Dir) with lost := true, recover := recover })] }
theorem witness_lost : (base.dirOf 0 7).lost = false
    ∧ ((lostEntry false).dirOf 0 7).lost = true ∧ ((lostEntry false).dirOf 0 7).recover = false
    ∧ ((lostEntry true).dirOf 0 7).lost = true ∧ ((lostEntry true).dirOf 0 7).recover = true
    ∧ ((lostEntry true).dirOf 0 7).lostClk + 120000 ≤ (lostEntry true).clk ∧ ((lostEntry true).dirOf 0 7).purge = [] := by decide +kernel

/-- HomeLookups: a placement-cache miss with and without a leaf; at the home a TLB miss with and without a leaf, a home elsewhere, an
old generation; a first record and a waiting one. -/
theorem witness_lookups :
    (let s := mapped { base with reqs := [(3, { req .load with phase := .plc })] } leafAll; s.lookup 0 0 4096 = some (leafAll, 3, (0, 0)))
    ∧ base.lookup 0 0 4096 = none
    ∧ (let s := mapped { base with reqs := [(3, req .load)] } leafAll;
      s.homeState (req .load) = .miss ∧ s.ctlWalk 0 0 0 4096 = (some leafAll, [(5, 0, 1), (4, 0, 2), (3, 0, 3)]) ∧ s.linkHolds (req .load) = false)
    ∧ (homed 0x1000080000123F (req .load)).homeState (req .load) = .mishome
    ∧ ({ base with dies := [(0, { Die.reset with genReg := [(0, 1)] })], reqs := [(3, req .load)] } : State).homeState (req .load) = .stale
    ∧ ({ base with reqs := [(3, req .load)] } : State).homeState (req .load) = .absent ∧ (∀ q ∈ base.curWarp.table, q.2.eff ≠ .faulted)
    ∧ (∀ p ∈ [ReqPhase.rejMis, .rejStale], { req .load with phase := p }.phase = p ∧ (req .load).arrive ≤ base.clk)
    ∧ base.tickets = [] ∧ base.fe.fqHeld = [] ∧ ringCount base.fe.fqprod base.fe.fqcons < 2 ^ base.fe.fqlog := by decide +kernel

/-! ### System instructions, releases, locks at their home, splits at run time -/

/-- SystemInstructions: under debug; under a halt request, at a checkpoint with an entry or without. -/
theorem witness_system :
    (let s := base.modLaunch 0 fun l => { l with desc := { l.desc with debug := true } };
      (Issuer s s.curWarp s.curSplit) ∧ s.curLaunch.desc.debug = true)
    ∧ base.curLaunch.desc.debug = false ∧ base.curWarp.haltH = 0
    ∧ (let s := warpAt fun w => { w with haltH := 1 };
      (Issuer s s.curWarp s.curSplit) ∧ s.curWarp.haltH ≠ 0) ∧ base.signalReady 0 base.nextId 3 = true :=
  ⟨⟨⟨rfl, rfl, rfl, by decide +kernel⟩, by decide +kernel⟩, by decide +kernel, by decide +kernel, ⟨⟨rfl, rfl, rfl, by decide +kernel⟩, by decide +kernel⟩, by decide +kernel⟩

/-- Releases: a FENCE whose accesses are complete, one whose word is due, an unlock that is held, a posted signal of each kind. -/
theorem witness_releases :
    (let s := splitAt fun p => { p with st := .spanPark, after := .fence 5 4 0 0 0 };
      s.curSplit.st = .spanPark ∧ s.curSplit.after = .fence 5 4 0 0 0 ∧ s.curWarp.outstanding s.curSplit = false ∧ s.priorDone 0 0 4 = true)
    ∧ (let s : State := { (splitAt fun p => { p with st := .spanPark, after := .fence 5 4 0 0 2 }) with clk := 2 };
      Rules.Unique s.curWarp.table ∧ (s.curSplit.st = .spanPark ∧ s.curSplit.after = .fence 5 4 0 0 2 ∧ 2 ≤ s.clk ∧ ∀ q ∈ s.curWarp.table, q.1 = 0))
    ∧ (let s : State := { base with reqs := [(3, { req .unlock with phase := .held })] };
      s.signalReady 0 0 0 = true ∧ ∀ q ∈ s.reqs, q.1 = 3)
    ∧ (∀ e, e = true ∨ e = false → let s : State := { base with posts := [(3, { (default : Post) with evnt := e })] };
      s.signalReady 0 0 0 = true ∧ (s.block? (s.warpD 0).block).isSome = true ∧ ∀ q ∈ s.curWarp.table, q.2.eff ≠ .cntWait) := by
  refine ⟨by decide +kernel, ⟨by unfold Sys2Proof.Rules.Unique; decide +kernel, by decide +kernel⟩, by decide +kernel, fun e h => by rcases h with rfl | rfl <;> decide +kernel⟩

/-- A waiter, and a lock entry of the line at 4,096. -/
def waiter (key : Nat) (present : Bool) : Waiter := ⟨key, present, 0, 0, 0⟩
def entry (holder : Option Nat) (queue : List Waiter) : LockEntry := { (default : LockEntry) with holder := holder, queue := queue }
def locked (k : ReqKind) (e : LockEntry) : State := { homed leafAll (req k) with lockTab := [(lineKey 0 (lineOf 0 4096 4), e)] }

/-- LockRequests: a free line, a held one, an unlock with an absent and a present waiter, with none, of a LOST line, by another warp. -/
theorem witness_lock_requests :
    (AtHome (locked .lock (entry none [waiter 9 false])) 3 (req .lock) leafAll ∧ AtHome (locked .lockTry (entry (some 9) [])) 3 (req .lockTry) leafAll
      ∧ AtHome (locked .unlock (entry (some 0) [])) 3 (req .unlock) leafAll)
    ∧ (locked .unlock (entry (some 0) [])).lockFar 0 (lineOf 0 4096 4) = false ∧ (req .lock).work.1 = 0
    ∧ ({ locked .unlock (entry (some 0) []) with dirs := [(lineKey 0 (lineOf 0 4096 32), { (default : Dir) with lost := true })] } : State).lineLost
        (req .unlock) leafAll = true
    ∧ ((req .lock).permitted leafAll = true ∧ leafTr leafAll = true ∧ (locked .lock (entry none [])).lineLost (req .lock) leafAll = false
      ∧ (locked .lock (entry none [waiter 9 false])).lockEntry 0 (lineOf 0 4096 4) = entry none [waiter 9 false]
      ∧ (locked .unlock (entry (some 0) [waiter 9 false, waiter 10 true])).lockEntry 0 (lineOf 0 4096 4)
        = entry (some 0) ([waiter 9 false] ++ waiter 10 true :: []) ∧ base.curWarp.ended = false) :=
  ⟨⟨⟨rfl, rfl, by decide +kernel, by decide +kernel, by decide +kernel, rfl⟩, ⟨rfl, rfl, by decide +kernel, by decide +kernel, by decide +kernel, rfl⟩, ⟨rfl, rfl, by decide +kernel, by decide +kernel, by decide +kernel, rfl⟩⟩, by decide +kernel⟩

/-- A warp with a lock slot for a line, its home's entry, and page tables that map it. -/
def slotted (held captured : Bool) (e : LockEntry) : State :=
  { mapped ((warpAt fun w => { w with captured := captured, locks := [{ heldLock with line := 4096, held := held }] })) leafAll with
    lockTab := [(lineKey 0 4096, e)], clk := 4000 }

/-- LockHolders: holder and waiter, saved and restored; a holder that is gone; a withdraw after a grant and before. -/
theorem witness_lock_holders :
    (slotted true true (entry (some 0) [])).lockEntry ((slotted true true (entry (some 0) [])).lockHome 0 4096) 4096 = entry (some 0) []
    ∧ (∀ c ∈ [true, false], let s := slotted c c (entry none []); s.curWarp.movedAt + s.timeTo 0 (lineAsid 4096) (lineVa 4096) (s.lockHome 0 4096) ≤ s.clk)
    ∧ (slotted false false (entry none [waiter 9 false, waiter 0 false])).lockEntry
        ((slotted false false (entry none [waiter 9 false, waiter 0 false])).lockHome 0 4096) 4096
        = entry none ([waiter 9 false] ++ waiter 0 false :: [])
    ∧ (let s : State := { base with lockTab := [(lineKey 0 4096, entry (some 99) [waiter 9 false, waiter 10 true])] };
      (s.lockEntry (128 * 0 + 0) 4096).holder = some 99 ∧ (s.warp? 99).isNone = true)
    ∧ (let s : State := { base with
          lockTab := [(lineKey 0 4096, entry (some 99) [waiter 9 false, waiter 0 true])], withdraws := [(3, ⟨0, 4096, 0, 0, false⟩)] };
      (s.pkg 0).failed = false ∧ (s.lockEntry 0 4096).holder ≠ some 0 ∧ (s.lockEntry 0 4096).queue = [waiter 9 false] ++ waiter 0 true :: [] ∧ s.grants = []
        ∧ s.lockUnderWay ⟨0, 4096, 0, 0, false⟩ = false ∧ s.lockFar 0 4096 = false) := by
  decide +kernel

/-- LockStatus: a grant to a split that waits, a timer that has run out, a wait-for record. -/
theorem witness_lock_status :
    let s := (warpAt fun w => { w with locks := [{ heldLock with line := 4096, held := false, sd := 62 }] }).modSplit 0 0 fun p => { p with st := .lockWait, wobj := 4096 }
    ((s.curWarp.locks.find? fun k => k.line == 4096 && !k.held).isSome = true ∧ s.curSplit.st = .lockWait ∧ s.curSplit.wobj = BitVec.ofNat 64 (lineVa 4096)
      ∧ (∀ q ∈ s.curWarp.table, q.1 = 0) ∧ s.curSplit.eff = .lockWait ∧ (∀ k ∈ s.curWarp.locks, k.tleft = 0 ∧ k.withdrawn = false)
      ∧ s.curWarp.captured = false)
    ∧ (kget? ({ s with grants := [(7, ⟨0, 4096, 2, 65536, 0, 0⟩)] } : State).grants 7).map (·.due) = some 0 := by decide +kernel

/-- A load of lane 0 of the split's span that has faulted. -/
def faulted : State :=
  { (busy.modWarp 0 fun w => { w with results := [(3, { under with dest := .vec 5, lanes := 3, pend := 3 })] }).modSplit 0 0
      fun p => { p with st := .spanPark, len := 1 } with
    reqs := [(3, { req .load with phase := .faulted, fault := 0x13, regs := [3], span := base.curSplit.span, lanes := 3 })] }

/-- Splits that wait in a gathering at their PC, or at their join PC, with an expired bound. -/
def expired (wobj : Word) : State := joining .joinWait |>.modWarp 0 fun w =>
  { w with table := w.table.map fun q => (q.1, { q.2 with st := .joinWait, wobj := wobj, waux := 0, arr := q.1, after := .join 4 0 }) }

/-- ParkedSplits: a span that has ended, one with faulted lanes, a JOIN bound, a REGANG bound. -/
theorem witness_parked :
    (let s := splitAt fun p => { p with st := .spanPark };
      quiet s = true ∧ s.curSplit.after = .none)
    ∧ faulted.curSplit.after = .none ∧ faulted.curWarp.outstanding faulted.curSplit = true ∧ faulted.settled 0 faulted.curSplit = true
    ∧ faulted.curWarp.moves = [] ∧ (kget? faulted.curWarp.table 1).isNone = true
    ∧ (faulted.stuckReqs 0 faulted.curSplit).foldl (fun a q => a ||| q.2.lanes) 0 &&& faulted.curSplit.lmask ≠ faulted.curSplit.lmask
    ∧ ((expired 0).curSplit.after = .join 4 0 ∧ (expired 0).curSplit.waux = 0 ∧ (expired 0).curSplit.inJoin = true)
    ∧ (expired (2 ^ 63)).curSplit.inRegang = true
    ∧ ((expired (2 ^ 63)).curWarp.table.filter fun q => q.2.inRegang && q.2.pc == base.curSplit.pc).map (fun q => (q.1, q.2.arr, q.2.waux))
        = [(0, 0, 0), (1, 1, 0)] := by decide +kernel

/-- A warp with given splits. -/
def tabled (l : List (Nat × (Split → Split))) (moves : KMap (Nat × Nat)) : State :=
  warpAt fun w => { w with table := l.map fun q => (q.1, q.2 base.curSplit), moves := moves, swapPend := true }
/-- A dormant split that was READY. -/
def dormant (p : Split) : Split := { p with st := .dormant, held := .ready, moving := false }

/-- SplitTable: an epoch, a swap and its end, a fill and its end, a merge. -/
theorem witness_split_table :
    (let s : State := { base with clk := 256 }; s.curWarp.ended = false ∧ s.curWarp.epochClk + 256 ≤ s.clk ∧ s.curWarp.captured = false)
    ∧ (let s := tabled [(0, id), (8, dormant)] [];
      s.curWarp.swapPend = true ∧ (oldestOf (s.curWarp.table.filter fun q => 8 ≤ q.1 && !q.2.moving && q.2.held == .ready)).map Prod.fst = some 8
        ∧ s.curWarp.swapCandidate.map Prod.fst = some 0)
    ∧ (let s := tabled [(0, id), (8, dormant)] [(8, (0, 0))];
      s.curWarp.moves = [(8, (0, 0))] ∧ (kget? s.curWarp.table 8).isSome = true ∧ (kget? s.curWarp.table 0).isSome = true)
    ∧ (let s := tabled [(0, id), (8, dormant)] [];
      (kget? s.curWarp.table 1).isNone = true ∧ (kget? s.curWarp.table 0).isSome = true
        ∧ (s.curWarp.table.filter fun q => decide (8 ≤ q.1)).map (fun q => (q.1, q.2.moving)) = [(8, false)])
    ∧ (let s := tabled [(0, id), (8, dormant)] [(8, (1, 0))]; (kget? s.curWarp.table 1).isNone = true)
    ∧ (let s := tabled [(0, id), (7, id)] [];
      s.curWarp.table.map Prod.fst = [0, 7] ∧ (∀ q ∈ s.curWarp.table, q.2.atBoundary = true ∧ q.2.notBefore ≤ s.clk)) := by decide +kernel

/-- FetchCompletes: a home that a placement-cache miss finds, live and dead, of this generation and an older one, by a walk; a page without X;
no leaf. -/
theorem witness_fetch :
    let va := 8 * base.curSplit.pc.toNat
    let s := fun l => mapped { base with cores := [] } l
    let u := fun l => ((s l).fetchHome (s l).curBlock 0 0 va).1
    (Issuer (s leafAll) (s leafAll).curWarp (s leafAll).curSplit)
    ∧ (kget? ((s leafAll).core 0).icache (icKey 0 (s leafAll).curSplit.pc) = none ∧ (s leafAll).genOf 0 0 = 0
      ∧ ((s leafAll).fetchHome (s leafAll).curBlock 0 0 va).2 = some (0, 0)
      ∧ (u leafAll).dieLive 0 = true ∧ kgetD ((u leafAll).die 0).genReg 0 0 = 0 ∧ (u leafAll).tlbHit 0 0 0 va = none
      ∧ ((u leafAll).ctlWalk 0 0 0 va).1 = some leafAll ∧ kget? ((u leafAll).die 0).frames (leafFrame leafAll) = none
      ∧ (s leafAll).homeOf 0 0 leafAll va = some (0, 0) ∧ leafX leafAll = true ∧ leafX 0x80000122F = false
      ∧ (base.fetchHome base.curBlock 0 0 va).2 = none)
    ∧ (∀ d ∈ [{ Die.reset with dead := true }, { Die.reset with genReg := [(0, 1)] }],
      let s : State := { s leafAll with dies := [(0, d)] };
      (s.fetchHome s.curBlock 0 0 va).2 = some (0, 0) ∧ ((s.fetchHome s.curBlock 0 0 va).1.dieLive 0 = false
        ∨ kgetD ((s.fetchHome s.curBlock 0 0 va).1.die 0).genReg 0 0 ≠ 0)) :=
  ⟨⟨rfl, rfl, rfl, by decide +kernel⟩, by decide +kernel, by decide +kernel⟩
/-- An entry of a controller's TLB is found, which of the 16 it is being open. -/
theorem witness_tlb : ({ base with dies := [(0, { Die.reset with tlb := [(ctlKey (ctlOf 0 0) 0 0 0 0, tlbEntry 0 0 0 0x80000022F)] })] } : State).tlbHit 0 0 0 0
    = some 0x80000022F := by simp [State.tlbHit, State.die, kgetD, kget?, tlbEntry, List.range_succ]

/-- A queue with a record held for want of room, which it has again. -/
def heldQueue (noans : Bool) : Queue := { (default : Queue) with xlog := 1, heldRecs := [{ (default : ExcRec) with noans := noans }] }
/-- HeldRecordWritten. -/
theorem witness_held : ∀ n ∈ [true, false], (heldQueue n).heldRecs.length = 1
    ∧ ringCount (heldQueue n).xprod (heldQueue n).xcons < 2 ^ (heldQueue n).xlog := by decide +kernel

/-- Two lanes at granule 4 of the block's store. -/
def access (store : Bool) (qual : Nat) : FeAccess :=
  { (default : FeAccess) with
    own := base.curSplit.lmask, granule := 4, lanes := 3, ofs := [(0, 64), (1, 68)], size := 4, store := store, qual := qual, reach := 1,
    data := [(0, [1, 2, 3, 4]), (1, [5, 6, 7, 8])], regs := [5] }
def granule (a : FeAccess) : State := { replying (back .load) (.vec 9) with clk := 1, fes := [(6, a)], reqs := [] }

/-- GranuleAccess: a condition that does not hold, one that holds for a store and for a load, and none. -/
theorem witness_granule : (∀ x ∈ [(false, 2), (true, 5), (false, 0), (true, 0)], (granule (access x.1 x.2)).feReady (access x.1 x.2) = true)
    ∧ Rules.Unique (granule (access false 2)).fes ∧ (base.block? base.curWarp.block).isSome = true ∧ base.curBlock.full.contains 4 = false
    ∧ (∀ q ∈ (granule (access false 0)).curWarp.results, q.2.done = false ∧ (access false 0).lanes &&& ~~~q.2.pend = 0)
    ∧ kgetD (access true 5).ofs 0 0 + 4 ≤ kgetD (access true 5).ofs 1 0 := by
  refine ⟨by decide +kernel, by unfold Sys2Proof.Rules.Unique; decide +kernel, by decide +kernel⟩

/-! ### Vector values and faults -/

/-- IntegerElements: every instruction of its table, of 8, 16, 32 and 64 bits, with and without SAT. -/
theorem witness_elements : ([.vadd ⟨false, 2, 4, 4, 0, 0, 13, 0, 1⟩, .vsub ⟨false, 2, 4, 4, 0, 0, 9, 0, 1⟩, .vmul ⟨false, 2, 4, 4, 0, 0, 4, 0, 0⟩,
    .vmulh ⟨false, 2, 4, 4, 0, 0, 2, 0, 0⟩, .vmad ⟨false, 2, 4, 4, 0, 0, 1, 0, 0⟩, .vmin ⟨false, 2, 4, 4, 0, 0, 14, 0, 0⟩,
    .vmax ⟨false, 2, 4, 4, 0, 0, 8, 0, 0⟩, .vabs ⟨false, 2, 4, 0, 0, 0, 1, 0, 1⟩, .vneg ⟨false, 2, 4, 0, 0, 0, 8, 0, 0⟩,
    .vavg ⟨false, 2, 4, 4, 0, 0, 1, 0, 0⟩, .vaddImm ⟨false, 1, 2, 4, 0, true, 7⟩, .vsubImm ⟨false, 2, 2, 4, 0, false, 7⟩,
    .vmulImm ⟨false, 1, 2, 4, 0, false, 7⟩, .vminImm ⟨false, 1, 2, 4, 0, false, 7⟩, .vmaxImm ⟨false, 2, 2, 4, 0, false, 7⟩] : List Instr).all
    (fun i => vectorRuns i && (elementRule base i).isSome) = true := by decide +kernel

/-- VectorFaults: a register at the budget, a source of F32 for I32. -/
theorem witness_vector_faults :
    ((vecRule wrongMemory (.vadd ⟨false, 31, 32, 1, 0, 0, 1, 0, 0⟩)).map fun r => (r.regs.any fun v => decide (wrongMemory.curWarp.budget ≤ v))) = some true
    ∧ ((vecRule wrongMemory (.vadd ⟨false, 31, 3, 1, 0, 0, 1, 0, 0⟩)).map fun r =>
        (r.regs.all fun v => decide (v < wrongMemory.curWarp.budget), r.rawok, r.tags.any fun c => !c.2.contains (wrongMemory.tagOfReg c.1).toNat))
      = some (true, false, true) := by decide +kernel

/-! ### Engine commands and their steps -/

/-- A valid tile descriptor of plain layout. -/
def tile (start rows cols pitch tag layout : Nat) : BitVec 128 :=
  BitVec.ofNat 128 (2 ^ 127 + start + 2 ^ 32 * (rows - 1) + 2 ^ 40 * (cols - 1) + 2 ^ 48 * pitch + 2 ^ 64 * tag + 2 ^ 68 * layout)
def asDesc (d : BitVec 128) : Desc := ⟨d, 0, 0, 0⟩
/-- Tiles of one line of 4 words at 0 and 64, an accumulator at 128, sources of 32 elements at 256 and 512; s6 holds 4,096, s7 256. -/
def engine : State :=
  (warpAt fun w => { w with sc := [(6, 4096), (7, 256), (8, 1)] }).modBlock 0 fun b =>
    { b with descs := [(1, asDesc (tile 0 1 4 1 1 0)), (2, asDesc (tile 64 1 4 1 1 0)), (3, asDesc (tile 128 1 1 1 15 0)),
        (4, asDesc (tile 256 1 32 2 12 0)), (5, asDesc (tile 512 32 1 2 8 1)), (8, asDesc (tile 640 1 4 1 3 0))] }
theorem engine_issuer : Issuer engine engine.curWarp engine.curSplit := ⟨rfl, rfl, rfl, by decide +kernel⟩

/-- CommandsEnter: every command, with and without a status word; a queue with room, and full. -/
theorem witness_commands : ([.cpy ⟨false, 1, 0, 0, 6, 7, 9, 5, true, 1, 0x10⟩, .cpyOut ⟨false, 1, 0, 0, 6, 7, 9, 5, false, 1, 0⟩,
    .cpyLocal ⟨false, 1, 2, 0, 0, 0, 9, 0, false, 1, 0⟩, .cpyg ⟨false, 1, 0, 0, 6, 0, 9, 5, false, 1, 0⟩, .cpygScatter ⟨false, 1, 0, 0, 6, 0, 9, 5, false, 1, 0⟩,
    .task ⟨false, 3, 4, 5, 0, 0, 9, 0, false, 1, 0⟩, .taskOvr ⟨false, 3, 4, 5, 0, 0, 9, 0, true, 1, 16⟩, .taskCvt ⟨false, 8, 2, 0, 0, 0, 9, 0, false, 1, 0⟩,
    .kmv ⟨false, 0, 0, 0, 6, 0, 9, 5, false, 1, 0⟩, .mcst ⟨false, 15, 15, 15, 6, 7, 9, 5, false, 1, 0⟩, .msgx ⟨false, 0, 0, 0, 6, 7, 9, 5, false, 1, 0⟩] : List Instr).all
    (fun i => i.wf && match commandRule engine i with
      | some g => g.checks.all fun c => !c.1
      | none => false) = true
    ∧ queued engine .kmv = 0 ∧ (queueOf .kmv).2 = 32
    ∧ queued { engine with works := (List.range 32).map fun n => (n, { (default : Work) with kind := .kmv }) } .kmv = 32 := by decide +kernel

/-- CommandFaults: one check of each command that fails. -/
theorem witness_command_faults : ([.cpy ⟨false, 7, 0, 0, 6, 7, 9, 5, false, 1, 0⟩, .cpyOut ⟨false, 7, 0, 0, 6, 7, 9, 5, false, 1, 0⟩,
    .cpyLocal ⟨false, 1, 7, 0, 0, 0, 9, 0, false, 1, 0⟩, .cpyg ⟨false, 7, 0, 0, 6, 0, 9, 5, false, 1, 0⟩, .cpygScatter ⟨false, 1, 0, 0, 6, 0, 9, 5, true, 1, 391680⟩,
    .task ⟨false, 3, 5, 4, 0, 0, 9, 0, false, 1, 0⟩, .taskOvr ⟨false, 1, 4, 5, 0, 0, 9, 0, false, 1, 0⟩, .taskCvt ⟨false, 1, 4, 0, 0, 0, 9, 0, false, 1, 0⟩,
    .kmv ⟨false, 0, 0, 0, 8, 0, 9, 5, false, 1, 0⟩, .mcst ⟨false, 0, 0, 0, 6, 6, 9, 5, true, 1, 391680⟩, .msgx ⟨false, 0, 0, 0, 6, 7, 9, 5, true, 1, 391680⟩] :
    List Instr).all (fun i => i.wf && match commandRule engine i with
      | some g => (g.checks.find? fun c => c.1).isSome
      | none => false) = true := by decide +kernel

/-- DescriptorWritten: a valid value, one of VALID 0 and a reserved bit. -/
theorem witness_descriptor : (engine.block? engine.curWarp.block).isSome = true ∧ descriptorOk (tile 0 1 4 1 1 0) (limit engine)
    ∧ descriptorOk 0 (limit engine) ∧ ¬descriptorOk (BitVec.ofNat 128 (2 ^ 27)) (limit engine) := by
  refine ⟨by decide +kernel, ?_, ?_, ?_⟩ <;> (unfold descriptorOk; decide)

/-! ### Firmware cores -/

/-- StepKeepsMemory is not about empty steps: `step` has next states. -/
theorem witness_memory_step : MemoryOk (mapped State.reset leafAll) ∧ ∃ t, step (mapped State.reset leafAll) = .next t :=
  ⟨by have h : Memory.wf (tables leafAll) = true := by decide +kernel
      exact h, _, rfl⟩

/-- Firmware core 0 with registers, signals and a ring descriptor at SRAM 64: base 4,096, HEAD 0, TAIL 1, LOG 2. -/
def firm (x : KMap Word) (sig : Word) : State :=
  (State.reset.withRam 0 64 (natBytes 4096 8 ++ natBytes 0 4 ++ natBytes 1 4 ++ natBytes 2 8)).modFw 0 fun c => { c with x := x, sig := sig }

/-- FirmwareInstructions: RFETCH refused, from an empty ring and from one with an entry; KBFX refused and not; SIGWAIT refused, at once
and waiting. -/
theorem witness_firmware :
    (let c := (firm [(1, 33), (2, 64), (3, 128)] 4).fwCore 0;
      (c.reg 1).toNat % 32 ≠ 0 ∧ (c.reg 2).toNat % 32 = 0 ∧ (c.reg 2).toNat < 524288 ∧ c.ram (64 + 16) 8 % 32 ≤ 20
        ∧ c.ram (64 + 8) 4 ≠ c.ram (64 + 12) 4 ∧ c.ram (128 + 8) 4 = c.ram (128 + 12) 4 ∧ c.ram (128 + 16) 8 % 32 ≤ 20)
    ∧ (let c := (firm [(1, 64), (2, 64 * 64), (3, 4), (4, 8)] 4).fwCore 0;
      ((c.reg 3).extractLsb' 6 7).toNat = 0 ∧ ((c.reg 2).extractLsb' 6 7).toNat = 64 ∧ ((c.reg 2).extractLsb' 0 6).toNat + 64 ≤ 64
        ∧ (c.reg 2).extractLsb' 13 51 = 0 ∧ c.reg 1 &&& ~~~(63 : Word) ≠ 0 ∧ c.reg 3 &&& ~~~(63 : Word) = 0 ∧ c.sig &&& c.reg 3 ≠ 0
        ∧ c.reg 4 ≠ 0 ∧ c.reg 4 &&& ~~~(63 : Word) = 0 ∧ c.sig &&& c.reg 4 = 0) := by decide +kernel

/-- FirmwareDispatch: a wait that wakes and one whose time has passed; DISPATCH refused, local to core 0 and to every core, remote; its completion. -/
theorem witness_dispatch :
    (let s := State.reset.modFw 0 fun c => { c with wait := some (5, 4, 9), sig := 4 };
      (s.fwCore 0).wait = some (5, 4, 9) ∧ (s.fwCore 0).sig &&& 4 ≠ 0)
    ∧ (let s : State := { State.reset.modFw 0 fun c => { c with wait := some (5, 4, 9) } with clk := 9 };
      (s.fwCore 0).sig &&& 4 = 0 ∧ 9 ≤ s.clk) := by decide +kernel

/-- A firmware core with operands of DISPATCH in its registers, and the code of GENSET, 3, in SRAM. -/
def dispatcher : State := (State.reset.withRam 0 64 [3]).modFw 0 fun c => { c with x := [(1, 64), (2, 0), (3, 63), (4, 2 ^ 22), (5, 48)] }
theorem witness_dispatch_refused : DispatchRefused dispatcher 0 ((dispatcher.fwCore 0).reg 1) ((dispatcher.fwCore 0).reg 5) 3 :=
  .inr (.inl (by decide +kernel))
theorem witness_dispatch_sent : ∀ r ∈ [2, 3, 4], ¬DispatchRefused dispatcher 0 ((dispatcher.fwCore 0).reg 1) ((dispatcher.fwCore 0).reg r) 3 := by
  intro r h
  have h : r = 2 ∨ r = 3 ∨ r = 4 := by simpa using h
  simp only [DispatchRefused, not_or]
  rcases h with rfl | rfl | rfl <;> decide +kernel
theorem witness_dispatch_targets : (dispatcher.fwCore 0).ram ((dispatcher.fwCore 0).reg 1).toNat 1 = 3 ∧ dispatcher.coreLive 0 = true
    ∧ (dispatcher.core 0).cmds = [] ∧ ((dispatcher.fwCore 0).reg 4).getLsbD 22 = true ∧ ((dispatcher.fwCore 0).reg 4).getLsbD 24 = false
    ∧ ((dispatcher.fwCore 0).reg 4).getLsbD 23 = false := by decide +kernel

/-- The same, with a queue that is full and with commands that are still queued. -/
theorem witness_dispatch_full :
    (let s := State.reset.modCore 0 fun c => { c with cmds := List.replicate Config.cmdRoom (default : FwCmd) }; Config.cmdRoom ≤ (s.core 0).cmds.length)
    ∧ (let s := (State.reset.modCore 0 fun c => { c with cmds := [{ (default : FwCmd) with src := 7 }] }).modFw 0 fun c => { c with disp := some (5, 7, 0, false) };
      (s.fwCore 0).disp = some (5, 7, 0, false) ∧ 0 ≤ s.clk ∧ (∃ q ∈ s.cores, ∃ x ∈ q.2.cmds, x.src = 7)) := by
  refine ⟨?_, rfl, Nat.zero_le _, _, List.mem_cons_self .., _, List.mem_cons_self .., rfl⟩
  show Config.cmdRoom ≤ (List.replicate Config.cmdRoom (default : FwCmd)).length
  simp

/-- FirmwareCommands: each command at the head of core 0's queue, a copy that PURGE meets and an entry whose recovery waits. -/
theorem witness_firmware_commands : (∀ op ∈ [1, 2, 3, 4], ∀ lost ∈ [true, false],
      let s : State := { (State.reset.modCore 0 fun c => { c with cmds := [{ (default : FwCmd) with op := op, b := 4096, lost := lost }] }) with
        copies := [(copyKey 0 0 8, copyIn 0)], dirs := [(lineKey 0 4096, { (default : Dir) with recover := true, lost := true, purge := [0] })],
        lockTab := [(lineKey 0 4096, entry (some 0) [])] };
      (s.core 0).cmds.length = 1 ∧ (copyIn 0).blk = 4096 % 2 ^ 57 / 512 ∧ (copyIn 0).place = l1Place 0 ∧ lineKey 0 4096 % 2 ^ 73 = 4096) := by decide +kernel

/-- Work 3 of the block, alone in the machine, with page tables under which it reads and writes. -/
def job (k : WorkKind) (ph : WorkPhase) : Work := { (default : Work) with kind := k, phase := ph, td1 := tile 0 1 4 1 1 0, td2 := tile 64 1 4 1 1 0 }
def working (e : Work) : State := { mapped engine leafAll with works := [(3, e)] }
/-- Local store that holds a kiln request of one row and 32 columns: PITCH, vector, output and record places. -/
def kilnBytes (pitch vec : Byte) : KMap Byte := [(20, pitch), (24, vec), (28, 128), (36, 160)]
def asking (pitch vec : Byte) : State := (working (job .kmv .queued)).modBlock 0 fun b => { b with ls := kilnBytes pitch vec }

/-- EngineForks: copies and tasks, sends, a request that stands, one that does not, one without a place for its record. -/
theorem witness_forks :
    (∀ k ∈ [WorkKind.cpyIn, .task, .mcst, .msgx], (working (job k .queued)).workStuck 3 = false ∧ (working (job k .queued)).planeHeld 3 (job k .queued) = false)
    ∧ (working (job .task .queued)).reqs = [] ∧ (working (job .task .queued)).fes = [] ∧ engine.curWarp.captured = false
    ∧ (let s := asking 32 64
       let q := (s.blockD 0).lsRead 0 64;
      kvRecordOk q (engine.blockD 0).usable = true ∧ kvOk q (engine.blockD 0).usable = true
        ∧ kget? (s.die 0).plc (tlbKey (s.workAsid (job .kmv .queued)) (s.genOf 0 0) (kvField q 0 64)) = none
        ∧ s.lookup 0 (s.workAsid (job .kmv .queued)) (kvField q 0 64) = some (leafAll, 3, (0, 0))
        ∧ s.homeOf 0 (s.workAsid (job .kmv .queued)) leafAll (kvField q 0 64) = some (0, 0)
        ∧ (let s : State := { s with dies := [(0, { Die.reset with plc := [(tlbKey 0 0 (kvField q 0 64), tlbEntry 0 0 (kvField q 0 64) leafAll)] })] };
          (kget? (s.die 0).plc (tlbKey 0 0 (kvField q 0 64))).map (·.leaf) = some leafAll))
    ∧ (let q := ((asking 0 64).blockD 0).lsRead 0 64; kvRecordOk q (engine.blockD 0).usable = true ∧ kvOk q (engine.blockD 0).usable = false)
    ∧ kvRecordOk (((asking 32 160).blockD 0).lsRead 0 64) (engine.blockD 0).usable = false := by decide +kernel

/-- EngineJoins: aborted; with a status word and without; with failures of writes; with failures and no status word. -/
theorem witness_joins : engine.curWarp.block = 0 ∧ engine.curWarp.ended = false ∧ engine.curWarp.captured = false ∧ engine.fes = []
    ∧ (∀ q ∈ engine.curWarp.table, q.2.eff ≠ .cntWait) ∧ (engine.warps.map Prod.fst).Nodup
    ∧ (∀ e ∈ [{ job .cpyIn .finished with aborted := true }, { job .cpyIn .finished with sten := true, wfail := ⟨4, 1, 0, 0, true⟩ },
        { job .cpyIn .finished with fails := [(0, 3, 0, 0)] }], kget? (working e).works 3 = some e ∧ e.due ≤ (working e).clk)
    ∧ (engine.queueD (engine.launchOf 0).queue).heldRecs = []
    ∧ (let s : State := { engine with queues := [(0, { (default : Queue) with xlog := 1 })] };
      ringCount (s.queueD (s.launchOf 0).queue).xprod (s.queueD (s.launchOf 0).queue).xcons < 2 ^ (s.queueD (s.launchOf 0).queue).xlog) := by decide +kernel

/-- A copy of one line that is in flight, from or to 4,096. -/
def flying (k : WorkKind) (x : Line) : Work := { job k .running with a := 4096, next := 1, lines := [(0, x)] }
/-- HodLines: a forked copy, a line of a list that is aligned and one that is not. -/
theorem witness_line_begins : (working (job .cpyIn .forked)).blockHalted 0 = false ∧ (job .cpyIn .forked).next < tdLines (job .cpyIn .forked).td1
    ∧ (job .cpyIn .forked).kind.listed = false ∧ (job .gather .running).kind.listed = true
    ∧ (job .gather .running).fork + cdiv 0 64 + 12 ≤ ({ working (job .gather .running) with clk := 12 } : State).clk
    ∧ (let v := fun x => BitVec.ofNat 64 (bytesNat ((((working (job .gather .running)).modBlock 0 fun b => { b with ls := [(0, x)] }).blockD 0).lsRead 0 8));
      ((v 0).extractLsb' 57 3 = 0 ∧ (v 0).toNat % tagSize (tdTag (job .gather .running).td1) = 0) ∧ (v 1).toNat % tagSize (tdTag (job .gather .running).td1) ≠ 0) := by
  decide +kernel

/-- HodLines: a line whose stores leave, one whose accesses are answered, one that completes, with its bytes and with a failure. -/
theorem witness_line_completes :
    let next (e : Work) := e.lines.findSome? fun q => (e.lineStep 1 q.1 q.2).map fun a => (q.1, q.2, a)
    (∀ k ∈ [WorkKind.cpyOut, .scatter], next (flying k ⟨4096, 0, false, 1, [], []⟩) = some (0, ⟨4096, 0, false, 1, [], []⟩, .send))
    ∧ (∀ f ∈ [[], [(0, (7, 0, 0))]], ∀ k ∈ [WorkKind.cpyLocal, .cpyIn, .gather, .cpyOut, .scatter],
      next (flying k ⟨4096, 0, true, 0, [(0, List.replicate 16 7)], f⟩) = some (0, ⟨4096, 0, true, 0, [(0, List.replicate 16 7)], f⟩, .timed)
        ∧ next (flying k ⟨4096, 1, true, 0, [(0, List.replicate 16 7)], f⟩) = some (0, ⟨4096, 1, true, 0, [(0, List.replicate 16 7)], f⟩, .finish))
    ∧ tdLen (job .cpyIn .running).td1 = 16 ∧ tdLen (job .cpyLocal .running).td2 = 16 ∧ engine.fes = [] := by decide +kernel

/-- A task of one row, one column and 32 products. -/
def product (k : WorkKind) (ph : WorkPhase) : Work :=
  { job k ph with td1 := tile 128 1 1 1 15 0, td2 := tile 256 1 32 2 12 0, td3 := tile 512 32 1 2 8 1, tdn := 3, mant := [0] }
def tasking (e : Work) : State := { working e with clk := 100 }

/-- TileTasks, TASK_START: no dependence, no hazard, every engine free; and the second engine, with the first at work. -/
theorem witness_task_start : (∀ k ∈ [WorkKind.task, .taskOvr], (product k .forked).a.getLsbD 63 = false ∧ (tasking (product k .forked)).blockHalted 0 = false
      ∧ tdTag (product k .forked).td1 = 15)
    ∧ (∀ q ∈ (tasking (product .task .forked)).works, ¬q.1 < 3)
    ∧ (let s : State := { tasking (product .task .forked) with works := [(2, { job .taskCvt .running with td1 := tile 1024 1 4 1 3 0, td2 := tile 1088 1 4 1 1 0 }),
          (3, product .task .forked)] };
      ∀ q ∈ s.works, q.1 < 3 → s.mayStart q.1 q.2 = false ∧ q.2.phase = .running ∧ q.2.engine = 0 ∧ tdRange q.2.td1 = (1024, 1040)) := by decide +kernel

/-- TileTasks, TASK_KBLOCK_COMMIT and TASK_END. -/
theorem witness_task_end :
    ((product .task .running).next < cdiv (tdCols (product .task .running).td2) 32
      ∧ (product .task .running).blockEnd 1 ≤ (tasking (product .task .running)).clk ∧ (product .task .running).fails = []
      ∧ -32768 ≤ (product .task .running).etmp)
    ∧ (let e := { product .task .running with next := 1 };
      cdiv (tdCols e.td2) 32 ≤ e.next ∧ tdTag e.td1 = 15 ∧ e.mant.length = tdRows e.td1 * tdCols e.td1
        ∧ (kgetD ((tasking e).blockD 0).descs e.tdn ⟨0, 0, 0, 0⟩).clk ≤ e.clk)
    ∧ (let e := { job .taskCvt .running with td1 := tile 640 1 4 1 3 0 }; e.fork + 32 + cdiv 4 64 ≤ (tasking e).clk ∧ tdTag e.td1 ≠ 15) := by decide +kernel

/-- Its k-block sums to 0, which fits. -/
theorem witness_accumulates : let e := product .task .running
    let b := (tasking e).blockD 0
    b.scales e.td2 1 1 = .ok [] ∧ b.scales e.td3 1 1 = .ok [] ∧ b.sums e.td2 e.td3 [] [] 0 = [some (0, tagUnit 12 + tagUnit 8)] :=
  ⟨rfl, rfl, by decide +kernel⟩
theorem witness_accumulates_rule : Accumulates 0 [0] [some (0, 0)] (some ([0], 0)) :=
  ⟨0, by intro k a p h h'; match k with
        | 0 => obtain rfl : 0 = a := by simpa using h
               obtain rfl : some (0, 0) = p := by simpa using h'
               decide
        | k + 1 => simp at h,
    by omega, by omega, fun _ => ⟨[0], rfl, rfl, by
      intro k a p h h'; match k with
        | 0 => obtain rfl : 0 = a := by simpa using h
               obtain rfl : some (0, 0) = p := by simpa using h'
               decide
        | k + 1 => simp at h⟩⟩

/-- A kiln request that was taken from local store, on its way and in the kiln. -/
def burning (ph : WorkPhase) : Work := { job .kmv ph with wait := [0], buf := ((asking 32 64).blockD 0).lsRead 0 64 }
/-- KilnRequests: room and a live die; reads that succeed and reads that fail. -/
theorem witness_kiln :
    (let s := working (burning .sent);
      s.dieLive 0 = true ∧ (s.die 0).kiln.length < 256 ∧ s.noRoute 0 0 0 0 (burning .sent).plane = false ∧ (∀ q ∈ s.works, q.1 = 3)
        ∧ kgetD (s.die 0).genReg (s.workAsid (burning .sent)) 0 = (burning .sent).gen
        ∧ s.kilnLeaf (burning .sent) 0 0 = some leafAll ∧ s.homeOf 0 0 leafAll 0 = some (0, 0)
        ∧ (kgetD (s.die 0).genReg 0 0 ≠ { burning .sent with gen := 1 }.gen))
    ∧ (let e := burning .running;
      (working e).workStuck 3 = false ∧ (working e).kilnRuns e = [(0, 32)] ∧ kvField e.buf 220 1 = 0
        ∧ (match (working e).kilnRun e 0 (sectorPieces 0 32) with | .bytes l => l.length == 32 | _ => false) = true
        ∧ (match (mapped (working e) 0x80000123B).kilnRun e 0 (sectorPieces 0 32) with | .fail .. => true | _ => false) = true) := by
  decide +kernel

/-- A multicast store to group 5 of 256 bytes at 4,096. -/
def casting (ph : WorkPhase) (wait : List Nat) : Work := { job .mcst ph with grp := 5, b := 4096, wait := wait, buf := List.replicate 256 7 }
/-- MulticastStores: a valid entry, none; a member with a mapping, without one, one that is dead; the last answer. -/
theorem witness_mcst :
    (let s : State := { working (casting .sent []) with groups := [(5, ⟨3, 0, true⟩)] };
      (kgetD s.groups 5 ⟨0, 0, false⟩).valid = true ∧ (kgetD s.groups 5 ⟨0, 0, false⟩).asid.toNat = s.workAsid (casting .sent [])
        ∧ (kgetD s.groups 6 ⟨0, 0, false⟩).valid = false)
    ∧ (let s : State := { working (casting .running [0]) with clk := 2000 };
      (casting .running [0]).fork + 520 + s.memberWay (casting .running [0]) 0 ≤ s.clk ∧ (s.pkg 0).failed = false
        ∧ s.lookup 0 (s.workAsid (casting .running [0])) 4096 = some (leafAll, 3, (0, 0)) ∧ (casting .running [0]).plane ≠ 128
        ∧ s.portDead 0 (casting .running [0]).plane = false ∧ leafW leafAll = true ∧ s.dieLive 0 = true ∧ s.dirs = []
        ∧ leafW leafRead = false ∧ s.lookup 1 0 4096 = none
        ∧ ({ s with dirs := [(lineKey 0 (lineOf 0 (4096 + 224) 32), { (default : Dir) with lost := true })] } : State).entryLost (lineOf 0 (4096 + 32 * 7) 32) = true
        ∧ ({ s with pkgs := [(0, { Pkg.reset with deadPorts := [(0, 0)] })] } : State).portDead 0 0 = true)
    ∧ (let s : State := { working (casting .running [0]) with pkgs := [(0, { Pkg.reset with failed := true, known := true })] };
      (s.pkg 0).failed = true ∧ (s.pkg 0).known = true)
    ∧ (let s : State := { working (casting .running []) with clk := 2000 }; (casting .running []).fork + 1040 + (casting .running []).next ≤ s.clk) := by
  decide +kernel

/-- A launch armed for tag 7 of package 0, with two buffers. -/
def armed (busy : List Nat) (waiting : List (Nat × Nat × Nat)) : Armed :=
  { (default : Armed) with desc := engine.curLaunch.desc, nbuf := 2, blen := 64, base := 4096, busy := busy, waiting := waiting }
def armedAt (src : Nat) (a : Armed) : State := { working { job .msgx .sent with b := 7 * 2 ^ 16 } with armed := [(armedKey 0 src 7, a)] }
def steering : Steer := { (default : Steer) with etype := 0x88B5, tag := 7, en := true }

/-- Messages: a free buffer, none, nothing armed; a frame that a rule takes and one that none takes; a firing and a refused one. -/
theorem witness_messages :
    ((armedAt 0 (armed [] [])).pkg 0).failed = false ∧ (0#64 + 7 * 2 ^ 16).extractLsb' 16 16 = 7 ∧ kget? (armedAt 0 (armed [] [])).armed (armedKey 0 0 7) = some (armed [] [])
    ∧ (∀ i, i < (armed [0, 1] []).nbuf → i ∈ (armed [0, 1] []).busy)
    ∧ (steering.en = true ∧ steering.mofs + 8 ≤ (List.replicate 8 (0 : Byte)).length ∧ (BitVec.ofNat 64 (bytesNat ((List.replicate 8 (0 : Byte)).take 8)) &&& steering.mmask) = steering.mval)
    ∧ (let s : State := { armedAt 1 (armed [0] [(0, 0, 0)]) with queues := [(0, { (default : Queue) with qstate := 1 })], launches := [] };
      (s.queueD 0).qstate = 1 ∧ s.launches.length < 64 ∧ s.fe.startedL ≠ s.clk + 1 ∧ (armed [0] [(0, 0, 0)]).desc.cores = false)
    ∧ (let s : State := { engine with msgs := [(2, ⟨0, 7, 0, 0⟩)] }; (s.msgs.find? fun q => q.2.pkg == 0 && q.2.tag == 7) = some (2, ⟨0, 7, 0, 0⟩)) := by
  decide +kernel
theorem witness_buffer : NextBuffer (armed [0] []) 1 := ⟨1, by decide +kernel, by decide +kernel, by decide +kernel, fun j h => by
  obtain rfl : j = 0 := by omega
  decide +kernel⟩

/-! ### Placement, retirement, barriers, pre-emption -/

/-- The launch of the resident warp with its pending lists and descriptor changed. -/
def launchAt (f : Launch → Launch) : State := base.modLaunch 0 f
def pending (p : KMap (List Nat)) : State := launchAt fun x => { x with pend := p }

/-- ClustersPlaced: a cluster at the rack's list for tray 0; an idle die and a sibling with two clusters; a cluster on a die's own list. -/
theorem witness_places :
    (let x := (pending [(1000, [5])]).launchD 0;
      x.aborted = false ∧ x.halting = false ∧ x.saved = false ∧ x.desc.cores = false ∧ (x.pend.map Prod.fst).Nodup ∧ x.list 1000 = [5] ∧ x.held 1000 < 16)
    ∧ (let s := pending [(2000, [5]), (10000, [6])]; (s.launchD 0).list 2000 = [5] ∧ (s.launchD 0).list 10000 = [6])
    ∧ (let s := pending [(10001, [5, 6])];
      s.nodeIdle (s.launchD 0) 10002 = true ∧ 10001 ∈ (nodeChildren (nodeParent 10002)).filter (· != 10002) ∧ (s.launchD 0).stealable 10001 = [5, 6]
        ∧ ∀ c ∈ (nodeChildren (nodeParent 10002)).filter (· != 10002), ((s.launchD 0).stealable c).length ≤ 2 ∧ (c < 10001 → ((s.launchD 0).stealable c).length < 2))
    ∧ (let s := pending [(100000, [5])];
      s.placeChoice 0 = some (0, s.launchD 0) ∧ s.nextSite 0 (s.launchD 0).desc.kern (kgetD (s.launchD 0).lastSite 0 48) = some 0
        ∧ (∀ q ∈ s.blocks, q.1 < s.nextId) ∧ (∀ q ∈ s.warps, q.1 < 32 * s.nextId) ∧ (s.launchD 0).desc.kern.warpList.length ≤ 32) := by decide +kernel

/-- A co-resident launch of one cluster, not yet placed. -/
def coresident (cores : Bool) : State :=
  { (launchAt fun x => { x with desc := { x.desc with cores := cores }, pset := [0] }) with blocks := [], warps := [] }
/-- ClustersStart: a co-resident launch that fits, and one whose only package is dead. -/
theorem witness_coresident :
    (let s := coresident true;
      (s.launchD 0).desc.cores = true ∧ (s.launchD 0).placed = false ∧ s.wireBusy 0 (s.launchD 0) = false ∧ (State.coPlace 0 [0] s).isSome = true
        ∧ List.range (s.launchD 0).desc.clusters = [0] ∧ (s.launchD 0).desc.wires.Nodup)
    ∧ (let s : State := { coresident true with pkgs := [(0, { Pkg.reset with failed := true, known := true })] }; (State.coPlace 0 [0] s).isNone = true) := by decide +kernel

/-- BlocksRetire: a block whose only warp has ended. -/
theorem witness_retire : let s := warpAt fun w => { w with ended := true, table := [] }
    (s.block? 0).isSome = true ∧ (s.blocks.map Prod.fst).Nodup ∧ (s.blockD 0).resident = true ∧ (∀ w ∈ s.warpsOf 0, (s.warpD w).ended = true) ∧ s.warpsOf 0 = [0]
      ∧ s.works = [] ∧ s.posts = [] ∧ s.reqs = [] ∧ s.copies = [] := by decide +kernel

/-- NodesDrain: the rack, a tray, a package, a die and a core, with the level enabled and not. -/
theorem witness_drain : (∀ node ∈ [0, 1000, 2511, 10000, 200047], node ∈ ((launchAt fun x => { x with drains := [0, 1000, 2511, 10000, 200047] }).launchD 0).drains)
    ∧ (base.launches.map Prod.fst).Nodup ∧ base.queues = [] ∧ base.curLaunch.packet = none ∧ base.curLaunch.desc.irq = false
    ∧ (∀ level, level < 5 → base.curLaunch.desc.even.getLsbD level = false ∧ (31 : BitVec 5).getLsbD level = true) := by decide +kernel
theorem witness_drain_firing : let s : State := { (launchAt fun x => { x with drains := [0], packet := some 4, firing := some (7, 0) }) with
      queues := [(0, { (default : Queue) with active := [{ (default : Packet) with idx := 4, opc := 1 }] })], armed := [(7, armed [0] [])] }
    (s.queueD 0).active.any (fun p => p.idx == 4) = true ∧ (∀ q ∈ s.queues, ∀ p ∈ q.2.active, p.opc ≠ 8 ∧ p.opc ≠ 9) ∧ (kget? s.armed 7).isSome = true := by decide +kernel

/-- A cluster barrier and a grid barrier, at which the one block has arrived. -/
def arrived (key : Nat) : State :=
  (launchAt fun x => { x with region := [0] }).modBlock 0 fun b => { b with bars := [(key, { (default : Barrier) with blockArr := true, arrived := 1 })] }
/-- A phase of grid barrier 3. -/
def phase (told : Bool) (dies : List Nat) : Phase := { (default : Phase) with num := 3, told := told, pkgs := [0], dies := dies }
/-- BarrierPhases: roots that close, a package that completes, a die that releases with a split that waits. -/
theorem witness_phases :
    (∀ k ∈ [0, 1], let s := arrived (levelKey k 3);
      (s.phaseOf 0 k 3).isNone = true ∧ (∀ q ∈ s.partBlocks 0 k, q.2.resident = true ∧ q.2.pkg = 0 ∧ (q.2.bar (levelKey k 3)).blockArr = true)
        ∧ (s.partBlocks 0 k).length = 1 ∧ (s.launchD 0).region = [0] ∧ s.coreArrived 0 (levelKey k 3) 0 ((s.launchD 0).wireOf k 3) = true)
    ∧ (let s : State := { arrived (levelKey 0 3) with phases := [(4, phase false [])] };
      (s.phaseOf 0 0 3).map Prod.fst = some 4 ∧ (phase false []).told = false ∧ (phase false []).root ≤ s.clk ∧ (phase false []).pkgs = [0])
    ∧ (let s : State := { arrived (levelKey 0 3) with phases := [(4, phase true [0])], clk := 200 };
      (s.phaseOf 0 0 3).map Prod.fst = some 4 ∧ (phase true [0]).root + 14 + 9 * bandOf 0 ≤ s.clk ∧ (∀ q ∈ s.partBlocks 0 0, q.2.dk = 0 ∧ q.2.saved = false)
        ∧ (s.blocks.map Prod.fst).Nodup ∧ (s.warps.map Prod.fst).Nodup) := by decide +kernel
theorem witness_phase_wait :
    let s := (arrived (levelKey 0 3)).modWarp 0 fun w => { w with
      wphase := [(levelKey 0 3, (5, true))], table := [(0, { base.curSplit with st := .barWait, after := .barWait 5 1 2 3 9 })] }
    (s.splitD 0 0).eff = .barWait ∧ 16 * 2 + 3 = levelKey 0 3 ∧ kgetD (s.warpD 0).wphase (levelKey 0 3) (0, false) = (5, true)
      ∧ kgetD (s.warpD 0).arrSet (levelKey 0 3) 0 = 0 ∧ (s.warpD 0).arrPend = [] ∧ (s.warpD 0).captured = false := by decide +kernel

/-- WarpsHalt: a request to a launch that halts, a budget that has run out, a halt that is complete. -/
theorem witness_halts :
    (let s := launchAt fun x => { x with halting := true };
      (s.launchD 0).halting = true ∧ (s.warps.map Prod.fst).Nodup ∧ (s.warpD 0).ended = false ∧ (s.warpD 0).haltH = 0 ∧ (s.blockD 0).ck = 0 ∧ (s.blockD 0).resident = true)
    ∧ (let s : State := { (warpAt fun w => { w with haltH := 1 }) with clk := 4800 };
      (s.warpD 0).haltH - 1 + 4800 ≤ s.clk ∧ (∃ q ∈ (s.warpD 0).table, q.2.halted = false) ∧ (s.warpD 0).captured = false)
    ∧ (let s := (warpAt fun w => { w with haltH := 1 }).modSplit 0 0 fun p => { p with halted := true };
      s.haltDone 0 0 = true ∧ (∀ q ∈ (s.warpD 0).table, q.2.eff ≠ .spanPark) ∧ (s.warpD 0).haltH ≠ 0) := by decide +kernel

/-- A PREEMPT packet of queue 0 that has chosen the launch. -/
def preempting (step : Nat) : State :=
  { (launchAt fun x => { x with halting := true }) with
    queues := [(0, { (default : Queue) with active := [{ (default : Packet) with idx := 2, opc := 8, launches := [0], step := step }] })] }
/-- ClustersSaved: every warp captured; a save that is ready; a saved cluster with a free site. -/
theorem witness_saves :
    (let s := (preempting 0).modWarp 0 fun w => { w with captured := true };
      (s.packetOf (4096 * 2) 8).isSome = true ∧ (∀ k ∈ s.haltWarps ((s.queueD 0).active.getD 0 default), (s.warpD k).captured = true))
    ∧ (let s := (preempting 4).modWarp 0 fun w => { w with captured := true, haltH := 1 };
      s.saveReady 0 = true ∧ (s.launchD 0).halting = true ∧ (∀ z ∈ s.queues, ∀ p ∈ z.2.active, p.opc ≠ 9 ∧ p.evt = false))
    ∧ (let s := (base.modBlock 0 fun b => { b with saved := true, resident := false }).modWarp 0 fun w => { w with captured := true };
      (∃ b ∈ s.blocks, b.2.launch = 0 ∧ b.2.cluster = 0 ∧ b.2.saved = true) ∧ (State.moveClusters 0 [0] s).isSome = true ∧ (s.launchD 0).answers = [] ∧ s.fes = []
        ∧ (∀ q ∈ (s.warpD 0).table, q.2.st = .ready ∧ q.2.len = 0) ∧ ∀ b ∈ s.blocks, b.2.resident = false) := by decide +kernel

/-! ### Queues, packets and answers -/

/-- A queue in RUN whose head is a validated packet of the opcode. -/
def ready (opc : Nat) : Queue :=
  { (default : Queue) with
    qstate := 1, rlog := 4, xlog := 4, elog := 4,
    head := some ⟨[BitVec.ofNat 64 opc, 0, 0, 0, 0], if opc ≤ 2 then some oneWarp else none, if opc = 11 then some 0 else none⟩ }
def queueAt (x : Queue) : State := { base with queues := [(0, x)] }

/-- PacketsRun, QueuesControlled, LaunchesStart, LaunchesHeld: a packet of each opcode that may start. -/
theorem witness_head (opc : Nat) (h : opc ∈ [0, 1, 2, 3, 4, 5, 8, 9, 10, 11, 12]) :
    ∃ x y, HeadReady (queueAt (ready opc)) 0 x y opc ∧ (opc ≤ 2 → y.desc.isSome = true) ∧ (opc = 11 → y.qdesc.isSome = true) := by
  have h : opc = 0 ∨ opc = 1 ∨ opc = 2 ∨ opc = 3 ∨ opc = 4 ∨ opc = 5 ∨ opc = 8 ∨ opc = 9 ∨ opc = 10 ∨ opc = 11 ∨ opc = 12 := by simpa using h
  rcases h with rfl | rfl | rfl | rfl | rfl | rfl | rfl | rfl | rfl | rfl | rfl <;>
    exact ⟨_, _, ⟨rfl, rfl, rfl, by decide +kernel, rfl, by decide +kernel, by decide +kernel, by decide +kernel⟩, by decide +kernel, by decide +kernel⟩

/-- PacketsValidated: an unread packet of opcode 0 with the opcode allowed and shut out, and one of opcode 6. -/
def unread (opmask : BitVec 16) (w : Nat) : State :=
  { mapped { base with queues := [(0, { (default : Queue) with qstate := 1, rlog := 4, qtail := 1, opmask := opmask })] } leafAll with
    mem := memWrite (tables leafAll) (2 ^ 30) (natBytes w 8) }
theorem witness_unread_words (w : Nat) (h : w = 0 ∨ w = 6) : (unread 1 w).headWords ((unread 1 w).queueD 0) = [BitVec.ofNat 64 w, 0, 0, 0, 0, 0, 0, 0] := by
  rcases h with rfl | rfl <;> decide +kernel
theorem witness_unread (m : BitVec 16) (w : Nat) :
    (unread m w).queueD 0 = { (default : Queue) with qstate := 1, rlog := 4, qtail := 1, opmask := m } := rfl
theorem witness_unread_queue : (default : Queue).head.isNone = true ∧ (default : Queue).qhead ≠ 1 ∧ (default : Queue).active = [] := by decide +kernel
theorem witness_validated : (unread 1 0).validate ((unread 1 0).queueD 0) ((unread 1 0).headWords ((unread 1 0).queueD 0)) = none := by
  rw [witness_unread_words 0 (.inl rfl)]
  decide +kernel

/-- PacketsValidated: nothing that the front end needs is absent, or the page of the packet is. -/
theorem witness_examined : (unread 1 0).feAbsent ((unread 1 0).examined ((unread 1 0).queueD 0) [0, 0, 0, 0, 0, 0, 0, 0]) = none
    ∧ (unread 1 6).feAbsent ((unread 1 6).examined ((unread 1 6).queueD 0) [6, 0, 0, 0, 0, 0, 0, 0]) = none
    ∧ base.feAbsent (base.examined ((unread 1 0).queueD 0) [0, 0, 0, 0, 0, 0, 0, 0]) = some (0, 0) := by decide +kernel

/-- PacketsRun: a page that may be read and written, one that may not be written, one that is absent; a tag with room and without. -/
theorem witness_grants : (mapped base leafAll).feGrant 0 4096 akRead = some true ∧ (mapped base leafAll).feGrant 0 4096 akRmw = some true
    ∧ (mapped base leafRead).feGrant 0 4096 akWrite = some false ∧ (mapped base 0x80000123B).feGrant 0 4096 akRead = some false
    ∧ base.feGrant 0 4096 akRead = none := by decide +kernel
theorem witness_arming : base.armed = [] ∧ (List.range 256).all (fun n => n / 2 ^ 17 == 0) = true ∧ (List.range 256).length = 256
    ∧ ¬((List.range 256).contains 7000 = true) ∧ (0 : Word).toNat % 256 = 0 := by decide +kernel

/-- PacketsRun: an active WAITMEM whose word equals 0 or not, an active SIGNALMEM, a DISARM with a firing and without. -/
def activeAt (opc : Nat) (w2 w4 : Word) : State :=
  { mapped (queueAt { (default : Queue) with active := [{ (default : Packet) with idx := 1, opc := opc, w1 := 4096, w2 := w2, w3 := BitVec.allOnes 64, w4 := w4 }] }) leafAll with
    armed := [(7, { armed [] [] with disarm := true }), (8, armed [0] [])] }
theorem witness_waits (x y : Word) (h : (x = 0 ∧ y = 0) ∨ (x = 1 ∧ y = 1) ∨ (x = 0 ∧ y = 2) ∨ (x = 1 ∧ y = 3)) :
    (activeAt 4 x y).feNat 0 4096 8 = 0 ∧ ((activeAt 4 x y).queueD 0).active.map (·.opc) = [4] := by
  rcases h with ⟨rfl, rfl⟩ | ⟨rfl, rfl⟩ | ⟨rfl, rfl⟩ | ⟨rfl, rfl⟩ <;> decide +kernel
theorem witness_active :
    (let s := activeAt 5 0 0; (s.queueD 0).head.isNone = true ∧ (s.queueD 0).qhead = (s.queueD 0).qtail ∧ s.fe.standby = none)
    ∧ (let s := activeAt 3 7 0; (kget? s.armed ((7 : Word).toNat % 2 ^ 26)).map (fun a => (a.disarm, a.busy, a.waiting.length)) = some (true, [], 0)
      ∧ (kget? s.armed ((8 : Word).toNat % 2 ^ 26)).map (fun a => a.busy) = some [0]) := by decide +kernel

/-- QueuesControlled and LaunchesHeld: the operations and kinds of their words. -/
theorem witness_words : (∀ n ∈ [0, 1, 2, 3], ((BitVec.ofNat 64 n).extractLsb' 0 2).toNat = n) ∧ ((BitVec.ofNat 64 5).extractLsb' 0 12).toNat ≠ 0
    ∧ (base.launches.map Prod.fst).Nodup ∧ ((queueAt (ready 8)).queues.map Prod.fst).Nodup
    ∧ (let x := base.curLaunch; x.aborted = false ∧ x.halting = false ∧ x.saved = false) ∧ base.launch? 9 = none
    ∧ ({ ready 1 with heldNext := some (0, 7, 0) } : Queue).heldNext = some (0, 7, 0) := by decide +kernel

/-- A saved launch whose cluster has a readable image or none; its context area lies at 16,384 of a leaf on the tables themselves. -/
def savedAt (images : KMap Image) : State :=
  { (queueAt (ready 9)).modBlock 0 (fun b => { b with saved := true, resident := false }) with
    launches := [(0, { base.curLaunch with saved := true, images := images, desc := { oneWarp with ctxbase := 16384 } })]
    mem := memWrite (tables 0x123F) (16384 + 7) [1] }
theorem witness_images : (State.loadImages 0 ((savedAt [(0, ⟨0, 0, true⟩)]).savedClusters 0) (savedAt [(0, ⟨0, 0, true⟩)])).isNone = true
    ∧ (State.loadImages 0 ((savedAt []).savedClusters 0) (savedAt [])).isSome = true ∧ ((savedAt []).launchD 0).saved = true
    ∧ (∀ z ∈ (savedAt []).queues, ∀ y ∈ z.2.active, y.opc ≠ 9) := by decide +kernel

/-- RegistersWritten: a queue, a held record with room for it after the write. -/
theorem witness_registers : (kget? (queueAt (ready 0)).queues 0).isSome = true ∧ base.fe.primary < 512 ∧ base.fe.fqHeld = []
    ∧ (let s : State := { base with fe := { base.fe with fqHeld := [[0, 0, 0, 0]], fqprod := 1, fqlog := 0 } };
      s.fe.fqHeld = [[0, 0, 0, 0]] ∧ (s.fe.fqprod + 2 ^ 32 - 1 % 2 ^ 32) % 2 ^ 32 < 2 ^ s.fe.fqlog) := by decide +kernel

/-- A record of SEQ 5 that waits for its answer, and the split that it stands for. -/
def record (last : Bool) : ExcRec := { (default : ExcRec) with seq := 5, wid := 0, launch := 0, last := last }
def answering (last : Bool) (kind : FaultKind) (captured : Bool) : State :=
  { (warpAt fun w => { w with captured := captured, table := [(0, { base.curSplit with
      st := .faulted, fault := some { (default : FaultInfo) with kind := kind, group := 5, accs := 2 ^ 64, recs := true } })] }) with
    queues := [(0, { (default : Queue) with waiting := [record last] })] }
/-- AnswersAct: no record, one that is not its group's last, a captured warp, and each kind of fault. -/
theorem witness_answers :
    (∀ r ∈ ((answering true (.issue 1) false).queueD 0).waiting, r.seq % 2 ^ 48 ≠ 6 % 2 ^ 48 ∧ r.seq % 2 ^ 48 = 5 % 2 ^ 48 ∧ r.last = true)
    ∧ (record false).last = false ∧ ((answering true (.issue 1) true).warpD 0).captured = true
    ∧ (∀ k ∈ [FaultKind.issue 1, .stop true, .stop false, .completion],
      ((answering true k false).splitD 0 0).fault.map (fun f => (f.kind, f.recs, f.group)) = some (k, true, 5) ∧ ((answering true k false).splitD 0 0).st = .faulted
        ∧ (answering true k false).reqs = [] ∧ ((answering true k false).warpD 0).results = [] ∧ ((answering true k false).warpD 0).table.map Prod.fst = [0]) := by
  decide +kernel

/-! ### The driver, power, links, failing units and the host pair -/

/-- A ticket of a page for a load, a store, engine work and a fetch. -/
def ticketed (kind : Nat) (k : ReqKind) : State :=
  { base with
    reqs := [(3, { req k with phase := .xlate })], works := [(4, job .cpyIn .running)],
    tickets := [(9, { (default : Ticket) with num := 7, kind := kind, page := 4096, reqs := if kind = 0 then [3] else [4] })] }
/-- TranslationAnswers. -/
theorem witness_tickets : (∀ x ∈ (ticketed 0 .load).tickets, x.2.num = 7 ∧ x.2.pkg = 0 ∧ x.2.kind ≠ 3 ∧ x.2.reqs = [3])
    ∧ (∀ x ∈ (ticketed 1 .load).tickets, x.2.num ≠ 8 ∧ x.2.reqs = [4]) ∧ kget? (ticketed 0 .store).works 3 = none ∧ kget? (ticketed 1 .store).reqs 4 = none
    ∧ (∀ q ∈ base.curWarp.table, q.2.eff ≠ .faulted) := by decide +kernel
theorem witness_fetch_ticket : let s : State := { base with cores := [], cur := (0, 0), tickets := [(9, { (default : Ticket) with num := 7, kind := 3, page := 0 })] }
    (Issuer s s.curWarp s.curSplit) ∧ s.fetchers { (default : Ticket) with num := 7, kind := 3, page := 0 } = [s.cur] :=
  ⟨⟨rfl, rfl, rfl, by decide +kernel⟩, by decide +kernel⟩

/-- GenerationsBumped: no bump under way, and one. -/
theorem witness_bumps : kget? base.bumps 0 = none ∧ base.copies = [] ∧ MemoryOk base
    ∧ (kget? ({ base with bumps := [(0, ⟨0, 1, [], 0, [5]⟩)] } : State).bumps 0).isSome = true ∧ base.bumpReqs = [] := ⟨rfl, rfl, rfl, rfl, rfl⟩
/-- A bump that a dead die has still to take, one whose live die takes it now, one with an old access under way, one that ends. -/
theorem witness_bump_steps :
    ({ base with dies := [(5, { Die.reset with dead := true })] } : State).dieLive 5 = false
    ∧ 0 + Config.bumpDelay 0 5 ≤ ({ base with clk := Config.bumpDelay 0 5 } : State).clk
    ∧ (let r : Req := { req .load with phase := .reply }; ({ base with reqs := [(3, r)] } : State).oldAccess ⟨0, 1, [(0, 2)], 0, []⟩ 0 = true)
    ∧ base.oldAccess ⟨0, 1, [(0, 2)], 0, []⟩ 0 = false := ⟨by decide +kernel, Nat.le_of_eq (Nat.zero_add _), by decide +kernel, by decide +kernel⟩

/-- PowerStates: packages in each state, above and below their caps, with a launch in flight and without. -/
theorem witness_power : (∀ n, n < 4 → (({ base with pkgs := [(0, { Pkg.reset with pnow := n, above := 2, below := 2 })] } : State).pkg 0).pnow = n)
    ∧ (∃ l ∈ base.launches, 0 ∈ l.2.pset) ∧ ¬(∃ l ∈ base.launches, 1 ∈ l.2.pset) ∧ Pkg.reset.above < 2 ∧ Pkg.reset.below < 2 := by decide +kernel
/-- ReportsSigned: a report that is being made. -/
theorem witness_report : (({ base with pkgs := [(0, { Pkg.reset with attest := true })] } : State).pkg 0).attest = true := by decide +kernel

/-- A link that has waited since clk 0. -/
def linked (n retries clk : Nat) : State := { base with clk := clk, links := [(n, ⟨retries, 0, 0⟩)] }
/-- FlitsRetried and LinksDie: fresh, at the limit of its retries, timed out, an Elpor port with a request on it, a die-to-die link. -/
theorem witness_links : base.links = [] ∧ (kget? (linked 0 0 128).links 0).map (fun x => (x.retries, x.sent + 128)) = some (0, 128)
    ∧ (kget? (linked 0 16 0).links 0).map (·.retries) = some 16
    ∧ (let s : State := { linked 0 0 2400 with reqs := [(3, { req .store with pkg := 0, plane := 0, arrive := 9 })] };
      (∀ x ∈ s.links, x.2.first + 2400 ≤ s.clk) ∧ s.invals = [] ∧ s.works = [] ∧ (∀ q ∈ s.reqs, q.2.phase = .out ∧ q.2.tr = none ∧ 0 < q.2.arrive ∧ q.2.plane = 0 ∧ q.2.pkg = 0)
        ∧ (s.warpD 0).ended = false)
    ∧ linkExists 0 = true ∧ linkExists (2 ^ 20 + 4 * 15 + 1) = false
    ∧ (2 ^ 20 + 4 * 17 + 1 : Nat) ≥ 2 ^ 20 := by decide +kernel

/-- PlanesChange: a report that is due and one that is not, a plane that is enabled and one that is not, a port that may train. -/
theorem witness_planes :
    (let p : Pkg := { Pkg.reset with adopt := [(3, false, 0), (4, true, 9)] };
      (∀ a ∈ p.adopt, a.1 = 3 → a.2.2 ≤ 0 ∧ a.2.1 = false) ∧ (∀ a ∈ p.adopt, a.1 = 4 → 0 < a.2.2))
    ∧ Pkg.reset.planeen.getLsbD 127 = true ∧ (0 : BitVec 128).getLsbD 127 = false ∧ Pkg.reset.deadPorts = []
    ∧ (let s : State := { base with clk := 1200000, pkgs := [(0, { Pkg.reset with deadPorts := [(5, 0)] })] };
      (s.pkg 0).deadPorts = [(5, 0)] ∧ 0 + 1200000 ≤ s.clk ∧ (s.pkg 0).planeen.getLsbD 5 = true) := by decide +kernel

/-- UnitsFail: a die and a package that are heard, and that have been silent for 12,000 clk; waiters of a lock of the package. -/
theorem witness_units : (base.die 0).dead = false ∧ (base.die 0).beating = true ∧ base.clk < (base.die 0).lastBeat + 12000
    ∧ (({ base with clk := 12000 } : State).die 0).lastBeat + 12000 ≤ ({ base with clk := 12000 } : State).clk ∧ (base.pkg 0).failed = false
    ∧ (let s : State := { base with clk := 12000, pkgs := [(1, { Pkg.reset with failed := true })], lockTab := [(lineKey 128 7, entry (some 9) [waiter 0 true])] };
      (s.pkg 1).failed = true ∧ (s.pkg 1).known = false ∧ (s.pkg 1).lastBeat + 12000 ≤ s.clk ∧ (∀ b ∈ s.blocks, b.2.pkg ≠ 1)
        ∧ (∀ q ∈ s.lockTab, q.1 / 2 ^ 73 / 128 = 1 ∧ q.2.queue ≠ [])) := by decide +kernel

/-- ErrorsHandled: clean and dirty copies; locks with and without waiters. -/
theorem witness_errors : (∀ o ∈ (dirtyIn 0).dirty, o < 512) ∧ (dirtyIn 0).dirty ≠ [] ∧ (copyIn 0).dirty = []
    ∧ (∀ l ∈ [[], [waiter 9 true]], let s : State := { base with lockTab := [(lineKey 0 7, entry (some 0) l)] };
      (s.lockEntry 0 7).holder.isSome = true ∧ (s.lockEntry 0 7).queue = l) := by decide +kernel

/-- DiesStart: a fresh die, one that is dark for good, one in an update with nothing resident, its failed entry. -/
theorem witness_starts :
    (base.pkg 0).journal = [] ∧ 5 ∉ (base.pkg 0).darkForGood ∧ (base.pkg 0).failed = false ∧ (base.die 5).dead = false ∧ (base.die 5).cleared = false
    ∧ (base.die 5).banks = (0, (0, 0), (0, 0)) ∧ (base.pkg 0).pver = 0 := by decide +kernel
theorem witness_update : let s := base.modDie 5 fun d => { d with update := some (0, 3, true) }
    (s.die 5).update = some (0, 3, true) ∧ (∀ b ∈ s.blocks, b.2.dk ≠ 5) := by decide +kernel
theorem witness_dark : let e := BitVec.ofNat 128 66816
    let s : State := { base with pkgs := [(0, { Pkg.reset with darkForGood := [5], journal := [e] })] }
    5 ∈ (s.pkg 0).darkForGood ∧ (s.pkg 0).journal = [e] ∧ (e.extractLsb' 8 8).toNat = 5 ∧ (e.extractLsb' 0 8).toNat = 0 ∧ (e.extractLsb' 16 8).toNat = 1 :=
  ⟨by decide +kernel, rfl, rfl, rfl, rfl⟩
theorem witness_starts_alone : ∀ k, k < 128 → k ≠ 5 → (base.die k).update = none := fun _ _ _ => rfl

/-- StandbyTakesOver: a live primary with a standby, and one that has failed and been silent for 24,000 clk. -/
theorem witness_standby : (base.pkg base.fe.primary).failed = false
    ∧ ({ base with fe := { base.fe with standby := some 1 } } : State).fe.standby = some 1
    ∧ (let s : State := { base with clk := 24000, pkgs := [(0, { Pkg.reset with failed := true })], fe := { base.fe with standby := some 1 } };
      (s.pkg s.fe.primary).failed = true ∧ s.fe.lastBeat + 24000 ≤ s.clk) := by decide +kernel
end Sys2Proof.Tests
end

namespace Sys2Proof.Laws.Canonical

/-! # Every step keeps the canonical form of memory

Memory is written in few places: one byte (`memPut`), a run of bytes (`memWrite`, `memRun`), and the loss of cells (`filter`). Each keeps the form
`Memory.wf`. Every other function of a step leaves memory alone (`…_mem`) or passes it to those (`…_wf`, and `…_ok` for a meaning that answers an `Out`);
a fold or a choice between branches keeps the form because each of its steps and branches does. -/

open Sys2Proof.Machine Sys2Proof.Safety

/-- A meaning that answers a next state answers one whose memory is in its canonical form. -/
def OutOk : Out → Prop
  | .next t => MemoryOk t
  | _ => True

@[simp] theorem outOk_next (t : State) : OutOk (.next t) ↔ Memory.wf t.mem := Iff.rfl
@[simp] theorem outOk_refused (r : Refusal) : OutOk (.refused r) := trivial
@[simp] theorem outOk_ite (c : Prop) [Decidable c] (a b : Out) : OutOk (if c then a else b) ↔ if c then OutOk a else OutOk b := by
  split <;> rfl

@[simp] theorem ite_mem (c : Prop) [Decidable c] (a b : State) : (if c then a else b).mem = if c then a.mem else b.mem :=
  apply_ite ..

@[simp] theorem wf_ite (c : Prop) [Decidable c] (a b : List Host.Cell) :
    Memory.wf (if c then a else b) = if c then Memory.wf a else Memory.wf b := apply_ite ..

/-- A fold whose steps leave memory alone leaves it alone. -/
theorem foldl_mem {α : Type} {f : State → α → State} (hf : ∀ s a, (f s a).mem = s.mem) (l : List α) (s : State) :
    (l.foldl f s).mem = s.mem :=
  List.foldlRecOn (motive := fun t => t.mem = s.mem) l f rfl fun t ht a _ => (hf t a).trans ht

/-- A fold whose steps keep the form keeps it. -/
theorem foldl_wf {α : Type} {f : State → α → State} (hf : ∀ s a, Memory.wf s.mem → Memory.wf (f s a).mem) (l : List α)
    {s : State} (hs : Memory.wf s.mem) : Memory.wf (l.foldl f s).mem :=
  List.foldlRecOn (motive := fun t => Memory.wf t.mem) l f hs fun t ht a _ => hf t a ht

/-- The canonical form: no byte listed is 0, and the addresses rise. -/
theorem wf_iff (m : List Host.Cell) : Memory.wf m ↔ (∀ p ∈ m, p.2 ≠ 0) ∧ m.Pairwise fun p q => p.1 < q.1 := by
  induction m with
  | nil => simp [Memory.wf]
  | cons p r ih =>
    rw [wf_cons, ih, List.forall_mem_cons, List.pairwise_cons, Above]
    exact ⟨fun ⟨hp, hlt, hne, hr⟩ => ⟨⟨hp, hne⟩, hlt, hr⟩, fun ⟨⟨hp, hne⟩, hlt, hr⟩ => ⟨hp, hlt, hne, hr⟩⟩

/-- The loss of cells keeps the canonical form. -/
@[simp] theorem filter_wf (q : Host.Cell → Bool) (m : List Host.Cell) (hm : Memory.wf m) : Memory.wf (m.filter q) := by
  obtain ⟨hne, hlt⟩ := (wf_iff m).mp hm
  exact (wf_iff _).mpr ⟨fun p hp => hne p ((List.mem_filter.mp hp).1), hlt.filter q⟩

/-- The cells of a run lie within it. -/
theorem runCells_bounds (l : List Byte) (a : Nat) : ∀ p ∈ runCells a l, a ≤ p.1 ∧ p.1 < a + l.length := by
  induction l generalizing a with
  | nil => simp [runCells]
  | cons b r ih =>
    have up : ∀ p ∈ runCells (a + 1) r, a ≤ p.1 ∧ p.1 < a + (b :: r).length := fun p hp => by
      have := ih (a + 1) p hp
      simp only [List.length_cons]
      omega
    simp only [runCells]
    split
    · exact up
    · exact List.forall_mem_cons.mpr ⟨by simp, up⟩

theorem runCells_wf (l : List Byte) (a : Nat) : Memory.wf (runCells a l) := by
  induction l generalizing a with
  | nil => rfl
  | cons b r ih =>
    simp only [runCells]
    split
    · exact ih (a + 1)
    · exact (wf_cons _ _ _).mpr ⟨‹_›, fun p hp => (runCells_bounds r (a + 1) p hp).1, ih (a + 1)⟩

/-- Replacing a run of bytes keeps the canonical form: what lies below the run, the run and what lies above it rise in turn. -/
@[simp] theorem memRun_wf (m : List Host.Cell) (a : Nat) (l : List Byte) (hm : Memory.wf m) : Memory.wf (memRun m a l) := by
  have hb := runCells_bounds l a
  obtain ⟨hlo, hlo'⟩ := (wf_iff _).mp (filter_wf (fun p => decide (p.1 < a)) m hm)
  obtain ⟨hhi, hhi'⟩ := (wf_iff _).mp (filter_wf (fun p => decide (a + l.length ≤ p.1)) m hm)
  obtain ⟨hrun, hrun'⟩ := (wf_iff _).mp (runCells_wf l a)
  refine (wf_iff _).mpr ⟨?_, ?_⟩
  · simp only [memRun, List.forall_mem_append]
    exact ⟨⟨hlo, hrun⟩, hhi⟩
  · simp only [memRun, List.pairwise_append, List.forall_mem_append, List.mem_filter, decide_eq_true_eq]
    exact ⟨⟨hlo', hrun', fun p hp q hq => Nat.lt_of_lt_of_le hp.2 (hb q hq).1⟩, hhi',
      fun p hp q hq => by omega, fun p hp q hq => Nat.lt_of_lt_of_le (hb p hp).2 hq.2⟩

/-- A list of single bytes, written one by one, keeps the canonical form. -/
theorem foldl_memPut_wf (key : Nat → Nat) (l : List (Nat × Byte)) (m : List Host.Cell) (hm : Memory.wf m) :
    Memory.wf (l.foldl (fun m q => memPut m (key q.1) q.2) m) :=
  List.foldlRecOn (motive := fun m => Memory.wf m) l _ hm fun m hm _ _ => memPut_wf m _ _ hm

section
variable (s : State)

/-! ### Machine/Topology -/

@[simp] theorem excuse_mem (ck wire on) : (s.excuse ck wire on).mem = s.mem := rfl

@[simp] theorem maskCore_mem (ck) : (s.maskCore ck).mem = s.mem := foldl_mem (by simp) _ _

@[simp] theorem freeWires_mem (l) : (s.freeWires l).mem = s.mem := rfl

/-! ### Machine/Translate -/

@[simp] theorem dropCopies_mem (asid va n all) : (s.dropCopies asid va n all).mem = s.mem := rfl

/-! ### Machine/Ops -/

@[simp] theorem setTag_mem (r t) : (s.setTag r t).mem = s.mem := rfl

@[simp] theorem addResult_mem (d lat lanes vals sval mem) : (s.addResult d lat lanes vals sval mem).mem = s.mem := rfl

@[simp] theorem putS_mem (sd lat x) : (s.putS sd lat x).mem = s.mem := rfl

@[simp] theorem putM_mem (md lat x) : (s.putM md lat x).mem = s.mem := rfl

@[simp] theorem putV_mem (vd lat lanes vals t) : (s.putV vd lat lanes vals t).mem = s.mem := rfl

@[simp] theorem putPair_mem (vd lat lanes vals t) : (s.putPair vd lat lanes vals t).mem = s.mem := rfl

@[simp] theorem landMem_mem (wid k lanes vals sval) : (s.landMem wid k lanes vals sval).mem = s.mem := by
  unfold State.landMem
  split
  · rfl
  · split <;> simp

@[simp] theorem sendMem_mem (wid k due vals) : (s.sendMem wid k due vals).mem = s.mem := rfl

@[simp] theorem landComing_mem (wid k) : (s.landComing wid k).mem = s.mem := by
  unfold State.landComing
  split
  · rfl
  · split <;> simp

@[simp] theorem landDue_mem (wid k) : (s.landDue wid k).mem = s.mem := by
  unfold State.landDue
  split
  · rfl
  · split <;> simp

@[simp] theorem dropMem_mem (wid k lanes) : (s.dropMem wid k lanes).mem = s.mem := rfl

@[simp] theorem freshReady_mem (wid slot notBefore) : (s.freshReady wid slot notBefore).mem = s.mem := rfl

@[simp] theorem endSpan_mem (wid slot) : (s.endSpan wid slot).mem = s.mem := by
  unfold State.endSpan
  split <;> simp

@[simp] theorem retire_mem (sw lat words) : (s.retire sw lat words).mem = s.mem := by simp [State.retire]

@[simp] theorem jumpTo_mem (pc lat) : (s.jumpTo pc lat).mem = s.mem := by simp [State.jumpTo]

@[simp] theorem scalarOp_mem (sw sd lat words x) : (s.scalarOp sw sd lat words x).mem = s.mem := by simp [State.scalarOp]

@[simp] theorem enterWait_mem (wid slot x wobj waux) : (s.enterWait wid slot x wobj waux).mem = s.mem := rfl

@[simp] theorem wake_mem (wid slot notBefore) : (s.wake wid slot notBefore).mem = s.mem := rfl

@[simp] theorem waitScalar_mem (wid key sd x lat) : (s.waitScalar wid key sd x lat).mem = s.mem := rfl

@[simp] theorem reportFail_mem (wid causes n pkg die) : (s.reportFail wid causes n pkg die).mem = s.mem := by
  unfold State.reportFail
  split <;> simp

/-! ### Machine/Scalar -/

@[simp] theorem divide_mem (f q) : (s.divide f q).mem = s.mem := by simp [State.divide]

/-! ### Machine/Operands -/

@[simp] theorem advanceSeed_mem : s.advanceSeed.mem = s.mem := rfl

@[simp] theorem putTyped_mem (vd ty lat m vals) : (s.putTyped vd ty lat m vals).mem = s.mem := by simp [State.putTyped]

@[simp] theorem elemOp_mem (mk vd ty lat src g) : (s.elemOp mk vd ty lat src g).mem = s.mem := by simp [State.elemOp]

/-! ### Machine/Splits -/

@[simp] theorem dividePart_mem (wid slot parent lat jgrp jpc first q) :
    (s.dividePart wid slot parent lat jgrp jpc first q).mem = s.mem := by
  unfold State.dividePart
  simp only [ite_mem]
  split
  · simp
  · split
    · rfl
    · split <;> simp

@[simp] theorem divideAll_mem (wid slot parent lat jgrp jpc first l) :
    (s.divideAll wid slot parent lat jgrp jpc first l).mem = s.mem := by
  induction l generalizing s first with
  | nil => rfl
  | cons q r ih => simp [State.divideAll, ih]

@[simp] theorem mergeAt_mem (wid l pc jgrp jpc notBefore) : (s.mergeAt wid l pc jgrp jpc notBefore).mem = s.mem := by
  unfold State.mergeAt
  split <;> simp

@[simp] theorem joinCheck_mem (wid g j) : (s.joinCheck wid g j).mem = s.mem := by
  unfold State.joinCheck
  split
  · rfl
  · split
    · rfl
    · split <;> simp

@[simp] theorem joinExpire_mem (wid slot) : (s.joinExpire wid slot).mem = s.mem := by
  unfold State.joinExpire
  split <;> simp

@[simp] theorem regangRelease_mem (wid pc) : (s.regangRelease wid pc).mem = s.mem := by
  unfold State.regangRelease
  split
  · rfl
  · dsimp only
    split
    · rfl
    · rw [foldl_mem (by simp), mergeAt_mem]

@[simp] theorem regangCheck_mem (wid pc) : (s.regangCheck wid pc).mem = s.mem := by
  unfold State.regangCheck
  split
  · rfl
  · dsimp only
    split <;> simp

@[simp] theorem mergeBoundary_mem (wid n) : (s.mergeBoundary wid n).mem = s.mem := by
  induction n generalizing s with
  | zero => rfl
  | succ n ih =>
    unfold State.mergeBoundary
    split
    · rfl
    · dsimp only
      split <;> simp [ih]

@[simp] theorem startFill_mem (wid) : (s.startFill wid).mem = s.mem := by
  unfold State.startFill
  dsimp only
  split
  · rfl
  · split
    · rfl
    · split <;> rfl

@[simp] theorem startSwap_mem (wid) : (s.startSwap wid).mem = s.mem := by
  unfold State.startSwap
  split
  · rfl
  · split
    · rfl
    · split
      · rfl
      · split <;> rfl

@[simp] theorem finishMoves_mem (wid fill) : (s.finishMoves wid fill).mem = s.mem := foldl_mem (by simp) _ _

/-! ### Machine/Path -/

@[simp] theorem dropSector_mem (key va) : (s.dropSector key va).mem = s.mem := rfl

@[simp] theorem dropLineWhere_mem (asid va grain sel) : (s.dropLineWhere asid va grain sel).mem = s.mem := rfl

@[simp] theorem acquire_mem (wid sc) : (s.acquire wid sc).mem = s.mem := by simp [State.acquire]

@[simp] theorem sendHome_mem (id r hpkg hdie near) : (s.sendHome id r hpkg hdie near).mem = s.mem := rfl

@[simp] theorem plcFill_mem (dk asid gen va leaf) : (s.plcFill dk asid gen va leaf).mem = s.mem := rfl

@[simp] theorem sendOut_mem (id r near) : (s.sendOut id r near).mem = s.mem := by
  unfold State.sendOut
  split
  · split
    · split <;> rfl
    · rfl

@[simp] theorem start_mem (id) : (s.start id).mem = s.mem := by
  unfold State.start
  split
  · rfl
  · split <;> simp

@[simp] theorem homePut_mem (dk asid blk sectors leaf hint) : (s.homePut dk asid blk sectors leaf hint).mem = s.mem := rfl

@[simp] theorem homeFill_mem (r leaf) : (s.homeFill r leaf).mem = s.mem := by simp [State.homeFill]

@[simp] theorem ctlFill_mem (dk asid gen va leaf tables) : (s.ctlFill dk asid gen va leaf tables).mem = s.mem := rfl

@[simp] theorem modDir_mem (dk line f) : (s.modDir dk line f).mem = s.mem := rfl

@[simp] theorem pieceDone_mem (r x) : (s.pieceDone r x).mem = s.mem := rfl

@[simp] theorem faultReq_mem (id code info) : (s.faultReq id code info).mem = s.mem := by
  unfold State.faultReq
  split <;> simp

@[simp] theorem failPosted_mem (id r cause) : (s.failPosted id r cause).mem = s.mem := by
  unfold State.failPosted
  simp only [ite_mem]
  split
  · split <;> simp
  · simp

@[simp] theorem refuseWrite_mem (id r cause due) : (s.refuseWrite id r cause due).mem = s.mem := by simp [State.refuseWrite]

@[simp] theorem refuseRead_mem (id code info due) : (s.refuseRead id code info due).mem = s.mem := by simp [State.refuseRead]

@[simp] theorem noteReader_mem (pkg die hpkg hdie line) : (s.noteReader pkg die hpkg hdie line).mem = s.mem := by
  unfold State.noteReader
  simp only [ite_mem]
  split
  · simp
  · split <;> simp

@[simp] theorem postReq_mem (r) : (s.postReq r).mem = s.mem := by simp [State.postReq]

/-! ### Machine/MemGlobal -/

@[simp] theorem loadDests_mem (lanes ty l i) : (s.loadDests lanes ty l i).1.mem = s.mem := by
  induction l generalizing s i with
  | nil => rfl
  | cons r rest ih => simp [State.loadDests, ih]

@[simp] theorem postAll_mem (l) : (s.postAll l).mem = s.mem := by
  induction l generalizing s with
  | nil => rfl
  | cons r rest ih => simp [State.postAll, ih]

@[simp] theorem postStore_mem (r) : (s.postStore r).mem = s.mem := by
  unfold State.postStore
  dsimp only
  split
  · simp
  · split <;> simp

@[simp] theorem postStores_mem (l) : (s.postStores l).mem = s.mem := by
  induction l generalizing s with
  | nil => rfl
  | cons r rest ih => simp [State.postStores, ih]

/-! ### Machine/Locks -/

@[simp] theorem setLock_mem (dk line e) : (s.setLock dk line e).mem = s.mem := by simp [State.setLock]

@[simp] theorem sendGrant_mem (wid line code ahead dk due) : (s.sendGrant wid line code ahead dk due).mem = s.mem := rfl

@[simp] theorem passLock_mem (dk line e fatal src t0) : (s.passLock dk line e fatal src t0).mem = s.mem := by
  unfold State.passLock
  split <;> simp

@[simp] theorem lockArrive_mem (dk line wid try_ back) : (s.lockArrive dk line wid try_ back).mem = s.mem := by
  simp [State.lockArrive]

@[simp] theorem unlockArrive_mem (dk line wid t0) : (s.unlockArrive dk line wid t0).mem = s.mem := by simp [State.unlockArrive]

@[simp] theorem holderFatal_mem (dk line) : (s.holderFatal dk line).mem = s.mem := by simp [State.holderFatal]

@[simp] theorem holderSaved_mem (dk line wid) : (s.holderSaved dk line wid).mem = s.mem := by simp [State.holderSaved]

@[simp] theorem holderRestored_mem (dk line wid) : (s.holderRestored dk line wid).mem = s.mem := by simp [State.holderRestored]

@[simp] theorem waiterSaved_mem (dk line wid) : (s.waiterSaved dk line wid).mem = s.mem := by simp [State.waiterSaved]

@[simp] theorem waiterRestored_mem (dk line wid) : (s.waiterRestored dk line wid).mem = s.mem := by simp [State.waiterRestored]

@[simp] theorem withdrawArrive_mem (dk line wid) : (s.withdrawArrive dk line wid).mem = s.mem := by simp [State.withdrawArrive]

/-! ### Machine/Abort -/

@[simp] theorem dropLocks_mem (wid) : (s.dropLocks wid).mem = s.mem :=
  foldl_mem (fun _ _ => by exact foldl_mem (by simp) _ _) _ _

@[simp] theorem endWarp_mem (wid) : (s.endWarp wid).mem = s.mem := by simp [State.endWarp]

@[simp] theorem abortLaunch_mem (l) : (s.abortLaunch l).mem = s.mem := by
  unfold State.abortLaunch
  split
  · rfl
  · dsimp only
    split
    · rfl
    · simp [foldl_mem endWarp_mem]

/-! ### Machine/Flags -/

@[simp] theorem putMaskLanes_mem (md lat m x) : (s.putMaskLanes md lat m x).mem = s.mem := rfl

/-! ### Machine/Atomics -/

@[simp] theorem atomDests_mem (lanes l) : (s.atomDests lanes l).1.mem = s.mem := by
  induction l generalizing s with
  | nil => rfl
  | cons r rest ih => simp [State.atomDests, ih]

@[simp] theorem postGroups_mem (f kind op ids la opnds) : (s.postGroups f kind op ids la opnds).mem = s.mem := by
  simp [State.postGroups]

/-! ### Machine/FaultQueue -/

@[simp] theorem signal_mem (dk bit) : (s.signal dk bit).mem = s.mem := rfl

@[simp] theorem count_mem (dk i) : (s.count dk i).mem = s.mem := rfl

@[simp] theorem poisonRead_mem (wid) : (s.poisonRead wid).mem = s.mem := by simp [State.poisonRead]

/-! ### Machine/LocalStore -/

@[simp] theorem landLane_mem (wid lane sx regs l) : (s.landLane wid lane sx regs l).mem = s.mem := by
  induction regs generalizing s l with
  | nil => rfl
  | cons id rest ih => simp [State.landLane, ih]

@[simp] theorem sendLane_mem (wid lane due sx regs l) : (s.sendLane wid lane due sx regs l).mem = s.mem := by
  induction regs generalizing s l with
  | nil => rfl
  | cons id rest ih => simp [State.sendLane, ih]

@[simp] theorem feProgress_mem (a lat) : (s.feProgress a lat).mem = s.mem := by
  unfold State.feProgress
  split <;> simp

@[simp] theorem feMake_mem (id a) : (s.feMake id a).mem = s.mem := by
  unfold State.feMake
  simp only [feProgress_mem, modBlock_mem, ite_mem]
  split
  · rfl
  · exact foldl_mem (by simp) _ _

@[simp] theorem feCascade_mem (bid granule n) : (s.feCascade bid granule n).mem = s.mem := by
  induction n generalizing s with
  | zero => rfl
  | succ n ih =>
    unfold State.feCascade
    split <;> simp [ih]

@[simp] theorem feWake_mem (bid granule) : (s.feWake bid granule).mem = s.mem := by simp [State.feWake]

@[simp] theorem fillLocal_mem (bid o l) : (s.fillLocal bid o l).mem = s.mem := by
  unfold State.fillLocal
  split
  · rfl
  · exact foldl_mem (by simp) _ _

@[simp] theorem postFes_mem (f la store hold regs sx) : (s.postFes f la store hold regs sx).mem = s.mem := foldl_mem (by simp) _ _

/-! ### Machine/Sync -/

@[simp] theorem barDone_mem (wid slot sd sc key word lat) : (s.barDone wid slot sd sc key word lat).mem = s.mem := by
  simp [State.barDone]

@[simp] theorem barTest_mem (wid slot) : (s.barTest wid slot).mem = s.mem := by
  unfold State.barTest
  split
  · split <;> simp
  · rfl

@[simp] theorem barReleaseWarp_mem (wid key excused lat) : (s.barReleaseWarp wid key excused lat).mem = s.mem := by
  unfold State.barReleaseWarp
  dsimp only
  split
  · rfl
  · split
    · rfl
    · exact foldl_mem (fun _ _ => by split <;> simp) _ _

@[simp] theorem barRelease_mem (bid key excused lat) : (s.barRelease bid key excused lat).mem = s.mem := foldl_mem (by simp) _ _

@[simp] theorem arrive_mem (wid key count) : (s.arrive wid key count).mem = s.mem := by simp [State.arrive]

@[simp] theorem barCheck_mem (wid key) : (s.barCheck wid key).mem = s.mem := by
  unfold State.barCheck
  split <;> simp

@[simp] theorem deliverArrivals_mem (wid) : (s.deliverArrivals wid).mem = s.mem := foldl_mem (by simp) _ _

@[simp] theorem barJoin_mem (wid m lvl num count sc) : (s.barJoin wid m lvl num count sc).mem = s.mem := by simp [State.barJoin]

@[simp] theorem counterCheck_mem (bid n) : (s.counterCheck bid n).mem = s.mem :=
  foldl_mem (fun _ _ => by exact foldl_mem (fun _ _ => by split <;> simp) _ _) _ _

@[simp] theorem counterAdd_mem (bid n inc) : (s.counterAdd bid n inc).mem = s.mem := by simp [State.counterAdd]

@[simp] theorem discardTasks_mem (bid) : (s.discardTasks bid).mem = s.mem := by simp [State.discardTasks]

@[simp] theorem noteSync_mem (wid m) : (s.noteSync wid m).mem = s.mem := rfl

@[simp] theorem syncCheck_release_mem (wid w l m) : (State.syncCheck.release s wid w l m).mem = s.mem := by
  unfold State.syncCheck.release
  dsimp only
  split
  · exact foldl_mem (by simp) _ _
  · rfl

@[simp] theorem dropAfter_mem (wid p) : (s.dropAfter wid p).mem = s.mem := by
  unfold State.dropAfter
  split
  · split <;> rfl
  · rfl
  · rfl

/-! ### Machine/MemEvents -/

@[simp] theorem sendInvals_mem (id r leaf place) : (s.sendInvals id r leaf place).mem = s.mem := by
  unfold State.sendInvals
  dsimp only
  split <;> exact foldl_mem (by simp) _ _

@[simp] theorem patchCopy_mem (place asid va l) : (s.patchCopy place asid va l).mem = s.mem := rfl

@[simp] theorem ownCopies_mem (r leaf l) : (s.ownCopies r leaf l).mem = s.mem := by
  unfold State.ownCopies
  dsimp only
  split
  · exact foldl_mem (by simp) _ _
  · simp

@[simp] theorem cleanSectors_mem (k n) : (s.cleanSectors k n).mem = s.mem := rfl

@[simp] theorem waitHome_mem (id r leaf) : (s.waitHome id r leaf).mem = s.mem := rfl

@[simp] theorem landReq_mem (r) : (s.landReq r).mem = s.mem := by
  unfold State.landReq
  split
  · rfl
  · split
    · split
      · exact foldl_mem (by simp) _ _
      · simp
    · simp

@[simp] theorem forwardInval_mem (x) : (s.forwardInval x).mem = s.mem := by
  unfold State.forwardInval
  split
  · rfl
  · exact foldl_mem (by simp) _ _

@[simp] theorem purgeAll_mem (asid va) : (s.purgeAll asid va).1.mem = s.mem := foldl_mem (by simp) _ _

/-! ### Machine/Answers -/

@[simp] theorem resend_mem (id) : (s.resend id).mem = s.mem := by simp [State.resend]

@[simp] theorem skipReq_mem (id) : (s.skipReq id).mem = s.mem := by
  unfold State.skipReq
  split
  · rfl
  · exact foldl_mem (by simp) _ _

@[simp] theorem answerHeld_mem (l skip) : (s.answerHeld l skip).mem = s.mem := foldl_mem (by simp) _ _

@[simp] theorem unwait_mem (q seq) : (s.unwait q seq).mem = s.mem := rfl

/-! ### Machine/Control -/

@[simp] theorem putReturn_mem (r lat) : (s.putReturn r lat).mem = s.mem := rfl

/-! ### Machine/Engines -/

@[simp] theorem finishWork_mem (id due) : (s.finishWork id due).mem = s.mem := rfl

/-! ### Machine/EngineEvents -/

@[simp] theorem failUnit_mem (id u c) : (s.failUnit id u c).mem = s.mem := rfl

@[simp] theorem fillRuns_mem (bid l) : (s.fillRuns bid l).mem = s.mem := foldl_mem (by simp) _ _

@[simp] theorem kilnRecord_mem (id e eout) : (s.kilnRecord id e eout).mem = s.mem := by simp [State.kilnRecord]

@[simp] theorem beginLine_mem (id e) : (s.beginLine id e).mem = s.mem := by
  unfold State.beginLine
  dsimp only
  split
  · simp
  · split
    · exact foldl_mem (by simp) _ _
    · rfl

@[simp] theorem endLine_mem (id l) : (s.endLine id l).mem = s.mem := by
  unfold State.endLine
  dsimp only
  split <;> simp

@[simp] theorem sendLine_mem (id e l x) : (s.sendLine id e l x).mem = s.mem := foldl_mem (by simp) _ _

@[simp] theorem finishLine_mem (id e l x) : (s.finishLine id e l x).mem = s.mem := by
  unfold State.finishLine
  split <;> simp

@[simp] theorem putExp_mem (e x) : (s.putExp e x).mem = s.mem := rfl

@[simp] theorem kilnReject_mem (id e dk counter gen) : (s.kilnReject id e dk counter gen).mem = s.mem := rfl

@[simp] theorem loseKmv_mem (id e) : (s.loseKmv id e).mem = s.mem := by simp [State.loseKmv]

/-! ### Machine/Wait -/

@[simp] theorem detach_mem (ids) : (s.detach ids).mem = s.mem := rfl

@[simp] theorem place1_mem : s.place1.mem = s.mem := rfl

@[simp] theorem exitArrives_mem (wid) : (s.exitArrives wid).mem = s.mem := foldl_mem (by simp) _ _

/-! ### Machine/Place -/

theorem placeBlock_mem {s t : State} {l k r ck : Nat} (h : s.placeBlock l k r ck = some t) : t.mem = s.mem := by
  unfold State.placeBlock at h
  dsimp only at h
  split at h
  · cases h
  · cases h
    rfl

theorem placeAll_mem {s t : State} {l k dk shape origin n : Nat} (h : State.placeAll l k dk shape origin n s = some t) :
    t.mem = s.mem := by
  induction n generalizing t with
  | zero => cases h; rfl
  | succ n ih =>
    unfold State.placeAll at h
    split at h
    · cases h
    · exact (placeBlock_mem h).trans (ih ‹_›)

theorem placeCluster_mem {s t : State} {l k dk origin home : Nat} (h : s.placeCluster l k dk origin home = some t) :
    t.mem = s.mem := by
  obtain ⟨s1, hs1, rfl⟩ := Option.map_eq_some_iff.mp h
  simp [placeAll_mem hs1]

@[simp] theorem findHomes_mem (l) : (s.findHomes l).mem = s.mem := by
  unfold State.findHomes
  simp only [modLaunch_mem, ite_mem]
  split
  · rfl
  · exact foldl_mem (fun _ _ => by split <;> simp) _ _

@[simp] theorem dealAll_mem (l) : (s.dealAll l).mem = s.mem := by simp [State.dealAll]

theorem coPlace_mem {s t : State} {l : Nat} {ks : List Nat} (h : State.coPlace l ks s = some t) : t.mem = s.mem := by
  induction ks generalizing s with
  | nil => cases h; rfl
  | cons k rest ih =>
    unfold State.coPlace at h
    dsimp only at h
    split at h
    · cases h
    · split at h
      · cases h
      · exact (ih h).trans ((modLaunch_mem ..).trans (placeCluster_mem ‹_›))

@[simp] theorem takeWires_mem (l) : (s.takeWires l).mem = s.mem :=
  (foldl_mem (fun _ _ => by exact foldl_mem (by simp) _ _) _ _).trans (foldl_mem (by simp) _ _)

/-! ### Machine/Retire -/

@[simp] theorem raiseIrq_mem (q) : (s.raiseIrq q).mem = s.mem := rfl

@[simp] theorem excuseRetired_mem (l b gone) : (s.excuseRetired l b gone).mem = s.mem := by
  unfold State.excuseRetired
  dsimp only
  split
  · rw [foldl_mem (by simp)]
    simp
  · simp

/-! ### Machine/Image -/

@[simp] theorem loadHeld_mem (img wid) : (s.loadHeld img wid).mem = s.mem :=
  foldl_mem (fun _ _ => by exact foldl_mem (by simp) _ _) _ _

theorem loadBlock_mem {s t : State} {img : List Byte} {bid : Nat} {b : Block} {k : KernelRec}
    (h : s.loadBlock img bid b k = some t) : t.mem = s.mem := by
  unfold State.loadBlock at h
  dsimp only at h
  split at h
  · cases h
  · split at h
    · cases h; rfl
    · cases h
      exact (foldl_mem (by simp) _ _).trans (foldl_mem (by simp) _ _)

theorem loadBlocks_mem {s t : State} {img : List Byte} {k : KernelRec} {bs : List (Nat × Block)}
    (h : State.loadBlocks img k bs s = some t) : t.mem = s.mem := by
  induction bs generalizing s with
  | nil => cases h; rfl
  | cons b rest ih =>
    unfold State.loadBlocks at h
    split at h
    · cases h
    · exact (ih h).trans (loadBlock_mem ‹_›)

@[simp] theorem loadCbar_mem (l k bs num x) : (s.loadCbar l k bs num x).mem = s.mem := by
  unfold State.loadCbar
  split
  · rfl
  · extract_lets s1
    have h1 : s1.mem = s.mem := foldl_mem (by simp) _ _
    split
    · exact h1
    · split <;> exact h1

@[simp] theorem loadHeader_mem (l k m img) : (s.loadHeader l k m img).mem = s.mem := foldl_mem (by simp) _ _

theorem loadImages_mem {s t : State} {l : Nat} {ks : List Nat} (h : State.loadImages l ks s = some t) : t.mem = s.mem := by
  induction ks generalizing s with
  | nil => cases h; rfl
  | cons k rest ih =>
    unfold State.loadImages at h
    dsimp only at h
    split at h
    · exact ih h
    · split at h
      · cases h
      · split at h
        · cases h
        · exact (ih h).trans ((loadHeader_mem ..).trans (loadBlocks_mem ‹_›))

/-! ### Machine/Preempt -/

@[simp] theorem captureSplit_mem (wid t) : (s.captureSplit wid t).mem = s.mem := by simp [State.captureSplit]

@[simp] theorem resumeLaunch_mem (l) : (s.resumeLaunch l).mem = s.mem := by
  unfold State.resumeLaunch
  split
  · exact (modLaunch_mem ..).trans (loadImages_mem ‹_›)
  · simp

theorem moveBlock_mem {s t : State} {bid ck : Nat} {b : Block} (h : s.moveBlock bid b ck = some t) : t.mem = s.mem := by
  unfold State.moveBlock at h
  split at h
  · cases h
  · cases h
    exact foldl_mem (by simp) _ _

theorem moveAll_mem {s t : State} {dk shape origin : Nat} {bs : List (Nat × Block)}
    (h : State.moveAll dk shape origin bs s = some t) : t.mem = s.mem := by
  induction bs generalizing s with
  | nil => cases h; rfl
  | cons b rest ih =>
    unfold State.moveAll at h
    split at h
    · cases h
    · exact (ih h).trans (moveBlock_mem ‹_›)

theorem moveClusters_mem {s t : State} {l : Nat} {ks : List Nat} (h : State.moveClusters l ks s = some t) : t.mem = s.mem := by
  induction ks generalizing s with
  | nil => cases h; rfl
  | cons k rest ih =>
    unfold State.moveClusters at h
    dsimp only at h
    split at h
    · cases h
    · split at h
      · cases h
      · exact (ih h).trans ((count_mem ..).trans (moveAll_mem ‹_›))

@[simp] theorem rewire_mem (l k) : (s.rewire l k).mem = s.mem := rfl

/-! ### Machine/Validate -/

@[simp] theorem startPacket_mem (q h) : (s.startPacket q h).1.mem = s.mem := rfl

@[simp] theorem modPacket_mem (q idx f) : (s.modPacket q idx f).mem = s.mem := rfl

/-! ### Machine/Firing -/

@[simp] theorem refuse_mem (pkg tag queue ptag) : (s.refuse pkg tag queue ptag).mem = s.mem := rfl

@[simp] theorem failMsg_mem (id e c pkg) : (s.failMsg id e c pkg).mem = s.mem := rfl

/-! ### Machine/Firmware -/

@[simp] theorem modFw_mem (n f) : (s.modFw n f).mem = s.mem := rfl

@[simp] theorem queueCmd_mem (l x) : (s.queueCmd l x).mem = s.mem := foldl_mem (by simp) _ _

@[simp] theorem popCmd_mem (ck) : (s.popCmd ck).mem = s.mem := rfl

/-! ### Machine/SplitEvents -/

@[simp] theorem fillCode_mem (ck asid pc bytes) : (s.fillCode ck asid pc bytes).mem = s.mem := rfl

@[simp] theorem fetchHome_mem (b asid gen va) : (s.fetchHome b asid gen va).1.mem = s.mem := by
  unfold State.fetchHome
  split
  · rfl
  · split <;> simp

/-! ### Machine/Driver -/

@[simp] theorem replay_mem (id) : (s.replay id).mem = s.mem := by
  unfold State.replay
  split <;> simp

/-! ### Machine/LockEvents -/

@[simp] theorem waitEntry_mem (id dk line) : (s.waitEntry id dk line).mem = s.mem := rfl

/-! ### Machine/Links -/

@[simp] theorem announcePlane_mem (pkg plane on) : (s.announcePlane pkg plane on).mem = s.mem := foldl_mem (by simp) _ _

@[simp] theorem dropPlane_mem (pkg plane) : (s.dropPlane pkg plane).mem = s.mem := by simp [State.dropPlane]

@[simp] theorem rejoinPlane_mem (pkg plane) : (s.rejoinPlane pkg plane).mem = s.mem := by simp [State.rejoinPlane]

@[simp] theorem retryFlit_mem (link x) : (s.retryFlit link x).mem = s.mem := rfl

theorem execLost_mem {s t : State} {pkg die line : Nat} (h : execLost pkg die line s = .next t) : t.mem = s.mem := by
  unfold execLost at h
  dsimp only at h
  split at h <;> cases h <;> rfl

@[simp] theorem loseInval_mem (v) : (s.loseInval v).mem = s.mem := by
  unfold State.loseInval
  split
  · rfl
  · split
    · exact execLost_mem ‹_›
    · rfl

@[simp] theorem loseWork_mem (id e) : (s.loseWork id e).mem = s.mem := by
  unfold State.loseWork
  split <;> simp

@[simp] theorem eccCopy_mem (c) : (s.eccCopy c).mem = s.mem := by
  unfold State.eccCopy
  split <;> simp

/-! ### Machine/Fleet -/

@[simp] theorem abortWhere_mem (test) : (s.abortWhere test).mem = s.mem := foldl_mem (by simp) _ _

@[simp] theorem otherBank_mem (dk) : (s.otherBank dk).mem = s.mem := rfl

@[simp] theorem maskDie_mem (dk) : (s.maskDie dk).mem = s.mem := rfl

@[simp] theorem raisePver_mem (pkg) : (s.raisePver pkg).mem = s.mem := by
  unfold State.raisePver
  split <;> simp

/-! ### Machine/Mask -/

@[simp] theorem maskOp_mem (sw md x) : (s.maskOp sw md x).mem = s.mem := by simp [State.maskOp]

/-! ### Machine/Fetch -/

@[simp] theorem fwIllegalAt_mem (n) : (s.fwIllegalAt n).mem = s.mem := rfl

/-! ### Machine/Sched -/

@[simp] theorem tickAll_mem : s.tickAll.mem = s.mem := by
  unfold State.tickAll
  dsimp only
  split
  · exact (foldl_mem (by simp) _ _).trans ((foldl_mem (by simp) _ _).trans (foldl_mem (by simp) _ _))
  · exact foldl_mem (by simp) _ _

@[simp] theorem part0_mem : s.part0.1.mem = s.mem := by simp [State.part0]

@[simp] theorem noteChan_mem (x) : (s.noteChan x).mem = s.mem := rfl

@[simp] theorem unitSteps_mem : s.unitSteps.1.mem = s.mem := foldl_mem (by simp) _ _

@[simp] theorem part1_mem : s.part1.1.mem = s.mem := by simp [State.part1]

@[simp] theorem part2_mem : s.part2.1.mem = s.mem := foldl_mem (by simp) _ _

@[simp] theorem part3_mem : s.part3.1.mem = s.mem := rfl

@[simp] theorem noteChoice_mem (ck half ws l) : (s.noteChoice ck half ws l).mem = s.mem := by
  have marks := foldl_mem (f := fun s (c : Candidate) => s.modSplit c.wid c.slot fun p => { p with yield := false }) (by simp)
  unfold State.noteChoice
  dsimp only
  split
  · exact marks _ _
  · exact (foldl_mem (by simp) _ _).trans (marks _ _)

@[simp] theorem part4_mem : s.part4.1.mem = s.mem := foldl_mem (by simp) _ _

@[simp] theorem gatherings_mem : s.gatherings.mem = s.mem :=
  foldl_mem (fun _ _ => by exact foldl_mem (by simp) _ _) _ _

@[simp] theorem part5_mem : s.part5.1.mem = s.mem := by simp [State.part5]

@[simp] theorem part7_mem : s.part7.1.mem = s.mem := rfl

@[simp] theorem part8_mem : s.part8.1.mem = s.mem := by
  unfold State.part8
  split <;> simp

@[simp] theorem part9_mem : s.part9.1.mem = s.mem := rfl

@[simp] theorem part10_mem : s.part10.1.mem = s.mem := rfl

end

section
variable {s : State} (hs : Memory.wf s.mem)
include hs

/-! ### Machine/Translate -/

@[simp] theorem homeByte_wf (pkg asid va b) : Memory.wf (s.homeByte pkg asid va b).mem := by
  unfold State.homeByte
  split
  · exact memPut_wf _ _ _ hs
  · exact hs

@[simp] theorem feWrite_wf (asid va l) : Memory.wf (s.feWrite asid va l).mem := by
  unfold State.feWrite
  dsimp only
  split <;> exact foldl_wf (fun _ _ h => by simp [h]) _ hs

/-! ### Machine/Ops -/

@[simp] theorem writeExc_wf (q r) : Memory.wf (s.writeExc q r).mem := by simp [State.writeExc, hs]

@[simp] theorem postExc_wf (q r) : Memory.wf (s.postExc q r).mem := by simp [State.postExc, hs]

@[simp] theorem raiseAt_wf (wid slot kind code info) : Memory.wf (s.raiseAt wid slot kind code info).mem := by
  unfold State.raiseAt
  split <;> simp [hs]

@[simp] theorem raise_wf (words code info) : Memory.wf (s.raise words code info).mem := by simp [State.raise, hs]

/-! ### Machine/Operands -/

/-- A vector instruction keeps the form: it faults, or its effect and its advance leave memory alone. -/
theorem runVec_ok {sw seed regs rawok chk lat} {eff : State → State} (he : ∀ s, (eff s).mem = s.mem) :
    OutOk (s.runVec sw seed regs rawok chk lat eff) := by
  unfold State.runVec
  split <;> simp [hs, he]

/-! ### Machine/Splits -/

@[simp] theorem transfer_wf (sw lat jofs parts) : Memory.wf (s.transfer sw lat jofs parts).mem := by
  unfold State.transfer
  split <;> simp [hs]

/-! ### Machine/Path -/

@[simp] theorem writeHome_wf (asid blk leaf home d) : Memory.wf (s.writeHome asid blk leaf home d).mem := by
  unfold State.writeHome
  exact foldl_memPut_wf (fun o => frameKey home (s.homeLeaf home asid blk leaf) (512 * blk + o)) _ _ hs

@[simp] theorem putDirty_wf (fuel place asid blk leaf home l) :
    Memory.wf (s.putDirty fuel place asid blk leaf home l).mem := by
  induction fuel generalizing s place asid blk leaf home l with
  | zero => simp [State.putDirty, hs]
  | succ n ih =>
    cases place with
    | none => simp [State.putDirty, hs]
    | some pl =>
      unfold State.putDirty
      dsimp only
      split <;> simp [hs, ih]

@[simp] theorem evict_wf (k) : Memory.wf (s.evict k).mem := by
  unfold State.evict
  split <;> simp [hs]

@[simp] theorem makeRoom_wf (place asid blk leaf) : Memory.wf (s.makeRoom place asid blk leaf).mem := by
  unfold State.makeRoom
  split
  · simp [hs]
  · split <;> simp [hs]

@[simp] theorem fillSector_wf (place asid va leaf bytes tag poison hint) :
    Memory.wf (s.fillSector place asid va leaf bytes tag poison hint).mem := by
  simp [State.fillSector, hs]

@[simp] theorem fillPath_wf (r leaf bytes tag poison src) : Memory.wf (s.fillPath r leaf bytes tag poison src).mem := by
  unfold State.fillPath
  simp only [ite_mem, noteReader_mem, ite_self]
  exact List.foldlRecOn (motive := fun q : State × List Byte => Memory.wf q.1.mem) _ _ hs fun q hq pl _ => by simp [hq]

/-! ### Machine/MemGlobal -/

/-- A memory instruction keeps the form at issue: it faults, or what it enters and its advance leave memory alone. -/
theorem runMem_ok {f regs chk flt} {eff : State → State} (he : ∀ s, (eff s).mem = s.mem) :
    OutOk (s.runMem f regs chk flt eff) := by
  unfold State.runMem
  split
  · simp [hs]
  · split <;> simp [hs, he]

@[simp] theorem loadScalar_ok (f sext) : OutOk (s.loadScalar f sext) := by
  unfold State.loadScalar
  exact runMem_ok hs (by simp)

@[simp] theorem prefetch_ok (f l2) : OutOk (s.prefetch f l2) := by
  unfold State.prefetch
  exact runMem_ok hs (by simp)

@[simp] theorem maintain_ok (f kind) : OutOk (s.maintain f kind) := by
  unfold State.maintain
  refine runMem_ok hs fun t => foldl_mem (fun u p => ?_) _ _
  dsimp only
  split <;> simp

/-! ### Machine/Locks -/

@[simp] theorem lockFault_wf (id r code info) : Memory.wf (s.lockFault id r code info).mem := by
  unfold State.lockFault
  split <;> simp [hs]

@[simp] theorem lockAnswer_wf (g leaf) : Memory.wf (s.lockAnswer g leaf).mem := by
  unfold State.lockAnswer
  split
  · exact hs
  · split
    · exact hs
    · extract_lets got s1 s2 va place s3 gone
      clear_value got
      have h2 : Memory.wf s2.mem := by simp [s2, s1, hs]
      have h3 : Memory.wf s3.mem := by
        dsimp only [s3]
        split
        · rw [noteReader_mem]
          exact foldl_wf (fun _ _ h => by simp [h]) _ h2
        · exact h2
      split <;> simp [h3]

/-! ### Machine/VecInt -/

@[simp] theorem vec2_ok (f lat g) : OutOk (s.vec2 f lat g) := by
  unfold State.vec2
  exact runVec_ok hs (by simp)

@[simp] theorem vec1_ok (f lat td g) : OutOk (s.vec1 f lat td g) := by
  unfold State.vec1
  exact runVec_ok hs (by simp)

@[simp] theorem vecB_ok (f lat g) : OutOk (s.vecB f lat g) := by
  unfold State.vecB
  exact runVec_ok hs (by simp)

@[simp] theorem carryOp_ok (f h) : OutOk (s.carryOp f h) := by
  unfold State.carryOp
  exact runVec_ok hs (by simp)

@[simp] theorem shiftOp_ok (f g) : OutOk (s.shiftOp f g) := by
  unfold State.shiftOp
  dsimp only
  split
  · exact runVec_ok hs (by simp)
  · exact vec2_ok hs _ _ _

/-! ### Machine/VecFloat -/

@[simp] theorem float2_ok (f g) : OutOk (s.float2 f g) := by
  unfold State.float2
  exact runVec_ok hs (by simp)

@[simp] theorem floatB_ok (f g lat) : OutOk (s.floatB f g lat) := by simp [State.floatB, hs]

@[simp] theorem fpick_ok (f g) : OutOk (s.fpick f g) := by simp [State.fpick, hs]

@[simp] theorem dotOp_ok (f tyb) : OutOk (s.dotOp f tyb) := by
  unfold State.dotOp
  exact runVec_ok hs (by simp)

@[simp] theorem unaryOp_ok {f g} : OutOk (s.unaryOp f g) := runVec_ok hs (by simp)

@[simp] theorem packOp_ok (f per) : OutOk (s.packOp f per) := by
  unfold State.packOp
  exact runVec_ok hs (by simp)

/-! ### Machine/FaultQueue -/

@[simp] theorem fqWrite_wf (r) : Memory.wf (s.fqWrite r).mem := by simp [State.fqWrite, hs]

@[simp] theorem fqPost_wf (w0 w1 w2 w3) : Memory.wf (s.fqPost w0 w1 w2 w3).mem := by simp [State.fqPost, hs]

@[simp] theorem fqFlush_wf (n) : Memory.wf (s.fqFlush n).mem := by
  induction n generalizing s with
  | zero => exact hs
  | succ n ih =>
    unfold State.fqFlush
    split
    · exact hs
    · split <;> simp [hs, ih]

@[simp] theorem post_wf (t) : Memory.wf (Ticket.post t s).mem := by simp [Ticket.post, hs]

theorem ask_wf {pkg die asid gen page kind queue reqs t} (h : s.ask pkg die asid gen page kind queue reqs = some t) :
    Memory.wf t.mem := by
  unfold State.ask at h
  split at h
  · cases h
    exact hs
  · split at h
    · cases h
    · split at h
      · cases h
      · cases h
        simp [hs]

@[simp] theorem ask_getD_wf (pkg die asid gen page kind queue reqs) :
    Memory.wf ((s.ask pkg die asid gen page kind queue reqs).getD s).mem := by
  cases h : s.ask pkg die asid gen page kind queue reqs with
  | none => exact hs
  | some t => exact ask_wf hs h

/-! ### Machine/LocalStore -/

@[simp] theorem execFeGranuleAccess_ok (a) : OutOk (execFeGranuleAccess a s) := by
  unfold execFeGranuleAccess
  split <;> simp [hs]

/-! ### Machine/Sync -/

@[simp] theorem syncCheck_wf (wid arriver) : Memory.wf (s.syncCheck wid arriver).mem := by
  unfold State.syncCheck
  split
  · exact hs
  · dsimp only
    split
    · exact hs
    · split
      · split
        · exact foldl_wf (fun _ _ h => by simp [h]) _ hs
        · simp [hs]
      · simp [hs]

@[simp] theorem enterAfter_wf (wid slot) : Memory.wf (s.enterAfter wid slot).mem := by
  unfold State.enterAfter
  split
  · exact hs
  · generalize Split.after _ = a
    cases a with
    | lock r =>
      dsimp only
      split <;> simp [hs]
    | fe =>
      dsimp only
      split
      · simp [hs]
      · refine foldl_wf (fun _ _ h => by exact h) _ ?_
        simp [hs]
    | _ => simp [hs]

@[simp] theorem postGroup_wf (wid slot) : Memory.wf (s.postGroup wid slot).mem := by
  unfold State.postGroup
  split
  · exact hs
  · dsimp only
    split
    · exact hs
    · split
      · exact hs
      · split
        · exact foldl_wf (fun _ _ h => by simp [h]) _ (by simp [hs])
        · exact postExc_wf (foldl_wf (fun _ _ h => by simp [h]) _ (by simp [hs])) ..

@[simp] theorem faultDivide_wf (wid slot p) : Memory.wf (s.faultDivide wid slot p).mem := by
  unfold State.faultDivide
  dsimp only
  split
  · simp [hs]
  · split
    · simp [hs]
    · split <;> simp [hs]

@[simp] theorem settle_wf (wid slot) : Memory.wf (s.settle wid slot).mem := by
  unfold State.settle
  split
  · extract_lets held
    split
    · exact hs
    · split
      · split
        · split <;> simp [hs]
        · simp [hs]
      · split
        · split
          · simp [hs]
          · split <;> simp [hs]
        · split <;> simp [hs]
  · exact hs

@[simp] theorem settleFaulted_wf (wid) : Memory.wf (s.settleFaulted wid).mem := foldl_wf (fun _ _ h => by simp [h]) _ hs

@[simp] theorem beginWait_wf (a lat) : Memory.wf (s.beginWait a lat).mem := by simp [State.beginWait, hs]

/-! ### Machine/MemEvents -/

@[simp] theorem applyWrite_wf (id r leaf l) : Memory.wf (s.applyWrite id r leaf l).mem := by
  simp [State.applyWrite, memWrite_wf, hs]

@[simp] theorem moveDirty_wf (src dst asid va grain leaf home) : Memory.wf (s.moveDirty src dst asid va grain leaf home).mem := by
  unfold State.moveDirty
  dsimp only
  split <;> simp [hs]

@[simp] theorem maintainLine_wf (r leaf hpkg hdie) : Memory.wf (s.maintainLine r leaf hpkg hdie).mem := by
  unfold State.maintainLine
  extract_lets va path level above s1
  have h1 : Memory.wf s1.mem := foldl_wf (fun _ _ h => by simp [h]) _ hs
  split <;> exact h1

@[simp] theorem storeUntracked_wf (id r leaf hpkg hdie) : Memory.wf (s.storeUntracked id r leaf hpkg hdie).mem := by
  unfold State.storeUntracked
  extract_lets va home r1 path place l s1 s2 s3
  split
  · simp [hs]
  · have h1 : Memory.wf s1.mem := by
      clear_value place
      cases place <;> simp [s1, hs]
    have h3 : Memory.wf s3.mem := by
      dsimp only [s3, s2]
      split
      · exact h1
      · split <;> exact h1
    split
    · simp [h3]
    · exact h3

@[simp] theorem execStoreApply_ok (id) : OutOk (execStoreApply id s) := by
  unfold execStoreApply
  dsimp only
  split
  · exact hs
  · split
    · exact hs
    · split
      · split
        · simp [hs]
        · split
          · simp [hs]
          · split <;> simp [hs]
      · split
        · exact hs
        · simp [hs]
        · split
          · exact hs
          · split <;> simp [hs]

@[simp] theorem execAtomicApply_ok (id) : OutOk (execAtomicApply id s) := by
  unfold execAtomicApply
  split
  · exact hs
  · split
    · exact hs
    · split <;> simp [hs]

@[simp] theorem serveCopy_wf (id r c back fill) : Memory.wf (s.serveCopy id r c back fill).mem := by simp [State.serveCopy, hs]

@[simp] theorem servePrf_wf (id r leaf) : Memory.wf (s.servePrf id r leaf).mem := foldl_wf (fun _ _ h => by simp [h]) _ hs

@[simp] theorem serveHome_wf (id r leaf) : Memory.wf (s.serveHome id r leaf).mem := by simp [State.serveHome, hs]

@[simp] theorem execHomeServeLoad_ok (id) : OutOk (execHomeServeLoad id s) := by
  unfold execHomeServeLoad
  split
  · exact hs
  · split
    · split <;> simp [hs]
    · split
      · split <;> simp [hs]
      · split
        · simp [hs]
        · simp [hs]
        · simp [hs]
        · split
          · simp [hs]
          · split
            · simp [hs]
            · split <;> simp [hs]
        · simp [hs]

@[simp] theorem execLoadReply_ok (id) : OutOk (execLoadReply id s) := by
  unfold execLoadReply
  split <;> simp [hs]

@[simp] theorem loseReq_wf (id r) : Memory.wf (s.loseReq id r).mem := by
  unfold State.loseReq
  split <;> simp [hs]

@[simp] theorem execStageAck_ok (id) : OutOk (execStageAck id s) := by
  unfold execStageAck
  split <;> simp [hs]

@[simp] theorem execInvalidation_ok (v) : OutOk (execInvalidation v s) := by
  unfold execInvalidation
  split <;> simp [hs]

@[simp] theorem execProbeAbsent_ok (v) : OutOk (execProbeAbsent v s) := by
  unfold execProbeAbsent
  split <;> simp [hs]

@[simp] theorem execEvictionWriteback_ok (c) : OutOk (execEvictionWriteback c s) := by simp [execEvictionWriteback, hs]

@[simp] theorem execStale_ok (id) : OutOk (execStale id s) := by
  unfold execStale
  split <;> simp [hs]

@[simp] theorem execMishome_ok (id) : OutOk (execMishome id s) := by
  unfold execMishome
  split <;> simp [hs]

@[simp] theorem execPlcMiss_ok (id) : OutOk (execPlcMiss id s) := by
  unfold execPlcMiss
  dsimp only
  split
  · exact hs
  · split
    · exact hs
    · split <;> exact hs

@[simp] theorem noteFrame_wf (dk asid va leaf) : Memory.wf (s.noteFrame dk asid va leaf).mem := by
  unfold State.noteFrame
  dsimp only
  split <;> simp [hs]

@[simp] theorem ctlMiss_wf (dk asid gen va) : Memory.wf (s.ctlMiss dk asid gen va).1.mem := by
  unfold State.ctlMiss
  split <;> simp [hs]

@[simp] theorem execTlbMissWalk_ok (id) : OutOk (execTlbMissWalk id s) := by
  unfold execTlbMissWalk
  split <;> simp [hs]

@[simp] theorem execXlate_ok (id) : OutOk (execXlate id s) := by
  unfold execXlate
  split
  · exact hs
  · split
    · exact hs
    · split
      · exact hs
      · split
        · exact hs
        · simp [ask_wf hs ‹_›]

@[simp] theorem execLost_ok (pkg die line) : OutOk (execLost pkg die line s) := by simp [execLost, hs]

@[simp] theorem execCohlost_ok (pkg die line) : OutOk (execCohlost pkg die line s) := by simp [execCohlost, hs]

@[simp] theorem execCohfix_ok (pkg die line) : OutOk (execCohfix pkg die line s) := by simp [execCohfix, hs]

@[simp] theorem execFenceComplete_ok (wid slot) : OutOk (execFenceComplete wid slot s) := by
  unfold execFenceComplete
  split
  · exact hs
  · dsimp only
    split
    · exact hs
    · split
      · split <;> simp [hs]
      · split
        · exact hs
        · rw [outOk_next, modWarp_mem, foldl_mem (fun _ _ => by split <;> simp)]
          exact hs

@[simp] theorem execUnlockDepart_ok (id) : OutOk (execUnlockDepart id s) := by
  unfold execUnlockDepart
  split <;> simp [hs]

@[simp] theorem execCsigApply_ok (p) : OutOk (execCsigApply p s) := by
  unfold execCsigApply
  split <;> simp [hs]

/-! ### Machine/Answers -/

@[simp] theorem answerSplit_wf (wid slot seq skip) : Memory.wf (s.answerSplit wid slot seq skip).mem := by
  unfold State.answerSplit
  split
  · exact hs
  · split <;> simp [hs]

@[simp] theorem answer_wf (q seq skip) : Memory.wf (s.answer q seq skip).mem := by
  unfold State.answer
  split
  · exact hs
  · split
    · exact hs
    · split
      · exact hs
      · split <;> simp [hs]

@[simp] theorem keptAnswers_wf (l wid) : Memory.wf (s.keptAnswers l wid).mem :=
  foldl_wf (fun _ _ h => by split <;> simp [h]) _ (by simp [hs])

@[simp] theorem execExansResume_ok (q seq) : OutOk (execExansResume q seq s) := by simp [execExansResume, hs]

@[simp] theorem execExansSkip_ok (q seq) : OutOk (execExansSkip q seq s) := by simp [execExansSkip, hs]

@[simp] theorem execExansAbort_ok (q seq) : OutOk (execExansAbort q seq s) := by
  unfold execExansAbort
  split <;> simp [hs]

/-! ### Machine/CrossLane -/

@[simp] theorem moveLanes_ok {f regs chk g} : OutOk (s.moveLanes f regs chk g) := runVec_ok hs (by simp)

@[simp] theorem shuffle_ok (f src) : OutOk (s.shuffle f src) := by
  unfold State.shuffle
  exact moveLanes_ok hs

/-! ### Machine/Engines -/

@[simp] theorem enterWork_ok (f e) : OutOk (s.enterWork f e) := by simp [State.enterWork, hs]

@[simp] theorem command_ok (kind f td1 td2 td3 l) : OutOk (s.command kind f td1 td2 td3 l) := by
  unfold State.command
  split <;> simp [hs]

@[simp] theorem cpyOp_ok (kind f) : OutOk (s.cpyOp kind f) := by simp [State.cpyOp, hs]

@[simp] theorem cpygOp_ok (kind f) : OutOk (s.cpygOp kind f) := by simp [State.cpygOp, hs]

@[simp] theorem taskOp_ok (kind f) : OutOk (s.taskOp kind f) := by simp [State.taskOp, hs]

@[simp] theorem engMiss_wf (id e pkg die va kind) : Memory.wf (s.engMiss id e pkg die va kind).mem := ask_getD_wf hs ..

@[simp] theorem postEngerr_wf (e info) : Memory.wf (s.postEngerr e info).mem := by simp [State.postEngerr, hs]

@[simp] theorem execEngineJoin_ok (id) : OutOk (execEngineJoin id s) := by
  unfold execEngineJoin
  split <;> simp [hs]

/-! ### Machine/EngineEvents -/

@[simp] theorem sendKmv_wf (id e) : Memory.wf (s.sendKmv id e).mem := by
  unfold State.sendKmv
  dsimp only
  split
  · split <;> exact hs
  · split
    · split <;> exact hs
    · simp [hs]

@[simp] theorem forkKmv_wf (id e) : Memory.wf (s.forkKmv id e).mem := by simp [State.forkKmv, hs]

@[simp] theorem execEngineFork_ok (id) : OutOk (execEngineFork id s) := by
  unfold execEngineFork
  split
  · exact hs
  · split <;> simp [hs]

@[simp] theorem execHodLineBegin_ok (id) : OutOk (execHodLineBegin id s) := by
  unfold execHodLineBegin
  split <;> simp [hs]

@[simp] theorem execHodLineComplete_ok (id) : OutOk (execHodLineComplete id s) := by
  unfold execHodLineComplete
  split
  · exact hs
  · split <;> simp [hs]

@[simp] theorem execTaskStart_ok (id) : OutOk (execTaskStart id s) := by
  unfold execTaskStart
  split
  · exact hs
  · dsimp only
    split <;> simp [hs]

@[simp] theorem execTaskKblockCommit_ok (id) : OutOk (execTaskKblockCommit id s) := by
  unfold execTaskKblockCommit
  dsimp only
  split
  · exact hs
  · split
    · exact hs
    · split
      · exact hs
      · exact hs
      · split <;> simp [hs]

@[simp] theorem execTaskEnd_ok (id) : OutOk (execTaskEnd id s) := by
  unfold execTaskEnd
  dsimp only
  split
  · exact hs
  · split
    · exact hs
    · split
      · split
        · exact hs
        · split
          · exact hs
          · split
            · split <;> simp [hs]
            · simp [hs]
      · split
        · exact hs
        · split <;> simp [hs]

@[simp] theorem kilnFill_wf (e dk) : Memory.wf (s.kilnFill e dk).mem := foldl_wf (fun _ _ h => by simp [h]) _ hs

@[simp] theorem kilnResend_wf (id e) : Memory.wf (s.kilnResend id e).mem := by simp [State.kilnResend, hs]

@[simp] theorem execKilnRequestArrival_ok (id) : OutOk (execKilnRequestArrival id s) := by
  unfold execKilnRequestArrival
  split <;> simp [hs]

@[simp] theorem execKilnComplete_ok (id) : OutOk (execKilnComplete id s) := by
  unfold execKilnComplete
  dsimp only
  split
  · exact hs
  · split
    · exact hs
    · split
      · exact hs
      · split
        · simp [hs]
        · split
          · simp [hs]
          · split
            · simp [hs]
            · split <;> simp [hs]

@[simp] theorem execMcstReplicate_ok (id) : OutOk (execMcstReplicate id s) := by
  unfold execMcstReplicate
  split <;> simp [hs]

@[simp] theorem execMcstMemberWrite_ok (id p) : OutOk (execMcstMemberWrite id p s) := by
  unfold execMcstMemberWrite
  split
  · exact hs
  · dsimp only
    split
    · exact hs
    · split
      · exact hs
      · split
        · exact hs
        · rw [outOk_next, dropCopies_mem, ite_mem, wf_ite]
          split <;> simp [memWrite_wf, hs]

@[simp] theorem execMcstAck_ok (id) : OutOk (execMcstAck id s) := by
  unfold execMcstAck
  split <;> simp [hs]

/-! ### Machine/Wait -/

theorem runLocal_wf {f la store sx} {dests : State → State × List Nat} (hd : ∀ s, (dests s).1.mem = s.mem) :
    Memory.wf (s.runLocal f la store dests sx).mem := by
  unfold State.runLocal
  simp [hs, hd]

@[simp] theorem execLdl_ok (ty f) : OutOk (execLdl ty f s) := by
  unfold execLdl
  dsimp only
  split
  · simp [hs]
  · split
    · simp [hs]
    · exact runLocal_wf hs (by simp)

@[simp] theorem execStl_ok (ty f) : OutOk (execStl ty f s) := by
  unfold execStl
  dsimp only
  split
  · simp [hs]
  · split
    · simp [hs]
    · exact runLocal_wf hs (by simp)

@[simp] theorem lockOp_ok (f kind) : OutOk (s.lockOp f kind) := by
  unfold State.lockOp
  dsimp only
  split <;> simp [hs]

@[simp] theorem joinOp_ok (f bound) : OutOk (s.joinOp f bound) := by simp [State.joinOp, hs]

@[simp] theorem afterExit_wf (wid p) : Memory.wf (s.afterExit wid p).mem := by simp [State.afterExit, hs]

/-! ### Machine/System -/

@[simp] theorem postEvent_wf (q kind status tag launch node body) :
    Memory.wf (s.postEvent q kind status tag launch node body).mem := by
  simp [State.postEvent, hs]

@[simp] theorem appendEvnt_wf (wid n value) : Memory.wf (s.appendEvnt wid n value).mem := by simp [State.appendEvnt, hs]

@[simp] theorem execEvntAppend_ok (p) : OutOk (execEvntAppend p s) := by
  unfold execEvntAppend
  split <;> simp [hs]

@[simp] theorem execCkpt_ok (i) : OutOk (execCkpt i s) := by
  unfold execCkpt
  dsimp only
  split
  · simp [hs]
  · split <;> simp [hs]

/-! ### Machine/Place -/

@[simp] theorem execClusterHanddown_ok (l node) : OutOk (execClusterHanddown l node s) := by
  unfold execClusterHanddown
  split
  · exact hs
  · split <;> simp [hs]

@[simp] theorem execClusterSteal_ok (l node) : OutOk (execClusterSteal l node s) := by
  unfold execClusterSteal
  dsimp only
  split
  · exact hs
  · split
    · exact hs
    · split <;> simp [hs]

@[simp] theorem execClusterPlace_ok (pkg die) : OutOk (execClusterPlace pkg die s) := by
  unfold execClusterPlace
  dsimp only
  split
  · exact hs
  · split
    · split
      · exact hs
      · simp [placeCluster_mem ‹_›, hs]
    · exact hs

@[simp] theorem execCoresidentPlace_ok (l) : OutOk (execCoresidentPlace l s) := by
  unfold execCoresidentPlace
  split
  · exact hs
  · split
    · exact hs
    · split
      · exact hs
      · simp [coPlace_mem ‹_›, hs]

@[simp] theorem execBlockStart_ok (l k) : OutOk (execBlockStart l k s) := by
  rw [execBlockStart, outOk_next, foldl_mem (fun _ _ => by exact foldl_mem (by simp) _ _)]
  exact hs

/-! ### Machine/Retire -/

@[simp] theorem completePacket_wf (q idx status launch) : Memory.wf (s.completePacket q idx status launch).mem := by
  unfold State.completePacket
  split <;> simp [hs]

@[simp] theorem drainEvent_wf (x kind status l node r) : Memory.wf (s.drainEvent x kind status l node r).mem := by
  simp [State.drainEvent, hs]

@[simp] theorem resumeCheck_wf : Memory.wf s.resumeCheck.mem :=
  foldl_wf (fun _ _ h => by exact foldl_wf (fun _ _ h => by simp [h]) _ h) _ hs

@[simp] theorem haltMissed_wf (l queue) : Memory.wf (s.haltMissed l queue).mem :=
  foldl_wf (fun _ _ h => by exact foldl_wf (fun _ _ h => by simp [h]) _ h) _ hs

@[simp] theorem completeLaunch_wf (l status) : Memory.wf (s.completeLaunch l status).mem := by
  unfold State.completeLaunch
  split
  · exact hs
  · extract_lets r s1 s2 s3 s4
    have h1 : Memory.wf s1.mem := by simp [s1, hs]
    have h2 : Memory.wf s2.mem := by dsimp only [s2]; split <;> simp [h1]
    have h3 : Memory.wf s3.mem := by dsimp only [s3]; split <;> exact h2
    exact resumeCheck_wf (haltMissed_wf (by simp [s4, h3]) ..)

@[simp] theorem cleanCopy_wf (k) : Memory.wf (s.cleanCopy k).mem := by
  unfold State.cleanCopy
  split
  · exact hs
  · exact foldl_wf (fun _ _ h => by dsimp only; split <;> simp [h]) _ hs

@[simp] theorem flushL1_wf (place asid toHome drop) : Memory.wf (s.flushL1 place asid toHome drop).mem := by
  unfold State.flushL1
  extract_lets mine s1
  have h1 : Memory.wf s1.mem := foldl_wf (fun _ _ h => by split <;> simp [h]) _ hs
  split <;> exact h1

@[simp] theorem execBlockRetire_ok (bid) : OutOk (execBlockRetire bid s) := by
  unfold execBlockRetire
  split
  · exact hs
  · split
    · exact hs
    · rw [outOk_next, modLaunch_mem, modLaunch_mem, excuseRetired_mem]
      exact foldl_wf (fun _ _ h => by simp [h]) _ hs

@[simp] theorem execNodeDrain_ok (l node) : OutOk (execNodeDrain l node s) := by
  unfold execNodeDrain
  split <;> simp [hs]

@[simp] theorem execMortarRootClose_ok (l k n pkg) : OutOk (execMortarRootClose l k n pkg s) := by
  unfold execMortarRootClose
  dsimp only
  split
  · exact hs
  · split
    · split <;> simp [hs]
    · split <;> simp [hs]

@[simp] theorem execMortarPackageCompletion_ok (l n pkg) : OutOk (execMortarPackageCompletion l n pkg s) := by
  unfold execMortarPackageCompletion
  split <;> simp [hs]

@[simp] theorem execMortarDieRelease_ok (l k n pkg die) : OutOk (execMortarDieRelease l k n pkg die s) := by
  unfold execMortarDieRelease
  dsimp only
  split
  · exact hs
  · split
    · exact hs
    · rw [outOk_next, foldl_mem (by simp)]
      exact hs

/-! ### Machine/Image -/

@[simp] theorem areaWrite_wf (asid n va l) : Memory.wf (State.areaWrite asid n va l s).mem := by
  induction n generalizing s va l with
  | zero => exact hs
  | succ n ih =>
    unfold State.areaWrite
    split
    · exact hs
    · refine ih ?_ ..
      split
      · exact memRun_wf _ _ _ hs
      · exact hs

@[simp] theorem writeDirectory_wf (l) : Memory.wf (s.writeDirectory l).mem := by simp [State.writeDirectory, hs]

@[simp] theorem writeImage_wf (l k) : Memory.wf (State.writeImage l s k).mem := by
  unfold State.writeImage
  dsimp only
  split <;> simp [hs]

@[simp] theorem writeImages_wf (l ks) : Memory.wf (s.writeImages l ks).mem :=
  writeDirectory_wf (foldl_wf (fun _ _ h => by simp [h]) _ hs) l

@[simp] theorem freeSlots_wf (l ks) : Memory.wf (s.freeSlots l ks).mem := by simp [State.freeSlots, hs]

/-! ### Machine/Preempt -/

@[simp] theorem execHaltRequestArrival_ok (l pkg die core) : OutOk (execHaltRequestArrival l pkg die core s) := by
  unfold execHaltRequestArrival
  dsimp only
  split
  · rw [outOk_next, foldl_mem (by simp)]
    exact hs
  · exact hs

@[simp] theorem execCheckpointBudgetExpiry_ok (w) : OutOk (execCheckpointBudgetExpiry w s) := by
  unfold execCheckpointBudgetExpiry
  split <;> simp [hs]

@[simp] theorem execWarpCapture_ok (w) : OutOk (execWarpCapture w s) := by
  unfold execWarpCapture
  split
  · exact hs
  · dsimp only
    split
    · exact hs
    · rw [outOk_next, modWarp_mem, foldl_mem (by simp)]
      exact hs

@[simp] theorem execHaltComplete_ok (p) : OutOk (execHaltComplete p s) := by
  unfold execHaltComplete
  split <;> simp [hs]

@[simp] theorem saveLaunch_wf (l) : Memory.wf (s.saveLaunch l).mem := by
  unfold State.saveLaunch
  extract_lets x ks mine s1 s2
  have h1 : Memory.wf s1.mem := by
    dsimp only [s1]
    split
    · exact hs
    · exact foldl_wf (fun _ _ h => by exact foldl_wf (fun _ _ h => by simp [h]) _ h) _ hs
  exact writeImages_wf (by simp [s2, h1]) _ _

@[simp] theorem execSaveComplete_ok (p) : OutOk (execSaveComplete p s) := by
  unfold execSaveComplete
  split
  · exact hs
  · split
    · exact hs
    · refine resumeCheck_wf (foldl_wf (fun _ _ h => by split <;> simp [h]) _ ?_)
      refine completePacket_wf (postEvent_wf ?_ ..) ..
      exact foldl_wf (fun _ _ h => by simp [h]) _ hs

@[simp] theorem wakeRestored_wf (bid) : Memory.wf (s.wakeRestored bid).mem := by
  unfold State.wakeRestored
  extract_lets ws s1 gs s2 s3
  have h1 : Memory.wf s1.mem := foldl_wf (fun _ _ h => by exact foldl_wf (fun _ _ h => by split <;> simp [h]) _ h) _ hs
  have h3 : Memory.wf s3.mem := foldl_wf (fun _ _ h => by simp [h]) _ (foldl_wf (fun _ _ h => by simp [h]) _ h1)
  exact foldl_wf (fun _ _ h => by simp [h]) _ h3

@[simp] theorem execClusterRestore_ok (l k) : OutOk (execClusterRestore l k s) := by
  unfold execClusterRestore
  split
  · exact hs
  · dsimp only
    split
    · exact hs
    · split
      · exact hs
      · refine resumeCheck_wf (freeSlots_wf ?_ ..)
        rw [ite_mem, takeWires_mem, ite_self, foldl_mem (by simp)]
        refine foldl_wf (fun _ _ h => wakeRestored_wf ?_ _) _ ?_
        · rw [foldl_mem (by simp)]
          exact h
        · simp [moveClusters_mem ‹_›, hs]

/-! ### Machine/Validate -/

@[simp] theorem askFront_wf (q asid page kind) : Memory.wf (s.askFront q asid page kind).mem := ask_getD_wf hs ..

@[simp] theorem refusePacket_wf (q cause value) : Memory.wf (s.refusePacket q cause value).mem :=
  fqPost_wf (by simp [hs]) ..

@[simp] theorem examine_wf (q) : Memory.wf (s.examine q).mem := by
  unfold State.examine
  extract_lets +onlyGivenNames x l
  split
  · exact hs
  · split
    · exact askFront_wf hs ..
    · exact refusePacket_wf hs ..
    · exact hs

@[simp] theorem packetDone_wf (q idx) : Memory.wf (s.packetDone q idx).mem := by simp [State.packetDone, hs]

theorem onHead_ok {q opc} {f : State → Head → Packet → State} (hf : ∀ s h p, Memory.wf s.mem → Memory.wf (f s h p).mem) :
    OutOk (s.onHead q opc f) := by
  unfold State.onHead
  dsimp only
  split
  · simp [hs]
  · exact hf _ _ _ (by simp [hs])

/-! ### Machine/Queues -/

@[simp] theorem startLaunch_wf (queue asid tag d packet firing) :
    Memory.wf (s.startLaunch queue asid tag d packet firing).mem := by
  simp [State.startLaunch, hs]

theorem heldLaunch_wf {q t} (h : s.heldLaunch q = some t) : Memory.wf t.mem := by
  unfold State.heldLaunch at h
  split at h
  · cases h
  · cases h
    simp [hs]

@[simp] theorem execLaunch_ok (q) : OutOk (execLaunch q s) := by
  unfold execLaunch
  dsimp only
  split
  · rename_i ht
    split at ht
    · exact heldLaunch_wf (examine_wf hs q) ht
    · cases ht
  · exact onHead_ok hs fun _ _ _ h => by split <;> simp [h]

@[simp] theorem execPacketNop_ok (q) : OutOk (execPacketNop q s) := onHead_ok hs fun _ _ _ h => by simp [h]

@[simp] theorem recheckArm_wf (q) : Memory.wf (s.recheckArm q).mem := by
  unfold State.recheckArm
  split
  · exact hs
  · split <;> simp [hs]

@[simp] theorem execArm_ok (q) : OutOk (execArm q s) :=
  onHead_ok (by simp [hs]) fun _ _ _ h => by split <;> simp [h]

@[simp] theorem execDisarm_ok (q) : OutOk (execDisarm q s) := onHead_ok hs fun _ _ _ h => h

@[simp] theorem execDisarmComplete_ok (q) : OutOk (execDisarmComplete q s) := by
  unfold execDisarmComplete
  split
  · exact hs
  · split <;> simp [hs]

@[simp] theorem execWaitmem_ok (q) : OutOk (execWaitmem q s) := onHead_ok hs fun _ _ _ h => h

@[simp] theorem execWaitmemSatisfied_ok (q) : OutOk (execWaitmemSatisfied q s) := by
  unfold execWaitmemSatisfied
  split
  · exact hs
  · dsimp only
    split <;> simp [hs]

@[simp] theorem execSignalmem_ok (q) : OutOk (execSignalmem q s) := by
  unfold execSignalmem
  have hh : OutOk (s.onHead q pkSignalmem fun s _ _ => s) := onHead_ok hs fun _ _ _ h => h
  split
  · rename_i hn
    rw [hn, outOk_next] at hh
    split
    · exact hh
    · dsimp only
      split <;> simp [hh]
  · exact hh

@[simp] theorem execPreempt_ok (q) : OutOk (execPreempt q s) := onHead_ok hs fun _ _ _ h => by
  dsimp only
  split
  · simp [h]
  · exact foldl_wf (fun _ _ h => by simp [h]) _ h

@[simp] theorem execResume_ok (q) : OutOk (execResume q s) := onHead_ok hs fun _ _ _ h => by
  refine resumeCheck_wf ?_
  rw [modPacket_mem]
  exact foldl_wf (fun _ _ h => by simp [h]) _ h

@[simp] theorem execAbort_ok (q) : OutOk (execAbort q s) := onHead_ok hs fun _ _ _ h => by simp [h]

theorem qctl_ok {q op} {f : State → Head → Packet → State} (hf : ∀ s h p, Memory.wf s.mem → Memory.wf (f s h p).mem) :
    OutOk (s.qctl q op f) := by
  unfold State.qctl
  dsimp only
  split
  · simp [hs]
  · split
    · simp [hs]
    · exact packetDone_wf (hf _ _ _ (by simp [hs])) _ _

@[simp] theorem execQctlCreate_ok (q) : OutOk (execQctlCreate q s) := qctl_ok hs fun _ _ _ h => by split <;> exact h

@[simp] theorem execQctlStop_ok (q) : OutOk (execQctlStop q s) := qctl_ok hs fun _ _ _ h => by simp [h]

@[simp] theorem execQctlRestart_ok (q) : OutOk (execQctlRestart q s) := qctl_ok hs fun _ _ _ h => by simp [h]

@[simp] theorem execQctlDestroy_ok (q) : OutOk (execQctlDestroy q s) := qctl_ok hs fun _ _ _ h => by simp [h]

@[simp] theorem execSteer_ok (q) : OutOk (execSteer q s) := onHead_ok hs fun _ _ _ h => by simp [h]

@[simp] theorem execQtail_ok (q v) : OutOk (execQtail q v s) := hs

@[simp] theorem execRegisterWrite_ok (addr v) : OutOk (execRegisterWrite addr v s) := by
  unfold execRegisterWrite
  dsimp only
  split
  · simp [hs]
  · split
    · simp [hs]
    · split
      · exact hs
      · split
        · split <;> simp [hs]
        · split
          · exact hs
          · split
            · exact hs
            · split
              · simp [hs]
              · split
                · exact foldl_wf (fun _ _ h => by simp [h]) _ hs
                · exact hs

/-! ### Machine/Firing -/

@[simp] theorem pkgWrite_wf (pkg asid va l) : Memory.wf (s.pkgWrite pkg asid va l).mem := by
  unfold State.pkgWrite
  dsimp only
  split <;> exact foldl_wf (fun _ _ h => by simp [h]) _ hs

theorem accept_wf {key data slot1 t} (h : s.accept key data slot1 = .ok t) : Memory.wf t.mem := by
  unfold State.accept at h
  split at h
  · cases h
  · split at h
    · cases h
    · split at h
      · cases h
      · cases h
        simp [hs]

@[simp] theorem execMsgxDelivery_ok (id) : OutOk (execMsgxDelivery id s) := by
  unfold execMsgxDelivery
  split
  · exact hs
  · dsimp only
    split
    · exact hs
    · split
      · simp [hs]
      · split
        · simp [hs]
        · split
          · simp [hs]
          · split
            · simp [accept_wf hs ‹_›]
            · split <;> simp [hs]

@[simp] theorem execEthernetFrame_ok (port etype bytes) : OutOk (execEthernetFrame port etype bytes s) := by
  unfold execEthernetFrame
  split
  · exact hs
  · split
    · exact accept_wf hs ‹_›
    · simp [hs]
    · simp [hs]

@[simp] theorem argArea_wf (key a buf slot1 seq) : Memory.wf (s.argArea key a buf slot1 seq).1.mem := by simp [State.argArea, hs]

@[simp] theorem execFiring_ok (pkg tag) : OutOk (execFiring pkg tag s) := by
  unfold execFiring
  split
  · exact hs
  · split <;> simp [hs]

@[simp] theorem execFiringRefused_ok (pkg tag) : OutOk (execFiringRefused pkg tag s) := by
  unfold execFiringRefused
  split <;> simp [hs]

/-! ### Machine/Firmware -/

@[simp] theorem execSigwaitWake_ok (pkg die fw) : OutOk (execSigwaitWake pkg die fw s) := by
  unfold execSigwaitWake
  dsimp only
  split <;> simp [hs]

@[simp] theorem execSigwaitTimeout_ok (pkg die fw) : OutOk (execSigwaitTimeout pkg die fw s) := by
  unfold execSigwaitTimeout
  dsimp only
  split <;> simp [hs]

@[simp] theorem execDispatchComplete_ok (pkg die fw) : OutOk (execDispatchComplete pkg die fw s) := by
  unfold execDispatchComplete
  dsimp only
  split <;> simp [hs]

@[simp] theorem execPurge_ok (pkg die core) : OutOk (execPurge pkg die core s) := by
  unfold execPurge
  dsimp only
  split <;> simp [hs]

@[simp] theorem execMask_ok (pkg die core) : OutOk (execMask pkg die core s) := by
  unfold execMask
  dsimp only
  split <;> simp [hs]

@[simp] theorem execGenset_ok (pkg die core) : OutOk (execGenset pkg die core s) := by
  unfold execGenset
  dsimp only
  split <;> simp [hs]

@[simp] theorem execRebind_ok (pkg die core) : OutOk (execRebind pkg die core s) := by
  unfold execRebind
  dsimp only
  split <;> simp [hs]

@[simp] theorem execMailboxMessage_ok (pkg die fw) : OutOk (execMailboxMessage pkg die fw s) := by simp [execMailboxMessage, hs]

/-! ### Machine/SplitEvents -/

@[simp] theorem execRegisterResultReturn_ok (w k) : OutOk (execRegisterResultReturn w k s) := by
  simp [execRegisterResultReturn, hs]

@[simp] theorem execSpanParkEnd_ok (w slot) : OutOk (execSpanParkEnd w slot s) := by
  unfold execSpanParkEnd
  split <;> simp [hs]

@[simp] theorem execJoinBoundExpiry_ok (w slot) : OutOk (execJoinBoundExpiry w slot s) := by
  unfold execJoinBoundExpiry
  split
  · split <;> simp [hs]
  · exact hs

@[simp] theorem execRegangBoundExpiry_ok (w slot) : OutOk (execRegangBoundExpiry w slot s) := by
  unfold execRegangBoundExpiry
  split <;> simp [hs]

@[simp] theorem execRegangMerge_ok (w) : OutOk (execRegangMerge w s) := by simp [execRegangMerge, hs]

@[simp] theorem execSwapEpochAdvance_ok (w) : OutOk (execSwapEpochAdvance w s) := by
  unfold execSwapEpochAdvance
  split <;> simp [hs]

@[simp] theorem execSplitSwap_ok (w) : OutOk (execSplitSwap w s) := by simp [execSplitSwap, hs]

@[simp] theorem execSplitSwapDone_ok (w) : OutOk (execSplitSwapDone w s) := by simp [execSplitSwapDone, hs]

@[simp] theorem execSplitFill_ok (w) : OutOk (execSplitFill w s) := by simp [execSplitFill, hs]

@[simp] theorem execSplitFillDone_ok (w) : OutOk (execSplitFillDone w s) := by simp [execSplitFillDone, hs]

@[simp] theorem execExceptionRecordHeld_ok (q) : OutOk (execExceptionRecordHeld q s) := by
  unfold execExceptionRecordHeld
  dsimp only
  split <;> simp [hs]

@[simp] theorem fetchLeaf_wf (wid slot pc gen hp hd leaf) : Memory.wf (s.fetchLeaf wid slot pc gen hp hd leaf).mem := by
  simp [State.fetchLeaf, hs]

@[simp] theorem execInstructionFetch_miss_wf (wid pkg die asid va) :
    Memory.wf (execInstructionFetch.miss s wid pkg die asid va).mem := ask_getD_wf hs ..

omit hs in
theorem mem_of_fetchHome {b asid gen va t o} (h : s.fetchHome b asid gen va = (t, o)) : t.mem = s.mem := by
  rw [← fetchHome_mem s b asid gen va, h]

@[simp] theorem execInstructionFetch_ok (wid slot) : OutOk (execInstructionFetch wid slot s) := by
  unfold execInstructionFetch
  split
  · exact hs
  · split
    · exact hs
    · split
      · exact hs
      · dsimp only
        split
        · simp [mem_of_fetchHome ‹_› ▸ hs]
        · next s1 hp hd hf =>
          have h1 : Memory.wf s1.mem := mem_of_fetchHome hf ▸ hs
          split
          · exact hs
          · split
            · simp [h1]
            · split
              · simp [h1]
              · split
                · simp [h1]
                · split <;> simp [h1]

/-! ### Machine/Driver -/

@[simp] theorem execTfansReplay_ok (ticket pkg) : OutOk (execTfansReplay ticket pkg s) := by
  unfold execTfansReplay
  split
  · exact hs
  · rw [outOk_next, foldl_mem (by simp)]
    exact hs

@[simp] theorem denyReq_wf (id) : Memory.wf (s.denyReq id).mem := by
  unfold State.denyReq
  split
  · exact hs
  · split
    · exact hs
    · split <;> simp [hs]

@[simp] theorem execTfansInvalid_ok (ticket pkg) : OutOk (execTfansInvalid ticket pkg s) := by
  unfold execTfansInvalid
  split
  · exact hs
  · dsimp only
    split <;> exact foldl_wf (fun _ _ h => by simp [h]) _ hs

@[simp] theorem bumpCopy_wf (b asid dk q) : Memory.wf (s.bumpCopy b asid dk q).mem := by simp [State.bumpCopy, hs]

@[simp] theorem switchDie_wf (b asid dk) : Memory.wf (s.switchDie b asid dk).mem := foldl_wf (fun _ _ h => by simp [h]) _ hs

@[simp] theorem startBump_wf (addr) : Memory.wf (s.startBump addr).mem := by
  unfold State.startBump
  simp only [ite_mem, queueCmd_mem, ite_self]
  exact foldl_wf (fun _ _ h => by simp [memWrite_wf, h]) _ hs

@[simp] theorem execGencmd_ok (addr) : OutOk (execGencmd addr s) := by simp [execGencmd, hs]

@[simp] theorem execBumpdone_ok (asid) : OutOk (execBumpdone asid s) := by
  unfold execBumpdone
  split
  · exact hs
  · dsimp only
    split
    · exact foldl_wf (fun _ _ h => by simp [h]) _ hs
    · split
      · exact hs
      · split <;> simp [hs]

@[simp] theorem execFramefree_ok (v) : OutOk (execFramefree v s) := hs

/-! ### Machine/LockEvents -/

@[simp] theorem lockAtHome_ok (id kind) : OutOk (s.lockAtHome id kind) := by
  unfold State.lockAtHome
  split
  · exact hs
  · split
    · simp [hs]
    · split
      · exact hs
      · split <;> simp [hs]

@[simp] theorem execLockRequest_ok (r) : OutOk (execLockRequest r s) := by simp [execLockRequest, hs]

@[simp] theorem execLockTryRequest_ok (r) : OutOk (execLockTryRequest r s) := by simp [execLockTryRequest, hs]

@[simp] theorem execUnlockRequest_ok (id) : OutOk (execUnlockRequest id s) := by
  unfold execUnlockRequest
  split
  · exact hs
  · split
    · exact hs
    · split <;> simp [hs]

@[simp] theorem execLockGrant_ok (g) : OutOk (execLockGrant g s) := by
  unfold execLockGrant
  split <;> simp [hs]

@[simp] theorem execLockTimeoutExpiry_ok (wid k) : OutOk (execLockTimeoutExpiry wid k s) := by
  unfold execLockTimeoutExpiry
  split
  · exact hs
  · split <;> simp [hs]

@[simp] theorem execWithdraw_ok (d) : OutOk (execWithdraw d s) := by
  unfold execWithdraw
  split <;> simp [hs]

@[simp] theorem reportCycle_wf (r) : Memory.wf (s.reportCycle r).mem := by
  unfold State.reportCycle
  dsimp only
  split
  · exact hs
  · split
    · exact hs
    · exact foldl_wf (fun _ _ h => by simp [h]) _ hs

@[simp] theorem execWaitForRecord_ok (n) : OutOk (execWaitForRecord n s) := by
  unfold execWaitForRecord
  split <;> simp [hs]

@[simp] theorem execWaitForRecordAgeOut_ok (pkg die) : OutOk (execWaitForRecordAgeOut pkg die s) := hs

@[simp] theorem execHolderSaved_ok (wid k) : OutOk (execHolderSaved wid k s) := by
  unfold execHolderSaved
  split <;> simp [hs]

@[simp] theorem execHolderRestored_ok (wid k) : OutOk (execHolderRestored wid k s) := by
  unfold execHolderRestored
  split <;> simp [hs]

@[simp] theorem execWaiterSaved_ok (wid k) : OutOk (execWaiterSaved wid k s) := by
  unfold execWaiterSaved
  split <;> simp [hs]

@[simp] theorem execWaiterRestored_ok (wid k) : OutOk (execWaiterRestored wid k s) := by
  unfold execWaiterRestored
  split <;> simp [hs]

@[simp] theorem execHolderFatalEnd_ok (pkg die line) : OutOk (execHolderFatalEnd pkg die line s) := by
  simp [execHolderFatalEnd, hs]

/-! ### Machine/Links -/

@[simp] theorem execPlaneMaskAdopt_ok (pkg) : OutOk (execPlaneMaskAdopt pkg s) := hs

@[simp] theorem execPlaneen_ok (pkg v) : OutOk (execPlaneen pkg v s) := by
  unfold execPlaneen
  rw [outOk_next, foldl_mem (by simp)]
  exact foldl_wf (fun _ _ h => by simp [h]) _ hs

@[simp] theorem execPortRetrain_ok (pkg plane good) : OutOk (execPortRetrain pkg plane good s) := by
  unfold execPortRetrain
  split <;> simp [hs]

@[simp] theorem execMcastGroupWrite_ok (g members asid valid) : OutOk (execMcastGroupWrite g members asid valid s) := hs

@[simp] theorem execFlitCrcFail_ok (link) : OutOk (execFlitCrcFail link s) := by simp [execFlitCrcFail, hs]

@[simp] theorem execFlitRetryTimer_ok (link) : OutOk (execFlitRetryTimer link s) := by
  unfold execFlitRetryTimer
  split <;> simp [hs]

@[simp] theorem execLinkDead_ok (link) : OutOk (execLinkDead link s) := by
  unfold execLinkDead
  split
  · exact hs
  · dsimp only
    split
    · rw [outOk_next, foldl_mem (by simp), foldl_mem (by simp)]
      exact foldl_wf (fun _ _ h => by simp [h]) _ (by simp [hs])
    · simp [hs]

@[simp] theorem execEccCorrectable_ok (pkg die) : OutOk (execEccCorrectable pkg die s) := hs

@[simp] theorem execEccUncorrectable_ok (e) : OutOk (execEccUncorrectable e s) := by
  unfold execEccUncorrectable
  dsimp only
  split
  · split <;> simp [hs]
  · split <;> simp [hs]
  · simp [hs]
  · exact hs
  · simp [hs]
  · simp [hs]
  · simp [hs]
  · exact hs

/-! ### Machine/Fleet -/

@[simp] theorem execCoreFail_ok (pkg die core) : OutOk (execCoreFail pkg die core s) := by simp [execCoreFail, hs]

@[simp] theorem execDieHeartbeat_ok (pkg die) : OutOk (execDieHeartbeat pkg die s) := by simp [execDieHeartbeat, hs]

@[simp] theorem execDieLost_ok (pkg die) : OutOk (execDieLost pkg die s) := by
  unfold execDieLost
  dsimp only
  split
  · exact hs
  · rw [outOk_next, foldl_mem (by simp)]
    simp [hs]

@[simp] theorem execPackageHeartbeat_ok (pkg) : OutOk (execPackageHeartbeat pkg s) := by simp [execPackageHeartbeat, hs]

@[simp] theorem dropHome_wf (pkg) : Memory.wf (s.dropHome pkg).mem :=
  filter_wf _ _ (by rw [foldl_mem (fun _ _ => by exact foldl_mem (by simp) _ _)]; exact hs)

@[simp] theorem execPackageDead_ok (pkg) : OutOk (execPackageDead pkg s) := by
  unfold execPackageDead
  dsimp only
  split
  · exact hs
  · rw [outOk_next, foldl_mem (by simp)]
    simp [hs]

@[simp] theorem execClear_ok (pkg die v) : OutOk (execClear pkg die v s) := hs

@[simp] theorem execPstate_ok (pkg v) : OutOk (execPstate pkg v s) := by simp [execPstate, hs]

@[simp] theorem execPowerCapDown_ok (pkg) : OutOk (execPowerCapDown pkg s) := by simp [execPowerCapDown, hs]

@[simp] theorem execPowerCapRestore_ok (pkg) : OutOk (execPowerCapRestore pkg s) := by simp [execPowerCapRestore, hs]

@[simp] theorem execAttestRequest_ok (pkg v) : OutOk (execAttestRequest pkg v s) := by simp [execAttestRequest, hs]

@[simp] theorem execAttestComplete_ok (pkg) : OutOk (execAttestComplete pkg s) := by
  unfold execAttestComplete
  dsimp only
  split
  · exact hs
  · rw [outOk_next, modPkg_mem]
    exact feWrite_wf hs ..

@[simp] theorem journalEntry_wf (pkg die step outcome detail) : Memory.wf (s.journalEntry pkg die step outcome detail).mem := by
  simp [State.journalEntry, hs]

@[simp] theorem zeroTags_wf (dk) : Memory.wf (s.zeroTags dk).mem := by simp [State.zeroTags, hs]

theorem maskStep_wf {pkg die step bad} {good : State → State} (hg : Memory.wf (good s).mem) :
    Memory.wf (s.maskStep pkg die step bad good).mem := by
  simp [State.maskStep, hs, hg]

theorem partStep_wf {pkg die step n details} {mask : State → Nat → State} (hm : ∀ s i, (mask s i).mem = s.mem) :
    Memory.wf (s.partStep pkg die step n details mask).mem := by
  unfold State.partStep
  extract_lets skip now s1 s2
  have h1 : Memory.wf s1.mem := foldl_wf (fun _ _ h => by simp [h, hm]) _ hs
  have h2 : Memory.wf s2.mem := foldl_wf (fun _ _ h => by simp [h, hm]) _ h1
  split <;> simp [h2]

@[simp] theorem boot_wf (pkg die fails) : Memory.wf (s.boot pkg die fails).mem := by
  unfold State.boot
  extract_lets dk bad parts clean s0 sBad s1 s2 s3 s4 s5 s6 again s7 v
  have h0 : Memory.wf s0.mem := by
    dsimp only [s0]
    rw [modDie_mem, ite_mem, foldl_mem (by simp), ite_self]
    exact hs
  have h1 : Memory.wf s1.mem := by simp [s1, h0]
  have h2 : Memory.wf s2.mem := by
    dsimp only [s2]
    split
    · simp [h1]
    · split <;> simp [h1]
  have h3 : Memory.wf s3.mem := maskStep_wf h2 (by simp [h2])
  have h4 : Memory.wf s4.mem := partStep_wf h3 (by simp)
  have h5 : Memory.wf s5.mem := partStep_wf h4 (by simp)
  have h6 : Memory.wf s6.mem := maskStep_wf h5 (by rwa [id_eq])
  have h7 : Memory.wf s7.mem := by
    dsimp only [s7]
    split <;> simp [h6]
  split
  · exact hs
  · split
    · split <;> simp [sBad, h0]
    · split <;> simp [h7]

@[simp] theorem execBootStart_ok (pkg die fails) : OutOk (execBootStart pkg die fails s) := by simp [execBootStart, hs]

@[simp] theorem execJournalClear_ok (pkg die) : OutOk (execJournalClear pkg die s) := hs

@[simp] theorem vacate_wf (dk) : Memory.wf (s.vacate dk).mem := foldl_wf (fun _ _ h => by simp [h]) _ hs

@[simp] theorem execDieUpdate_ok (pkg die pmin pmax good) : OutOk (execDieUpdate pkg die pmin pmax good s) := by
  simp [execDieUpdate, hs]

@[simp] theorem execHostHeartbeat_ok : OutOk (execHostHeartbeat s) := by simp [execHostHeartbeat, hs]

@[simp] theorem execStreamRecord_ok : OutOk (execStreamRecord s) := by simp [execStreamRecord, hs]

@[simp] theorem execTakeover_ok : OutOk (execTakeover s) := by
  unfold execTakeover
  split <;> simp [hs]

/-! ### Machine/Dispatch -/

theorem scalarOp_ok {sw sd lat words x} : OutOk (.next (s.scalarOp sw sd lat words x)) := by simp [hs]

theorem maskOp_ok {sw md x} : OutOk (.next (s.maskOp sw md x)) := by simp [hs]

theorem divide_ok {f q} : OutOk (.next (s.divide f q)) := by simp [hs]

/-- Every instruction keeps the form: those of one shared operation together, then those of one chain of writes, those of one choice,
and each of the others and each event by its own lemma. -/
@[simp] theorem exec_ok (i) : OutOk (exec i s) := by
  cases i with
  | sadd f | ssub f | smul f | smulh f | sand f | sor f | sxor f | sshl f | sshr f | ssra f | smin f | smax f | smov f
  | spopc f | sclz f | saddImm f | ssubImm f | smulImm f | smulhImm f | sandImm f | sorImm f | sxorImm f | sshlImm f
  | sshrImm f | ssraImm f | sminImm f | smaxImm f | smovImm f | smulhU f | sminU f | smaxU f | scmp f | scmpU f | ssel f
  | sbfx f | sbfxU f | sbfi f | slea f | sldi f ext | mpopc f | mffs f | msave f | splitq f | crd f => exact scalarOp_ok hs
  | vmad f | vsad f | vcmp f | vsel f | vmov f | vbfx f | vbfi f | vmovs f | vfma f | vfcmp f | vfclass f | vfrnd f
  | vmovImm f | vcvt f | vunpk e f | vtag f | vqduo f | vscale f | vred op f | vscan op f | vlutn f | vbperm f | vballot f
  | vmatch f | vcompr f =>
    dsimp only [exec, execVmad, execVsad, execVcmp, execVsel, execVmov, execVbfx, execVbfi, execVmovs, execVfma, execVfcmp,
      execVfclass, execVfrnd, execVmovImm, execVcvt, execVunpk, execVtag, execVqduo, execVscale, execVred, execVscan, execVlutn,
      execVbperm, execVballot, execVmatch, execVcompr]
    exact runVec_ok hs (by simp)
  | ld ty f | st ty f | sts f | atom op f | atomc f | red op f | lkqry f =>
    dsimp only [exec, execLd, execSt, execSts, execAtom, execAtomc, execRed, execLkqry]
    exact runMem_ok hs (by simp)
  | vshflx f | vbcast f | vfunl f =>
    dsimp only [exec, execVshflx, execVbcast, execVfunl]
    exact moveLanes_ok hs
  | vaddImm f | vsubImm f | vmulImm f | vandImm f | vorImm f | vxorImm f | vshlImm f | vshrImm f | vsraImm f | vminImm f
  | vmaxImm f =>
    rw [exec]
    exact vecB_ok hs ..
  | vadd f | vsub f | vmul f | vmulh f | vmin f | vmax f | vavg f | vand f | vor f | vxor f =>
    rw [exec]
    exact vec2_ok hs ..
  | vfrcp f | vfrsq f | vfsqrt f | vfexp2 f | vflog2 f | vfsin f | vfcos f =>
    rw [exec]
    exact unaryOp_ok hs
  | mand f | mor f | mxor f | mnot f | mmov f | mrest f => exact maskOp_ok hs
  | vabs f | vneg f | vnot f | vclz f | vpopc f =>
    rw [exec]
    exact vec1_ok hs ..
  | vshl f | vshr f | vsra f | vrot f =>
    rw [exec]
    exact shiftOp_ok hs ..
  | vfaddImm f | vfmulImm f | vfminImm f | vfmaxImm f =>
    rw [exec]
    exact floatB_ok hs ..
  | vshfl f | vshflUp f | vshflDown f | vshflXor f =>
    rw [exec]
    exact shuffle_ok hs ..
  | sdiv f | sdivImm f | sdivU f => exact divide_ok hs
  | vfadd f | vfsub f | vfmul f =>
    rw [exec]
    exact float2_ok hs ..
  | task f | taskOvr f | taskCvt f =>
    rw [exec]
    exact taskOp_ok hs ..
  | join f | joinBnd f =>
    rw [exec]
    exact joinOp_ok hs ..
  | vaddc f | vsubb f =>
    rw [exec]
    exact carryOp_ok hs ..
  | vfmin f | vfmax f =>
    rw [exec]
    exact fpick_ok hs ..
  | vfdot2 f | vfdot4 f =>
    rw [exec]
    exact dotOp_ok hs ..
  | vpackX2 f | vpackX4 f =>
    rw [exec]
    exact packOp_ok hs ..
  | lds f | ldsSx f =>
    rw [exec]
    exact loadScalar_ok hs ..
  | prf f | prfL2 f =>
    rw [exec]
    exact prefetch_ok hs ..
  | cwb f | cinv f =>
    rw [exec]
    exact maintain_ok hs ..
  | lock f | lockTry f =>
    rw [exec]
    exact lockOp_ok hs ..
  | cpy f | cpyOut f =>
    rw [exec]
    exact cpyOp_ok hs ..
  | cpyg f | cpygScatter f =>
    rw [exec]
    exact cpygOp_ok hs ..
  | srd f | swr f | bra f | brc f | brx f | nop f | yield f | cpyLocal f | tdesc f | kmv f | mcst f | msgx f | fence f
  | csig f | cwait f | wsync f | regang f | exit f | trap f | bkpt f | clkrd f | evnt f | haltw f | rfetch f | kbfx f
  | sigwait f | msetem f =>
    simp [exec, execSrd, execSwr, execBra, execBrc, execBrx, execNop, execYield, execCpyLocal, execTdesc, execKmv,
      execMcst, execMsgx, execFence, execCsig, execCwait, execWsync, execRegang, execExit, execTrap, execBkpt, execClkrd,
      execEvnt, execHaltw, execRfetch, execKbfx, execSigwait, execMsetem, hs]
  | unlock f | jmpi f | ret f | call f | callInd f | bararv f | barwait f | barsync f | dispatch f =>
    dsimp only [exec, execUnlock, execJmpi, execRet, execCall, execCallInd, execBararv, execBarwait, execBarsync,
      execDispatch]
    split <;> simp [hs]
  | _ => simp [exec, hs]

/-! ### Machine/Fetch -/

@[simp] theorem raiseIllop_wf (w) : Memory.wf (s.raiseIllop w).mem := by simp [State.raiseIllop, hs]

/-! ### Machine/Events -/

/-- Every event keeps the form, each by its own lemma. -/
@[simp] theorem run_ok (e) : OutOk (Event.run e s) := by
  unfold Event.run
  split <;> simp [hs]

/-! ### Machine/Sched -/

@[simp] theorem part6_wf : Memory.wf s.part6.1.mem := by
  unfold State.part6
  simp only [ite_mem]
  split
  · exact foldl_wf (fun _ _ h => by simp [h]) _ hs
  · exact hs

@[simp] theorem part_wf (n) : Memory.wf (State.part n s).mem := by
  unfold State.part
  split <;> simp [hs]

/-! ### Machine/Step -/

@[simp] theorem issueNext_ok (wid slot) : OutOk (s.issueNext wid slot) := by
  unfold State.issueNext
  split <;> simp [hs]

@[simp] theorem firmwareNext_ok (n) : OutOk (s.firmwareNext n) := by
  unfold State.firmwareNext
  split <;> simp [hs]

@[simp] theorem step_ok : OutOk (step s) := by
  unfold step
  split <;> simp [hs]

end

/-- Settles O16: every step writes memory through `memPut`, `memWrite`, `memRun` or a filter, and each keeps the canonical form. -/
theorem stepKeepsMemory : Obligations.StepKeepsMemory := by
  intro s t hs h
  have hok : OutOk (step s) := step_ok hs
  rwa [h] at hok

end Sys2Proof.Laws.Canonical

namespace Sys2Proof.Laws.MachineState

/-! # The reset state, and a warp at its start -/

open Sys2Proof.Machine Sys2Proof.Safety Sys2Proof.Rules

/-- Settles O15: each table of the reset state is empty, so what it holds at a key is the default of its entry. -/
theorem resetState : Obligations.ResetState :=
  ⟨rfl, rfl, rfl, rfl, rfl, rfl, rfl, rfl, rfl, rfl, rfl, rfl, rfl, fun _ => rfl, fun _ => ⟨rfl, rfl, rfl, rfl, rfl, rfl⟩,
    fun _ _ => rfl, fun _ _ => rfl, fun _ _ => rfl, fun _ _ => rfl, rfl⟩
/-- A list numbered from 0 pairs each place with what stands there. -/
theorem mem_zip_range {α : Type} {l : List α} {i : Nat} {a : α} (h : (i, a) ∈ List.zip (List.range l.length) l) : l[i]? = some a := by
  obtain ⟨j, hj, he⟩ := List.mem_iff_getElem.mp h
  simp only [List.getElem_zip, List.getElem_range, Prod.mk.injEq] at he
  obtain ⟨rfl, rfl⟩ := he
  exact List.getElem?_eq_getElem _

/-- Each warp of a kernel stands in its stage, with the stage's budget and entry point (10 R260). -/
theorem mem_warpList {kern : KernelRec} {stage widx budget entry : Nat} (h : (stage, widx, budget, entry) ∈ kern.warpList) :
    ∃ n, kern.stages[stage]? = some (entry, n, budget) ∧ widx < n := by
  simp only [KernelRec.warpList, List.mem_flatMap, List.mem_map, List.mem_range, Prod.mk.injEq] at h
  obtain ⟨⟨_, _, n, _⟩, hq, _, hi, rfl, rfl, rfl, rfl⟩ := h
  exact ⟨n, mem_zip_range hq, hi⟩

/-- The warps of a block are new warps of its kernel. -/
theorem mem_newWarps {d : LaunchDesc} {bid lin clk : Nat} {places : List (Nat × Nat)} {k : Nat} {w : Warp}
    (h : (k, w) ∈ newWarps d bid lin clk places) :
    ∃ wblk stage widx budget entry place, w = newWarp d bid lin wblk stage widx budget entry place clk
      ∧ (stage, widx, budget, entry) ∈ d.kern.warpList := by
  simp only [newWarps, List.mem_map, Prod.mk.injEq] at h
  obtain ⟨⟨i, x, place⟩, hq, -, rfl⟩ := h
  exact ⟨_, _, _, _, _, _, rfl, (List.of_mem_zip (List.of_mem_zip hq).2).1⟩

/-- Settles O7: a warp at its start is a `newWarp` of a stage of its kernel. -/
theorem warpStart : Obligations.WarpStart := by
  intro d bid lin clk places k w hw
  obtain ⟨wblk, stage, widx, budget, entry, place, rfl, hmem⟩ := mem_newWarps hw
  obtain ⟨n, hstage, hlt⟩ := mem_warpList hmem
  have hmask : ∀ r, r ≠ 0 → kgetD [(0, BitVec.allOnes 32)] r 0 = 0 := fun r hr => by simp [kgetD, kget?, hr]
  exact ⟨fun _ => ⟨rfl, rfl, rfl⟩, rfl, hmask, rfl, rfl, rfl, rfl, rfl, _, entry, n, rfl, rfl, rfl, rfl, rfl, rfl, hstage, hlt, rfl⟩
end Sys2Proof.Laws.MachineState

namespace Sys2Proof.Laws.Results

/-! # Results that land in their registers (01 R16 to R19) -/

open Sys2Proof.Machine Sys2Proof.Safety Sys2Proof.Rules

/-! ## Lanes and maps -/

theorem getLsbD_maskOf (l : List Nat) (i : Nat) : (maskOf l).getLsbD i = (decide (i < 32) && decide (i ∈ l)) := by
  have step : ∀ (l : List Nat) (m : Lanes), (l.foldl (fun m i => m ||| (1#32 <<< i)) m).getLsbD i
      = (m.getLsbD i || (decide (i < 32) && decide (i ∈ l))) := by
    intro l
    induction l with
    | nil => simp
    | cons a r ih =>
      intro m
      rw [List.foldl_cons, ih]
      have hbit : (1#32 <<< a).getLsbD i = (decide (i < 32) && decide (i = a)) := by
        simp only [BitVec.getLsbD_shiftLeft, BitVec.getLsbD_one]
        by_cases hi : i < 32 <;> by_cases ha : i = a <;> by_cases hlt : i < a <;> simp [hi, ha, hlt]; omega
      rw [BitVec.getLsbD_or, hbit]
      simp only [List.mem_cons, Bool.decide_or, Bool.and_or_distrib_left, Bool.or_assoc]
  simpa [maskOf] using step l 0

theorem mem_lanesOf (m : Lanes) (i : Nat) : i ∈ lanesOf m ↔ m.getLsbD i = true := by
  simp only [lanesOf, List.mem_filter, List.mem_range, and_iff_right_iff_imp]
  exact BitVec.lt_of_getLsbD

theorem maskOf_lanesOf (m : Lanes) : maskOf (lanesOf m) = m := by
  refine BitVec.eq_of_getLsbD_eq fun i hi => ?_
  rw [getLsbD_maskOf, Bool.eq_iff_iff]
  simp [hi, mem_lanesOf]

theorem kget?_mem {α : Type} {m : KMap α} {i : Nat} {x : α} (h : kget? m i = some x) : (i, x) ∈ m := by
  induction m with
  | nil => simp at h
  | cons a r ih =>
    obtain ⟨k, v⟩ := a
    simp only [kget?] at h
    split at h
    · simp_all
    · exact List.mem_cons_of_mem _ (ih h)

/-- Of pairs with keys that do not repeat, each is read back after all have been put. -/
theorem kget?_kputs_of_mem {α : Type} (l : List (Nat × α)) (hl : (l.map Prod.fst).Nodup) (m : KMap α) {p : Nat × α} (hp : p ∈ l) :
    kget? (kputs m l) p.1 = some p.2 := by
  induction l generalizing m with
  | nil => simp at hp
  | cons a r ih =>
    obtain ⟨hnot, hr⟩ := List.nodup_cons.mp hl
    rcases List.mem_cons.mp hp with rfl | hmem
    · have hrest := kget?_kputs_of_not_mem r (kput m p.1 p.2) p.1 fun q hq he => hnot (he ▸ List.mem_map_of_mem hq)
      exact hrest.trans (kget?_kput_self m p.1 p.2)
    · exact ih hr (kput m a.1 a.2) hmem

/-! ## One result alone in its span -/

/-- No other result of the span of `r` goes to its register: R240 leaves no choice, and the result stands. -/
def Alone (w : Warp) (r : Result) : Prop := ∀ q ∈ w.results, q.2.span = r.span → q.2.dest = r.dest → q.2.key = r.key

theorem stands_of_alone {w : Warp} {r : Result} (h : Alone w r) (free l : Nat) : w.stands free r l = true := by
  have hnone : (w.results.any fun q => q.2.span == r.span && q.2.dest == r.dest && q.2.key != r.key && q.2.wrote l) = false := by
    rw [List.any_eq_false]
    intro q hq hc
    simp only [Bool.and_eq_true, beq_iff_eq, bne_iff_ne] at hc
    obtain ⟨⟨⟨hspan, hdest⟩, hkey⟩, -⟩ := hc
    exact hkey (h q hq hspan hdest)
  simp only [Warp.stands, hnone, Bool.false_eq_true, if_false]

theorem standing_of_alone {w : Warp} {r : Result} (h : Alone w r) (free : Nat) (m : Lanes) : w.standing free r m = m := by
  simp only [Warp.standing, stands_of_alone h, List.filter_true, maskOf_lanesOf]

/-! ## The landing -/

/-- The warp after result `r`, number `k`, has been written. -/
def landed (free k : Nat) (r : Result) (w : Warp) : Warp :=
  let w := w.landResult free r r.pend r.vals r.sval
  { w with results := kmod w.results k fun r => { r with done := true, pend := 0 } }

/-- A result whose clk has come is written, and no other warp changes (01 R18). -/
theorem registerResultReturn_lands {s : State} {wid k : Nat} {w : Warp} {r : Result} (hw : s.warp? wid = some w)
    (hr : kget? w.results k = some r) (hm : r.mem = false) (hd : r.done = false) (hdue : r.due ≤ s.clk) :
    ∃ t, exec (.registerResultReturn wid k) s = .next t ∧ t.warp? wid = some (landed s.free k r w) ∧ t.mem = s.mem
      ∧ ∀ j, j ≠ wid → t.warp? j = s.warp? j := by
  have hlate : ¬ s.clk < r.due := by omega
  have heq : s.landDue wid k = { s with free := s.free + 1, warps := kmod s.warps wid (landed s.free k r) } := by
    simp only [State.landDue, hw, hr, hm, hd, hlate, Bool.false_eq_true, if_false, Bool.false_or, decide_false]
    rfl
  refine ⟨s.landDue wid k, rfl, ?_, by rw [heq], fun j hj => ?_⟩
  · rw [heq]
    exact (kget?_kmod_self s.warps wid _).trans (congrArg (Option.map _) hw)
  · rw [heq]
    exact kget?_kmod_ne s.warps _ hj

/-- A write of a scalar changes scalars alone. -/
theorem putScalar_frame (w : Warp) (key r span : Nat) (long : Bool) (x : Word) :
    w.putScalar key r span long x
      = { w with sc := (w.putScalar key r span long x).sc, scKey := (w.putScalar key r span long x).scKey } := by
  unfold Warp.putScalar
  split_ifs <;> rfl

/-- The landing of a result changes registers alone. -/
theorem landResult_frame (w : Warp) (free : Nat) (r : Result) (lanes : Lanes) (vals : KMap Lane) (x : Word) :
    let u := w.landResult free r lanes vals x
    u = { w with v := u.v, sc := u.sc, scKey := u.scKey, m := u.m } := by
  unfold Warp.landResult
  cases r.dest with
  | vec n => rfl
  | sca n =>
    dsimp only
    split
    · conv_lhs => rw [putScalar_frame]
      rw [putScalar_frame]
    · rfl
  | msk n => rfl
  | none => rfl

/-- What every landing of a result leaves alone, and that the result is done. -/
theorem landed_frame (free : Nat) {k : Nat} {r : Result} {w : Warp} (hr : kget? w.results k = some r) :
    (landed free k r w).tags = w.tags ∧ (landed free k r w).table = w.table
      ∧ (kget? (landed free k r w).results k).map (·.done) = some true := by
  have h := landResult_frame w free r r.pend r.vals r.sval
  simp only at h
  unfold landed
  dsimp only
  refine ⟨by rw [h], by rw [h], ?_⟩
  rw [h, kget?_kmod_self, hr]
  rfl

/-! ## Scalars -/

/-- A write of a scalar that no later write takes the place of stands, unless one later in issue order has been made (01 R18). -/
theorem putScalar_sc (w : Warp) {key r span : Nat} (long : Bool) (x : Word) (hr : r < 63)
    (hown : w.lastOwn r span = true → kgetD w.scKey r 0 ≤ key) :
    kgetD (w.putScalar key r span long x).sc r 0
      = if kgetD w.scKey r 0 ≤ key ∧ w.laterScalar key r span long = false then x else kgetD w.sc r 0 := by
  unfold Warp.putScalar
  by_cases hl : w.laterScalar key r span long = true
  · simp [hl]
  · by_cases hk : kgetD w.scKey r 0 ≤ key
    · simp only [hl, hr.ne, hk, or_self, true_or, and_self, if_true, if_false, Bool.false_eq_true]
      simp [kgetD]
    · have ho : ¬ w.lastOwn r span = true := fun h => hk (hown h)
      simp [hl, hk, ho]

theorem putScalar_sc_ne (w : Warp) (key r span : Nat) (long : Bool) (x : Word) {j : Nat} (hj : j ≠ r) :
    kgetD (w.putScalar key r span long x).sc j 0 = kgetD w.sc j 0 := by
  unfold Warp.putScalar
  split_ifs <;> simp [kgetD, kget?_kput_ne _ _ hj]

/-- The last write of the register of a result that is alone in its span was no later one of that span. -/
theorem lastOwn_of_alone {w : Warp} {r : Result} {n : Nat} (h : Alone w r) (hd : r.dest = .sca n) (ho : w.lastOwn n r.span = true) :
    kgetD w.scKey n 0 ≤ r.key := by
  simp only [Warp.lastOwn, List.any_eq_true, Bool.and_eq_true, beq_iff_eq] at ho
  obtain ⟨q, hq, ⟨hspan, hdest⟩, hkey⟩ := ho
  rw [← hkey, h q hq hspan (hdest.trans hd.symm)]

theorem landed_sca {w : Warp} {r : Result} {n : Nat} (h : Alone w r) (hd : r.dest = .sca n) (free k : Nat) :
    landed free k r w = { w.putScalar r.key n r.span r.long r.sval with
      results := (landed free k r w).results } := by
  simp only [landed, Warp.landResult, hd, stands_of_alone h, if_true]

/-! ## Vector registers and masks -/

theorem landed_vec {w : Warp} {r : Result} {n : Nat} (h : Alone w r) (hd : r.dest = .vec n) (free k : Nat) :
    landed free k r w = { w.putLanes n (r.vals.filter fun p => r.pend.getLsbD p.1) with results := (landed free k r w).results } := by
  simp only [landed, Warp.landResult, hd, standing_of_alone h]

theorem landed_msk {w : Warp} {r : Result} {n : Nat} (h : Alone w r) (hd : r.dest = .msk n) (free k : Nat) :
    landed free k r w = { w.putMask n r.pend (r.sval.setWidth 32) with results := (landed free k r w).results } := by
  simp only [landed, Warp.landResult, hd, standing_of_alone h]

/-- A lane of a vector register holds the value given for it. -/
theorem putLanes_value (w : Warp) (n : Nat) {vals : KMap Lane} (hv : (vals.map Prod.fst).Nodup) {l : Nat} {x : Lane}
    (hx : (l, x) ∈ vals) : kgetD (w.putLanes n vals).v (32 * n + l) 0 = x := by
  have hkeys : ((vals.map fun p => (32 * n + p.1, p.2)).map Prod.fst).Nodup := by
    have hmap := hv.map (f := fun l => 32 * n + l) fun a b hab => by simpa using hab
    simpa [List.map_map, Function.comp_def] using hmap
  have hmem : (32 * n + l, x) ∈ vals.map fun p => (32 * n + p.1, p.2) := List.mem_map_of_mem (f := fun p => (32 * n + p.1, p.2)) hx
  simp only [Warp.putLanes, kgetD, kget?_kputs_of_mem _ hkeys w.v hmem, Option.getD_some]

/-- Lanes that are given no value keep theirs. -/
theorem putLanes_other (w : Warp) (n : Nat) {vals : KMap Lane} {j : Nat} (hj : ∀ p ∈ vals, j ≠ 32 * n + p.1) :
    kgetD (w.putLanes n vals).v j 0 = kgetD w.v j 0 := by
  have hnot : ∀ p ∈ vals.map fun p => (32 * n + p.1, p.2), p.1 ≠ j := by
    simp only [List.forall_mem_map]
    exact fun p hp => (hj p hp).symm
  simp only [Warp.putLanes, kgetD, kget?_kputs_of_not_mem _ w.v j hnot]

/-- A mask register takes its value in the lanes written that are live (01 R19). -/
theorem getLsbD_putMask (w : Warp) (r : Nat) (own x : Lanes) (l : Nat) :
    (kgetD (w.putMask r own x).m r 0).getLsbD l
      = if own.getLsbD l && w.liveLanes.getLsbD l then x.getLsbD l else (kgetD w.m r 0).getLsbD l := by
  by_cases hl : l < 32
  · simp only [Warp.putMask, kgetD, kget?_kput_self, Option.getD_some, BitVec.getLsbD_or, BitVec.getLsbD_and, BitVec.getLsbD_not, hl,
      decide_true, Bool.true_and]
    cases own.getLsbD l <;> cases w.liveLanes.getLsbD l <;> simp
  · simp [BitVec.getLsbD_of_ge _ l (by omega : 32 ≤ l)]

/-- Settles O30: by where the result goes. -/
theorem resultsLand : Obligations.ResultsLand := by
  refine ⟨?_, ?_⟩
  · intro s wid k n w r hw hr hm hd hdue hdest hn halone
    obtain ⟨t, hexec, hwarp, hmem, hothers⟩ := registerResultReturn_lands hw hr hm hd hdue
    obtain ⟨htags, htable, hdone⟩ := landed_frame s.free hr
    have hl := landed_sca halone hdest s.free k
    refine ⟨t, _, hexec, hwarp, ?_, fun j hj => ?_, ?_, ?_, htags, htable, hdone, hmem, hothers⟩
    · rw [hl]; exact putScalar_sc w r.long r.sval hn (lastOwn_of_alone halone hdest)
    · rw [hl]; exact putScalar_sc_ne w r.key n r.span r.long r.sval hj
    · rw [hl, putScalar_frame]
    · rw [hl, putScalar_frame]
  · intro s wid k n w r hw hr hm hd hdue halone
    obtain ⟨t, hexec, hwarp, hmem, hothers⟩ := registerResultReturn_lands hw hr hm hd hdue
    obtain ⟨htags, htable, -⟩ := landed_frame s.free hr
    refine ⟨t, _, hexec, hwarp, ?_, htags, htable, hmem, hothers, fun hdest hnodup => ?_, fun hdest => ?_⟩
    · cases hdest : r.dest with
      | sca _ => trivial
      | vec n => rw [landed_vec halone hdest]; rfl
      | msk n => rw [landed_msk halone hdest]; rfl
      | none => simp only [landed, Warp.landResult, hdest]
    · rw [landed_vec halone hdest]
      refine ⟨fun l x hl hx => ?_, fun j hj => ?_, rfl⟩
      · exact putLanes_value w n (hnodup.sublist (List.filter_sublist.map _)) (List.mem_filter.mpr ⟨kget?_mem hx, hl⟩)
      · exact putLanes_other w n fun p hp => hj p.1 (List.mem_filter.mp hp).2
    · rw [landed_msk halone hdest]
      refine ⟨fun l hl => ?_, fun j hj => ?_, rfl⟩
      · refine (getLsbD_putMask w n r.pend (r.sval.setWidth 32) l).trans ?_
        simp [hl]
      · simp only [Warp.putMask, kgetD, kget?_kput_ne _ _ hj]

end Sys2Proof.Laws.Results

namespace Sys2Proof.Laws.Releases

/-! # Fences, releases and posted signals complete (01 R31, R32, 07 R196, R200, R207, 08 R234) -/

open Sys2Proof.Machine Sys2Proof.Safety Sys2Proof.Rules

theorem warp?_kmod_self {s : State} {wid : Nat} {w : Warp} (hw : s.warp? wid = some w) (f : Warp → Warp) :
    kget? (kmod s.warps wid f) wid = some (f w) := by
  rw [kget?_kmod_self, show kget? s.warps wid = some w from hw]; rfl

/-- Of a map whose keys do not repeat, a condition that one entry alone meets keeps that entry alone. -/
theorem filter_eq_single {α : Type} {m : KMap α} {k : Nat} {x : α} {c : Nat × α → Bool} (hm : Unique m) (hk : kget? m k = some x)
    (hx : c (k, x) = true) (ho : ∀ q ∈ m, q.1 ≠ k → c q = false) : m.filter c = [(k, x)] := by
  induction m with
  | nil => simp at hk
  | cons a r ih =>
    obtain ⟨i, v⟩ := a
    obtain ⟨hnot, hr⟩ := List.nodup_cons.mp hm
    simp only [kget?] at hk
    split at hk
    · next h =>
      subst h
      cases hk
      have hnone : r.filter c = [] :=
        List.filter_eq_nil_iff.mpr fun q hq hc => by
          have hne : q.1 ≠ k := fun he => hnot (List.mem_map.mpr ⟨q, hq, he⟩)
          simp [ho q (List.mem_cons_of_mem _ hq) hne] at hc
      rw [List.filter_cons_of_pos hx, hnone]
    · next h =>
      rw [List.filter_cons_of_neg (by simp [ho (i, v) List.mem_cons_self (Ne.symm h)])]
      exact ih hr hk fun q hq => ho q (List.mem_cons_of_mem _ hq)

/-! ## FENCE_COMPLETE -/

/-- The clk of a FENCE is noted once what it waits for is complete. -/
theorem fenceComplete_notes {s : State} {wid slot : Nat} {w : Warp} {p : Split} {sd sc seq key : Nat} (hw : s.warp? wid = some w)
    (hp : kget? w.table slot = some p) (ha : p.after = .fence sd sc seq key 0) (hst : p.st = .spanPark)
    (ho : w.outstanding p = false) (hd : s.priorDone wid seq sc = true) :
    exec (.fenceComplete wid slot) s
      = .next (s.modSplit wid slot fun p => { p with after := .fence sd sc seq key (max (max p.rdy (s.clk + 2)) 1) }) := by
  show execFenceComplete wid slot s = _
  have heff : p.eff = .spanPark := by simp [Split.eff, hst]
  simp only [execFenceComplete, hw, hp, ha, heff, ho, hd, beq_self_eq_true, Bool.not_false, Bool.and_self, if_true]

/-- A split that wakes at the next instruction, with a new span. -/
def woken (s : State) (p : Split) : Split :=
  let q := p.setEff .ready
  { q with
    span := s.nextId, len := 0, after := .none, rdy := 0, notBefore := s.clk, fault := none, pc := q.pc + 1, wobj := 0, waux := 0 }

/-- The warp of a FENCE that has completed with a record. -/
def fenced (s : State) (slot sd sc key : Nat) (word : Word) (w : Warp) : Warp :=
  let u := w.putScalar key sd 0 true word
  { u with
    fstat := word, fenceSc := max w.fenceSc (sc + 1), acqAt := s.nextId, pfr := FailRec.empty, table := kmod u.table slot (woken s) }

/-- An acquire changes its warp's place of the last acquire, its core's logical time and copies (11 R287). -/
theorem acquire_eq (s : State) (wid sc : Nat) :
    s.acquire wid sc = { s with
      warps := kmod s.warps wid fun w => { w with acqAt := s.nextId }, cores := (s.acquire wid sc).cores
      copies := (s.acquire wid sc).copies } := by
  unfold State.acquire
  dsimp only
  split <;> rfl

/-- A FENCE whose clk has come, alone in its clk, completes. -/
theorem fenceComplete_completes {s : State} {wid slot : Nat} {w : Warp} {p : Split} {sd sc seq key due : Nat}
    (hw : s.warp? wid = some w) (hp : kget? w.table slot = some p) (hu : Unique w.table) (ha : p.after = .fence sd sc seq key due)
    (hst : p.st = .spanPark) (h0 : due ≠ 0) (hdue : due ≤ s.clk)
    (halone : ∀ q ∈ w.table, q.1 ≠ slot → ∀ a b c d e, q.2.after = .fence a b c d e → e = 0 ∨ s.clk < e) :
    ∃ cores copies, exec (.fenceComplete wid slot) s = .next { s with
      warps := kmod s.warps wid (fenced s slot sd sc key (w.pfr.word sc)), nextId := s.nextId + 1, cores := cores, copies := copies } := by
  obtain ⟨due, rfl⟩ := Nat.exists_eq_succ_of_ne_zero h0
  have heff : p.eff = .spanPark := by simp [Split.eff, hst]
  show ∃ cores copies, execFenceComplete wid slot s = _
  simp only [execFenceComplete, hw, hp, ha]
  rw [filter_eq_single hu hp]
  · simp only [List.any_cons, List.any_nil, beq_self_eq_true, Bool.or_false, Bool.not_true, Bool.false_eq_true, if_false, List.foldl_cons,
      List.foldl_nil, ha]
    rw [acquire_eq]
    simp only [State.wake, State.freshReady, State.modSplit, State.modWarp, kmod_kmod]
    exact ⟨_, _, rfl⟩
  · simp [ha, heff, hdue]
  · intro q hq hne
    cases hq' : q.2.after with
    | fence a b c d e =>
      have := halone q hq hne a b c d e hq'
      simp only [Bool.and_eq_false_iff, bne_eq_false_iff_eq, decide_eq_false_iff_not]
      omega
    | _ => rfl

/-- The sum that a word's fields make, one field taken off. -/
theorem sum_fields_cons (a lo x : Nat) (l : List (Nat × Nat)) :
    ((lo, x) :: l).foldl (fun a q => a + q.2 * 2 ^ q.1) a = l.foldl (fun a q => a + q.2 * 2 ^ q.1) (a + x * 2 ^ lo) := rfl

/-- The fence status word is that of its fields (01 R31). -/
theorem failRec_word (r : FailRec) (sc : Nat) :
    fieldsOf [(0, if r.causes.toNat / 2 % 32 = 0 then 0 else 1), (1, r.causes.toNat / 2 % 64), (8, sc), (16, r.count), (32, r.pkg), (41, r.die)]
      = r.word sc := by
  rw [fieldsOf, sum_fields_cons, sum_fields_cons, sum_fields_cons, sum_fields_cons, sum_fields_cons, sum_fields_cons, List.foldl_nil,
    pow_zero, pow_one, Nat.mul_one, Nat.zero_add, FailRec.word, ite_not]

/-- The split of a FENCE that has completed. -/
theorem woken_facts (s : State) {p : Split} (hst : p.st = .spanPark) :
    (woken s p).st = .ready ∧ (woken s p).pc = p.pc + 1 ∧ (woken s p).lmask = p.lmask ∧ (woken s p).notBefore = s.clk := by
  simp [woken, Split.setEff, hst]

/-- A FENCE that has completed has changed its scalar, FSTAT, the failure record and its split (07 R200). -/
theorem fenced_facts (s : State) {w : Warp} {p : Split} {slot : Nat} (hp : kget? w.table slot = some p) (hst : p.st = .spanPark)
    (sd sc key : Nat) (word : Word) :
    let w' := fenced s slot sd sc key word w
    w' = { w with table := w'.table, sc := w'.sc, scKey := w'.scKey, fstat := word, pfr := FailRec.empty, acqAt := w'.acqAt,
                  fenceSc := max w.fenceSc (sc + 1) }
      ∧ (sd < 63 → w.laterScalar key sd 0 true = false → kgetD w.scKey sd 0 ≤ key → kgetD w'.sc sd 0 = word)
      ∧ (sd = 63 ∨ w.laterScalar key sd 0 true = true → w'.sc = w.sc) ∧ (∀ j, j ≠ sd → kgetD w'.sc j 0 = kgetD w.sc j 0)
      ∧ OthersKept w w' slot
      ∧ ∃ p', kget? w'.table slot = some p' ∧ p'.st = .ready ∧ p'.pc = p.pc + 1 ∧ p'.lmask = p.lmask ∧ p'.notBefore = s.clk := by
  obtain ⟨hready, hpc, hlanes, hnb⟩ := woken_facts s hst
  have hframe := Results.putScalar_frame w key sd 0 true word
  have htable : (w.putScalar key sd 0 true word).table = w.table := by rw [hframe]
  refine ⟨?_, fun hsd hlate hkey => ?_, fun hnone => ?_, fun j hj => ?_, fun k hk => ?_, woken s p, ?_, hready, hpc, hlanes, hnb⟩
  · simp only [fenced]
    rw [hframe]
  · exact (Results.putScalar_sc w true word hsd fun _ => hkey).trans (if_pos ⟨hkey, hlate⟩)
  · show (w.putScalar key sd 0 true word).sc = w.sc
    rw [Warp.putScalar, if_pos hnone]
  · exact Results.putScalar_sc_ne w key sd 0 true word hj
  · simp only [fenced, htable, kget?_kmod_ne _ _ hk]
  · simp [fenced, htable, hp]

/-! ## UNLOCK_DEPART -/

/-- A request that is sent out is on its way, or waits for the home fields; it arrives no earlier than now. -/
theorem sendOut_sends (s : State) (id : Nat) (r : Req) :
    ∃ r', s.sendOut id r false = { s with reqs := kput s.reqs id r' } ∧ r'.clk = r.clk ∧ (r'.phase = .out ∨ r'.phase = .plc)
      ∧ s.clk ≤ r'.arrive := by
  have home : ∀ hp hd, ∃ r', s.sendHome id r hp hd false = { s with reqs := kput s.reqs id r' } ∧ r'.clk = r.clk
      ∧ (r'.phase = .out ∨ r'.phase = .plc) ∧ s.clk ≤ r'.arrive := fun hp hd =>
    ⟨_, rfl, rfl, .inl rfl, Nat.le_add_right _ _⟩
  unfold State.sendOut
  split
  split
  · split
    · exact home _ _
    · exact home _ _
  · exact ⟨_, rfl, rfl, .inr rfl, Nat.le_add_right _ _⟩

/-- An unlock whose accesses are complete and made departs. -/
theorem unlockDepart_departs {s : State} {id : Nat} {r : Req} (hr : kget? s.reqs id = some r) (hk : r.kind = .unlock)
    (hp : r.phase = .held) (hs : s.signalReady r.wid r.seq r.scope = true)
    (hl : ∀ q ∈ s.reqs, q.2.from r.wid = true → q.2.seq < r.seq → q.2.kind = .store → q.2.overlaps r = true → q.2.unmade = false) :
    exec (.unlockDepart id) s
      = .next ((s.modReq id fun r => { r with clk := s.clk }).sendOut id { r with clk := s.clk } false) := by
  have hline : (s.reqs.any fun q =>
      q.2.from r.wid && decide (q.2.seq < r.seq) && q.2.kind == .store && q.2.overlaps r && q.2.unmade) = false := by
    rw [List.any_eq_false]
    intro q hq hc
    simp only [Bool.and_eq_true, decide_eq_true_eq, beq_iff_eq] at hc
    obtain ⟨⟨⟨⟨hfrom, hseq⟩, hstore⟩, hover⟩, hunmade⟩ := hc
    simp [hl q hq hfrom hseq hstore hover] at hunmade
  show execUnlockDepart id s = _
  simp only [execUnlockDepart, hr, hline, hk, hp, hs]
  rfl

/-! ## EVNT_APPEND and CSIG_APPLY -/

/-- A record is appended to an event ring as 15 R363 says, whatever signals are under way, and no warp changes. -/
theorem postEvent_appends (s : State) (posts : KMap Post) (q kind status tag launch node body : Nat) :
    let t := { s with posts := posts }.postEvent q kind status tag launch node body
    EventAppended s t q kind status tag launch node body ∧ t.warps = s.warps ∧ t.posts = posts := by
  have hphase : ∀ n : Nat, (if n % 2 = 0 then 2 ^ 127 else 0) = 2 ^ 127 * ((n + 1) % 2) := fun n => by split <;> omega
  intro t
  have hq : { s with posts := posts }.queueD q = s.queueD q := rfl
  simp only [t, State.postEvent, EventAppended, hq]
  split
  · exact ⟨⟨rfl, rfl⟩, rfl, rfl⟩
  · rw [hphase, feWrite_eq, feWrite_mem_congr (s := { s with posts := posts }) (t := s) rfl rfl rfl]
    exact ⟨⟨rfl, rfl⟩, rfl, rfl⟩

/-- A fold whose steps leave the start as it is. -/
theorem foldl_fixed_of_mem {σ α : Type} {f : σ → α → σ} {s : σ} (l : List α) (h : ∀ a ∈ l, f s a = s) : l.foldl f s = s := by
  induction l with
  | nil => rfl
  | cons a r ih =>
    rw [List.foldl_cons, h a List.mem_cons_self]
    exact ih fun b hb => h b (List.mem_cons_of_mem _ hb)

theorem kget?_of_unique {α : Type} {m : KMap α} (hm : Unique m) {k : Nat} {x : α} (h : (k, x) ∈ m) : kget? m k = some x := by
  induction m with
  | nil => simp at h
  | cons a r ih =>
    obtain ⟨i, v⟩ := a
    obtain ⟨hnot, hr⟩ := List.nodup_cons.mp hm
    rcases List.mem_cons.mp h with he | hmem
    · cases he; simp [kget?]
    · have hne : k ≠ i := fun he => hnot (List.mem_map.mpr ⟨(k, x), hmem, he⟩)
      simp only [kget?, hne, if_false]
      exact ih hr hmem

/-- Where no CWAIT of a block waits, a counter that changes wakes none. -/
theorem counterCheck_idle {s : State} {bid : Nat} (hu : Unique s.warps)
    (h : ∀ k v, s.warp? k = some v → v.block = bid → ∀ q ∈ v.table, q.2.eff ≠ .cntWait) (n : Nat) :
    s.counterCheck bid n = s := by
  refine foldl_fixed_of_mem _ fun wid hwid => ?_
  simp only [State.warpsOf, List.mem_map, List.mem_filter, beq_iff_eq] at hwid
  obtain ⟨⟨k, v⟩, ⟨hmem, hblock⟩, rfl⟩ := hwid
  have hv : s.warp? k = some v := kget?_of_unique hu hmem
  have hd : s.warpD k = v := by simp [State.warpD, hv]
  refine foldl_fixed_of_mem _ fun q hq => ?_
  dsimp only at hq
  rw [hd] at hq
  dsimp only
  split
  · exact if_neg fun hc => h k v hv hblock q hq hc.1
  · rfl

/-- A signal EVNT whose release holds appends its record. -/
theorem evntAppend_appends {s : State} {id : Nat} {x : Post} (hx : kget? s.posts id = some x)
    (hs : s.signalReady x.wid x.seq x.scope = true) (hev : x.evnt = true) :
    ∃ t, exec (.evntAppend id) s = .next t ∧ t.posts = kdel s.posts id ∧ t.warps = s.warps ∧ EvntAppended s t x.wid x.num x.val := by
  obtain ⟨happ, hwarps, hposts⟩ := postEvent_appends s (kdel s.posts id) (s.launchOf x.wid).queue 0 0 (s.launchOf x.wid).tag
    (s.blockOf x.wid).launch 0 (evntBody (s.blockOf x.wid) (s.warpD x.wid).wblk x.num x.val)
  refine ⟨_, ?_, hposts, hwarps, happ⟩
  show execEvntAppend id s = _
  simp only [execEvntAppend, hx, hev, hs]
  rfl

/-- A signal CSIG whose release holds adds to its counter, where no CWAIT of the block waits. -/
theorem csigApply_adds {s : State} {id : Nat} {x : Post} (hx : kget? s.posts id = some x)
    (hs : s.signalReady x.wid x.seq x.scope = true) (hev : x.evnt = false) (hb : (s.block? (s.warpD x.wid).block).isSome = true)
    (hu : Unique s.warps)
    (hidle : ∀ k v, s.warp? k = some v → v.block = (s.warpD x.wid).block → ∀ q ∈ v.table, q.2.eff ≠ .cntWait) :
    ∃ t, exec (.csigApply id) s = .next t ∧ t = { s with posts := kdel s.posts id, blocks := t.blocks }
      ∧ t.blockD (s.warpD x.wid).block = { s.blockOf x.wid with
          counters := kput (s.blockOf x.wid).counters x.num (kgetD (s.blockOf x.wid).counters x.num 0 + BitVec.ofNat 64 x.val) } := by
  obtain ⟨b, hb⟩ := Option.isSome_iff_exists.mp hb
  let u := { s with posts := kdel s.posts id }.modBlock (s.warpD x.wid).block fun b =>
    { b with counters := kput b.counters x.num (kgetD b.counters x.num 0 + BitVec.ofNat 64 x.val) }
  have hcheck : u.counterCheck (s.warpD x.wid).block x.num = u := counterCheck_idle (s := u) hu hidle x.num
  refine ⟨u, ?_, rfl, ?_⟩
  · show execCsigApply id s = _
    simp only [execCsigApply, hx, hev, hs]
    exact congrArg Host.Outcome.next hcheck
  · have hget : kget? s.blocks (s.warpD x.wid).block = some b := hb
    simp [u, State.blockD, State.block?, State.modBlock, State.blockOf, hget]

/-- Settles O13: each step finds its accesses complete and takes its effect; the parts are FENCE_COMPLETE (twice), UNLOCK_DEPART and the
posted signals. -/
theorem releases : Obligations.Releases := by
  refine ⟨?_, ?_, ?_, ?_⟩
  · intro s wid slot w p sd sc seq key hw hp ha hst ho hd
    refine ⟨_, _, fenceComplete_notes hw hp ha hst ho hd, rfl, fun k hk => kget?_kmod_ne s.warps _ hk, warp?_kmod_self hw _, rfl,
      fun k hk => kget?_kmod_ne w.table _ hk, ?_⟩
    simp [hp]
  · intro s wid slot w p sd sc seq key due hw hp hu ha hst h0 hdue halone
    obtain ⟨cores, copies, hexec⟩ := fenceComplete_completes hw hp hu ha hst h0 hdue halone
    dsimp only
    rw [failRec_word]
    exact ⟨_, _, hexec, rfl, warp?_kmod_self hw _, fenced_facts s hp hst sd sc key _⟩
  · intro s id r hr hk hp hs hl
    obtain ⟨r', hsend, hclk, hphase, harrive⟩ := sendOut_sends (s.modReq id fun r => { r with clk := s.clk }) id { r with clk := s.clk }
    refine ⟨_, r', unlockDepart_departs hr hk hp hs hl, ?_, ?_, hclk, hphase, harrive⟩
    · rw [hsend]; rfl
    · rw [hsend]; exact kget?_kput_self _ _ _
  · intro s id x hx hs
    exact ⟨evntAppend_appends hx hs, csigApply_adds hx hs⟩

end Sys2Proof.Laws.Releases

namespace Sys2Proof.Laws.Transfers

/-! # Faults of transfers, and EXIT (05 R114, R118, R119, R123) -/

open Sys2Proof.Machine Sys2Proof.Safety Sys2Proof.Rules

/-- A precise fault of the issuer is taken (02 R63). -/
theorem raise_takes {s : State} {w : Warp} {p : Split} (h : Issuer s w p) (words code : Nat) (info : Word) :
    TakesFault s (s.raise words code info) w p code info := raiseAt_takes h (.issue words) code info

/-! ## The pair of a transfer -/

/-- The fault of the pair that a transfer names comes before anything else that it does (05 R118, R119). -/
theorem exec_pairFault {s : State} {i : Instr} {r : Nat} {rd : Bool} (hi : targetPair i = some (r, rd)) {code : Nat} {info : Word}
    (hf : s.pairFault r rd = some (code, info)) : exec i s = .next (s.raise 1 code info) := by
  cases i with
  | jmpi f => cases hi; show execJmpi f s = _; simp only [execJmpi, hf]
  | ret f => cases hi; show execRet f s = _; simp only [execRet, hf]
  | callInd f => cases hi; show execCallInd f s = _; simp only [execCallInd, hf]
  | call f => cases hi; show execCall f s = _; simp only [execCall, hf]
  | _ => cases hi

theorem pairFault_regrange {s : State} {r : Nat} {rd : Bool} (h : s.curWarp.budget ≤ r + 1) :
    s.pairFault r rd = some (0x02, BitVec.ofNat 64 ((if s.curWarp.budget ≤ r then r else r + 1) + 2 ^ 8 * (s.curWarp.budget / 8))) := by
  unfold State.pairFault
  by_cases hr : s.curWarp.budget ≤ r
  · simp only [hr, if_true]; rfl
  · simp only [hr, h, if_true, if_false]; rfl

theorem pairFault_even {s : State} {r : Nat} (h : r + 1 < s.curWarp.budget) (ht : s.tagOfReg r ∉ [0, 14]) :
    s.pairFault r true = some (0x03, BitVec.ofNat 64 (r + 2 ^ 8 * (s.tagOfReg r).toNat + 2 ^ 12 * 14)) := by
  have h0 : ¬ s.curWarp.budget ≤ r := by omega
  have h1 : ¬ s.curWarp.budget ≤ r + 1 := by omega
  have hne : s.tagOfReg r ≠ 0 ∧ s.tagOfReg r ≠ 14 := by simpa using ht
  simp only [State.pairFault, h0, h1, hne, if_false, if_true, Bool.not_true, Bool.false_eq_true, ne_eq, not_false_eq_true, and_self]

theorem pairFault_odd {s : State} {r : Nat} (h : r + 1 < s.curWarp.budget) (he : s.tagOfReg r ∈ [0, 14])
    (ho : s.tagOfReg (r + 1) ∉ [0, 15]) :
    s.pairFault r true = some (0x03, BitVec.ofNat 64 (r + 1 + 2 ^ 8 * (s.tagOfReg (r + 1)).toNat + 2 ^ 12 * 14)) := by
  have h0 : ¬ s.curWarp.budget ≤ r := by omega
  have h1 : ¬ s.curWarp.budget ≤ r + 1 := by omega
  have heven : ¬(s.tagOfReg r ≠ 0 ∧ s.tagOfReg r ≠ 14) := by
    simp only [List.mem_cons, List.not_mem_nil, or_false] at he
    tauto
  have hodd : s.tagOfReg (r + 1) ≠ 0 ∧ s.tagOfReg (r + 1) ≠ 15 := by simpa using ho
  simp only [State.pairFault, h0, h1, if_false, Bool.not_true, Bool.false_eq_true]
  rw [if_neg heven, if_pos hodd]

/-- A pair that passes has no fault. -/
theorem pairFault_none {s : State} {w : Warp} {i : Instr} {r : Nat} {rd : Bool} (hw : s.curWarp = w) (hp : PairPasses s w i)
    (hi : targetPair i = some (r, rd)) : s.pairFault r rd = none := by
  obtain ⟨hlt, htags⟩ := hp r rd hi
  have h0 : ¬ w.budget ≤ r := by omega
  have h1 : ¬ w.budget ≤ r + 1 := by omega
  simp only [State.pairFault, hw, h0, h1, if_false]
  cases rd with
  | false => rfl
  | true =>
    obtain ⟨heven, hodd⟩ := htags rfl
    simp only [List.mem_cons, List.not_mem_nil, or_false] at heven hodd
    simp only [Bool.not_true, Bool.false_eq_true, if_false]
    rw [if_neg (by tauto), if_neg (by tauto)]

/-! ## Divisions at depth 31 -/

/-- One lane enters the grouping of the lanes by target. -/
def addLane (acc : List (BitVec 48 × Lanes)) (p : Nat × BitVec 48) : List (BitVec 48 × Lanes) :=
  if acc.any fun q => q.1 == p.2 then acc.map fun q => if q.1 = p.2 then (q.1, q.2 ||| (1#32 <<< p.1)) else q
  else acc ++ [(p.2, 1#32 <<< p.1)]

theorem groupTargets_eq (l : List (Nat × BitVec 48)) : groupTargets l = l.foldl addLane [] := rfl

theorem mem_addLane {acc : List (BitVec 48 × Lanes)} {p : Nat × BitVec 48} {t : BitVec 48} (h : t ∈ acc.map Prod.fst ∨ t = p.2) :
    t ∈ (addLane acc p).map Prod.fst := by
  have hkeys : (acc.map fun q => if q.1 = p.2 then (q.1, q.2 ||| (1#32 <<< p.1)) else q).map Prod.fst = acc.map Prod.fst := by
    rw [List.map_map]
    refine List.map_congr_left fun q _ => ?_
    simp only [Function.comp_apply]
    split <;> rfl
  unfold addLane
  split
  · next hany =>
    rw [hkeys]
    refine h.elim id fun he => ?_
    obtain ⟨q, hq, hqt⟩ := List.any_eq_true.mp hany
    exact List.mem_map.mpr ⟨q, hq, (beq_iff_eq.mp hqt).trans he.symm⟩
  · rw [List.map_append, List.mem_append]
    exact h.imp id fun he => by simp [he]

/-- Every target stands in the grouping of the lanes by target. -/
theorem mem_groupTargets {l : List (Nat × BitVec 48)} {x : Nat × BitVec 48} (hx : x ∈ l) : x.2 ∈ (groupTargets l).map Prod.fst := by
  have step : ∀ (l : List (Nat × BitVec 48)) (acc : List (BitVec 48 × Lanes)) (t : BitVec 48),
      t ∈ acc.map Prod.fst ∨ t ∈ l.map Prod.snd → t ∈ (l.foldl addLane acc).map Prod.fst := by
    intro l
    induction l with
    | nil => intro acc t ht; simpa using ht
    | cons a r ih =>
      intro acc t ht
      refine ih _ t ?_
      rw [List.map_cons, List.mem_cons, ← or_assoc] at ht
      exact ht.imp mem_addLane id
  exact step l [] x.2 (.inr (List.mem_map_of_mem hx))

/-- A list of parts with two targets has two parts. -/
theorem two_parts {l : List (BitVec 48 × Lanes)} {a b : BitVec 48} (ha : a ∈ l.map Prod.fst) (hb : b ∈ l.map Prod.fst) (h : a ≠ b) :
    ∃ x y r, l = x :: y :: r := by
  match l with
  | [] => simp at ha
  | [x] => simp_all
  | x :: y :: r => exact ⟨x, y, r, rfl⟩

/-- Lanes with two targets are two parts at least (05 R118). -/
theorem targets_two {s : State} {p : Split} (hp : s.curSplit = p) {r a b : Nat} (ha : p.lmask.getLsbD a = true)
    (hb : p.lmask.getLsbD b = true) (h : (s.rdPair r a).extractLsb' 0 48 ≠ (s.rdPair r b).extractLsb' 0 48) :
    ∃ x y l, s.targets r = x :: y :: l := by
  have hcast : ∀ x : Word, x.setWidth 48 = x.extractLsb' 0 48 := fun x => by ext; simp
  have mem : ∀ l, p.lmask.getLsbD l = true → (s.rdPair r l).extractLsb' 0 48 ∈ (s.targets r).map Prod.fst := fun l hl => by
    rw [← hcast, State.targets, hp]
    exact mem_groupTargets (x := (l, (s.rdPair r l).setWidth 48)) (List.mem_map_of_mem ((Results.mem_lanesOf p.lmask l).mpr hl))
  exact two_parts (mem a ha) (mem b hb) h

/-- A transfer of two parts or more into a deeper group, at depth 31, takes JDEPTH (05 R114). -/
theorem transfer_jdepth {s : State} {p : Split} (hp : s.curSplit = p) (sw : Bool) (lat : Nat) {j : BitVec 16} (hj : j ≠ 0)
    (hg : p.jgrp = 31) {parts : List (BitVec 48 × Lanes)} (hl : ∃ x y r, parts = x :: y :: r) :
    s.transfer sw lat j parts = s.raise 1 0x06 0 := by
  obtain ⟨x, y, r, rfl⟩ := hl
  simp only [State.transfer, hp]
  rw [if_pos ⟨hj, hg⟩]

/-- BRX divides the split by its mask register (05 R117): both parts have lanes where two lanes differ. -/
theorem brx_divides {s : State} {p : Split} (hp : s.curSplit = p) (f : JFmt) {a b : Nat} (ha : p.lmask.getLsbD a = true)
    (hb : p.lmask.getLsbD b = true) (hne : (s.rdM f.reg.toNat).getLsbD a ≠ (s.rdM f.reg.toNat).getLsbD b) :
    exec (.brx f) s = .next (s.transfer f.sw 4 f.jofs [(pcPlus p.pc f.bofs, p.lmask &&& s.rdM f.reg.toNat),
      (p.pc + 1, p.lmask &&& ~~~(p.lmask &&& s.rdM f.reg.toNat))]) := by
  generalize hm : s.rdM f.reg.toNat = m at hne
  obtain ⟨x, y, hx, hy, hxm, hym⟩ : ∃ x y, p.lmask.getLsbD x = true ∧ p.lmask.getLsbD y = true ∧ m.getLsbD x = true
      ∧ m.getLsbD y = false := by
    cases hma : m.getLsbD a <;> cases hmb : m.getLsbD b
    · simp [hma, hmb] at hne
    · exact ⟨b, a, hb, ha, hmb, hma⟩
    · exact ⟨a, b, ha, hb, hma, hmb⟩
    · simp [hma, hmb] at hne
  have htaken : p.lmask &&& m ≠ 0 := fun h => by
    have := congrArg (·.getLsbD x) h
    simp [hx, hxm] at this
  have hrest : p.lmask &&& ~~~(p.lmask &&& m) ≠ 0 := fun h => by
    have := congrArg (·.getLsbD y) h
    simp only [BitVec.getLsbD_and, BitVec.getLsbD_not, hy, hym, BitVec.lt_of_getLsbD hy, decide_true, Bool.true_and, Bool.not_false]
      at this
    simp at this
  show execBrx f s = _
  simp only [execBrx, hp, hm, htaken, hrest, if_false]

/-- A division at depth 31 takes JDEPTH. -/
theorem exec_jdepth {s : State} {w : Warp} {p : Split} (h : Issuer s w p) {i : Instr} {j : BitVec 16} {lat a b : Nat}
    {tgt : Nat → BitVec 48 × Bool} (hi : transferRule s p i = some (j, lat, tgt)) (hpass : PairPasses s w i)
    (ha : p.lmask.getLsbD a = true) (hb : p.lmask.getLsbD b = true) (hne : tgt a ≠ tgt b) (hj : j ≠ 0) (hg : p.jgrp = 31) :
    exec i s = .next (s.raise 1 0x06 0) := by
  have hp := issuer_curSplit h
  cases i with
  | brx f =>
    simp only [transferRule] at hi
    split at hi
    · cases hi
    · cases hi
      have hm : (s.rdM f.reg.toNat).getLsbD a ≠ (s.rdM f.reg.toNat).getLsbD b := fun he => hne (by simp only [he])
      rw [brx_divides hp f ha hb hm, transfer_jdepth hp _ _ hj hg ⟨_, _, _, rfl⟩]
  | jmpi f =>
    cases hi
    have ht : (s.rdPair f.reg.toNat a).extractLsb' 0 48 ≠ (s.rdPair f.reg.toNat b).extractLsb' 0 48 := fun he => hne (by simp only [he])
    show execJmpi f s = _
    simp only [execJmpi, pairFault_none (issuer_curWarp h) hpass rfl]
    rw [transfer_jdepth hp _ _ hj hg (targets_two hp ha hb ht)]
  | ret f =>
    cases hi
    have ht : (s.rdPair f.reg.toNat a).extractLsb' 0 48 ≠ (s.rdPair f.reg.toNat b).extractLsb' 0 48 := fun he => hne (by simp only [he])
    show execRet f s = _
    simp only [execRet, pairFault_none (issuer_curWarp h) hpass rfl]
    rw [transfer_jdepth hp _ _ hj hg (targets_two hp ha hb ht)]
  | bra f => cases hi; exact absurd rfl hj
  | yield f => cases hi; exact absurd rfl hj
  | brc f =>
    obtain ⟨-, hc⟩ := Option.ite_none_right_eq_some.mp hi
    cases hc
    exact absurd rfl hj
  | _ => cases hi

/-- A call that would divide at depth 31 takes JDEPTH, and leaves no return address (05 R119). -/
theorem exec_call_jdepth {s : State} {w : Warp} {p : Split} (h : Issuer s w p) {i : Instr} {r : Nat} {j : BitVec 16} {lat a b : Nat}
    {tgt : Nat → BitVec 48} (hi : callRule s p i = some (r, j, lat, tgt)) (hpass : PairPasses s w i)
    (ha : p.lmask.getLsbD a = true) (hb : p.lmask.getLsbD b = true) (hne : tgt a ≠ tgt b) (hj : j ≠ 0) (hg : p.jgrp = 31) :
    exec i s = .next (s.raise 1 0x06 0) := by
  have hp := issuer_curSplit h
  cases i with
  | call f => cases hi; exact absurd rfl hj
  | callInd f =>
    cases hi
    obtain ⟨x, y, l, hl⟩ := targets_two hp ha hb hne
    have hdivides : 1 < (x :: y :: l).length ∧ f.jofs ≠ 0 ∧ s.curSplit.jgrp = 31 := ⟨by simp, hj, by rw [hp]; exact hg⟩
    show execCallInd f s = _
    simp only [execCallInd, pairFault_none (issuer_curWarp h) hpass rfl, hl]
    rw [if_pos hdivides]
  | _ => cases hi

/-! ## EXIT -/

theorem kget?_kdel_self {α : Type} {m : KMap α} (hm : Unique m) (k : Nat) : kget? (kdel m k) k = none := by
  induction m with
  | nil => rfl
  | cons a r ih =>
    obtain ⟨i, v⟩ := a
    obtain ⟨hnot, hr⟩ := List.nodup_cons.mp hm
    simp only [kdel]
    split
    · next he =>
      subst he
      cases hk : kget? r k with
      | none => rfl
      | some x => exact absurd (List.mem_map.mpr ⟨(k, x), Results.kget?_mem hk, rfl⟩) hnot
    · next he => simp only [kget?, he, if_false]; exact ih hr

theorem mem_of_mem_kdel {α : Type} {m : KMap α} {k : Nat} {q : Nat × α} (h : q ∈ kdel m k) : q ∈ m := by
  induction m with
  | nil => exact h
  | cons a r ih =>
    simp only [kdel] at h
    split at h
    · exact List.mem_cons_of_mem _ h
    · rcases List.mem_cons.mp h with rfl | hr
      · exact List.mem_cons_self
      · exact List.mem_cons_of_mem _ (ih hr)

/-- Removing a key that is present leaves one entry fewer. -/
theorem length_kdel {α : Type} {m : KMap α} {k : Nat} {x : α} (h : kget? m k = some x) : (kdel m k).length + 1 = m.length := by
  induction m with
  | nil => simp at h
  | cons a r ih =>
    obtain ⟨i, v⟩ := a
    simp only [kget?] at h
    simp only [kdel]
    split
    · rfl
    · next he =>
      rw [if_neg he] at h
      simp only [List.length_cons, ih h]

theorem kgetD_kmap_and (m : KMap Lanes) (x : Lanes) (r : Nat) :
    kgetD (kmap m fun _ (y : Lanes) => y &&& x) r 0 = kgetD m r 0 &&& x := by
  induction m with
  | nil => simp [kmap, kgetD]
  | cons a m ih =>
    obtain ⟨i, v⟩ := a
    simp only [kgetD, kmap, List.map_cons, kget?] at ih ⊢
    split
    · rfl
    · exact ih

/-- A warp that holds a lock does not end: EXIT of its last split takes LOCKEXIT (07 R194). -/
theorem exit_lockexit {s : State} {w : Warp} {p : Split} (h : Issuer s w p) (f : JFmt) (hlen : w.table.length = 1)
    (hlocks : w.heldLocks ≠ []) : exec (.exit f) s = .next (s.raise 1 0x07 (BitVec.ofNat 64 w.heldLocks.length)) := by
  show execExit f s = _
  simp only [execExit, issuer_curWarp h]
  rw [if_pos ⟨hlen, by simpa using hlocks⟩]

/-- No barrier arrival is pending: the exit of lanes completes none. -/
theorem exitArrives_of_none {s : State} {wid : Nat} (h : (s.warpD wid).arrSet = []) : s.exitArrives wid = s := by
  rw [State.exitArrives, h, List.foldl_nil]

/-- The splits that remain are in no group and wait in no WSYNC: the exit of one completes nothing for them. -/
theorem afterExit_of_idle {s : State} {wid : Nat} {w : Warp} {p : Split} (hw : s.warp? wid = some w) (hg : p.jgrp = 0)
    (harr : w.arrSet = []) (hst : ∀ q ∈ w.table, q.2.st = .ready ∨ q.2.st = .spanPark) : s.afterExit wid p = s := by
  have hjoin : s.joinCheck wid p.jgrp p.jpc = s := by
    simp only [State.joinCheck, hw, hg]
    split
    · rfl
    · exact if_neg fun hc => hc.1 rfl
  have hnone : w.syncers = [] := by
    refine List.filterMap_eq_nil_iff.mpr fun q hq => ?_
    have heff : q.2.eff ≠ .barWait := by
      rcases hst q hq with h | h <;> simp [Split.eff, h]
    split
    · exact if_neg heff
    · rfl
  have hd : s.warpD wid = w := by simp [State.warpD, hw]
  rw [State.afterExit, hjoin, exitArrives_of_none (by rw [hd, harr])]
  simp only [State.syncCheck, hw, hnone]

/-- What is left of the warp when the lanes of a split have exited (05 R123, 01 R19). -/
theorem exitLanes_facts (w : Warp) (slot : Nat) (p : Split) (hu : Unique w.table) :
    let w' := w.exitLanes slot p
    kget? w'.table slot = none ∧ OthersKept w w' slot ∧ (∀ r, kgetD w'.m r 0 = kgetD w.m r 0 &&& ~~~p.lmask) ∧ w'.v = w.v
      ∧ w'.sc = w.sc ∧ w'.tags = w.tags ∧ w'.ended = w.ended ∧ w'.arrSet = w.arrSet :=
  ⟨kget?_kdel_self hu slot, fun _ hk => kget?_kdel_ne w.table hk, kgetD_kmap_and w.m _, rfl, rfl, rfl, rfl, rfl⟩

/-- When the last lanes of a block have ended, tile tasks may go; nothing else does (08 R217). -/
theorem discardTasks_eq (s : State) (bid : Nat) : s.discardTasks bid = { s with works := (s.discardTasks bid).works } := by
  unfold State.discardTasks
  split <;> rfl

/-- EXIT of a split whose warp holds no lock, or has other splits: the last split ends its warp (05 R123). -/
theorem exit_ends {s : State} {w : Warp} {p : Split} (h : Issuer s w p) (f : JFmt) (hu : Unique w.table)
    (hlocks : w.table.length = 1 → w.heldLocks = []) (hg : p.jgrp = 0) (harr : w.arrSet = [])
    (hst : ∀ k q, kget? w.table k = some q → q.st = .ready ∨ q.st = .spanPark) :
    ∃ works g, exec (.exit f) s = .next { s with free := s.free + 1, works := works, warps := kmod s.warps s.cur.1 g }
      ∧ g w = if w.table.length = 1 then { w.exitLanes s.cur.2 p with ended := true, moves := [] } else w.exitLanes s.cur.2 p := by
  let s1 := { s with free := s.free + 1 }.modWarp s.cur.1 fun w => w.exitLanes s.cur.2 p
  have hw1 : s1.warp? s.cur.1 = some (w.exitLanes s.cur.2 p) :=
    (kget?_kmod_self s.warps s.cur.1 _).trans (congrArg (Option.map _) h.1)
  have hd1 : s1.warpD s.cur.1 = w.exitLanes s.cur.2 p := by simp [State.warpD, hw1]
  have hlen : (w.exitLanes s.cur.2 p).table.length + 1 = w.table.length := length_kdel h.2.1
  have hguard : ¬(w.table.length = 1 ∧ (!w.heldLocks.isEmpty) = true) := fun ⟨h1, h2⟩ => by simp [hlocks h1] at h2
  have hexec : exec (.exit f) s = if (w.exitLanes s.cur.2 p).table.isEmpty
      then .next (((s1.modWarp s.cur.1 fun w => { w with ended := true, moves := [] }).exitArrives s.cur.1).discardTasks w.block)
      else .next (s1.afterExit s.cur.1 p) := by
    show execExit f s = _
    simp only [execExit, issuer_curWarp h, issuer_curSplit h, ← hd1]
    rw [if_neg hguard]
  rw [hexec]
  by_cases h1 : w.table.length = 1
  · have hempty : (w.exitLanes s.cur.2 p).table.isEmpty = true := by rw [List.isEmpty_iff_length_eq_zero]; omega
    have hw2 : (s1.modWarp s.cur.1 fun w => { w with ended := true, moves := [] }).warpD s.cur.1
        = { w.exitLanes s.cur.2 p with ended := true, moves := [] } := by
      simp only [State.warpD, warp?_modWarp, hw1, if_true]; rfl
    rw [if_pos hempty, exitArrives_of_none (by rw [hw2]; exact harr), discardTasks_eq, if_pos h1]
    simp only [s1, State.modWarp, kmod_kmod]
    exact ⟨_, _, rfl, rfl⟩
  · have hsome : ¬(w.exitLanes s.cur.2 p).table.isEmpty = true := by rw [List.isEmpty_iff_length_eq_zero]; omega
    have hidle : ∀ q ∈ (w.exitLanes s.cur.2 p).table, q.2.st = .ready ∨ q.2.st = .spanPark := fun q hq =>
      hst q.1 q.2 (Releases.kget?_of_unique hu (mem_of_mem_kdel hq))
    rw [if_neg hsome, afterExit_of_idle hw1 hg harr hidle, if_neg h1]
    exact ⟨s.works, _, rfl, rfl⟩

/-- Settles O35: the faults of the pair, the divisions at depth 31, and EXIT. -/
theorem transfersStop : Obligations.TransfersStop := by
  refine ⟨⟨?_, ?_, ?_⟩, ?_⟩
  · intro s w p i r rd h hi
    have takes := raise_takes h 1
    obtain rfl := issuer_curWarp h
    refine ⟨fun hr => ⟨_, exec_pairFault hi (pairFault_regrange hr), takes _ _⟩, fun hr hrd ht => ?_, fun hr hrd he ho => ?_⟩
    · subst hrd; exact ⟨_, exec_pairFault hi (pairFault_even hr ht), takes _ _⟩
    · subst hrd; exact ⟨_, exec_pairFault hi (pairFault_odd hr he ho), takes _ _⟩
  · intro s w p i j lat a b tgt h hi hpass ha hb hne hj hg
    exact ⟨_, exec_jdepth h hi hpass ha hb hne hj hg, raise_takes h 1 _ _⟩
  · intro s w p i r j lat a b tgt h hi hpass ha hb hne hj hg
    exact ⟨_, exec_call_jdepth h hi hpass ha hb hne hj hg, raise_takes h 1 _ _⟩
  · intro s w p f h hu
    refine ⟨fun hlen hlocks => ⟨_, exit_lockexit h f hlen hlocks, raise_takes h 1 _ _⟩, fun hlocks hg harr hst => ?_⟩
    obtain ⟨works, g, hexec, hgw⟩ := exit_ends h f hu hlocks hg harr hst
    obtain ⟨hnone, hothers, hmask, hv, hsc, htags, hended, -⟩ := exitLanes_facts w s.cur.2 p hu
    refine ⟨_, g w, hexec, (kget?_kmod_self s.warps s.cur.1 g).trans (congrArg (Option.map g) h.1), ?_⟩
    rw [hgw]
    by_cases h1 : w.table.length = 1
    · rw [if_pos h1]
      exact ⟨hnone, hothers, hmask, hv, hsc, htags, fun _ => rfl, fun hc => absurd h1 hc, rfl, fun k hk => kget?_kmod_ne s.warps g hk⟩
    · rw [if_neg h1]
      exact ⟨hnone, hothers, hmask, hv, hsc, htags, fun hc => absurd hc h1, fun _ => hended, rfl, fun k hk => kget?_kmod_ne s.warps g hk⟩

end Sys2Proof.Laws.Transfers

namespace Sys2Proof.Laws.Commands

/-! # Engine commands enter their queues or fault (08 R211 to R230) -/

open Sys2Proof.Machine Sys2Proof.Safety Sys2Proof.Rules

/-! ## Fields -/

theorem tdField_eq (d : BitVec 128) (lo n : Nat) : tdField d lo n = (d.extractLsb' lo n).toNat := by
  rw [BitVec.extractLsb'_toNat, Nat.shiftRight_eq_div_pow]; rfl

/-- A field is zero as a number when it is zero as a word. -/
theorem toNat_bne_zero {n : Nat} (x : BitVec n) : (x.toNat != 0) = (x != 0) := by
  rw [Bool.eq_iff_iff]
  simp [bne_iff_ne, ← BitVec.toNat_inj]

/-- Tiles of equal rows and columns have equal fields for both (01 R24). -/
theorem sizes_eq (d x : BitVec 128) :
    (tdRows d == tdRows x && tdCols d == tdCols x && tdTag d == tdTag x)
      = (d.extractLsb' 32 16 == x.extractLsb' 32 16 && d.extractLsb' 64 4 == x.extractLsb' 64 4) := by
  have hsplit : ∀ y : BitVec 128, (y.extractLsb' 32 16).toNat = (y.extractLsb' 32 8).toNat + 2 ^ 8 * (y.extractLsb' 40 8).toNat := by
    intro y
    simp only [BitVec.extractLsb'_toNat, Nat.shiftRight_eq_div_pow]
    omega
  rw [Bool.eq_iff_iff]
  simp only [Bool.and_eq_true, beq_iff_eq, tdRows, tdCols, tdTag, tdField_eq, ← BitVec.toNat_inj, hsplit]
  have hlt : ∀ y : BitVec 128, (y.extractLsb' 32 8).toNat < 2 ^ 8 := fun y => BitVec.isLt _
  have := hlt d
  have := hlt x
  omega

/-! ## Checks -/

/-- The check of a status offset (08 R214). -/
def statusCheck (s : State) (f : EFmt) : Bool × Nat × Word := (f.xw && decide (limit s ≤ f.ext.toNat % 2 ^ 27), 0x09, f.ext)

theorem engineFault_eq (s : State) (f : EFmt) (l : List (Bool × Nat × Word)) :
    s.engineFault f l = ((l ++ [statusCheck s f]).find? fun c => c.1).map Prod.snd := by
  rw [List.find?_append, State.engineFault]
  cases hl : l.find? fun c => c.1 with
  | some c => rfl
  | none =>
    by_cases hs : f.xw = true ∧ s.curBlock.usable ≤ f.ext.toNat % 2 ^ 27
    · have hc : (statusCheck s f).1 = true := by simpa [statusCheck, limit, Block.usable] using hs
      simp only [hs, and_self, if_true, Option.none_or, List.find?_cons_of_pos hc]; rfl
    · have hc : ¬(statusCheck s f).1 = true := by simpa [statusCheck, limit, Block.usable] using hs
      simp only [hs, if_false, Option.none_or, List.find?_cons_of_neg hc]; rfl

/-- The descriptor that a TASK names (08 R221), as a number. -/
theorem task_names (f : EFmt) (c : Prop) [Decidable c] (v : Bool) :
    (if c then (if v then f.td3.toNat else f.td2.toNat) else f.td1.toNat) = (if c then (if v then f.td3 else f.td2) else f.td1).toNat := by
  split_ifs <;> rfl

/-- Each command is the shared operation with its kind, fields, descriptors and checks. -/
theorem exec_command {s : State} {i : Instr} {g : GRule} (hg : commandRule s i = some g) :
    ∃ l, exec i s = s.command g.kind g.f g.td1 g.td2 g.td3 l ∧ g.checks = l ++ [statusCheck s g.f] := by
  have haddr : ∀ x : Word, (wf x 57 3 != 0) = (x.extractLsb' 57 3 != 0) := fun x => by rw [wf, toNat_bne_zero]
  cases i with
  | cpy f => cases hg; refine ⟨_, rfl, ?_⟩; rw [haddr]; rfl
  | cpyOut f => cases hg; refine ⟨_, rfl, ?_⟩; rw [haddr]; rfl
  | cpyLocal f => cases hg; refine ⟨_, rfl, ?_⟩; rw [sizes_eq]; rfl
  | cpyg f => cases hg; exact ⟨_, rfl, rfl⟩
  | cpygScatter f => cases hg; exact ⟨_, rfl, rfl⟩
  | kmv f => cases hg; exact ⟨_, rfl, rfl⟩
  | mcst f => cases hg; refine ⟨_, rfl, ?_⟩; rw [haddr]; rfl
  | msgx f => cases hg; exact ⟨_, rfl, rfl⟩
  | task f => cases hg; refine ⟨_, rfl, ?_⟩; rw [task_names]; rfl
  | taskOvr f => cases hg; refine ⟨_, rfl, ?_⟩; rw [task_names]; rfl
  | taskCvt f => cases hg; refine ⟨_, rfl, ?_⟩; rw [task_names]; rfl
  | _ => cases hg

/-! ## Entry -/

/-- The queues of 08 R213: the work that fills a command's queue is that of its kinds at its core. -/
theorem queueFull_eq (s : State) (k : WorkKind) : s.queueFull s.curBlock.ck k = decide ((queueOf k).2 ≤ queued s k) := by
  have hsame : ∀ (sel : WorkKind → Bool), (∀ j, sel j = ((queueOf j).1 == (queueOf k).1)) →
      (s.coreWork s.curBlock.ck sel).length = queued s k := fun sel h => by
    simp only [State.coreWork, queued, h]; rfl
  cases k with
  | kmv => exact congrArg (fun n => decide (32 ≤ n)) (hsame _ fun j => by cases j <;> rfl)
  | mcst | msgx => exact congrArg (fun n => decide (64 ≤ n)) (hsame _ fun j => by cases j <;> rfl)
  | task | taskOvr | taskCvt => exact congrArg (fun n => decide (256 ≤ n)) (hsame _ fun j => by cases j <;> rfl)
  | _ => exact congrArg (fun n => decide (64 ≤ n)) (hsame _ fun j => by cases j <;> rfl)

/-- A command whose checks pass is entered, or waits at issue. -/
theorem command_enters {s : State} {g : GRule} {l : List (Bool × Nat × Word)} (hl : g.checks = l ++ [statusCheck s g.f])
    (hpass : ∀ c ∈ g.checks, c.1 = false) :
    s.command g.kind g.f g.td1 g.td2 g.td3 l
      = s.enterWork g.f (s.newWork g.kind g.f g.td1 g.td2 g.td3 (s.rdS g.f.sa.toNat) (s.rdS g.f.sb.toNat)) := by
  have hnone : (l ++ [statusCheck s g.f]).find? (fun c => c.1) = none := by
    rw [← hl, List.find?_eq_none]
    exact fun c hc => by simp [hpass c hc]
  simp only [State.command, engineFault_eq, hnone, Option.map_none]

/-- A command takes the fault of its first check that fails. -/
theorem command_faults {s : State} {g : GRule} {l : List (Bool × Nat × Word)} (hl : g.checks = l ++ [statusCheck s g.f])
    {c : Bool × Nat × Word} (hc : g.checks.find? (fun c => c.1) = some c) :
    s.command g.kind g.f g.td1 g.td2 g.td3 l = .next (s.raise (engWords g.f) c.2.1 c.2.2) := by
  rw [hl] at hc
  simp only [State.command, engineFault_eq, hc, Option.map_some]

/-- Work is entered and its issuer goes on, past the extension word (08 R211, R212). -/
theorem enterWork_enters {s : State} {w : Warp} {p : Split} (h : Issuer s w p) (f : EFmt) (e : Work)
    (hroom : queued s e.kind < (queueOf e.kind).2) :
    ∃ t w', s.enterWork f e = .next t ∧ t = { s with warps := t.warps, works := t.works, nextId := t.nextId, free := t.free }
      ∧ (∀ k, k ≠ s.cur.1 → t.warp? k = s.warp? k) ∧ t.warp? s.cur.1 = some w' ∧ RegsKept w w' ∧ OthersKept w w' s.cur.2
      ∧ Proceeds w' s.cur.2 p f.sw (if f.xw then 2 else 1) ∧ kget? t.works s.nextId = some e := by
  let s1 := { s with works := kput s.works s.nextId e, nextId := s.nextId + 1 }
  have h1 : Issuer s1 w p := h
  obtain ⟨ids, g, hret, hregs, hothers, hproc, -⟩ := retire_proceeds h1 f.sw 2 (engWords f)
  have hnot : ¬ s.queueFull s.curBlock.ck e.kind = true := by rw [queueFull_eq, decide_eq_true_eq]; omega
  refine ⟨issued s1 ids 1 g, g w, ?_, rfl, (issued_only s1 ids 1 g).2, ?_, hregs, hothers, hproc, kget?_kput_self _ _ _⟩
  · rw [State.enterWork, if_neg hnot, ← hret]
  · exact (issued_warp s1 ids 1 g).trans (congrArg (Option.map g) h1.1)

/-! ## TDESC -/

theorem tdTagOk_iff (t : Nat) : tdTagOk t = true ↔ t ∈ [1, 3, 6, 7, 8, 9, 10, 11, 12, 15] := by
  simp only [tdTagOk, Bool.or_eq_true, Bool.and_eq_true, beq_iff_eq, decide_eq_true_eq, List.mem_cons, List.not_mem_nil, or_false]
  omega

/-- A field that is zero as a number is zero as a word. -/
theorem tdField_eq_zero (d : BitVec 128) (lo n : Nat) : tdField d lo n = 0 ↔ d.extractLsb' lo n = 0 := by
  rw [tdField_eq, ← BitVec.toNat_inj]; rfl

/-- A list of checks gives 0 when none fails. -/
theorem check_eq_zero {c : Prop} [Decidable c] {k x : Nat} (hk : k ≠ 0) : (if c then k else x) = 0 ↔ ¬c ∧ x = 0 := by
  split <;> simp [*]

/-- The checks of TDESC pass on the values that 01 R25 allows. -/
theorem tdescCheck_iff (v : BitVec 128) (n : Nat) : tdescCheck v n = 0 ↔ descriptorOk v n := by
  have htag : tdTag v = (v.extractLsb' 64 4).toNat := tdField_eq v 64 4
  have h15 : tdTag v = 15 ↔ v.extractLsb' 64 4 = 15 := by rw [htag, ← BitVec.toNat_inj]; rfl
  have hlayout : tdLayout v = 3 ↔ v.extractLsb' 68 2 = 3 := by rw [tdLayout, tdField_eq, ← BitVec.toNat_inj]; rfl
  have hreserved : tdReserved v = true ↔ v.extractLsb' 27 5 = 0 ∧ v.extractLsb' 71 9 = 0 ∧ v.extractLsb' 123 4 = 0 := by
    simp only [tdReserved, Bool.and_eq_true, beq_iff_eq, tdField_eq_zero, and_assoc]
  have hrest : (if tdField v 0 4 ≠ 0 then 2 else if tdField v 48 16 = 0 then 3 else if tdLayout v = 3 then 4
        else if !tdTagOk (tdTag v) then 5 else if n < (tdRange v).2 then 6 else if tdTag v ≠ 15 ∧ tdField v 80 16 ≠ 0 then 7 else 0) = 0
      ↔ v.extractLsb' 0 4 = 0 ∧ v.extractLsb' 48 16 ≠ 0 ∧ v.extractLsb' 68 2 ≠ 3
        ∧ (v.extractLsb' 64 4).toNat ∈ [1, 3, 6, 7, 8, 9, 10, 11, 12, 15] ∧ (tdRange v).2 ≤ n
        ∧ (v.extractLsb' 64 4 ≠ 15 → v.extractLsb' 80 16 = 0) := by
    rw [check_eq_zero (by decide), check_eq_zero (by decide), check_eq_zero (by decide), check_eq_zero (by decide),
      check_eq_zero (by decide), check_eq_zero (by decide), hlayout, Bool.not_eq_true', Bool.not_eq_false, tdTagOk_iff, ← htag]
    simp only [ne_eq, not_not, not_and, h15, tdField_eq_zero, Nat.not_lt, and_true]
  unfold tdescCheck descriptorOk
  rw [check_eq_zero (by decide), Bool.not_eq_true', Bool.not_eq_false, hreserved, ite_eq_left_iff, Bool.not_eq_true', Bool.not_eq_false,
    hrest]
  simp only [and_assoc]
  rfl

/-- What is told of a descriptor that fails a check names it (08 R237). -/
theorem tdInfo_names (n : BitVec 4) (c : Nat) : (tdInfo n.toNat c).toNat % 16 = n.toNat := by
  have := n.isLt
  simp only [tdInfo, BitVec.toNat_ofNat]
  omega

/-- The descriptor after a write of TDESC (01 R26, 08 R220): of the writes of one clk the lowest place stands. -/
def rewritten (s : State) (v : BitVec 128) (place : Nat) (d : Desc) : Desc :=
  if d.clk = s.clk + 1 then (if d.writer < place then d else { d with val := v, writer := place }) else ⟨v, d.val, s.clk + 1, place⟩

/-- The block whose descriptor `n` TDESC has written. -/
def described (s : State) (v : BitVec 128) (place n : Nat) (b : Block) : Block :=
  { b with descs := kput b.descs n (rewritten s v place (kgetD b.descs n ⟨0, 0, 0, 0⟩)) }

/-- TDESC of a value that passes its checks writes its descriptor, and its issuer goes on. -/
theorem tdesc_writes {s : State} {w : Warp} {p : Split} (h : Issuer s w p) (f : EFmt) {b : Block} (hb : s.block? w.block = some b)
    {v : BitVec 128} (hv : s.rdS f.sb.toNat ++ s.rdS f.sa.toNat = v) (hok : descriptorOk v (limit s)) :
    ∃ t w', exec (.tdesc f) s = .next t ∧ t = { s with warps := t.warps, blocks := t.blocks, nextId := t.nextId, free := t.free }
      ∧ (∀ k, k ≠ s.cur.1 → t.warp? k = s.warp? k) ∧ (∀ k, k ≠ w.block → t.block? k = s.block? k)
      ∧ t.warp? s.cur.1 = some w' ∧ RegsKept w w' ∧ OthersKept w w' s.cur.2 ∧ Proceeds w' s.cur.2 p f.sw 1
      ∧ t.blockD w.block = described s v ((32 * w.stage + w.widx) * 32 + s.cur.2) f.td1.toNat s.curBlock := by
  let s1 := s.modBlock w.block (described s v ((32 * w.stage + w.widx) * 32 + s.cur.2) f.td1.toNat)
  have hcheck : tdescCheck v s.curBlock.usable = 0 := (tdescCheck_iff v _).mpr hok
  have h1 : Issuer s1 w p := h
  obtain ⟨ids, g, hret, hregs, hothers, hproc, -⟩ := retire_proceeds h1 f.sw 2 1
  refine ⟨issued s1 ids 1 g, g w, ?_, rfl, (issued_only s1 ids 1 g).2, fun k hk => kget?_kmod_ne s.blocks _ hk, ?_, hregs, hothers, hproc,
    ?_⟩
  · show execTdesc f s = _
    simp only [execTdesc, hv, hcheck, issuer_curWarp h, ← hret, ne_eq, not_true_eq_false, if_false]
    rfl
  · exact (issued_warp s1 ids 1 g).trans (congrArg (Option.map g) h1.1)
  · have hget : kget? s.blocks w.block = some b := hb
    simp only [State.curBlock, issuer_curWarp h, State.blockD, State.block?, issued, s1, State.modBlock, kget?_kmod_self, hget,
      Option.map_some, Option.getD_some]

/-- TDESC of a value that fails a check takes TDINVAL, which names the descriptor. -/
theorem tdesc_faults {s : State} (f : EFmt) (hok : ¬descriptorOk (s.rdS f.sb.toNat ++ s.rdS f.sa.toNat) (limit s)) :
    ∃ c, exec (.tdesc f) s = .next (s.raise 1 0x08 (tdInfo f.td1.toNat c)) := by
  have hcheck : tdescCheck (s.rdS f.sb.toNat ++ s.rdS f.sa.toNat) s.curBlock.usable ≠ 0 := fun hc => hok ((tdescCheck_iff _ _).mp hc)
  refine ⟨tdescCheck (s.rdS f.sb.toNat ++ s.rdS f.sa.toNat) s.curBlock.usable, ?_⟩
  show execTdesc f s = _
  simp only [execTdesc]
  rw [if_pos hcheck]

/-- Settles O48: entry, faults and TDESC. -/
theorem commandsEnter : Obligations.CommandsEnter := by
  refine ⟨?_, ?_, ?_⟩
  · intro s w p i g h _ hg hpass
    obtain ⟨l, hexec, hl⟩ := exec_command hg
    rw [hexec, command_enters hl hpass]
    generalize he : s.newWork g.kind g.f g.td1 g.td2 g.td3 (s.rdS g.f.sa.toNat) (s.rdS g.f.sb.toNat) = e
    have hkind : e.kind = g.kind := by rw [← he]; rfl
    refine ⟨fun hroom => ?_, fun hfull => ?_⟩
    · obtain ⟨t, w', hent, ht, hwarps, hw', hregs, hothers, hproc, hwork⟩ := enterWork_enters h g.f e (by rw [hkind]; exact hroom)
      refine ⟨t, w', e, hent, ht, hwarps, hw', hregs, hothers, hproc, hwork, ?_⟩
      subst he
      simp only [State.newWork, issuer_curWarp h, issuer_curSplit h, and_self]
    · rw [State.enterWork, queueFull_eq, hkind, if_pos (decide_eq_true hfull)]
  · intro s w p i g c h _ hg hc
    obtain ⟨l, hexec, hl⟩ := exec_command hg
    rw [hexec, command_faults hl hc]
    exact ⟨_, rfl, Transfers.raise_takes h _ _ _⟩
  · intro s w p f h hb v d place
    obtain ⟨b, hb⟩ := Option.isSome_iff_exists.mp hb
    refine ⟨fun hok => ?_, fun hok => ?_⟩
    · obtain ⟨t, w', hexec, ht, hwarps, hblocks, hw', hregs, hothers, hproc, hdesc⟩ := tdesc_writes h f hb rfl hok
      refine ⟨t, w', rewritten s v place d, hexec, ht, hwarps, hblocks, hw', hregs, hothers, hproc, hdesc, fun hne => ?_, fun heq => ?_⟩
      · simp only [rewritten, hne, if_false, and_self]
      · simp only [rewritten, heq, if_true]
        split <;> simp [heq]
    · obtain ⟨c, hexec⟩ := tdesc_faults f hok
      exact ⟨_, _, hexec, Transfers.raise_takes h _ _ _, tdInfo_names f.td1 c⟩

end Sys2Proof.Laws.Commands

namespace Sys2Proof.Laws.Operands

/-! # Precise faults of operands and addresses (01 R14, R23, 06 R132, 07 R175) -/

open Sys2Proof.Machine Sys2Proof.Safety Sys2Proof.Rules

/-! ## The checks of the registers that an instruction names -/

/-- What a check of the model demands: its register and the tags that pass. -/
def demands (l : List TagCheck) : List (Nat × List Nat) := l.map fun c => (c.1, c.2.1)

@[simp] theorem demands_nil : demands [] = [] := rfl

@[simp] theorem demands_append (a b : List TagCheck) : demands (a ++ b) = demands a ++ demands b := List.map_append

theorem isPairTy_iff (ty : Nat) : isPairTy ty = true ↔ ty = 13 ∨ ty = 14 := by simp [isPairTy]

theorem isPairTy_of_le {ty : Nat} (h : ty ≤ 12) : isPairTy ty = false := by
  rw [Bool.eq_false_iff, Ne, isPairTy_iff]; omega

@[simp] theorem regsOf_named (ty r : Nat) : regsOf ty r = named ty r := by simp only [regsOf, named, isPairTy_iff]

@[simp] theorem demands_checkOf (ty r : Nat) : demands (checkOf ty r) = accepted ty r := by
  simp only [checkOf, accepted, isPairTy_iff]
  split
  · rfl
  · split <;> rfl

@[simp] theorem regsB_named (f : AFmt) (ty : Nat) : regsB f ty = if f.flag flScb then [] else named ty f.vb.toNat := by
  rw [regsB, regsOf_named]

@[simp] theorem regsC_named (f : AFmt) (ty : Nat) : regsC f ty = if f.flag flScc then [] else named ty f.vc.toNat := by
  rw [regsC, regsOf_named]

@[simp] theorem demands_chkB (f : AFmt) (ty : Nat) : demands (chkB f ty) = if f.flag flScb then [] else accepted ty f.vb.toNat := by
  rw [chkB, apply_ite demands, demands_checkOf, demands_nil]

@[simp] theorem demands_chkC (f : AFmt) (ty : Nat) : demands (chkC f ty) = if f.flag flScc then [] else accepted ty f.vc.toNat := by
  rw [chkC, apply_ite demands, demands_checkOf, demands_nil]

theorem vecFault_regrange {s : State} {regs : List Nat} {v : Nat} (raw : Bool) (chk : List TagCheck)
    (h : regs.find? (fun v => decide (s.curWarp.budget ≤ v)) = some v) :
    s.vecFault regs raw chk = some (0x02, BitVec.ofNat 64 (v + 2 ^ 8 * (s.curWarp.budget / 8))) := by
  simp only [State.vecFault, h]; rfl

/-- The search of a rule's tags finds what the model's check finds. -/
theorem find_demands {s : State} {chk : List TagCheck} {c : Nat × List Nat}
    (h : (demands chk).find? (fun c => !c.2.contains (s.tagOfReg c.1).toNat) = some c) :
    ∃ t, chk.find? (fun c => !c.2.1.contains (s.tagOfReg c.1).toNat) = some (c.1, c.2, t) := by
  rw [demands, List.find?_map] at h
  obtain ⟨⟨r, l, t⟩, hf, rfl⟩ := Option.map_eq_some_iff.1 h
  exact ⟨t, hf⟩

theorem vecFault_fmttag {s : State} {regs : List Nat} {chk : List TagCheck} {c : Nat × List Nat}
    (hr : ∀ v ∈ regs, v < s.curWarp.budget) (h : (demands chk).find? (fun c => !c.2.contains (s.tagOfReg c.1).toNat) = some c) :
    ∃ t, s.vecFault regs false chk = some (0x03, BitVec.ofNat 64 (c.1 + 2 ^ 8 * (s.tagOfReg c.1).toNat + 2 ^ 12 * t)) := by
  obtain ⟨t, ht⟩ := find_demands h
  have hnone : regs.find? (fun v => decide (s.curWarp.budget ≤ v)) = none := by
    simpa only [List.find?_eq_none, decide_eq_true_eq, Nat.not_le] using hr
  refine ⟨t, ?_⟩
  simp only [State.vecFault, hnone, ht]; rfl

theorem runVec_fault {s : State} {sw seed raw : Bool} {regs : List Nat} {chk : List TagCheck} {lat : Nat} {eff : State → State}
    {code : Nat} {info : Word} (hf : s.vecFault regs raw chk = some (code, info)) :
    s.runVec sw seed regs raw chk lat eff = .next (s.raise 1 code info) := by
  simp only [State.runVec, hf]

/-- The fields of the INFO of FMTTAG, for a register of the file (08 R237). -/
theorem fmttag_info {r : Nat} (tag : BitVec 4) (t : Nat) (h : r < 256) :
    (BitVec.ofNat 64 (r + 2 ^ 8 * tag.toNat + 2 ^ 12 * t)).toNat % 2 ^ 12 = r + 2 ^ 8 * tag.toNat := by
  have := tag.isLt
  rw [BitVec.toNat_ofNat]
  omega

/-! ## Vector instructions -/

/-- An instruction runs as a vector instruction by its rule: it checks what the rule names before it does anything (06 R132). -/
def ChecksVec (s : State) (o : Out) (r : VRule) : Prop :=
  ∃ sw seed regs chk lat eff, o = s.runVec sw seed regs r.rawok chk lat eff ∧ regs = r.regs ∧ demands chk = r.tags

theorem runVec_checks {s : State} {sw seed raw : Bool} {regs : List Nat} {chk : List TagCheck} {lat : Nat} {eff : State → State}
    {r : VRule} (hr : regs = r.regs) (hraw : raw = r.rawok) (hc : demands chk = r.tags) :
    ChecksVec s (s.runVec sw seed regs raw chk lat eff) r := by
  subst hraw
  exact ⟨_, _, _, _, _, _, rfl, hr, hc⟩

section Shapes

variable {s : State} {f : AFmt} {lat : Nat} {r : VRule} (hraw : r.rawok = f.flag flRawok)
include hraw

theorem vec2_checks {g : Nat → Nat → Nat → Nat}
    (hr : r.regs = named f.ty.toNat f.vd.toNat ++ named f.ty.toNat f.va.toNat
      ++ if f.flag flScb then [] else named f.ty.toNat f.vb.toNat)
    (hc : r.tags = accepted f.ty.toNat f.va.toNat ++ if f.flag flScb then [] else accepted f.ty.toNat f.vb.toNat) :
    ChecksVec s (s.vec2 f lat g) r := by
  unfold State.vec2
  exact runVec_checks (by simp [hr]) hraw.symm (by simp [hc])

theorem vec1_checks {td : Nat} {g : Nat → Nat → Nat} (hr : r.regs = named td f.vd.toNat ++ named f.ty.toNat f.va.toNat)
    (hc : r.tags = accepted f.ty.toNat f.va.toNat) : ChecksVec s (s.vec1 f lat td g) r := by
  unfold State.vec1
  exact runVec_checks (by simp [hr]) hraw.symm (by simp [hc])

theorem carryOp_checks {g : Int → Int → Int → Int}
    (hr : r.regs = [f.vd.toNat, f.va.toNat] ++ if f.flag flScb then [] else named f.ty.toNat f.vb.toNat)
    (hc : r.tags = accepted f.ty.toNat f.va.toNat ++ if f.flag flScb then [] else accepted f.ty.toNat f.vb.toNat) :
    ChecksVec s (s.carryOp f g) r := by
  unfold State.carryOp
  exact runVec_checks (by simp [hr]) hraw.symm (by simp [hc])

theorem float2_checks {g : Nat → FVal → FVal → FVal}
    (hr : r.regs = [f.vd.toNat, f.va.toNat] ++ if f.flag flScb then [] else named f.ty.toNat f.vb.toNat)
    (hc : r.tags = accepted f.ty.toNat f.va.toNat ++ if f.flag flScb then [] else accepted f.ty.toNat f.vb.toNat) :
    ChecksVec s (s.float2 f g) r := by
  unfold State.float2
  exact runVec_checks (by simp [hr]) hraw.symm (by simp [hc])

theorem dotOp_checks {t : Nat} (hr : r.regs = [f.vd.toNat, f.va.toNat, f.vb.toNat] ++ if f.flag flScc then [] else named 3 f.vc.toNat)
    (hc : r.tags = accepted f.ty.toNat f.va.toNat ++ accepted t f.vb.toNat ++ if f.flag flScc then [] else accepted 3 f.vc.toNat) :
    ChecksVec s (s.dotOp f t) r := by
  unfold State.dotOp
  exact runVec_checks (by simp [hr]) hraw.symm (by simp [hc])

theorem unaryOp_checks {g : State → Nat → FVal → Nat} (hr : r.regs = [f.vd.toNat, f.va.toNat]) (hc : r.tags = accepted 3 f.va.toNat) :
    ChecksVec s (s.unaryOp f g) r := by
  unfold State.unaryOp
  exact runVec_checks hr.symm hraw.symm (by simp [hc])

theorem packOp_checks {per : Nat} (hr : r.regs = [f.vd.toNat, f.va.toNat, f.vb.toNat])
    (hc : r.tags = accepted f.vc.toNat f.va.toNat ++ accepted f.vc.toNat f.vb.toNat) : ChecksVec s (s.packOp f per) r := by
  unfold State.packOp
  exact runVec_checks hr.symm hraw.symm (by simp [hc])

theorem moveLanes_checks {regs : List Nat} {chk : List TagCheck} {g : State → Lanes → Nat → Nat}
    (hr : r.regs = [f.vd.toNat, f.va.toNat] ++ regs) (hc : r.tags = demands chk) : ChecksVec s (s.moveLanes f regs chk g) r := by
  unfold State.moveLanes
  exact runVec_checks hr.symm hraw.symm hc.symm

theorem shuffle_checks {g : Nat → Nat → Nat → Int}
    (hr : r.regs = [f.vd.toNat, f.va.toNat] ++ if f.flag flScb then [] else named 0 f.vb.toNat)
    (hc : r.tags = if f.flag flScb then [] else [(f.vb.toNat, [0, 1, 2])]) : ChecksVec s (s.shuffle f g) r := by
  refine moveLanes_checks hraw (by rw [hr, regsB_named]) ?_
  rw [hc, apply_ite demands]; rfl

end Shapes

theorem vecB_checks {s : State} {f : BFmt} {lat : Nat} {g : Nat → Nat → Nat → Nat} {r : VRule} (hraw : r.rawok = false)
    (hr : r.regs = [f.vd.toNat, f.va.toNat]) (hc : r.tags = accepted f.ty.toNat f.va.toNat) : ChecksVec s (s.vecB f lat g) r := by
  unfold State.vecB
  exact runVec_checks hr.symm hraw.symm (by simp [hc])

theorem shiftOp_checks {s : State} {f : AFmt} {g : Nat → Nat → Nat → Nat} {r : VRule} (h : vecRule s (.vshl f) = some r) :
    ChecksVec s (s.shiftOp f g) r := by
  by_cases hp : f.ty.toNat = 13 ∨ f.ty.toNat = 14
  · simp only [vecRule, hp, if_true, Option.some.injEq] at h
    subst h
    simp only [State.shiftOp, (isPairTy_iff _).2 hp, if_true]
    exact runVec_checks (by simp) rfl (by simp)
  · simp only [vecRule, hp, if_false, Option.some.injEq] at h
    subst h
    simp only [State.shiftOp, isPairTy_iff, hp, if_false]
    exact vec2_checks rfl rfl rfl

/-- Each vector instruction runs through `runVec` with what its rule names (06 R132). -/
theorem exec_checksVec {s : State} {i : Instr} {r : VRule} (h : vecRule s i = some r) : ChecksVec s (exec i s) r := by
  cases i with
  | vadd f | vsub f | vmul f | vmulh f | vmin f | vmax f | vavg f | vand f | vor f | vxor f =>
    cases h
    dsimp only [exec, execVadd, execVsub, execVmul, execVmulh, execVmin, execVmax, execVavg, execVand, execVor, execVxor]
    exact vec2_checks rfl rfl rfl
  | vfmin f | vfmax f =>
    cases h
    dsimp only [exec, execVfmin, execVfmax, State.fpick]
    exact vec2_checks rfl rfl rfl
  | vabs f | vneg f | vnot f | vclz f | vpopc f =>
    cases h
    dsimp only [exec, execVabs, execVneg, execVnot, execVclz, execVpopc]
    exact vec1_checks rfl rfl rfl
  | vaddImm f | vsubImm f | vmulImm f | vandImm f | vorImm f | vxorImm f | vminImm f | vmaxImm f | vshlImm f | vshrImm f
  | vsraImm f =>
    cases h
    dsimp only [exec, execVaddImm, execVsubImm, execVmulImm, execVandImm, execVorImm, execVxorImm, execVminImm, execVmaxImm,
      execVshlImm, execVshrImm, execVsraImm]
    exact vecB_checks rfl rfl rfl
  | vfaddImm f | vfmulImm f | vfminImm f | vfmaxImm f =>
    cases h
    dsimp only [exec, execVfaddImm, execVfmulImm, execVfminImm, execVfmaxImm, State.floatB]
    exact vecB_checks rfl rfl rfl
  | vaddc f | vsubb f =>
    cases h
    dsimp only [exec, execVaddc, execVsubb]
    exact carryOp_checks rfl rfl rfl
  | vshl f | vshr f | vsra f | vrot f =>
    exact shiftOp_checks h
  | vmad f | vsad f | vbfx f | vbfi f | vcmp f | vsel f | vmov f | vmovs f | vmovImm f =>
    cases h
    dsimp only [exec, execVmad, execVsad, execVbfx, execVbfi, execVcmp, execVsel, execVmov, execVmovs, execVmovImm]
    exact runVec_checks (by simp) rfl (by simp)
  | vfadd f | vfsub f | vfmul f =>
    cases h
    dsimp only [exec, execVfadd, execVfsub, execVfmul]
    exact float2_checks rfl rfl rfl
  | vfdot2 f | vfdot4 f =>
    cases h
    dsimp only [exec, execVfdot2, execVfdot4]
    exact dotOp_checks rfl rfl rfl
  | vfrcp f | vfrsq f | vfsqrt f | vfexp2 f | vflog2 f | vfsin f | vfcos f =>
    cases h
    dsimp only [exec, execVfrcp, execVfrsq, execVfsqrt, execVfexp2, execVflog2, execVfsin, execVfcos]
    exact unaryOp_checks rfl rfl rfl
  | vpackX2 f | vpackX4 f =>
    cases h
    dsimp only [exec, execVpackX2, execVpackX4]
    exact packOp_checks rfl rfl rfl
  | vfma f | vfcmp f | vfclass f | vfrnd f | vcvt f | vunpk e f | vtag f | vqduo f | vscale f =>
    cases h
    dsimp only [exec, execVfma, execVfcmp, execVfclass, execVfrnd, execVcvt, execVunpk, execVtag, execVqduo, execVscale]
    exact runVec_checks (by simp) rfl (by simp)
  | vshfl f | vshflUp f | vshflDown f | vshflXor f =>
    cases h
    dsimp only [exec, execVshfl, execVshflUp, execVshflDown, execVshflXor]
    exact shuffle_checks rfl rfl rfl
  | vshflx f | vbcast f | vfunl f =>
    cases h
    dsimp only [exec, execVshflx, execVbcast, execVfunl]
    exact moveLanes_checks rfl (by simp) rfl
  | vred op f | vscan op f | vlutn f | vbperm f | vballot f | vmatch f | vcompr f =>
    cases h
    dsimp only [exec, execVred, execVscan, execVlutn, execVbperm, execVballot, execVmatch, execVcompr]
    exact runVec_checks (by simp) rfl (by simp)
  | _ => cases h

/-! ## A well-formed operand stays in the register file -/

/-- Every register that is checked is one of v0 to v255. -/
def InFile (l : List (Nat × List Nat)) : Prop := ∀ c ∈ l, c.1 < 256

theorem InFile.nil : InFile [] := nofun

theorem InFile.append {a b : List (Nat × List Nat)} (ha : InFile a) (hb : InFile b) : InFile (a ++ b) :=
  fun c hc => (List.mem_append.1 hc).elim (ha c) (hb c)

theorem InFile.cons {r : Nat} {l : List Nat} {a : List (Nat × List Nat)} (hr : r < 256) (ha : InFile a) : InFile ((r, l) :: a) :=
  fun c hc => (List.mem_cons.1 hc).elim (fun h => h ▸ hr) (ha c)

/-- A pair stands at an even register, so its odd one is in the file too (02 R52). -/
theorem accepted_inFile {ty r : Nat} (hr : r < 256) (hp : isPairTy ty = true → r % 2 = 0) : InFile (accepted ty r) := by
  unfold accepted
  split
  · exact .nil
  · split
    next hty => have := hp ((isPairTy_iff ty).2 hty); exact .cons hr (.cons (by omega) .nil)
    next => exact .cons hr .nil

theorem accepted_single_inFile {ty : Nat} (hty : isPairTy ty = false) (r : BitVec 8) : InFile (accepted ty r.toNat) :=
  accepted_inFile r.isLt fun h => absurd h (by simp [hty])

theorem firstBroken_none {l : List (Bool × Illop)} (h : firstBroken l = none) : ∀ x ∈ l, x.1 = true := by
  induction l with
  | nil => exact nofun
  | cons x l ih =>
    obtain ⟨ok, why⟩ := x
    cases ok with
    | false => cases h
    | true => exact List.forall_mem_cons.2 ⟨rfl, ih h⟩

/-- The field rules of format A that concern types and registers (02 R52, R53). -/
theorem wf_entryA {i : Instr} {e : AEntry} {f : AFmt} (hwf : i.wf = true) (he : entryA i = some (e, f)) :
    e.tys.contains f.ty.toNat = true ∧ constsOk i = true ∧ regOk e.va f.ty.toNat f.va.toNat = true
      ∧ (f.flag flScb = false → regOk e.vb f.ty.toNat f.vb.toNat = true)
      ∧ (f.flag flScc = false → regOk e.vc f.ty.toNat f.vc.toNat = true) := by
  simp only [Instr.wf, check, he, beq_iff_eq] at hwf
  have hall := firstBroken_none hwf
  simp only [List.mem_cons, forall_eq_or_imp] at hall
  obtain ⟨-, -, hty, -, hconst, -, hreg, -⟩ := hall
  simp only [Bool.and_eq_true] at hreg
  obtain ⟨⟨⟨-, ha⟩, hb⟩, hc⟩ := hreg
  exact ⟨hty, hconst, ha, fun h => by simpa [h] using hb, fun h => by simpa [h] using hc⟩

theorem wf_entryB {i : Instr} {tys : List Nat} {sat useVa : Bool} {f : BFmt} (hwf : i.wf = true) (ha : entryA i = none)
    (he : entryB i = some (tys, sat, useVa, f)) : tys.contains f.ty.toNat = true := by
  simp only [Instr.wf, check, ha, he, beq_iff_eq] at hwf
  exact firstBroken_none hwf _ (.head _)

/-- None of the types names a pair. -/
def singleTypes (tys : List Nat) : Bool := tys.all fun t => !isPairTy t

/-- A register field is even wherever a type of the entry names a pair. -/
def evenPairs (e : AEntry) (k : RegKind) : Bool := k == .typed || singleTypes e.tys

theorem singleTypes_ty {tys : List Nat} {ty : Nat} (he : singleTypes tys = true) (hty : tys.contains ty = true) :
    isPairTy ty = false := by
  simpa using List.all_eq_true.1 he ty (by simpa using hty)

theorem even_of_regOk {e : AEntry} {k : RegKind} {ty r : Nat} (he : evenPairs e k = true) (hty : e.tys.contains ty = true)
    (hr : regOk k ty r = true) (hp : isPairTy ty = true) : r % 2 = 0 := by
  rcases Bool.or_eq_true _ _ ▸ he with hk | hs
  · rw [beq_iff_eq.1 hk] at hr
    simpa [regOk, hp] using hr
  · simp [singleTypes_ty hs hty] at hp

section Entry

variable {i : Instr} {e : AEntry} {f : AFmt} (hwf : i.wf = true) (he : entryA i = some (e, f))
include hwf he

theorem va_inFile (hk : evenPairs e e.va = true) : InFile (accepted f.ty.toNat f.va.toNat) :=
  have ⟨hty, _, ha, _⟩ := wf_entryA hwf he
  accepted_inFile f.va.isLt (even_of_regOk hk hty ha)

theorem vb_inFile (hk : evenPairs e e.vb = true) : InFile (if f.flag flScb then [] else accepted f.ty.toNat f.vb.toNat) := by
  obtain ⟨hty, -, -, hb, -⟩ := wf_entryA hwf he
  split
  · exact .nil
  next h => exact accepted_inFile f.vb.isLt (even_of_regOk hk hty (hb (by simpa using h)))

theorem vc_inFile (hk : evenPairs e e.vc = true) : InFile (if f.flag flScc then [] else accepted f.ty.toNat f.vc.toNat) := by
  obtain ⟨hty, -, -, -, hc⟩ := wf_entryA hwf he
  split
  · exact .nil
  next h => exact accepted_inFile f.vc.isLt (even_of_regOk hk hty (hc (by simpa using h)))

end Entry

/-- A source of a fixed 32-bit type. -/
theorem fixed_inFile {ty : Nat} {b : Bool} (hty : isPairTy ty = false) (r : BitVec 8) :
    InFile (if b then [] else accepted ty r.toNat) := by
  split
  · exact .nil
  · exact accepted_single_inFile hty r

theorem vecRule_inFile {s : State} {i : Instr} {r : VRule} (hwf : i.wf = true) (h : vecRule s i = some r) : InFile r.tags := by
  cases i with
  | vadd f | vsub f | vmul f | vmulh f | vmin f | vmax f | vavg f | vand f | vor f | vxor f | vfmin f | vfmax f | vaddc f | vsubb f
  | vcmp f | vsel f | vfadd f | vfsub f | vfmul f =>
    cases h
    exact (va_inFile hwf rfl rfl).append (vb_inFile hwf rfl rfl)
  | vmad f | vfma f =>
    cases h
    exact ((va_inFile hwf rfl rfl).append (vb_inFile hwf rfl rfl)).append (vc_inFile hwf rfl rfl)
  | vabs f | vneg f | vnot f | vclz f | vpopc f | vmov f | vfrnd f | vred _ f | vscan _ f | vlutn f | vmatch f =>
    cases h
    exact va_inFile hwf rfl rfl
  | vfrcp f | vfrsq f | vfsqrt f | vfexp2 f | vflog2 f | vfsin f | vfcos f | vfclass f =>
    cases h
    exact accepted_single_inFile (ty := 3) rfl f.va
  | vmovs f | vmovImm f | vtag f | vbcast f | vfunl f | vballot f | vcompr f => cases h; exact .nil
  | vbfx f =>
    cases h
    exact (va_inFile hwf rfl rfl).append (fixed_inFile rfl f.vb)
  | vfcmp f =>
    cases h
    exact (accepted_single_inFile rfl f.va).append (fixed_inFile rfl f.vb)
  | vbfi f =>
    cases h
    exact ((va_inFile hwf rfl rfl).append (vb_inFile hwf rfl rfl)).append (fixed_inFile rfl f.vc)
  | vscale f =>
    cases h
    exact (va_inFile hwf rfl rfl).append (fixed_inFile (by dsimp only; split <;> rfl) f.vb)
  | vshl f | vshr f | vsra f | vrot f =>
    simp only [vecRule] at h
    split at h
    · cases h
      exact (va_inFile hwf rfl rfl).append (fixed_inFile rfl f.vb)
    next hty =>
      cases h
      exact (va_inFile hwf rfl rfl).append (fixed_inFile (by simpa [isPairTy] using hty) f.vb)
  | vsad f =>
    cases h
    have hty := singleTypes_ty rfl (wf_entryA hwf rfl).1
    exact ((va_inFile hwf rfl rfl).append (accepted_single_inFile hty f.vb)).append (fixed_inFile rfl f.vc)
  | vfdot2 f =>
    cases h
    have hty := singleTypes_ty rfl (wf_entryA hwf rfl).1
    exact ((va_inFile hwf rfl rfl).append (accepted_single_inFile hty f.vb)).append (fixed_inFile rfl f.vc)
  | vfdot4 f =>
    cases h
    have hty : f.ty.toNat = 10 ∨ f.ty.toNat = 11 := by simpa using (wf_entryA hwf rfl).1
    refine ((va_inFile hwf rfl rfl).append (accepted_single_inFile ?_ f.vb)).append (fixed_inFile rfl f.vc)
    rcases hty with hty | hty <;> cases f.flag flXf <;> simp [hty, isPairTy]
  | vaddImm f | vsubImm f | vmulImm f | vandImm f | vorImm f | vxorImm f | vminImm f | vmaxImm f | vshlImm f | vshrImm f
  | vsraImm f | vfaddImm f | vfmulImm f | vfminImm f | vfmaxImm f =>
    cases h
    exact accepted_single_inFile (singleTypes_ty rfl (wf_entryB hwf rfl rfl)) f.va
  | vpackX2 f | vpackX4 f =>
    cases h
    have hconst := (wf_entryA hwf rfl).2.1
    simp only [constsOk, Bool.and_eq_true, decide_eq_true_eq] at hconst
    have hvc : isPairTy f.vc.toNat = false := isPairTy_of_le (by omega)
    exact (accepted_single_inFile hvc f.va).append (accepted_single_inFile hvc f.vb)
  | vunpk _ f =>
    cases h
    have hconst := (wf_entryA hwf rfl).2.1
    simp only [constsOk, Bool.and_eq_true, decide_eq_true_eq] at hconst
    have hvc : isPairTy f.vc.toNat = false := isPairTy_of_le (by omega)
    exact accepted_single_inFile hvc f.va
  | vcvt f =>
    cases h
    obtain ⟨-, hconst, -⟩ := wf_entryA hwf rfl
    simp only [constsOk, Bool.and_eq_true] at hconst
    obtain ⟨-, hp⟩ := hconst
    exact accepted_inFile f.va.isLt fun h => by simpa [h] using hp
  | vqduo f =>
    cases h
    obtain ⟨-, -, ha, -⟩ := wf_entryA hwf rfl
    have h4 : f.va.toNat % 4 = 0 := by simpa [regOk] using ha
    have hlt := f.va.isLt
    have hquad : ∀ k < 4, InFile (accepted 3 (f.va.toNat + k)) := fun k hk => accepted_inFile (by omega) (by simp [isPairTy])
    exact (((hquad 0 (by omega)).append (hquad 1 (by omega))).append (hquad 2 (by omega))).append (hquad 3 (by omega))
  | vshfl f | vshflUp f | vshflDown f | vshflXor f =>
    cases h
    dsimp only
    split
    · exact .nil
    · exact .cons f.vb.isLt .nil
  | vshflx f => cases h; exact .cons f.vc.isLt .nil
  | vbperm f => cases h; exact accepted_single_inFile (ty := 9) rfl f.vc
  | _ => cases h

/-! ## The faults of a vector instruction -/

section Vector

variable {s : State} {w : Warp} {p : Split} {o : Out} {r : VRule} (h : Issuer s w p) (ho : ChecksVec s o r)
include h ho

theorem checksVec_regrange (hr : ∃ v ∈ r.regs, w.budget ≤ v) :
    ∃ t v, o = .next t ∧ v ∈ r.regs ∧ w.budget ≤ v ∧ TakesFault s t w p 0x02 (BitVec.ofNat 64 (v + 2 ^ 8 * (w.budget / 8))) := by
  obtain ⟨sw, seed, regs, chk, lat, eff, rfl, rfl, -⟩ := ho
  obtain ⟨v, hv⟩ : ∃ v, r.regs.find? (fun v => decide (w.budget ≤ v)) = some v := by
    rw [← Option.isSome_iff_exists, List.find?_isSome]
    simpa using hr
  have hf := vecFault_regrange r.rawok chk ((issuer_curWarp h).symm ▸ hv)
  rw [issuer_curWarp h] at hf
  exact ⟨_, v, runVec_fault hf, List.mem_of_find?_eq_some hv, by simpa using List.find?_some hv,
    Transfers.raise_takes h 1 _ _⟩

theorem checksVec_fmttag (hin : InFile r.tags) (hr : ∀ v ∈ r.regs, v < w.budget) (hraw : r.rawok = false)
    (ht : ∃ c ∈ r.tags, (s.tagOfReg c.1).toNat ∉ c.2) :
    ∃ t c info, o = .next t ∧ c ∈ r.tags ∧ (s.tagOfReg c.1).toNat ∉ c.2 ∧ TakesFault s t w p 0x03 info
      ∧ info.toNat % 2 ^ 12 = c.1 + 2 ^ 8 * (s.tagOfReg c.1).toNat := by
  obtain ⟨sw, seed, regs, chk, lat, eff, rfl, rfl, hd⟩ := ho
  obtain ⟨c, hc⟩ : ∃ c, (demands chk).find? (fun c => !c.2.contains (s.tagOfReg c.1).toNat) = some c := by
    rw [← Option.isSome_iff_exists, List.find?_isSome, hd]
    simpa using ht
  obtain ⟨ty, hf⟩ := vecFault_fmttag (by rwa [issuer_curWarp h]) hc
  have hmem : c ∈ r.tags := hd ▸ List.mem_of_find?_eq_some hc
  rw [hraw]
  exact ⟨_, c, _, runVec_fault hf, hmem, by simpa using List.find?_some hc, Transfers.raise_takes h 1 _ _,
    fmttag_info _ _ (hin c hmem)⟩

end Vector

/-! ## Memory instructions -/

@[simp] theorem dataRegs_rule (f : MFmt) : dataRegs f = dataRule f := by
  have h3 : f.sz = 3 ↔ f.sz.toNat = 3 := BitVec.toNat_inj.symm
  have h4 : f.sz = 4 ↔ f.sz.toNat = 4 := BitVec.toNat_inj.symm
  simp only [dataRule, h3, h4, dataRegs]
  split
  next h => simp [h]
  next h => simp [h]
  next hn3 hn4 => rw [if_neg hn3, if_neg hn4]

@[simp] theorem idxRegs_rule (f : MFmt) : idxRegs f = indexRule f := rfl

@[simp] theorem demands_idxChk (f : MFmt) : demands (idxChk f) = indexTags f := by
  rw [idxChk, apply_ite demands]; rfl

@[simp] theorem demands_dataChk (ty : Nat) (f : MFmt) : demands (dataChk ty f) = dataTags ty f := by
  simp only [dataChk, dataTags, isPairTy_iff, apply_ite demands, demands_nil, demands_checkOf, dataRegs_rule]
  simp only [demands, List.map_map]; rfl

@[simp] theorem demands_atomChk (op : Nat) (f : MFmt) : demands (atomChk op f) = atomTags op f := by
  have h3 : f.sz = 3 ↔ f.sz.toNat = 3 := BitVec.toNat_inj.symm
  simp only [atomChk, atomTags, apply_ite demands, demands_nil, demands_checkOf, h3]

/-- An instruction runs as a memory instruction by its rule: it checks what the rule names, then its addresses (07 R175). -/
def ChecksMem (s : State) (o : Out) (r : MRule) : Prop :=
  ∃ regs chk size eff, o = s.runMem r.f regs chk (addrFault (r.addrs.map Prod.snd) size) eff ∧ regs = r.regs ∧ demands chk = r.tags
    ∧ ∀ a : Word, (size != 0 && a.toNat % size != 0) = (a.toNat % r.align != 0)

theorem szBytes_align (f : MFmt) (a : Word) : (szBytes f != 0 && a.toNat % szBytes f != 0) = (a.toNat % 2 ^ f.sz.toNat != 0) := by
  have : (2 ^ f.sz.toNat != 0) = true := by simp
  simp only [szBytes, this, Bool.true_and]

/-- An instruction that acts on a line asks for no alignment (07 R175). -/
theorem line_align (a : Word) : ((0 : Nat) != 0 && a.toNat % 0 != 0) = (a.toNat % 1 != 0) := by simp [Nat.mod_one]

/-- ATOMC names its operand and its new value (07 R191). -/
theorem atomc_regs {f : MFmt} (h : f.sz = 2 ∨ f.sz = 3) :
    (List.range (2 * (dataRegs f).length)).map (f.data.toNat + ·) =
      if f.sz = 3 then [f.data.toNat, f.data.toNat + 1, f.data.toNat + 2, f.data.toNat + 3] else [f.data.toNat, f.data.toNat + 1] := by
  rcases h with h | h <;> simp [dataRule, h, List.range_succ]

theorem wf_checkM {i : Instr} {f : MFmt} {l : List (Bool × Illop)} (hwf : i.wf = true) (ha : entryA i = none) (hb : entryB i = none)
    (hs : entryS i = none) (hj : checkJ i = none) (hm : checkM i = some (firstBroken l, f)) : ∀ x ∈ l, x.1 = true := by
  simp only [Instr.wf, check, ha, hb, hs, hj, hm, beq_iff_eq] at hwf
  exact firstBroken_none hwf

theorem wf_atomc {f : MFmt} (hwf : (Instr.atomc f).wf = true) : f.sz = 2 ∨ f.sz = 3 := by
  have := wf_checkM hwf rfl rfl rfl rfl rfl _ (.tail _ (.head _))
  simpa using this

theorem exec_checksMem {s : State} {i : Instr} {r : MRule} (hwf : i.wf = true) (h : memRule s i = some r) :
    ChecksMem s (exec i s) r := by
  cases i with
  | ld ty f | st ty f =>
    cases h
    dsimp only [exec, execLd, execSt]
    exact ⟨_, _, _, _, rfl, by simp, by simp, szBytes_align f⟩
  | lds f | ldsSx f | sts f =>
    cases h
    dsimp only [exec, execLds, execLdsSx, State.loadScalar, execSts]
    exact ⟨_, _, _, _, rfl, rfl, rfl, szBytes_align f⟩
  | lkqry f =>
    cases h
    dsimp only [exec, execLkqry]
    exact ⟨_, _, _, _, rfl, rfl, rfl, line_align⟩
  | atom op f | red op f =>
    cases h
    dsimp only [exec, execAtom, execRed]
    exact ⟨_, _, _, _, rfl, by simp, by simp, szBytes_align f⟩
  | atomc f =>
    cases h
    dsimp only [exec, execAtomc]
    exact ⟨_, _, _, _, rfl, by rw [atomc_regs (wf_atomc hwf), idxRegs_rule], by simp, szBytes_align f⟩
  | cwb f | cinv f =>
    cases h
    dsimp only [exec, execCwb, execCinv, State.maintain]
    exact ⟨_, _, _, _, rfl, rfl, by simp, line_align⟩
  | _ => cases h

/-! ## A well-formed memory operand stays in the register file -/

theorem indexTags_inFile (f : MFmt) : InFile (indexTags f) := by
  unfold indexTags
  split
  · exact .nil
  · exact .cons f.idx.isLt .nil

/-- DATA is even for a pair and a multiple of 4 for a quad, so that every register it names is in the file (02 R52). -/
theorem dataRule_lt {f : MFmt} (hd : dataOk f.sz.toNat f.data.toNat = true) : ∀ v ∈ dataRule f, v < 256 := by
  have hlt := f.data.isLt
  unfold dataRule
  split
  next h =>
    have : f.data.toNat % 2 = 0 := by simpa [dataOk, h] using hd
    simp only [List.forall_mem_cons]
    exact ⟨by omega, by omega, nofun⟩
  · split
    next h =>
      have : f.data.toNat % 4 = 0 := by simpa [dataOk, h] using hd
      simp only [List.forall_mem_cons]
      exact ⟨by omega, by omega, by omega, by omega, nofun⟩
    next => simpa using hlt

/-- A 64-bit type goes with SZ 3 alone (02 R56). -/
theorem pair_size {ty sz : Nat} (hp : ty = 13 ∨ ty = 14) (h : tySizeOk ty sz = true) : sz = 3 := by
  match sz with
  | 0 | 1 | 2 | 4 => rcases hp with rfl | rfl <;> cases h
  | 3 => rfl
  | _ + 5 => cases h

theorem dataTags_inFile {ty : Nat} {f : MFmt} (hty : tySizeOk ty f.sz.toNat = true) (hd : dataOk f.sz.toNat f.data.toNat = true) :
    InFile (dataTags ty f) := by
  unfold dataTags
  split
  · exact .nil
  · split
    next hp =>
      have h3 := pair_size hp hty
      exact accepted_inFile f.data.isLt fun _ => by simpa [dataOk, h3] using hd
    next =>
      intro c hc
      obtain ⟨v, hv, rfl⟩ := List.mem_map.1 hc
      exact dataRule_lt hd v hv

theorem atomTags_inFile {op : Nat} {f : MFmt} (hd : dataOk f.sz.toNat f.data.toNat = true) : InFile (atomTags op f) := by
  have sized (wide : Nat) {narrow : Nat} (hn : isPairTy narrow = false) :
      InFile (accepted (if f.sz = 3 then wide else narrow) f.data.toNat) := by
    split
    next h => exact accepted_inFile f.data.isLt fun _ => by simpa [dataOk, h] using hd
    next => exact accepted_single_inFile hn f.data
  unfold atomTags
  split
  · exact sized 13 rfl
  · split
    · exact sized 14 rfl
    · split
      · exact accepted_single_inFile (ty := 3) rfl f.data
      · exact .nil

theorem memRule_inFile {s : State} {i : Instr} {r : MRule} (hwf : i.wf = true) (h : memRule s i = some r) : InFile r.tags := by
  cases i with
  | ld ty f | atomc f | cwb f | cinv f => cases h; exact indexTags_inFile f
  | st ty f =>
    cases h
    have hall := wf_checkM hwf rfl rfl rfl rfl rfl
    have hty := hall _ (.tail _ (.head _))
    have hd := hall _ (.tail _ (.tail _ (.head _)))
    exact (dataTags_inFile hty hd).append (indexTags_inFile f)
  | atom op f | red op f =>
    cases h
    exact (atomTags_inFile (wf_checkM hwf rfl rfl rfl rfl rfl _ (.tail _ (.tail _ (.head _))))).append (indexTags_inFile f)
  | lds f | ldsSx f | sts f | lkqry f => cases h; exact .nil
  | _ => cases h

/-! ## The faults of a memory instruction -/

theorem addrFault_addrnc {l : List (Nat × Word)} {size : Nat} {a : Nat × Word}
    (h : l.find? (fun a => a.2.extractLsb' 57 3 != 0) = some a) : addrFault (l.map Prod.snd) size = some (0x0A, a.2) := by
  have hf : (l.map Prod.snd).find? (fun a => wf a 57 3 != 0) = some a.2 := by
    simp only [wf, Commands.toNat_bne_zero, List.find?_map, Function.comp_def, h, Option.map_some]
  simp only [addrFault, hf]

theorem addrFault_misalign {l : List (Nat × Word)} {size align : Nat} {a : Nat × Word}
    (hs : ∀ a : Word, (size != 0 && a.toNat % size != 0) = (a.toNat % align != 0)) (hc : ∀ a ∈ l, a.2.extractLsb' 57 3 = 0)
    (h : l.find? (fun a => a.2.toNat % align != 0) = some a) : addrFault (l.map Prod.snd) size = some (0x0B, a.2) := by
  have hn : (l.map Prod.snd).find? (fun a => wf a 57 3 != 0) = none := by
    simp only [wf, Commands.toNat_bne_zero, List.find?_map, Function.comp_def, Option.map_eq_none_iff, List.find?_eq_none]
    intro a ha; simp [hc a ha]
  have hf : (l.map Prod.snd).find? (fun a => size != 0 && a.toNat % size != 0) = some a.2 := by
    simp only [hs, List.find?_map, Function.comp_def, h, Option.map_some]
  simp only [addrFault, hn, hf]

/-- The tags that a rule demands pass, so do the model's checks. -/
theorem demands_pass {s : State} {chk : List TagCheck} (h : ∀ c ∈ demands chk, (s.tagOfReg c.1).toNat ∈ c.2) :
    ∀ c ∈ chk, (s.tagOfReg c.1).toNat ∈ c.2.1 :=
  fun _ hc => h _ (List.mem_map_of_mem hc)

section Memory

variable {s : State} {w : Warp} {p : Split} {o : Out} {r : MRule} (h : Issuer s w p) (ho : ChecksMem s o r)
include h ho

theorem checksMem_regrange {v : Nat} (hv : r.regs.find? (fun v => decide (w.budget ≤ v)) = some v) :
    ∃ t, o = .next t ∧ TakesFault s t w p 0x02 (BitVec.ofNat 64 (v + 2 ^ 8 * (w.budget / 8))) := by
  obtain ⟨regs, chk, size, eff, rfl, rfl, -⟩ := ho
  have hf := vecFault_regrange false chk ((issuer_curWarp h).symm ▸ hv)
  rw [issuer_curWarp h] at hf
  exact ⟨_, by simp only [State.runMem, hf], Transfers.raise_takes h 1 _ _⟩

theorem checksMem_fmttag (hin : InFile r.tags) (hr : ∀ v ∈ r.regs, v < w.budget) {c : Nat × List Nat}
    (hc : r.tags.find? (fun c => !c.2.contains (s.tagOfReg c.1).toNat) = some c) :
    ∃ t info, o = .next t ∧ TakesFault s t w p 0x03 info
      ∧ info.extractLsb' 0 12 = BitVec.ofNat 12 (c.1 % 256 + 2 ^ 8 * (s.tagOfReg c.1).toNat) := by
  obtain ⟨regs, chk, size, eff, rfl, rfl, hd, -⟩ := ho
  obtain ⟨ty, hf⟩ := vecFault_fmttag (by rwa [issuer_curWarp h]) (hd ▸ hc)
  have hlt := hin c (List.mem_of_find?_eq_some hc)
  refine ⟨_, BitVec.ofNat 64 (c.1 + 2 ^ 8 * (s.tagOfReg c.1).toNat + 2 ^ 12 * ty), by simp only [State.runMem, hf],
    Transfers.raise_takes h 1 _ _, ?_⟩
  apply BitVec.eq_of_toNat_eq
  have htag := (s.tagOfReg c.1).isLt
  rw [BitVec.extractLsb'_toNat, Nat.shiftRight_zero, fmttag_info _ _ hlt, BitVec.toNat_ofNat]
  omega

/-- An address that faults, once registers and tags have passed. -/
theorem checksMem_address (hr : ∀ v ∈ r.regs, v < w.budget) (ht : ∀ c ∈ r.tags, (s.tagOfReg c.1).toNat ∈ c.2) :
    (∀ a, r.addrs.find? (fun a => a.2.extractLsb' 57 3 != 0) = some a → ∃ t, o = .next t ∧ TakesFault s t w p 0x0A a.2)
    ∧ ((∀ a ∈ r.addrs, a.2.extractLsb' 57 3 = 0) → ∀ a, r.addrs.find? (fun a => a.2.toNat % r.align != 0) = some a →
        ∃ t, o = .next t ∧ TakesFault s t w p 0x0B a.2) := by
  obtain ⟨regs, chk, size, eff, rfl, rfl, hd, hs⟩ := ho
  have hf : s.vecFault r.regs false chk = none :=
    vecFault_none s _ _ _ (by rwa [issuer_curWarp h]) (.inr (demands_pass (hd ▸ ht)))
  constructor
  · intro a ha
    exact ⟨_, by simp only [State.runMem, hf, addrFault_addrnc ha], Transfers.raise_takes h 1 _ _⟩
  · intro hc a ha
    exact ⟨_, by simp only [State.runMem, hf, addrFault_misalign hs hc ha], Transfers.raise_takes h 1 _ _⟩

end Memory

/-! ## LDL and STL -/

theorem localFault_misalign {l : List Nat} {g : Nat → Word} {limit size x : Nat}
    (h : l.find? (fun x => (g x).toNat % size != 0) = some x) : localFault limit size (l.map g) = some (0x0B, g x) := by
  have hf : (l.map g).find? (fun a => a.toNat % size != 0) = some (g x) := by
    simp only [List.find?_map, Function.comp_def, h, Option.map_some]
  simp only [localFault, hf]

theorem localFault_range {l : List Nat} {g : Nat → Word} {limit size x : Nat} (ha : ∀ x ∈ l, (g x).toNat % size = 0)
    (h : l.find? (fun x => decide (limit < (g x).toNat + size)) = some x) : localFault limit size (l.map g) = some (0x09, g x) := by
  have hn : (l.map g).find? (fun a => a.toNat % size != 0) = none := by
    simp only [List.find?_map, Function.comp_def, Option.map_eq_none_iff, List.find?_eq_none]
    intro x hx; simp [ha x hx]
  simp only [localFault, hn, rangeFault, List.find?_map, Function.comp_def, h, Option.map_some]

/-- LDL and STL that name registers below the budget and tags that pass take the fault of their offsets (07 R175). -/
theorem exec_localFault {s : State} {w : Warp} {p : Split} {i : Instr} {f : MFmt} {store : Bool} {tags : List (Nat × List Nat)}
    (h : Issuer s w p) (hi : localRule i = some (f, store, tags)) (hr : ∀ v ∈ dataRule f ++ indexRule f, v < w.budget)
    (ht : ∀ c ∈ tags, (s.tagOfReg c.1).toNat ∈ c.2) {code : Nat} {info : Word}
    (hf : localFault s.curBlock.usable (szBytes f) ((activeLanes s f).map (laneAddr s f)) = some (code, info)) :
    exec i s = .next (s.raise 1 code info) := by
  have hla : (s.laneAddrs f).map (fun x => x.2) = (activeLanes s f).map (laneAddr s f) := List.map_map
  have hregs : ∀ v ∈ dataRegs f ++ idxRegs f, v < s.curWarp.budget := by
    rwa [dataRegs_rule, idxRegs_rule, issuer_curWarp h]
  cases i with
  | ldl ty f =>
    cases hi
    have hv := vecFault_none s _ false (idxChk f) hregs (.inr (demands_pass (by rwa [demands_idxChk])))
    dsimp only [exec, execLdl]
    simp only [hv, hla, hf]
  | stl ty f =>
    cases hi
    have hv := vecFault_none s _ false (dataChk ty.toNat f ++ idxChk f) hregs
      (.inr (demands_pass (by rwa [demands_append, demands_dataChk, demands_idxChk])))
    dsimp only [exec, execStl]
    simp only [hv, hla, hf]
  | _ => cases hi

/-- Settles O31: each instruction checks what its rule names, first registers, then tags, then addresses, and takes the first fault. -/
theorem operandFaults : Obligations.OperandFaults := by
  unfold Obligations.OperandFaults
  refine ⟨?_, ?_, ?_⟩
  · intro s w p i r h hwf hi
    have ho := exec_checksVec hi
    exact ⟨checksVec_regrange h ho, checksVec_fmttag h ho (vecRule_inFile hwf hi)⟩
  · intro s w p i r h hwf hi
    have ho := exec_checksMem hwf hi
    exact ⟨fun v => checksMem_regrange h ho, fun hr c => checksMem_fmttag h ho (memRule_inFile hwf hi) hr, checksMem_address h ho⟩
  · intro s w p i f store tags h hwf hi hr ht
    exact ⟨fun l hl => ⟨_, exec_localFault h hi hr ht (localFault_misalign hl), Transfers.raise_takes h 1 _ _⟩,
      fun ha l hl => ⟨_, exec_localFault h hi hr ht (localFault_range ha hl), Transfers.raise_takes h 1 _ _⟩⟩

end Sys2Proof.Laws.Operands

namespace Sys2Proof.Laws.Words

/-! # Words and instructions (02 R39 to R62)

Decoding undoes encoding by the law of each instruction (RoundTrip). Encoding undoes decoding by format: a word is what its format packs
of the fields read from it, and the opcode and FN that select an instruction are those it is encoded with. -/

/-! ## A word is made of its fields -/

theorem toNat_bit (b : BitVec 1) : (b == 1).toNat = b.toNat := by revert b; decide

theorem fld_toNat (w : Word) (lo n : Nat) : (fld w lo n).toNat = w.toNat / 2 ^ lo % 2 ^ n := by
  rw [fld, BitVec.extractLsb'_toNat, Nat.shiftRight_eq_div_pow]

/-- A field put above the bits below it. -/
theorem put_add_low (x lo n : Nat) : put (x / 2 ^ lo % 2 ^ n) lo + x % 2 ^ lo = x % 2 ^ (lo + n) := by
  rw [put, Nat.pow_add, Nat.mod_mul, Nat.mul_comm, Nat.add_comm]

/-- Below a field that is zero nothing is lost. -/
theorem low_of_fld_zero {w : Word} {lo n : Nat} (h : fld w lo n = 0) : w.toNat % 2 ^ lo = w.toNat % 2 ^ (lo + n) := by
  have hz : w.toNat / 2 ^ lo % 2 ^ n = 0 := by rw [← fld_toNat, h]; rfl
  rw [← put_add_low, hz, put, Nat.zero_mul, Nat.zero_add]

theorem toNat_mod (w : Word) : BitVec.ofNat 64 (w.toNat % 2 ^ 64) = w := by
  rw [Nat.mod_eq_of_lt w.isLt, BitVec.ofNat_toNat, BitVec.setWidth_eq]

/-- A word of format S is what its fields pack; so for the other formats below. -/
theorem packS_readS (w : Word) : packS (opOf w) (fnOf w) (readS w) = w := by
  simp only [packS, packHead, opOf, fnOf, swOf, readS, toNat_bit, fld_toNat, Nat.pow_zero, Nat.div_one,
    Nat.add_assoc, put_add_low, Nat.reduceAdd, toNat_mod]

theorem packA_readA (w : Word) : packA (opOf w) (fnOf w) (readA w) = w := by
  simp only [packA, packHead, opOf, fnOf, swOf, readA, toNat_bit, fld_toNat, Nat.pow_zero, Nat.div_one,
    Nat.add_assoc, put_add_low, Nat.reduceAdd, toNat_mod]

theorem packB_readB (w : Word) : packB (opOf w) (readB w) = w := by
  simp only [packB, packHead, opOf, swOf, readB, toNat_bit, fld_toNat, Nat.pow_zero, Nat.div_one,
    Nat.add_assoc, put_add_low, Nat.reduceAdd, toNat_mod]

theorem packM_readM (w : Word) : packM (opOf w) (fnOf w) (readM w) = w := by
  simp only [packM, packHead, opOf, fnOf, swOf, readM, toNat_bit, fld_toNat, Nat.pow_zero, Nat.div_one,
    Nat.add_assoc, put_add_low, Nat.reduceAdd, toNat_mod]

theorem packJ_readJ {w : Word} (h : fld w 0 3 = 0) : packJ (opOf w) (fnOf w) (readJ w) = w := by
  have hlow := low_of_fld_zero h
  simp only [Nat.pow_zero, Nat.mod_one] at hlow
  rw [packJ, ← Nat.add_zero (_ + put _ 3), hlow]
  simp only [packHead, opOf, fnOf, swOf, readJ, toNat_bit, fld_toNat, Nat.add_assoc, put_add_low, Nat.reduceAdd, toNat_mod]

theorem packE_readE {w : Word} (e : Word) (h : fld w 16 3 = 0) : packE (opOf w) (fnOf w) (readE w e) = w := by
  have hlow := low_of_fld_zero h
  simp only [packE, packHead, opOf, fnOf, swOf, readE, toNat_bit, fld_toNat, Nat.pow_zero, Nat.div_one, hlow,
    Nat.add_assoc, put_add_low, Nat.reduceAdd, toNat_mod]

theorem packX_readX {w : Word} (h : fld w 24 5 = 0) (hx : fld w 29 1 = 0) : packX (opOf w) (fnOf w) (readX w) = w := by
  have hlow := (low_of_fld_zero h).trans (low_of_fld_zero hx)
  simp only [packX, packHead, opOf, fnOf, swOf, readX, toNat_bit, fld_toNat, Nat.pow_zero, Nat.div_one, hlow,
    Nat.add_assoc, put_add_low, Nat.reduceAdd, toNat_mod]

/-! ## The opcodes of each format (02 R59) -/

theorem fnOf_lt (w : Word) : fnOf w < 16 := (fld w 52 4).isLt

theorem readFn_eq (w : Word) : readFn w = BitVec.ofNat 4 (fnOf w) := by
  rw [readFn, fnOf, BitVec.ofNat_toNat, BitVec.setWidth_eq]

section Opcodes

variable {op : Nat}

theorem fmtOf_s (h : fmtOf op = .s) : 0x01 ≤ op ∧ op ≤ 0x05 ∨ op = 0x18 := by
  unfold fmtOf at h; split_ifs at h; assumption

theorem fmtOf_j (h : fmtOf op = .j) : 0x10 ≤ op ∧ op ≤ 0x16 := by
  unfold fmtOf at h; split_ifs at h; assumption

theorem fmtOf_a (h : fmtOf op = .a) : 0x20 ≤ op ∧ op ≤ 0x23 ∨ 0x40 ≤ op ∧ op ≤ 0x45 ∨ 0x48 ≤ op ∧ op ≤ 0x4E := by
  unfold fmtOf at h; split_ifs at h; assumption

theorem fmtOf_b (h : fmtOf op = .b) : 0x30 ≤ op ∧ op ≤ 0x3F := by
  unfold fmtOf at h; split_ifs at h; assumption

theorem fmtOf_m (h : fmtOf op = .m) : 0x50 ≤ op ∧ op ≤ 0x58 ∨ 0x60 ≤ op ∧ op ≤ 0x65 := by
  unfold fmtOf at h; split_ifs at h; assumption

theorem fmtOf_x (h : fmtOf op = .x) : 0x68 ≤ op ∧ op ≤ 0x6F ∨ 0x78 ≤ op ∧ op ≤ 0x7D := by
  unfold fmtOf at h; split_ifs at h; assumption

theorem fmtOf_e (h : fmtOf op = .e) : 0x70 ≤ op ∧ op ≤ 0x76 := by
  unfold fmtOf at h; split_ifs at h; assumption

end Opcodes

/-! ## What an opcode and FN select, they encode -/

section Select

variable {w e : Word} {i : Instr} (h : selectInstr w e = .ok i)
include h

theorem fmtOf_assigned : fmtOf (opOf w) ≠ .unassigned := by
  unfold selectInstr at h
  split at h
  on_goal -1 => cases h
  all_goals next hop => rw [hop]; decide

theorem select_s (hop : fmtOf (opOf w) = .s) :
    encode i = some (packS (opOf w) (fnOf w) (readS w), if opOf w = 4 then some e else none) ∧ (opOf w = 4 → fnOf w = 0) := by
  have hfn := fnOf_lt w
  have hops := fmtOf_s hop
  unfold selectInstr select01 select02 select03 select05 select18 at h
  generalize opOf w = op at *
  generalize fnOf w = fn at *
  rcases hops with ⟨hlo, hhi⟩ | rfl
  · interval_cases op <;> interval_cases fn <;> cases h <;> exact ⟨rfl, by decide⟩
  · interval_cases fn <;> cases h <;> exact ⟨rfl, by decide⟩

theorem select_j (hop : fmtOf (opOf w) = .j) : encode i = some (packJ (opOf w) (fnOf w) (readJ w), none) := by
  have hfn := fnOf_lt w
  have hops := fmtOf_j hop
  unfold selectInstr select14 select16 at h
  generalize opOf w = op at *
  generalize fnOf w = fn at *
  obtain ⟨hlo, hhi⟩ := hops
  interval_cases op <;> interval_cases fn <;> cases h <;> rfl

theorem select_a (hop : fmtOf (opOf w) = .a) :
    encode i = some (packA (opOf w) (fnOf w) (readA w), none) ∧ ∃ a, entryA i = some (a, readA w) := by
  have hfn := fnOf_lt w
  have hops := fmtOf_a hop
  unfold selectInstr select20 select21 select22 select23 select41 select48 select4D select4E at h
  simp only [readFn_eq] at h
  generalize opOf w = op at *
  generalize fnOf w = fn at *
  rcases hops with ⟨hlo, hhi⟩ | ⟨hlo, hhi⟩ | ⟨hlo, hhi⟩ <;> interval_cases op <;> interval_cases fn <;> cases h <;> exact ⟨rfl, _, rfl⟩

theorem select_b (hop : fmtOf (opOf w) = .b) : encode i = some (packB (opOf w) (readB w), none) := by
  have hops := fmtOf_b hop
  unfold selectInstr at h
  generalize opOf w = op at *
  obtain ⟨hlo, hhi⟩ := hops
  interval_cases op <;> cases h <;> rfl

theorem select_m (hop : fmtOf (opOf w) = .m) : encode i = some (packM (opOf w) (fnOf w) (readM w), none) := by
  have hfn := fnOf_lt w
  have hops := fmtOf_m hop
  unfold selectInstr select52 select56 select63 at h
  simp only [readFn_eq] at h
  generalize opOf w = op at *
  generalize fnOf w = fn at *
  rcases hops with ⟨hlo, hhi⟩ | ⟨hlo, hhi⟩ <;> interval_cases op <;> interval_cases fn <;> cases h <;> rfl

theorem select_e (hop : fmtOf (opOf w) = .e) :
    encode i = some (packE (opOf w) (fnOf w) (readE w e), if fld w 19 1 == 1 then some (readE w e).ext else none) := by
  have hfn := fnOf_lt w
  have hops := fmtOf_e hop
  unfold selectInstr select70 select71 select73 at h
  generalize opOf w = op at *
  generalize fnOf w = fn at *
  obtain ⟨hlo, hhi⟩ := hops
  interval_cases op <;> interval_cases fn <;> cases h <;> rfl

theorem select_x (hop : fmtOf (opOf w) = .x) : encode i = some (packX (opOf w) (fnOf w) (readX w), none) := by
  have hfn := fnOf_lt w
  have hops := fmtOf_x hop
  unfold selectInstr at h
  generalize opOf w = op at *
  generalize fnOf w = fn at *
  rcases hops with ⟨hlo, hhi⟩ | ⟨hlo, hhi⟩ <;> interval_cases op <;> interval_cases fn <;> cases h <;> rfl

end Select

/-! ## The extension word, and both directions -/

theorem fld_one (w : Word) (lo : Nat) : (fld w lo 1 == 1) = w.getLsbD lo := by
  have hb : fld w lo 1 = BitVec.ofBool (w.getLsbD lo) := by
    apply BitVec.eq_of_getLsbD_eq
    intro j hj
    obtain rfl : j = 0 := by omega
    simp [fld]
  rw [hb]
  cases w.getLsbD lo <;> rfl

/-- No entry of format A gives the extension word a meaning (02 R41). -/
theorem no_xw_of_check {i : Instr} {a : AEntry} {f : AFmt} (ha : entryA i = some (a, f)) (hc : check i = none) : f.flag flXw = false := by
  simp only [check, ha] at hc
  simpa using Operands.firstBroken_none hc _ (.head _)

theorem flag_readA {w : Word} {b : Nat} (hb : b < 10) : (readA w).flag b = w.getLsbD b := by
  simp [AFmt.flag, readA, fld, hb]

/-- The words of the instruction that is selected: bit for bit those it was selected from. -/
theorem encode_selected {w e : Word} {i : Instr} (hr : reservedOk w = none) (h : selectInstr w e = .ok i) (hc : check i = none) :
    encode i = some (w, if hasExt w then some e else none) := by
  cases hop : fmtOf (opOf w) with
  | s =>
    obtain ⟨he, hfn⟩ := select_s h hop
    have hext : hasExt w = decide (opOf w = 4) := by
      simp only [hasExt, hop]
      by_cases h4 : opOf w = 4 <;> simp [h4, hfn]
    simp only [he, packS_readS, hext, decide_eq_true_eq]
  | j =>
    simp only [reservedOk, hop] at hr
    simp only [select_j h hop, hasExt, hop]
    rw [packJ_readJ (by simpa using hr)]; rfl
  | a =>
    obtain ⟨he, a, ha⟩ := select_a h hop
    have hx := no_xw_of_check ha hc
    rw [flag_readA (by decide)] at hx
    simp only [he, packA_readA, hasExt, hop, fld_one, hx]; rfl
  | b => simp only [select_b h hop, packB_readB, hasExt, hop]; rfl
  | m => simp only [select_m h hop, packM_readM, hasExt, hop]; rfl
  | e =>
    simp only [reservedOk, hop] at hr
    simp only [select_e h hop, hasExt, hop]
    rw [packE_readE e (by simpa using hr)]
    cases hx : fld w 19 1 == 1 <;> simp only [readE, hx] <;> rfl
  | x =>
    simp only [reservedOk, hop] at hr
    split_ifs at hr with hx hres
    rw [not_not] at hx
    simp only [select_x h hop, packX_readX hres hx, hasExt, hop, hx]; rfl
  | unassigned => exact absurd hop (fmtOf_assigned h)

/-- What a word that decodes has passed. -/
theorem decode_eq_ok {w e : Word} {i : Instr} (h : decode w e = .ok i) :
    reservedOk w = none ∧ selectInstr w e = .ok i ∧ check i = none := by
  unfold decode at h
  split at h
  · cases h
  next hr =>
    split at h
    · cases h
    next hs =>
      split at h
      · cases h
      next hc => cases h; exact ⟨hr, hs, hc⟩

/-- Settles O4: a word is what its format makes of the fields read from it, for each of the seven formats. -/
theorem decodeEncode : Obligations.DecodeEncode := by
  intro i w e h
  obtain ⟨hr, hs, hc⟩ := decode_eq_ok h
  exact ⟨encode_selected hr hs hc, by simp [Instr.wf, hc]⟩

section
open RoundTrip

/-- Decoding undoes encoding, for every instruction by its own law. -/
theorem statement_all (i : Instr) : Statement i := by
  cases i with
  | sadd f => exact sadd f | ssub f => exact ssub f | smul f => exact smul f | smulh f => exact smulh f | sdiv f => exact sdiv f | sand f => exact sand f
  | sor f => exact sor f | sxor f => exact sxor f | sshl f => exact sshl f | sshr f => exact sshr f | ssra f => exact ssra f | smin f => exact smin f
  | smax f => exact smax f | smov f => exact smov f | spopc f => exact spopc f | sclz f => exact sclz f | saddImm f => exact saddImm f
  | ssubImm f => exact ssubImm f | smulImm f => exact smulImm f | smulhImm f => exact smulhImm f | sdivImm f => exact sdivImm f | sandImm f => exact sandImm f
  | sorImm f => exact sorImm f | sxorImm f => exact sxorImm f | sshlImm f => exact sshlImm f | sshrImm f => exact sshrImm f | ssraImm f => exact ssraImm f
  | sminImm f => exact sminImm f | smaxImm f => exact smaxImm f | smovImm f => exact smovImm f | smulhU f => exact smulhU f | sdivU f => exact sdivU f
  | sminU f => exact sminU f | smaxU f => exact smaxU f | scmp f => exact scmp f | scmpU f => exact scmpU f | ssel f => exact ssel f | sbfx f => exact sbfx f
  | sbfxU f => exact sbfxU f | sbfi f => exact sbfi f | slea f => exact slea f | sldi f ext => exact sldi f ext | srd f => exact srd f | swr f => exact swr f
  | bra f => exact bra f | brc f => exact brc f | brx f => exact brx f | jmpi f => exact jmpi f | call f => exact call f | callInd f => exact callInd f
  | ret f => exact ret f | exit f => exact exit f | nop f => exact nop f | yield f => exact yield f | join f => exact join f | joinBnd f => exact joinBnd f
  | mand f => exact mand f | mor f => exact mor f | mxor f => exact mxor f | mnot f => exact mnot f | mmov f => exact mmov f | mpopc f => exact mpopc f
  | mffs f => exact mffs f | msetem f => exact msetem f | msave f => exact msave f | mrest f => exact mrest f | splitq f => exact splitq f
  | regang f => exact regang f | vadd f => exact vadd f | vsub f => exact vsub f | vmul f => exact vmul f | vmulh f => exact vmulh f | vmad f => exact vmad f
  | vmin f => exact vmin f | vmax f => exact vmax f | vabs f => exact vabs f | vneg f => exact vneg f | vaddc f => exact vaddc f | vsubb f => exact vsubb f
  | vsad f => exact vsad f | vavg f => exact vavg f | vcmp f => exact vcmp f | vsel f => exact vsel f | vmov f => exact vmov f | vand f => exact vand f
  | vor f => exact vor f | vxor f => exact vxor f | vnot f => exact vnot f | vshl f => exact vshl f | vshr f => exact vshr f | vsra f => exact vsra f
  | vrot f => exact vrot f | vclz f => exact vclz f | vpopc f => exact vpopc f | vbfx f => exact vbfx f | vbfi f => exact vbfi f | vmovs f => exact vmovs f
  | vfadd f => exact vfadd f | vfsub f => exact vfsub f | vfmul f => exact vfmul f | vfma f => exact vfma f | vfmin f => exact vfmin f | vfmax f => exact vfmax f
  | vfcmp f => exact vfcmp f | vfdot2 f => exact vfdot2 f | vfdot4 f => exact vfdot4 f | vfclass f => exact vfclass f | vfrnd f => exact vfrnd f
  | vfrcp f => exact vfrcp f | vfrsq f => exact vfrsq f | vfsqrt f => exact vfsqrt f | vfexp2 f => exact vfexp2 f | vflog2 f => exact vflog2 f
  | vfsin f => exact vfsin f | vfcos f => exact vfcos f | vaddImm f => exact vaddImm f | vsubImm f => exact vsubImm f | vmulImm f => exact vmulImm f
  | vandImm f => exact vandImm f | vorImm f => exact vorImm f | vxorImm f => exact vxorImm f | vshlImm f => exact vshlImm f | vshrImm f => exact vshrImm f
  | vsraImm f => exact vsraImm f | vminImm f => exact vminImm f | vmaxImm f => exact vmaxImm f | vmovImm f => exact vmovImm f | vfaddImm f => exact vfaddImm f
  | vfmulImm f => exact vfmulImm f | vfminImm f => exact vfminImm f | vfmaxImm f => exact vfmaxImm f | vcvt f => exact vcvt f | vpackX2 f => exact vpackX2 f
  | vpackX4 f => exact vpackX4 f | vunpk op f => exact vunpk op f | vtag f => exact vtag f | vqduo f => exact vqduo f | vscale f => exact vscale f
  | vshfl f => exact vshfl f | vshflUp f => exact vshflUp f | vshflDown f => exact vshflDown f | vshflXor f => exact vshflXor f | vshflx f => exact vshflx f
  | vbcast f => exact vbcast f | vred op f => exact vred op f | vscan op f => exact vscan op f | vfunl f => exact vfunl f | vlutn f => exact vlutn f
  | vbperm f => exact vbperm f | vballot f => exact vballot f | vmatch f => exact vmatch f | vcompr f => exact vcompr f | ld op f => exact ld op f
  | st op f => exact st op f | lds f => exact lds f | ldsSx f => exact ldsSx f | sts f => exact sts f | ldl op f => exact ldl op f | stl op f => exact stl op f
  | prf f => exact prf f | prfL2 f => exact prfL2 f | cwb f => exact cwb f | cinv f => exact cinv f | atom op f => exact atom op f | atomc f => exact atomc f
  | red op f => exact red op f | lock f => exact lock f | lockTry f => exact lockTry f | unlock f => exact unlock f | lkqry f => exact lkqry f
  | fence f => exact fence f | bararv f => exact bararv f | barwait f => exact barwait f | barsync f => exact barsync f | csig f => exact csig f
  | cwait f => exact cwait f | crd f => exact crd f | wsync f => exact wsync f | cpy f => exact cpy f | cpyOut f => exact cpyOut f | cpyLocal f => exact cpyLocal f
  | cpyg f => exact cpyg f | cpygScatter f => exact cpygScatter f | tdesc f => exact tdesc f | task f => exact task f | taskOvr f => exact taskOvr f
  | taskCvt f => exact taskCvt f | kmv f => exact kmv f | mcst f => exact mcst f | msgx f => exact msgx f | trap f => exact trap f | bkpt f => exact bkpt f
  | ckpt f => exact ckpt f | clkrd f => exact clkrd f | evnt f => exact evnt f | haltw f => exact haltw f
  | _ => exact of_none _ rfl

end

/-- Settles O3: the words decode by the law of each instruction, and by O4 the extension word is the one that the first announces. -/
theorem encodeDecode : Obligations.EncodeDecode := by
  intro i w e hwf he
  have hd := statement_all i hwf w e he
  obtain ⟨henc, -⟩ := decodeEncode i w (e.getD 0) hd
  have hext : e = if hasExt w then some (e.getD 0) else none := by simpa [he] using henc
  refine ⟨hd, ?_⟩
  rw [hext]
  cases hasExt w <;> rfl

end Sys2Proof.Laws.Words

namespace Sys2Proof.Laws.Steps

/-! # What a step runs (02 R62, R63, R65, 16 R391, R392) -/

open Sys2Proof.Machine Sys2Proof.Safety Sys2Proof.Rules

/-! ## The issue of a split -/

/-- A split whose next words are held has fetched them (02 R41, R65). -/
theorem fetched_of_holds {s : State} {wid : Nat} {pc : BitVec 48} {w e : Word} (h : Holds s wid pc w e) :
    s.fetched wid pc = .ok (w, e) := by
  obtain ⟨hw, hext, hnone⟩ := h
  have hw' : kget? (s.core (s.blockOf wid).ck).icache (icKey (s.launchD (s.blockOf wid).launch).asid pc) = some w := hw
  simp only [State.fetched, hw']
  split
  next hx =>
    have he : kget? (s.core (s.blockOf wid).ck).icache (icKey (s.launchD (s.blockOf wid).launch).asid (pc + 1)) = some e := hext hx
    rw [he]
  next hx => rw [hnone (by simpa using hx)]

section Issue

variable {s : State} {wid slot : Nat} {p : Split} {w e : Word} (hp : s.split? wid slot = some p) (hst : p.st = .ready)
  (h : Holds s wid p.pc w e)
include hp hst h

theorem nextInstr_of_decode {i : Instr} (hd : decode w e = .ok i) : s.nextInstr wid slot = .instr i := by
  simp only [State.nextInstr, hp, hst, fetched_of_holds h, hd, ne_eq, not_true_eq_false, if_false]

theorem nextInstr_of_illegal {why : Illop} (hd : decode w e = .error why) : s.nextInstr wid slot = .illegal w := by
  simp only [State.nextInstr, hp, hst, fetched_of_holds h, hd, ne_eq, not_true_eq_false, if_false]

end Issue

/-- Settles O5: the issuing step fetches the held words, and `exec` runs what they decode to. -/
theorem stepRunsDecoded : Obligations.StepRunsDecoded := by
  intro s wid slot rest p w e i hag hp hst h hd
  have hn : { s with agenda := rest }.nextInstr wid slot = .instr i := nextInstr_of_decode (s := { s with agenda := rest }) hp hst h hd
  simp only [step, hag, State.issueNext, hn]

/-! ## Firmware cores -/

theorem fwCore_modFw (s : State) (n : Nat) (f : FwCore → FwCore) : (s.modFw n f).fwCore n = f (s.fwCore n) := by
  simp [State.fwCore, State.modFw, State.modDie, State.die, kgetD]

theorem firmwareNext_of_waiting {s : State} {n : Nat} (h : (s.fwCore n).wait ≠ none ∨ (s.fwCore n).disp ≠ none) :
    s.firmwareNext n = .next s := by
  have hc : ((s.fwCore n).wait.isSome || (s.fwCore n).disp.isSome) = true := by simpa [Option.isSome_iff_ne_none] using h
  simp only [State.firmwareNext, State.fwNext, hc, if_true]

section Running

variable {s : State} {n : Nat} (hw : (s.fwCore n).wait = none) (hd : (s.fwCore n).disp = none)
include hw hd

theorem firmwareNext_of_instr {i : Instr} (hi : decodeXkarb (s.fwWord n) = some i) :
    s.firmwareNext n = exec i { s with cur := (0, n) } := by
  simp only [State.firmwareNext, State.fwNext, hw, hd, hi, Option.isSome_none, Bool.or_self, Bool.false_eq_true, if_false]

theorem firmwareNext_of_illegal (hi : decodeXkarb (s.fwWord n) = none) (hop : (s.fwWord n).extractLsb' 0 7 = 0x0B) :
    s.firmwareNext n = .next (s.fwIllegalAt n) := by
  simp only [State.firmwareNext, State.fwNext, hw, hd, hi, hop, Option.isSome_none, Bool.or_self, Bool.false_eq_true, if_false, if_true]

theorem firmwareNext_of_base (hi : decodeXkarb (s.fwWord n) = none) (hop : (s.fwWord n).extractLsb' 0 7 ≠ 0x0B) :
    s.firmwareNext n = .refused (.baseIsa (s.fwWord n)) := by
  simp only [State.firmwareNext, State.fwNext, hw, hd, hi, hop, Option.isSome_none, Bool.or_self, Bool.false_eq_true, if_false]

end Running

/-- The trap of an illegal instruction (16 R392): cause 2, registers and SRAM as they were. -/
theorem fwIllegalAt_traps (s : State) (n : Nat) :
    ((s.fwIllegalAt n).fwCore n).mcause = 2 ∧ ((s.fwIllegalAt n).fwCore n).x = (s.fwCore n).x
      ∧ ((s.fwIllegalAt n).fwCore n).sram = (s.fwCore n).sram := by
  rw [State.fwIllegalAt, fwCore_modFw]
  exact ⟨rfl, rfl, rfl⟩

/-! ## Steps of the part -/

/-- An event of the agenda runs as `exec` runs the constructor that names it. -/
theorem run_eq_exec (e : Event) (s : State) : e.run s = exec (eventInstr e) s := by
  cases e <;> rfl

/-- Settles O33: by what the agenda names first. -/
theorem stepRunsOthers : Obligations.StepRunsOthers := by
  refine ⟨?_, ?_, ?_, ?_⟩
  · intro s wid slot rest wp p w e why hag hw hp hst hm h hd
    have hsplit : s.split? wid slot = some p := by simp [State.split?, hw, hp]
    have hn : { s with agenda := rest }.nextInstr wid slot = .illegal w :=
      nextInstr_of_illegal (s := { s with agenda := rest }) hsplit hst h hd
    have hi : Issuer { s with agenda := rest, cur := (wid, slot) } wp p := ⟨hw, hp, hst, hm⟩
    refine ⟨({ s with agenda := rest, cur := (wid, slot) } : State).raiseIllop w, ?_, Transfers.raise_takes hi (wordsOf w) fcIllop w⟩
    simp only [step, hag, State.issueNext, hn]
  · intro s pkg die fw rest hag _
    have hstep : step s = { s with agenda := rest }.firmwareNext (4 * (128 * pkg + die) + fw) := by simp only [step, hag]
    dsimp only
    rw [hstep]
    exact ⟨firmwareNext_of_waiting (s := { s with agenda := rest }), fun hw hd =>
      ⟨fun i => firmwareNext_of_instr (s := { s with agenda := rest }) hw hd,
        fun hn hop => ⟨_, firmwareNext_of_illegal (s := { s with agenda := rest }) hw hd hn hop, fwIllegalAt_traps _ _⟩,
        firmwareNext_of_base (s := { s with agenda := rest }) hw hd⟩⟩
  · intro s e rest hag
    simp only [step, hag, run_eq_exec]
  · intro s hag
    simp only [step, hag]

end Sys2Proof.Laws.Steps

namespace Sys2Proof.Laws.System

/-! # System instructions (08 R232 to R235, 09 R250) -/

open Sys2Proof.Machine Sys2Proof.Safety Sys2Proof.Rules

/-! ## The halt of a split outlasts the end of its span -/

theorem split?_modSplit (s : State) (wid slot : Nat) (f : Split → Split) :
    (s.modSplit wid slot f).split? wid slot = (s.split? wid slot).map f := by
  simp only [State.split?, State.modSplit, warp?_modWarp, if_true]
  cases s.warp? wid <;> simp

/-- Whether a split is halted. -/
def haltedAt (s : State) (wid slot : Nat) : Option Bool := (s.split? wid slot).map (·.halted)

theorem haltedAt_modSplit (s : State) (wid slot : Nat) {f : Split → Split} (hf : ∀ p, (f p).halted = p.halted) :
    haltedAt (s.modSplit wid slot f) wid slot = haltedAt s wid slot := by
  simp only [haltedAt, split?_modSplit, Option.map_map, Function.comp_def, hf]

theorem setEff_halted (p : Split) (x : SplitState) : (p.setEff x).halted = p.halted := by
  unfold Split.setEff; split <;> rfl

theorem haltedAt_gc (s : State) (wid slot : Nat) : haltedAt (s.modWarp wid Warp.gc) wid slot = haltedAt s wid slot := by
  simp only [haltedAt, State.split?, warp?_modWarp, if_true]
  cases s.warp? wid <;> rfl

theorem haltedAt_endSpan (s : State) (wid slot : Nat) : haltedAt (s.endSpan wid slot) wid slot = haltedAt s wid slot := by
  unfold State.endSpan
  split
  · split
    · exact haltedAt_modSplit s wid slot fun p => setEff_halted p _
    · rw [haltedAt_gc]
      exact haltedAt_modSplit { s with nextId := s.nextId + 1 } wid slot fun p => setEff_halted p _
  · rfl

theorem haltedAt_retire (s : State) (sw : Bool) (lat words : Nat) :
    haltedAt (s.retire sw lat words) s.cur.1 s.cur.2 = haltedAt s s.cur.1 s.cur.2 := by
  have hmod := haltedAt_modSplit { s with free := s.free + 1 } s.cur.1 s.cur.2
    (f := fun p => { p with pc := p.pc + BitVec.ofNat 48 words, len := p.len + 1, rdy := max p.rdy (s.clk + lat) }) fun _ => rfl
  unfold State.retire
  dsimp only
  split
  · exact (haltedAt_endSpan _ _ _).trans hmod
  · exact hmod

/-! ## CKPT -/

/-- The issuing warp at a CKPT: under a halt request its split halts, with the live set of the checkpoint entry or the whole
allocation (09 R250). -/
def checkpointed (slot : Nat) (c : Option (Word × BitVec 256)) (w : Warp) : Warp :=
  if w.haltH = 0 then w
  else
    let u := { w with table := kmod w.table slot fun p => { p with halted := true } }
    match c with
    | some e => { u with ckpts := w.ckpts ++ [e] }
    | none => { u with whole := true }

/-- The split of a CKPT before it goes on. -/
def checkpointedSplit (w : Warp) (p : Split) : Split := { p with halted := p.halted || w.haltH != 0 }

theorem checkpointed_frame (slot : Nat) (c : Option (Word × BitVec 256)) (w : Warp) :
    let u := checkpointed slot c w
    u = { w with table := u.table, ckpts := u.ckpts, whole := u.whole } ∧ ∀ k, k ≠ slot → kget? u.table k = kget? w.table k := by
  unfold checkpointed
  split
  · exact ⟨rfl, fun _ _ => rfl⟩
  · cases c <;> exact ⟨rfl, fun _ hk => kget?_kmod_ne _ _ hk⟩

theorem checkpointed_split {slot : Nat} (c : Option (Word × BitVec 256)) {w : Warp} {p : Split} (hp : kget? w.table slot = some p) :
    kget? (checkpointed slot c w).table slot = some (checkpointedSplit w p) := by
  unfold checkpointed checkpointedSplit
  split
  next h0 => simp [hp, h0]
  next h0 => cases c <;> simp [hp, h0]

theorem exec_ckpt {s : State} {w : Warp} {p : Split} (h : Issuer s w p) (f : XFmt) :
    exec (.ckpt f) s = .next ((issued s 0 0 (checkpointed s.cur.2 (s.checkpoint s.curLaunch p.pc))).retire true 2 1) := by
  show execCkpt f s = _
  simp only [execCkpt, issuer_curWarp h, issuer_curSplit h]
  congr 2
  split
  next h0 =>
    have hid : issued s 0 0 (checkpointed s.cur.2 (s.checkpoint s.curLaunch p.pc)) = issued s 0 0 fun w => w :=
      issued_congr h.1 0 0 (by simp [checkpointed, h0])
    rw [hid, issued, kmod_id]
    rfl
  next h0 =>
    cases hc : s.checkpoint s.curLaunch p.pc with
    | none =>
      simp only [State.modCur, State.modCurWarp, State.modSplit, State.modWarp, kmod_kmod]
      exact issued_congr h.1 0 0 (by simp [checkpointed, h0])
    | some e =>
      simp only [State.modCur, State.modCurWarp, State.modSplit, State.modWarp, kmod_kmod]
      exact issued_congr h.1 0 0 (by simp [checkpointed, h0])

/-- CKPT ends its span, and halts its split under a halt request. -/
theorem ckpt_ends {s : State} {w : Warp} {p : Split} (h : Issuer s w p) (f : XFmt) :
    ∃ ids g, exec (.ckpt f) s = .next (issued s ids 1 g)
      ∧ OthersKept w (g w) s.cur.2 ∧ Proceeds (g w) s.cur.2 p true 1
      ∧ RegsKept (checkpointed s.cur.2 (s.checkpoint s.curLaunch p.pc) w) (g w)
      ∧ (kget? (g w).table s.cur.2).map (·.halted) = some (p.halted || w.haltH != 0) := by
  generalize hc : s.checkpoint s.curLaunch p.pc = c
  have hsplit := checkpointed_split c h.2.1
  have hi : Issuer (issued s 0 0 (checkpointed s.cur.2 c)) (checkpointed s.cur.2 c w) (checkpointedSplit w p) :=
    ⟨by rw [issued_cur, issued_warp, h.1]; rfl, hsplit, h.2.2⟩
  obtain ⟨ids, g, hret, hregs, hothers, hproc, -⟩ := retire_proceeds hi true 2 1
  have hhalt := haltedAt_retire (issued s 0 0 (checkpointed s.cur.2 c)) true 2 1
  have hnext : (issued s 0 0 (checkpointed s.cur.2 c)).retire true 2 1
      = issued s ids 1 fun w => g (checkpointed s.cur.2 c w) := by
    rw [hret, issued_issued, Nat.zero_add, Nat.zero_add]
  refine ⟨ids, fun w => g (checkpointed s.cur.2 c w), by rw [exec_ckpt h, hc, hnext], fun k hk => ?_, hproc, hregs, ?_⟩
  · rw [hothers k hk]; exact (checkpointed_frame s.cur.2 c w).2 k hk
  · rw [hnext] at hhalt
    simp only [haltedAt, State.split?, issued_cur, issued_warp, h.1, Option.map_some, Option.bind_some, hsplit] at hhalt
    exact hhalt

/-! ## EVNT -/

/-- A record is appended alike in states that differ in no memory, queue or package. -/
theorem eventAppended_congr {s u t : State} (hmem : u.mem = s.mem) (hpkgs : u.pkgs = s.pkgs) (hfe : u.fe = s.fe)
    (hqueues : u.queues = s.queues) (hdrv : u.drvAsid = s.drvAsid) {q kind status tag launch node body : Nat}
    (h : EventAppended u t q kind status tag launch node body) : EventAppended s t q kind status tag launch node body := by
  have hq : u.queueD q = s.queueD q := by simp only [State.queueD, hqueues]
  simpa only [EventAppended, hq, hqueues, hmem, hdrv, feWrite_mem_congr hmem hpkgs hfe] using h

/-- An EVNT whose release holds goes on and appends its record at once. -/
theorem evnt_appends {s : State} {w : Warp} {p : Split} (h : Issuer s w p) (f : XFmt)
    (hs : s.signalReady s.cur.1 s.nextId f.sc.toNat = true) :
    ∃ t w', exec (.evnt f) s = .next t ∧ t.warp? s.cur.1 = some w' ∧ RegsKept w w' ∧ OthersKept w w' s.cur.2
      ∧ Proceeds w' s.cur.2 p f.sw 1 ∧ EvntAppended s t s.cur.1 f.num.toNat f.imm.toNat := by
  obtain ⟨ids, g, hret, hregs, hothers, hproc, -⟩ := retire_proceeds h f.sw 2 1
  let u := (issued s ids 1 g).place1
  have hw : u.warp? s.cur.1 = some (g w) := (issued_warp s ids 1 g).trans (by rw [h.1]; rfl)
  have hwarp : u.warpD s.cur.1 = g w := by simp [State.warpD, hw]
  have hold : s.warpD s.cur.1 = w := by simp [State.warpD, h.1]
  have hblock : u.blockOf s.cur.1 = s.blockOf s.cur.1 := by
    have : (g w).block = w.block := by rw [hregs]
    simp only [State.blockOf, hwarp, hold, this]
    rfl
  have hwblk : (u.warpD s.cur.1).wblk = (s.warpD s.cur.1).wblk := by rw [hwarp, hold, hregs]
  have hpost : u.appendEvnt s.cur.1 f.num.toNat f.imm.toNat = u.postEvent (s.launchOf s.cur.1).queue 0 0 (s.launchOf s.cur.1).tag
      (s.blockOf s.cur.1).launch 0 (evntBody (s.blockOf s.cur.1) (s.warpD s.cur.1).wblk f.num.toNat f.imm.toNat) := by
    simp only [State.appendEvnt, hblock, hwblk]
    rfl
  obtain ⟨happ, hwarps, -⟩ := Releases.postEvent_appends u u.posts (s.launchOf s.cur.1).queue 0 0 (s.launchOf s.cur.1).tag
    (s.blockOf s.cur.1).launch 0 (evntBody (s.blockOf s.cur.1) (s.warpD s.cur.1).wblk f.num.toNat f.imm.toNat)
  refine ⟨u.appendEvnt s.cur.1 f.num.toNat f.imm.toNat, g w, ?_, ?_, hregs, hothers, hproc, ?_⟩
  · show execEvnt f s = _
    simp only [execEvnt, hs, hret, if_true]
    rfl
  · rw [hpost]
    exact (congrArg (kget? · s.cur.1) hwarps).trans hw
  · rw [hpost]
    have hs := eventAppended_congr (s := s) (u := u) rfl rfl rfl rfl rfl happ
    exact hs

/-- Settles O12: by instruction. -/
theorem systemInstructions : Obligations.SystemInstructions := by
  intro s w p f h
  refine ⟨⟨_, rfl, raiseAt_takes h _ _ _⟩, fun hdbg => ?_, fun hdbg => ?_, ?_, ?_, evnt_appends h f⟩
  · exact ⟨_, if_pos hdbg, raiseAt_takes h _ _ _⟩
  · obtain ⟨ids, g, hret, hregs, hothers, hproc, -⟩ := retire_proceeds h f.sw 2 1
    refine ⟨issued s ids 1 g, g w, ?_, issued_only _ _ _ _, by rw [issued_warp, h.1]; rfl, hregs, hothers, hproc⟩
    show execBkpt f s = _
    simp only [execBkpt, hdbg, hret, Bool.false_eq_true, if_false]
  · have hf := raiseAt_takes h (.stop true) fcHaltw 0
    refine ⟨_, ?_, hf⟩
    show execHaltw f s = _
    obtain ⟨hframe, -⟩ := hf
    rw [execHaltw, State.modCurWarp, hframe]
  · obtain ⟨ids, g, hexec, hothers, hproc, hregs, hhalt⟩ := ckpt_ends h f
    obtain ⟨hframe, -⟩ := checkpointed_frame s.cur.2 (s.checkpoint s.curLaunch p.pc) w
    refine ⟨issued s ids 1 g, g w, hexec, issued_only _ _ _ _, by rw [issued_warp, h.1]; rfl, hothers, hproc, ?_, fun h0 => ?_, fun h0 => ?_⟩
    · rw [hregs, hframe]
    · rw [hhalt, hregs]; simp [checkpointed, h0]
    · rw [hhalt, hregs]
      cases s.checkpoint s.curLaunch p.pc <;> simp [checkpointed, h0]

end Sys2Proof.Laws.System

namespace Sys2Proof.Laws.Fetch

/-! # Instruction fetch: a placement cache that lists a page twice (16 R378, R380) -/

open Sys2Proof.Machine Sys2Proof.Safety Sys2Proof.Rules

/-- A fetch whose placement-cache entry names a die that the TLB's leaf does not: it is counted there, and the entry is removed. -/
theorem instructionFetch_mishome {s : State} {w : Warp} {p : Split} (h : Issuer s w p) {hp hd : Nat} {leaf : Word}
    (hmiss : kget? (s.core s.curBlock.ck).icache (icKey s.curLaunch.asid p.pc) = none)
    (hhome : s.fetchHome s.curBlock s.curLaunch.asid (s.genOf s.curBlock.ck s.curLaunch.asid) (8 * p.pc.toNat) = (s, some (hp, hd)))
    (hfailed : (s.pkg hp).failed = false) (hlive : s.dieLive (128 * hp + hd) = true)
    (hgen : kgetD (s.die (128 * hp + hd)).genReg s.curLaunch.asid 0 = s.genOf s.curBlock.ck s.curLaunch.asid)
    (hhit : s.tlbHit (128 * hp + hd) s.curLaunch.asid (s.genOf s.curBlock.ck s.curLaunch.asid) (8 * p.pc.toNat) = some leaf)
    (hne : s.homeOf hp s.curLaunch.asid leaf (8 * p.pc.toNat) ≠ some (hp, hd)) :
    exec (.instructionFetch s.cur.1 s.cur.2) s = .next ((s.count (128 * hp + hd) tcMishome).modDie s.curBlock.dk fun d =>
      { d with plc := kdel d.plc (tlbKey s.curLaunch.asid (s.genOf s.curBlock.ck s.curLaunch.asid) (8 * p.pc.toNat)) }) := by
  have hsplit : s.split? s.cur.1 s.cur.2 = some p := by simp [State.split?, h.1, h.2.1]
  have hblock : s.blockOf s.cur.1 = s.curBlock := rfl
  have hlaunch : s.launchD s.curBlock.launch = s.curLaunch := rfl
  have hfetched : s.fetched s.cur.1 p.pc = .error p.pc := by
    simp only [State.fetched, hblock, hlaunch, hmiss]
  show execInstructionFetch s.cur.1 s.cur.2 s = _
  simp only [execInstructionFetch, hsplit, h.2.2.1, hfetched, hblock, hlaunch, hhome, hfailed, hlive, hgen, hhit, ne_eq, not_true_eq_false,
    if_false, Bool.false_and, Bool.not_true, Bool.false_eq_true, State.fetchLeaf, hne, not_false_eq_true, if_true]

/-- Counting a mis-home at a die leaves every placement cache; the fetch then removes one entry of the page. -/
theorem plc_forget_count (s : State) (home dk i key : Nat) :
    (((s.count home i).modDie dk fun d => { d with plc := kdel d.plc key }).die dk).plc = kdel (s.die dk).plc key := by
  have hcount : ((s.count home i).die dk).plc = (s.die dk).plc := by
    by_cases hdk : dk = home
    · simp [State.count, State.modDie, State.die, kgetD, hdk]
    · simp [State.count, State.modDie, State.die, kgetD, kget?_kput_ne _ _ hdk]
  rw [← hcount]
  simp [State.modDie, State.die, kgetD]

/-- A leaf of the page at address 0 whose home is die `d` of package 0. -/
def leafHomedOn (d : Nat) : Word := BitVec.ofNat 64 (d * 2 ^ 41)

/-- A resident warp about to fetch from address 0. The placement cache of its die lists that page twice, under a leaf homed on die 0, whose
TLB has moved on to one homed on die 1. -/
def listedTwice : State :=
  { State.reset.withWarp 0 0 with
    cores := []
    dies := [(0, { Die.reset with
      plc := [(tlbKey 0 0 0, tlbEntry 0 0 0 (leafHomedOn 0)), (tlbKey 0 0 0, tlbEntry 0 0 0 (leafHomedOn 0))]
      tlb := [(ctlKey (ctlOf 0 0) 0 0 0 0, tlbEntry 0 0 0 (leafHomedOn 1))] })] }

theorem listedTwice_issuer : Issuer listedTwice listedTwice.curWarp listedTwice.curSplit := ⟨rfl, rfl, rfl, by decide⟩

theorem listedTwice_tlbHit : listedTwice.tlbHit 0 0 0 0 = some (leafHomedOn 1) := by
  simp [State.tlbHit, State.die, listedTwice, kgetD, kget?, tlbEntry, List.range_succ]

theorem listedTwice_fetchHome : listedTwice.fetchHome listedTwice.curBlock 0 0 0 = (listedTwice, some (0, 0)) := rfl

theorem listedTwice_homeOf : listedTwice.homeOf 0 0 (leafHomedOn 1) 0 ≠ some (0, 0) := by decide

theorem listedTwice_plc : kget? (kdel (listedTwice.die 0).plc (tlbKey 0 0 0)) (tlbKey 0 0 0) = some (tlbEntry 0 0 0 (leafHomedOn 0)) := by
  simp [listedTwice, State.die, kgetD, kget?, kdel]

/-- Refutes O47: a wrong home is forgotten only as far as the placement cache lists its page once. In `listedTwice`, which no run from reset
makes, the second entry of the page stands after the first is removed, where the statement says that none does. -/
theorem not_fetchCompletes : ¬ Obligations.FetchCompletes := by
  intro h
  obtain ⟨hfetch, -⟩ := h
  have hs := (hfetch listedTwice _ _ _ _ listedTwice_issuer rfl listedTwice_fetchHome).2 0 0 rfl rfl
  obtain ⟨-, -, -, hleaf⟩ := hs
  obtain ⟨hmishome, -⟩ := hleaf (leafHomedOn 1) rfl rfl (.inl listedTwice_tlbHit)
  obtain ⟨t, hexec, -, -, hgone⟩ := hmishome listedTwice_homeOf
  rw [instructionFetch_mishome listedTwice_issuer rfl listedTwice_fetchHome rfl rfl rfl listedTwice_tlbHit listedTwice_homeOf] at hexec
  cases hexec
  rw [plc_forget_count] at hgone
  exact Option.some_ne_none _ (listedTwice_plc.symm.trans hgone)

end Sys2Proof.Laws.Fetch

namespace Sys2Proof.Laws.Elements

/-! # The values of integer elements (04 R78, 06 R136, R137) -/

open Sys2Proof.Machine Sys2Proof.Safety Sys2Proof.Rules Sys2Proof.Laws.Operands

/-! ## Integer types (01 R21) -/

section Types

variable {ty : Nat} (hty : ty ∈ tysInt64)
include hty

theorem elemBits_int : elemBits ty = intWidth ty := by revert ty; decide

/-- The elements of a type fill its lane value: 32 bits, or 64 for a pair. -/
theorem intWidth_mul_elemCount : intWidth ty * elemCount ty = if isPairTy ty then 64 else 32 := by revert ty; decide

theorem intWidth_pair : isPairTy ty = true ↔ intWidth ty = 64 := by revert ty; decide

theorem elemCount_pair (hp : isPairTy ty = true) : elemCount ty = 1 := by revert ty; decide

theorem elemCount_single (hp : isPairTy ty = false) : elemCount ty = 32 / intWidth ty := by revert ty; decide

end Types

theorem tysInt_sub {ty : Nat} (h : tysInt.contains ty = true) : ty ∈ tysInt64 ∧ isPairTy ty = false := by
  revert ty; simp only [List.contains_iff_mem]; decide

theorem tySigned_iff (ty : Nat) : tySigned ty = true ↔ ty = 1 ∨ ty = 4 ∨ ty = 8 ∨ ty = 13 := by simp [tySigned, or_assoc]

/-! ## Elements and their exact values -/

theorem elemAt_int {ty : Nat} (hty : ty ∈ tysInt64) (x e : Nat) : elemAt ty x e = element (intWidth ty) x e := by
  simp only [elemAt, nbits, element, elemBits_int hty]

theorem element_lt (n x e : Nat) : element n x e < 2 ^ n := Nat.mod_lt _ (Nat.two_pow_pos n)

theorem eInt_int {ty a : Nat} (hty : ty ∈ tysInt64) (ha : a < 2 ^ intWidth ty) : eInt ty a = valueOf ty a := by
  simp only [eInt, intOf, valueOf, elemBits_int hty, Nat.mod_eq_of_lt ha, tySigned_iff]

theorem reduceInt_int {ty : Nat} (hty : ty ∈ tysInt64) (sat : Bool) (x : Int) :
    reduceInt sat (tySigned ty) (elemBits ty) x = reduced sat ty x := by
  simp only [reduceInt, wrapInt, clampInt, intMin, intMax, reduced, elemBits_int hty, tySigned_iff]

theorem wrapInt_lt (n : Nat) (x : Int) : wrapInt n x < 2 ^ n := by
  have hpos : (0 : Int) < 2 ^ n := by positivity
  rw [wrapInt, Int.toNat_lt (Int.emod_nonneg _ hpos.ne')]
  exact_mod_cast Int.emod_lt_of_pos x hpos

theorem reduced_lt (sat : Bool) (ty : Nat) (x : Int) : reduced sat ty x < 2 ^ intWidth ty := wrapInt_lt ..

/-- An element in range is its own value reduced. -/
theorem reduced_valueOf {ty a : Nat} (ha : a < 2 ^ intWidth ty) : reduced false ty (valueOf ty a) = a := by
  have h : (a : Int) < 2 ^ intWidth ty := by exact_mod_cast ha
  have hmod : (a : Int) % 2 ^ intWidth ty = a := Int.emod_eq_of_lt (by positivity) h
  simp only [reduced, valueOf, Bool.false_eq_true, if_false]
  split
  · rw [Int.sub_emod_right, hmod, Int.toNat_natCast]
  · rw [hmod, Int.toNat_natCast]

/-! ## The elements of a lane value -/

/-- The number whose digits of `n` bits are given, lowest first. -/
def digits (n c : Nat) (g : Nat → Nat) : Nat := (List.range c).foldl (fun a e => a + g e % 2 ^ n * 2 ^ (n * e)) 0

theorem digits_succ (n c : Nat) (g : Nat → Nat) : digits n (c + 1) g = digits n c g + g c % 2 ^ n * 2 ^ (n * c) := by
  simp only [digits, List.range_succ, List.foldl_append, List.foldl_cons, List.foldl_nil]

theorem digits_lt (n c : Nat) (g : Nat → Nat) : digits n c g < 2 ^ (n * c) := by
  induction c with
  | zero => simp [digits]
  | succ c ih =>
    have hd : g c % 2 ^ n + 1 ≤ 2 ^ n := Nat.mod_lt _ (Nat.two_pow_pos n)
    calc digits n (c + 1) g < (g c % 2 ^ n + 1) * 2 ^ (n * c) := by rw [digits_succ, Nat.succ_mul]; omega
      _ ≤ 2 ^ n * 2 ^ (n * c) := Nat.mul_le_mul_right _ hd
      _ = 2 ^ (n * (c + 1)) := by rw [Nat.mul_succ, Nat.pow_add, Nat.mul_comm]

theorem element_digits (n : Nat) {c e : Nat} (g : Nat → Nat) (he : e < c) : element n (digits n c g) e = g e % 2 ^ n := by
  induction c with
  | zero => omega
  | succ c ih =>
    rcases Nat.lt_succ_iff_lt_or_eq.1 he with h | rfl
    · rw [digits_succ, element]
      obtain ⟨k, rfl⟩ := Nat.exists_eq_add_of_lt h
      have hsplit : 2 ^ (n * (e + k + 1)) = 2 ^ (n * e) * (2 ^ n * 2 ^ (n * k)) := by rw [← Nat.pow_add, ← Nat.pow_add]; ring_nf
      rw [hsplit, show ∀ x y z w : Nat, x * (y * (z * w)) = y * (z * (x * w)) by intros; ring,
        Nat.add_mul_div_left _ _ (Nat.two_pow_pos _), Nat.add_mul_mod_self_left]
      exact ih h
    · rw [digits_succ, element, Nat.add_mul_div_right _ _ (Nat.two_pow_pos _), Nat.div_eq_of_lt (digits_lt n e g), Nat.zero_add, Nat.mod_mod]

theorem packElems_digits (ty : Nat) (g : Nat → Nat) : packElems ty g = digits (elemBits ty) (elemCount ty) g := rfl

theorem packElems_lt {ty : Nat} (hty : ty ∈ tysInt64) (g : Nat → Nat) : packElems ty g < 2 ^ if isPairTy ty then 64 else 32 := by
  rw [← intWidth_mul_elemCount hty, packElems_digits, elemBits_int hty]
  exact digits_lt ..

theorem element_packElems {ty e : Nat} (hty : ty ∈ tysInt64) (g : Nat → Nat) (he : e < elemCount ty) :
    element (intWidth ty) (packElems ty g) e = g e % 2 ^ intWidth ty := by
  rw [packElems_digits, elemBits_int hty]
  exact element_digits _ _ he

/-! ## Sources -/

theorem toNat_rdPair (s : State) (r l : Nat) : (s.rdPair r l).toNat = (s.rdV (r + 1) l 1).toNat * 2 ^ 32 + (s.rdV r l 1).toNat := by
  rw [State.rdPair, BitVec.toNat_append, ← Nat.shiftLeft_add_eq_or_of_lt (BitVec.isLt _), Nat.shiftLeft_eq]

theorem opd_register {s : State} {ty : Nat} (hty : ty ∈ tysInt64) (r l : Nat) :
    s.opd (elemCount ty) (if isPairTy ty then .pair r else .reg r) l = laneValue s ty r l := by
  by_cases hp : isPairTy ty = true
  · rw [if_pos hp, laneValue, if_pos ((isPairTy_iff ty).1 hp)]
    exact toNat_rdPair s r l
  · rw [if_neg hp, laneValue, if_neg (mt (isPairTy_iff ty).2 hp), ← elemCount_single hty (by simpa using hp)]
    rfl

theorem opd_scalarOpd (s : State) (k ty r l : Nat) : s.opd k (s.scalarOpd ty (r % 64)) l = anyValue s true ty r l := by
  simp only [State.opd, State.scalarOpd, anyValue, isPairTy_iff, if_true]

theorem opd_opA {s : State} {f : AFmt} (hty : f.ty.toNat ∈ tysInt64) (l : Nat) :
    s.opd (elemCount f.ty.toNat) (opA f) l = laneValue s f.ty.toNat f.va.toNat l := opd_register hty ..

theorem opd_opB {s : State} {f : AFmt} (hty : f.ty.toNat ∈ tysInt64) (l : Nat) :
    s.opd (elemCount f.ty.toNat) (s.opB f) l = anyValue s (f.flag flScb) f.ty.toNat f.vb.toNat l := by
  unfold State.opB
  split
  next hs => rw [hs, opd_scalarOpd]
  next hs => rw [opd_register hty, anyValue, if_neg hs]

/-- A third source is one register, or a scalar of 32 bits. -/
theorem opd_opC {s : State} {f : AFmt} (hty : f.ty.toNat ∈ tysInt64) (hp : isPairTy f.ty.toNat = false) (l : Nat) :
    s.opd (elemCount f.ty.toNat) (s.opC f) l = anyValue s (f.flag flScc) f.ty.toNat f.vc.toNat l := by
  have hty' : ¬(f.ty.toNat = 13 ∨ f.ty.toNat = 14) := fun h => by simp [(isPairTy_iff _).2 h] at hp
  unfold State.opC
  split
  next hs => simp only [opd_scalarOpd, hs, anyValue, hty']; rfl
  next hs =>
    have hreg := opd_register (s := s) hty f.vc.toNat l
    simp only [hp, Bool.false_eq_true, if_false] at hreg
    rw [hreg, anyValue, if_neg hs]

/-! ## The results under way -/

theorem kget?_map_key {β γ : Type} (L : List Nat) (g : Nat → β) (f : β → γ) {l : Nat} (h : l ∈ L) :
    kget? ((L.map fun l => (l, g l)).map fun p => (p.1, f p.2)) l = some (f (g l)) := by
  induction L with
  | nil => cases h
  | cons a L ih =>
    by_cases ha : l = a
    · subst ha; simp only [List.map_cons, kget?, if_true]
    · simp only [List.map_cons, kget?, if_neg ha]
      exact ih ((List.mem_cons.1 h).resolve_left ha)

/-- A vector result of an issuer stands among its warp's results. -/
theorem putV_stands {s : State} {w : Warp} {p : Split} (h : Issuer s w p) (vd lat : Nat) {m : Lanes} {vals : KMap Lane} (t : BitVec 4)
    (hv : Valued m vals) :
    ∃ w', Issuer (s.putV vd lat m vals t) w' p ∧ (s.putV vd lat m vals t).nextId = s.nextId + 1 ∧ (s.putV vd lat m vals t).cur = s.cur
      ∧ w'.results = kput w.results s.nextId (newResult s w p (.vec vd) lat m vals 0 false) := by
  obtain ⟨w', hi, ⟨-, -, -, hres, -⟩, hcur, hid, -⟩ := eff_issuer h (putV_eff h vd lat m vals t hv)
  exact ⟨w', hi, hid, hcur, hres⟩

/-- Retirement keeps the results that have not been written (09 R239). -/
theorem retire_stands {s : State} {w : Warp} {p : Split} (h : Issuer s w p) (sw : Bool) (lat words : Nat) :
    ∃ w', (s.retire sw lat words).warp? s.cur.1 = some w'
      ∧ ∀ k r, kget? w.results k = some r → r.done = false → kget? w'.results k = some r := by
  obtain ⟨ids, f, hret, -, -, -, hres⟩ := retire_proceeds h sw lat words
  exact ⟨f w, by rw [hret, issued_warp, h.1]; rfl, hres⟩

/-- The lanes of a mask, with a lane value each, as entered by `putTyped`. -/
def laneVals (m : Lanes) (g : Nat → Nat) : List (Nat × Nat) := (lanesOf m).map fun l => (l, g l)

theorem laneVals_valued (m : Lanes) (g : Nat → Nat) : Valued m (laneVals m g) := fun l hl => lanes_valued m g l hl

theorem kget?_laneVals {β : Type} {m : Lanes} (g : Nat → Nat) (f : Nat → β) {l : Nat} (hl : m.getLsbD l = true) :
    kget? ((laneVals m g).map fun p => (p.1, f p.2)) l = some (f (g l)) :=
  kget?_map_key _ g f ((Results.mem_lanesOf m l).2 hl)

section Stands

variable {s : State} {w : Warp} {p : Split} (h : Issuer s w p) {vd ty lat : Nat} {m : Lanes} {g : Nat → Nat} (sw : Bool)
include h

/-- A register written with lane values and retired: its result gives each lane its value. -/
theorem putTyped_single (hp : isPairTy ty = false) (hg : ∀ l, g l < 2 ^ 32) :
    ∃ w' x, ((s.putTyped vd ty lat m (laneVals m g)).retire sw lat 1).warp? s.cur.1 = some w' ∧ kget? w'.results s.nextId = some x
      ∧ x.dest = .vec vd ∧ ∀ l, m.getLsbD l = true → ∃ y : Lane, kget? x.vals l = some y ∧ y.toNat = g l := by
  simp only [State.putTyped, hp, Bool.false_eq_true, if_false]
  obtain ⟨w1, hi, -, hcur, hres⟩ := putV_stands h vd lat (BitVec.ofNat 4 ty) (valued_map (laneVals_valued m g) fun _ => BitVec.ofNat 32)
  obtain ⟨w', hw', hkeep⟩ := retire_stands hi sw lat 1
  rw [hcur] at hw'
  refine ⟨w', _, hw', hkeep _ _ (by rw [hres, kget?_kput_self]) rfl, rfl, fun l hl => ⟨_, kget?_laneVals g (BitVec.ofNat 32) hl, ?_⟩⟩
  rw [BitVec.toNat_ofNat, Nat.mod_eq_of_lt (hg l)]

/-- A pair written with lane values and retired: its two results give each lane the halves of its value (01 R15). -/
theorem putTyped_pair (hp : isPairTy ty = true) (hg : ∀ l, g l < 2 ^ 64) :
    ∃ w' x z, ((s.putTyped vd ty lat m (laneVals m g)).retire sw lat 1).warp? s.cur.1 = some w' ∧ kget? w'.results s.nextId = some x
      ∧ x.dest = .vec vd ∧ kget? w'.results (s.nextId + 1) = some z ∧ z.dest = .vec (vd + 1)
      ∧ ∀ l, m.getLsbD l = true → ∃ lo hi : Lane, kget? x.vals l = some lo ∧ kget? z.vals l = some hi
        ∧ hi.toNat * 2 ^ 32 + lo.toNat = g l := by
  simp only [State.putTyped, hp, if_true, State.putPair, List.map_map, Function.comp_def]
  obtain ⟨w1, hi1, hid1, hcur1, hres1⟩ := putV_stands h vd lat (BitVec.ofNat 4 ty)
    (valued_map (laneVals_valued m g) fun _ x => (BitVec.ofNat 64 x).setWidth 32)
  obtain ⟨w2, hi2, -, hcur2, hres2⟩ := putV_stands hi1 (vd + 1) lat 15
    (valued_map (laneVals_valued m g) fun _ x => (BitVec.ofNat 64 x).extractLsb' 32 32)
  obtain ⟨w', hw', hkeep⟩ := retire_stands hi2 sw lat 1
  rw [hcur2, hcur1] at hw'
  rw [hid1] at hres2
  have hx := hkeep s.nextId _ (by rw [hres2, kget?_kput_ne _ _ (by omega), hres1, kget?_kput_self]) rfl
  have hz := hkeep (s.nextId + 1) _ (by rw [hres2, kget?_kput_self]) rfl
  refine ⟨w', _, _, hw', hx, rfl, hz, rfl, fun l hl => ⟨_, _, kget?_laneVals g (fun x => (BitVec.ofNat 64 x).setWidth 32) hl,
    kget?_laneVals g (fun x => (BitVec.ofNat 64 x).extractLsb' 32 32) hl, ?_⟩⟩
  have := hg l
  simp only [BitVec.extractLsb'_toNat, BitVec.toNat_setWidth, BitVec.toNat_ofNat, Nat.shiftRight_eq_div_pow]
  omega

end Stands

/-! ## An instruction on elements -/

/-- The element that a rule gives: the exact result, reduced (04 R78). -/
def ruleValue (q : ERule) (l e : Nat) : Nat :=
  let v (x : Nat → Nat) : Int := valueOf q.ty (element (intWidth q.ty) (x l) e)
  reduced q.sat q.ty (q.h (v q.a) (v q.b) (v q.c))

/-- An instruction runs as a vector instruction on the registers and tags of `r`, and gives each element what `q` gives. -/
def Computes (s : State) (o : Out) (r : VRule) (q : ERule) : Prop :=
  q.ty ∈ tysInt64 ∧ ∃ (sw : Bool) (regs : List Nat) (chk : List TagCheck) (lat : Nat) (src : State → List VOpd) (g : List Nat → Nat),
    o = s.runVec sw false regs r.rawok chk lat (fun s => s.elemOp q.msk q.vd q.ty lat (src s) fun _ _ xs => g xs)
      ∧ regs = r.regs ∧ demands chk = r.tags
      ∧ ∀ l e, g ((src s).map fun o => elemAt q.ty (s.opd (elemCount q.ty) o l) e) = ruleValue q l e

/-- Without a fault, what an instruction computes stands in its results. -/
theorem computes_stands {s : State} {w : Warp} {p : Split} {o : Out} {r : VRule} {q : ERule} (h : Issuer s w p) (hr : r.Passes s w)
    (hc : Computes s o r q) :
    let n := intWidth q.ty
    let val (x l e : Nat) : Prop := element n x e = ruleValue q l e
    ∃ t w' x, o = .next t ∧ t.warp? s.cur.1 = some w' ∧ kget? w'.results s.nextId = some x ∧ x.dest = .vec q.vd
      ∧ (n ≤ 32 → ∀ l e, (s.effective q.msk).getLsbD l = true → e < 32 / n → ∃ y, kget? x.vals l = some y ∧ val y.toNat l e)
      ∧ (n = 64 → ∃ z, kget? w'.results (s.nextId + 1) = some z ∧ z.dest = .vec (q.vd + 1) ∧
          ∀ l, (s.effective q.msk).getLsbD l = true → ∃ lo hi, kget? x.vals l = some lo ∧ kget? z.vals l = some hi
            ∧ val (hi.toNat * 2 ^ 32 + lo.toNat) l 0) := by
  obtain ⟨hty, sw, regs, chk, lat, src, g, rfl, rfl, hd, hg⟩ := hc
  obtain ⟨hregs, htags⟩ := hr
  have hf : s.vecFault r.regs r.rawok chk = none :=
    vecFault_none s _ _ _ (by rwa [issuer_curWarp h]) (htags.imp_right fun ht => demands_pass (hd ▸ ht))
  let G (l : Nat) : Nat := packElems q.ty fun e => g ((src s).map fun o => elemAt q.ty (s.opd (elemCount q.ty) o l) e)
  have hG (l : Nat) : G l < 2 ^ if isPairTy q.ty then 64 else 32 := packElems_lt hty _
  have hval (l e : Nat) (he : e < elemCount q.ty) : element (intWidth q.ty) (G l) e = ruleValue q l e := by
    rw [element_packElems hty _ he, hg l e, ruleValue, Nat.mod_eq_of_lt (reduced_lt ..)]
  have hrun : s.runVec sw false r.regs r.rawok chk lat (fun s => s.elemOp q.msk q.vd q.ty lat (src s) fun _ _ xs => g xs)
      = .next ((s.putTyped q.vd q.ty lat (s.effective q.msk) (laneVals (s.effective q.msk) G)).retire sw lat 1) := by
    simp only [State.runVec, hf, State.elemOp, List.map_map, Function.comp_def]
    rfl
  by_cases hp : isPairTy q.ty = true
  · obtain ⟨w', x, z, hw', hx, hxd, hz, hzd, hv⟩ := putTyped_pair h sw hp (vd := q.vd) (lat := lat) (m := s.effective q.msk)
      (fun l => by simpa [hp] using hG l)
    refine ⟨_, w', x, hrun, hw', hx, hxd, fun hn => ?_, fun _ => ⟨z, hz, hzd, fun l hl => ?_⟩⟩
    · exact absurd ((intWidth_pair hty).1 hp) (by omega)
    · obtain ⟨lo, hi, hlo, hhi, heq⟩ := hv l hl
      exact ⟨lo, hi, hlo, hhi, heq ▸ hval l 0 (by simp [elemCount_pair hty hp])⟩
  · rw [Bool.not_eq_true] at hp
    obtain ⟨w', x, hw', hx, hxd, hv⟩ := putTyped_single h sw hp (vd := q.vd) (lat := lat) (m := s.effective q.msk)
      (fun l => by simpa [hp] using hG l)
    refine ⟨_, w', x, hrun, hw', hx, hxd, fun _ l e hl he => ?_, fun hn => ?_⟩
    · obtain ⟨y, hy, heq⟩ := hv l hl
      exact ⟨y, hy, heq ▸ hval l e (by rwa [elemCount_single hty hp])⟩
    · simp [(intWidth_pair hty).2 hn] at hp

/-! ## The operations on elements -/

section Operations

variable {ty : Nat} (hty : ty ∈ tysInt64)
include hty

theorem eInt_elemAt (x e : Nat) : eInt ty (elemAt ty x e) = valueOf ty (element (intWidth ty) x e) := by
  rw [elemAt_int hty, eInt_int hty (element_lt ..)]

theorem intOp_int (sat : Bool) (h : Int → Int → Int) (a b : Nat) : intOp sat h ty a b = reduced sat ty (h (eInt ty a) (eInt ty b)) :=
  reduceInt_int hty ..

theorem mulhElem_int (a b : Nat) : mulhElem ty a b = reduced false ty (eInt ty a * eInt ty b / 2 ^ intWidth ty) := by
  rw [← reduceInt_int hty, mulhElem, elemBits_int hty]; rfl

theorem avgElem_int (a b : Nat) : avgElem ty a b = reduced false ty ((eInt ty a + eInt ty b + 1) / 2) := by
  rw [← reduceInt_int hty]; rfl

theorem reduced_eInt (x e : Nat) : reduced false ty (eInt ty (elemAt ty x e)) = elemAt ty x e := by
  rw [eInt_elemAt hty, reduced_valueOf (element_lt ..), elemAt_int hty]

/-- The element with the lesser value is the lesser value reduced. -/
theorem minElem_int (x y e : Nat) :
    minElem ty (elemAt ty x e) (elemAt ty y e) = reduced false ty (min (eInt ty (elemAt ty x e)) (eInt ty (elemAt ty y e))) := by
  simp only [minElem, min_def, apply_ite (reduced false ty), reduced_eInt hty]

theorem maxElem_int (x y e : Nat) :
    maxElem ty (elemAt ty x e) (elemAt ty y e) = reduced false ty (max (eInt ty (elemAt ty x e)) (eInt ty (elemAt ty y e))) := by
  simp only [maxElem, max_def, apply_ite (reduced false ty), reduced_eInt hty]

end Operations

/-- The types of VABS and VNEG are signed (06 R137). -/
theorem signedTys {ty : Nat} (h : [1, 4, 8, 13].contains ty = true) : ty ∈ tysInt64 ∧ tySigned ty = true := by
  revert ty; simp only [List.contains_iff_mem]; decide

/-- An instruction of format B without SAT has its bit 0 (02 R45). -/
theorem wf_entryB_sat {i : Instr} {tys : List Nat} {useVa : Bool} {f : BFmt} (hwf : i.wf = true) (ha : entryA i = none)
    (he : entryB i = some (tys, false, useVa, f)) : f.sat = false := by
  simp only [Instr.wf, check, ha, he, beq_iff_eq] at hwf
  simpa using firstBroken_none hwf _ (.tail _ (.head _))

/-! ## The shapes of the instructions -/

section Shapes

variable {s : State} {f : AFmt} {lat : Nat} {r : VRule} {sat : Bool} {h : Int → Int → Int → Int} (hty : f.ty.toNat ∈ tysInt64)
  (hraw : r.rawok = f.flag flRawok)
include hty hraw

theorem vec2_computes {g : Nat → Nat → Nat → Nat} {c : Nat → Nat}
    (hg : ∀ x y e z, g f.ty.toNat (elemAt f.ty.toNat x e) (elemAt f.ty.toNat y e)
      = reduced sat f.ty.toNat (h (eInt f.ty.toNat (elemAt f.ty.toNat x e)) (eInt f.ty.toNat (elemAt f.ty.toNat y e)) z))
    (hr : r.regs = named f.ty.toNat f.vd.toNat ++ named f.ty.toNat f.va.toNat
      ++ if f.flag flScb then [] else named f.ty.toNat f.vb.toNat)
    (hc : r.tags = accepted f.ty.toNat f.va.toNat ++ if f.flag flScb then [] else accepted f.ty.toNat f.vb.toNat) :
    Computes s (s.vec2 f lat g) r ⟨f.ty.toNat, f.vd.toNat, f.msk.toNat, sat, laneValue s f.ty.toNat f.va.toNat,
      anyValue s (f.flag flScb) f.ty.toNat f.vb.toNat, c, h⟩ := by
  refine ⟨hty, f.sw, _, _, lat, fun s => [opA f, s.opB f], fun xs => g f.ty.toNat (xs.getD 0 0) (xs.getD 1 0), by rw [hraw]; rfl,
    by simp [hr], by simp [hc], fun l e => ?_⟩
  simp only [List.map_cons, List.map_nil, List.getD_cons_zero, List.getD_cons_succ, opd_opA hty, opd_opB hty, ruleValue]
  rw [hg _ _ _ (valueOf f.ty.toNat (element (intWidth f.ty.toNat) (c l) e)), eInt_elemAt hty, eInt_elemAt hty]

theorem vec1_computes {g : Nat → Nat → Nat} {b c : Nat → Nat}
    (hg : ∀ x e y z, g f.ty.toNat (elemAt f.ty.toNat x e) = reduced sat f.ty.toNat (h (eInt f.ty.toNat (elemAt f.ty.toNat x e)) y z))
    (hr : r.regs = named f.ty.toNat f.vd.toNat ++ named f.ty.toNat f.va.toNat) (hc : r.tags = accepted f.ty.toNat f.va.toNat) :
    Computes s (s.vec1 f lat f.ty.toNat g) r ⟨f.ty.toNat, f.vd.toNat, f.msk.toNat, sat, laneValue s f.ty.toNat f.va.toNat, b, c, h⟩ := by
  refine ⟨hty, f.sw, _, _, lat, fun _ => [opA f], fun xs => g f.ty.toNat (xs.getD 0 0), by rw [hraw]; rfl, by simp [hr], by simp [hc],
    fun l e => ?_⟩
  simp only [List.map_cons, List.map_nil, List.getD_cons_zero, opd_opA hty, ruleValue]
  rw [hg _ _ (valueOf f.ty.toNat (element (intWidth f.ty.toNat) (b l) e)) (valueOf f.ty.toNat (element (intWidth f.ty.toNat) (c l) e)),
    eInt_elemAt hty]

end Shapes

theorem vecB_computes {s : State} {f : BFmt} {lat : Nat} {r : VRule} {sat : Bool} {h : Int → Int → Int → Int} {g : Nat → Nat → Nat → Nat}
    {c : Nat → Nat} (hty : f.ty.toNat ∈ tysInt64) (hp : isPairTy f.ty.toNat = false) (hraw : r.rawok = false)
    (hg : ∀ x y e z, g f.ty.toNat (elemAt f.ty.toNat x e) (elemAt f.ty.toNat y e)
      = reduced sat f.ty.toNat (h (eInt f.ty.toNat (elemAt f.ty.toNat x e)) (eInt f.ty.toNat (elemAt f.ty.toNat y e)) z))
    (hr : r.regs = [f.vd.toNat, f.va.toNat]) (hc : r.tags = accepted f.ty.toNat f.va.toNat) :
    Computes s (s.vecB f lat g) r ⟨f.ty.toNat, f.vd.toNat, f.msk.toNat, sat, laneValue s f.ty.toNat f.va.toNat, fun _ => f.imm.toNat, c, h⟩ := by
  refine ⟨hty, f.sw, _, _, lat, fun _ => [.reg f.va.toNat, .const f.imm.toNat], fun xs => g f.ty.toNat (xs.getD 0 0) (xs.getD 1 0),
    by rw [hraw]; rfl, hr.symm, by simp [hc], fun l e => ?_⟩
  have hreg := opd_register (s := s) hty f.va.toNat l
  simp only [hp, Bool.false_eq_true, if_false] at hreg
  simp only [List.map_cons, List.map_nil, List.getD_cons_zero, List.getD_cons_succ, hreg, ruleValue]
  rw [hg _ _ _ (valueOf f.ty.toNat (element (intWidth f.ty.toNat) (c l) e)), eInt_elemAt hty, eInt_elemAt hty]
  rfl

/-- VMAD reduces the exact a * b + c once (06 R137). -/
theorem vmad_computes {s : State} {f : AFmt} {r : VRule} {q : ERule} (hty : f.ty.toNat ∈ tysInt64) (hp : isPairTy f.ty.toNat = false)
    (hr : vecRule s (.vmad f) = some r) (hq : elementRule s (.vmad f) = some q) : Computes s (execVmad f s) r q := by
  cases hr
  cases hq
  refine ⟨hty, f.sw, _, _, 6, fun s => [opA f, s.opB f, s.opC f], _, rfl, by simp, by simp, fun l e => ?_⟩
  simp only [List.map_cons, List.map_nil, List.getD_cons_zero, List.getD_cons_succ, opd_opA hty, opd_opB hty, opd_opC hty hp, ruleValue,
    reduceInt_int hty, eInt_elemAt hty]

/-- Each integer instruction computes the elements of its rule (06 R136, R137). -/
theorem exec_computes {s : State} {i : Instr} {r : VRule} {q : ERule} (hwf : i.wf = true) (hr : vecRule s i = some r)
    (hq : elementRule s i = some q) : Computes s (exec i s) r q := by
  cases i with
  | vadd f | vsub f =>
    have hty : f.ty.toNat ∈ tysInt64 := by simpa using (wf_entryA hwf rfl).1
    cases hr; cases hq
    exact vec2_computes hty rfl (fun x y e _ => intOp_int hty ..) rfl rfl
  | vmul f =>
    have hty := (tysInt_sub (wf_entryA hwf rfl).1).1
    cases hr; cases hq
    exact vec2_computes hty rfl (fun x y e _ => intOp_int hty ..) rfl rfl
  | vmulh f =>
    have hty := (tysInt_sub (wf_entryA hwf rfl).1).1
    cases hr; cases hq
    exact vec2_computes hty rfl (fun x y e _ => mulhElem_int hty ..) rfl rfl
  | vavg f =>
    have hty := (tysInt_sub (wf_entryA hwf rfl).1).1
    cases hr; cases hq
    exact vec2_computes hty rfl (fun x y e _ => avgElem_int hty ..) rfl rfl
  | vmad f =>
    have hty := tysInt_sub (wf_entryA hwf rfl).1
    exact vmad_computes hty.1 hty.2 hr hq
  | vmin f =>
    have hty : f.ty.toNat ∈ tysInt64 := by simpa using (wf_entryA hwf rfl).1
    cases hr; cases hq
    exact vec2_computes hty rfl (fun x y e _ => minElem_int hty ..) rfl rfl
  | vmax f =>
    have hty : f.ty.toNat ∈ tysInt64 := by simpa using (wf_entryA hwf rfl).1
    cases hr; cases hq
    exact vec2_computes hty rfl (fun x y e _ => maxElem_int hty ..) rfl rfl
  | vabs f =>
    obtain ⟨hty, hs⟩ := signedTys (wf_entryA hwf rfl).1
    cases hr; cases hq
    dsimp only [exec, execVabs]
    have habs (a : Int) : (a.natAbs : Int) = if a < 0 then -a else a := by split <;> omega
    exact vec1_computes hty rfl (fun x e _ _ => by rw [← habs, ← reduceInt_int hty, hs]) rfl rfl
  | vneg f =>
    obtain ⟨hty, hs⟩ := signedTys (wf_entryA hwf rfl).1
    cases hr; cases hq
    dsimp only [exec, execVneg]
    exact vec1_computes hty rfl (fun x e _ _ => by rw [← reduceInt_int hty, hs]) rfl rfl
  | vaddImm f | vsubImm f | vmulImm f =>
    obtain ⟨hty, hp⟩ := tysInt_sub (wf_entryB hwf rfl rfl)
    cases hr; cases hq
    exact vecB_computes hty hp rfl (fun x y e _ => intOp_int hty ..) rfl rfl
  | vminImm f =>
    obtain ⟨hty, hp⟩ := tysInt_sub (wf_entryB hwf rfl rfl)
    cases hr; cases hq
    exact vecB_computes hty hp rfl (fun x y e _ => by rw [wf_entryB_sat hwf rfl rfl]; exact minElem_int hty ..) rfl rfl
  | vmaxImm f =>
    obtain ⟨hty, hp⟩ := tysInt_sub (wf_entryB hwf rfl rfl)
    cases hr; cases hq
    exact vecB_computes hty hp rfl (fun x y e _ => by rw [wf_entryB_sat hwf rfl rfl]; exact maxElem_int hty ..) rfl rfl
  | _ => cases hq

/-- Settles O14: each instruction of the table computes what its rule gives, and the results under way hold it. -/
theorem integerElements : Obligations.IntegerElements := by
  unfold Obligations.IntegerElements
  intro s w p i r q h hwf hr hpass hq
  exact computes_stands h hpass (exec_computes hwf hr hq)

end Sys2Proof.Laws.Elements

namespace Sys2Proof.Laws.LocalStore

/-! # Runs of bytes written to local store (07 R186, 08 R218) -/

open Sys2Proof.Machine Sys2Proof.Safety Sys2Proof.Rules

/-! ## One run -/

theorem mem_ninsert (l : List Nat) (i j : Nat) : j ∈ ninsert l i ↔ j = i ∨ j ∈ l := by
  induction l with
  | nil => simp [ninsert]
  | cons k l ih =>
    simp only [ninsert]
    split
    · simp
    · split
      next h => subst h; simp
      · simp only [List.mem_cons, ih]; tauto

/-- The byte that a run gives an offset. -/
def byteAt (q : Nat × List Byte) (o : Nat) : Option Byte := if q.1 ≤ o then q.2[o - q.1]? else none

theorem byteAt_add (q : Nat × List Byte) (i : Nat) : byteAt q (q.1 + i) = q.2[i]? := by
  rw [byteAt, if_pos (Nat.le_add_right ..), Nat.add_sub_cancel_left]

theorem byteAt_eq_none {q : Nat × List Byte} {o : Nat} : byteAt q o = none ↔ o < q.1 ∨ q.1 + q.2.length ≤ o := by
  unfold byteAt
  split
  · rw [List.getElem?_eq_none_iff]; omega
  · simp only [true_iff]; omega

theorem range_of_byteAt {q : Nat × List Byte} {o : Nat} {x : Byte} (h : byteAt q o = some x) : q.1 ≤ o ∧ o < q.1 + q.2.length := by
  have := mt (byteAt_eq_none (q := q) (o := o)).2 (by simp [h])
  omega

theorem zip_range_mem {α : Type} {l : List α} {i : Nat} {a : α} (h : l[i]? = some a) : (i, a) ∈ List.zip (List.range l.length) l := by
  obtain ⟨hi, -⟩ := List.getElem?_eq_some_iff.1 h
  exact List.mem_iff_getElem?.2 ⟨i, List.getElem?_zip_eq_some.2 ⟨List.getElem?_range hi, h⟩⟩

/-- What a run writes, by offset. -/
def runCells (o : Nat) (l : List Byte) : List (Nat × Byte) := (List.zip (List.range l.length) l).map fun p => (o + p.1, p.2)

theorem runCells_keys (o : Nat) (l : List Byte) : (runCells o l).map Prod.fst = (List.range l.length).map (o + ·) := by
  have hzip : (List.zip (List.range l.length) l).map Prod.fst = List.range l.length := List.map_fst_zip (by simp)
  conv_rhs => rw [← hzip]
  rw [runCells, List.map_map, List.map_map]
  rfl

theorem lsWrite_ls (b : Block) (o : Nat) (l : List Byte) (a : Nat) :
    kgetD (b.lsWrite o l).ls a 0 = (byteAt (o, l) a).getD (kgetD b.ls a 0) := by
  show kgetD (kputs b.ls (runCells o l)) a 0 = _
  cases hb : byteAt (o, l) a with
  | none =>
    have hnot : ∀ p ∈ runCells o l, p.1 ≠ a := by
      intro p hp
      have hkey := runCells_keys o l ▸ List.mem_map_of_mem (f := Prod.fst) hp
      simp only [List.mem_map, List.mem_range] at hkey
      have := byteAt_eq_none.1 hb
      dsimp only at this
      omega
    rw [kgetD, kget?_kputs_of_not_mem _ _ _ hnot]; rfl
  | some x =>
    obtain ⟨hle, -⟩ := range_of_byteAt hb
    rw [byteAt, if_pos hle] at hb
    have hmem : (o + (a - o), x) ∈ runCells o l := List.mem_map.2 ⟨_, zip_range_mem hb, rfl⟩
    have hnd : ((runCells o l).map Prod.fst).Nodup := by
      rw [runCells_keys]
      exact List.nodup_range.map fun _ _ h => Nat.add_left_cancel h
    rw [← Nat.add_sub_of_le hle, kgetD, Results.kget?_kputs_of_mem _ hnd _ hmem]; rfl

theorem setFull_frame (b : Block) (l : List Nat) (o : Nat) :
    ∃ full, l.foldl (fun b i => b.setFull (o + i) true) b = { b with full := full }
      ∧ ∀ g, g ∈ full ↔ g ∈ b.full ∨ ∃ i ∈ l, g = o + i := by
  induction l generalizing b with
  | nil => exact ⟨b.full, rfl, by simp⟩
  | cons k l ih =>
    obtain ⟨full, heq, hfull⟩ := ih (b.setFull (o + k) true)
    refine ⟨full, heq, fun g => ?_⟩
    rw [hfull]
    simp only [Block.setFull, if_true, mem_ninsert, List.mem_cons, exists_eq_or_imp]
    tauto

/-- A run fills every granule that it touches. -/
theorem lsFill_frame (b : Block) (o : Nat) (l : List Byte) :
    ∃ full, b.lsFill o l = { b with ls := (b.lsWrite o l).ls, full := full }
      ∧ ∀ g, g ∈ full ↔ g ∈ b.full ∨ l ≠ [] ∧ 16 * g < o + l.length ∧ o < 16 * g + 16 := by
  unfold Block.lsFill
  split
  next h =>
    rw [List.isEmpty_iff] at h
    subst h
    exact ⟨b.full, rfl, by simp⟩
  next h =>
    obtain ⟨full, heq, hfull⟩ := setFull_frame (b.lsWrite o l) (List.range ((o + l.length - 1) / 16 + 1 - o / 16)) (o / 16)
    refine ⟨full, heq, fun g => ?_⟩
    have hpos : 0 < l.length := by simpa [List.length_pos_iff] using h
    rw [hfull]
    refine or_congr Iff.rfl ?_
    simp only [List.mem_range]
    constructor
    · rintro ⟨i, hi, rfl⟩
      exact ⟨List.length_pos_iff.1 hpos, by omega, by omega⟩
    · rintro ⟨-, h1, h2⟩
      exact ⟨g - o / 16, by omega, by omega⟩

/-! ## Runs one after another -/

/-- A block with runs written to its local store. -/
def filled (b : Block) (runs : List (Nat × List Byte)) : Block := runs.foldl (fun b q => b.lsFill q.1 q.2) b

theorem filled_cons (b : Block) (q : Nat × List Byte) (runs : List (Nat × List Byte)) :
    filled b (q :: runs) = filled (b.lsFill q.1 q.2) runs := rfl

theorem filled_append (b : Block) (l m : List (Nat × List Byte)) : filled (filled b l) m = filled b (l ++ m) :=
  (List.foldl_append ..).symm

theorem filled_frame (b : Block) (runs : List (Nat × List Byte)) :
    filled b runs = { b with ls := (filled b runs).ls, full := (filled b runs).full } := by
  induction runs generalizing b with
  | nil => rfl
  | cons q runs ih =>
    obtain ⟨full, heq, -⟩ := lsFill_frame b q.1 q.2
    rw [filled_cons, ih, heq]

/-- A byte of local store after runs: that of a run that covers it, else as it was. -/
theorem filled_ls (b : Block) (runs : List (Nat × List Byte)) (o : Nat) :
    (∃ q ∈ runs, byteAt q o = some (kgetD (filled b runs).ls o 0))
      ∨ (∀ q ∈ runs, byteAt q o = none) ∧ kgetD (filled b runs).ls o 0 = kgetD b.ls o 0 := by
  induction runs generalizing b with
  | nil => exact .inr ⟨nofun, rfl⟩
  | cons q runs ih =>
    obtain ⟨full, heq, -⟩ := lsFill_frame b q.1 q.2
    rw [filled_cons]
    rcases ih (b.lsFill q.1 q.2) with ⟨p, hp, hbyte⟩ | ⟨hnone, hls⟩
    · exact .inl ⟨p, List.mem_cons_of_mem _ hp, hbyte⟩
    · rw [hls, heq, lsWrite_ls]
      cases hq : byteAt q o with
      | none => exact .inr ⟨List.forall_mem_cons.2 ⟨hq, hnone⟩, rfl⟩
      | some x => exact .inl ⟨q, .head _, hq⟩

theorem filled_full (b : Block) (runs : List (Nat × List Byte)) (g : Nat) :
    g ∈ (filled b runs).full ↔ g ∈ b.full ∨ ∃ q ∈ runs, q.2 ≠ [] ∧ 16 * g < q.1 + q.2.length ∧ q.1 < 16 * g + 16 := by
  induction runs generalizing b with
  | nil => simp [filled]
  | cons q runs ih =>
    obtain ⟨full, heq, hfull⟩ := lsFill_frame b q.1 q.2
    rw [filled_cons, ih, heq, hfull, or_assoc]
    simp only [List.mem_cons, exists_eq_or_imp]

theorem filled_other {b : Block} {runs : List (Nat × List Byte)} {o : Nat} (h : ∀ q ∈ runs, byteAt q o = none) :
    kgetD (filled b runs).ls o 0 = kgetD b.ls o 0 := by
  rcases filled_ls b runs o with ⟨q, hq, hbyte⟩ | ⟨-, hls⟩
  · rw [h q hq] at hbyte; cases hbyte
  · exact hls

/-- A byte that a run gives, and no run gives otherwise. -/
theorem filled_byte {b : Block} {runs : List (Nat × List Byte)} {o : Nat} {q : Nat × List Byte} {x : Byte} (hq : q ∈ runs)
    (hx : byteAt q o = some x) (hall : ∀ p ∈ runs, ∀ y, byteAt p o = some y → y = x) : kgetD (filled b runs).ls o 0 = x := by
  rcases filled_ls b runs o with ⟨p, hp, hbyte⟩ | ⟨hnone, -⟩
  · exact hall p hp _ hbyte
  · rw [hnone q hq] at hx; cases hx

theorem filled_fills (b : Block) (runs : List (Nat × List Byte)) : Filled b (filled b runs) runs := by
  refine ⟨fun hpw q hq i x hx => ?_, fun o ho => filled_other fun q hq => byteAt_eq_none.2 (ho q hq), fun g => ?_⟩
  · have hx' : byteAt q (q.1 + i) = some x := by rw [byteAt_add, hx]
    refine filled_byte hq hx' fun p hp y hy => ?_
    by_cases hpq : p = q
    · subst hpq; simpa [hx'] using hy.symm
    · have : Std.Symm fun p q : Nat × List Byte => p.1 + p.2.length ≤ q.1 ∨ q.1 + q.2.length ≤ p.1 := ⟨fun _ _ => Or.symm⟩
      have hdis := hpw.forall hp hq hpq
      have h1 := range_of_byteAt hy
      have h2 := range_of_byteAt hx'
      omega
  · simpa using filled_full b runs g

/-! ## The bytes of a number -/

@[simp] theorem natBytes_length (x n : Nat) : (natBytes x n).length = n := by
  induction n generalizing x with
  | zero => rfl
  | succ n ih => simp [natBytes, ih]

theorem natBytes_getElem? (x : Nat) {n k : Nat} (h : k < n) : (natBytes x n)[k]? = some (BitVec.ofNat 8 (x / 256 ^ k)) := by
  induction n generalizing x k with
  | zero => omega
  | succ n ih =>
    cases k with
    | zero => simp [natBytes]
    | succ k => rw [natBytes, List.getElem?_cons_succ, ih _ (by omega), Nat.div_div_eq_div_mul, Nat.pow_succ']

/-! ## Elements of a tile -/

/-- The runs of a tile's elements fill it (08 R218). -/
theorem filled_tile (b : Block) {d : BitVec 128} {z : Nat} {v : Nat → Nat → Nat} {runs : List (Nat × List Byte)} (hz : 0 < z)
    (hruns : ∀ q, q ∈ runs ↔ ∃ i j, i < tdRows d ∧ j < tdCols d ∧ q = (tdOfs d i j, natBytes (v i j) z)) :
    TileFilled b (filled b runs) d z v := by
  have hnone (o i j : Nat) : byteAt (tdOfs d i j, natBytes (v i j) z) o = none ↔ ¬(tdOfs d i j ≤ o ∧ o < tdOfs d i j + z) := by
    rw [byteAt_eq_none, natBytes_length]; omega
  refine ⟨fun hinj i j n hi hj hn => ?_, fun o ho => filled_other fun q hq => ?_, fun g => ?_⟩
  · have hx : byteAt (tdOfs d i j, natBytes (v i j) z) (tdOfs d i j + n) = some (BitVec.ofNat 8 (v i j / 256 ^ n)) := by
      rw [byteAt_add (tdOfs d i j, natBytes (v i j) z), natBytes_getElem? _ hn]
    refine filled_byte ((hruns _).2 ⟨i, j, hi, hj, rfl⟩) hx fun p hp y hy => ?_
    obtain ⟨k, l, hk, hl, rfl⟩ := (hruns _).1 hp
    have hat := not_not.1 (mt (hnone _ k l).2 (by rw [hy]; exact Option.some_ne_none y))
    obtain ⟨rfl, rfl⟩ := hinj k l i j _ hk hl hi hj hat ⟨by omega, by omega⟩
    simpa [hx] using hy.symm
  · obtain ⟨i, j, hi, hj, rfl⟩ := (hruns _).1 hq
    exact (hnone o i j).2 (ho i j hi hj)
  · simp only [List.contains_iff_mem, filled_full]
    refine or_congr Iff.rfl ⟨?_, ?_⟩
    · rintro ⟨q, hq, -, h1, h2⟩
      obtain ⟨i, j, hi, hj, rfl⟩ := (hruns _).1 hq
      simp only [natBytes_length] at h1
      dsimp only at h2
      exact ⟨i, j, max (tdOfs d i j) (16 * g), hi, hj, by omega, by omega⟩
    · rintro ⟨i, j, o, hi, hj, hat, rfl⟩
      refine ⟨_, (hruns _).2 ⟨i, j, hi, hj, rfl⟩, ?_, ?_, ?_⟩
      · rw [← List.length_pos_iff, natBytes_length]; exact hz
      · simp only [natBytes_length]; omega
      · dsimp only; omega

/-! ## Runs without a waiter -/

theorem feCascade_idle {s : State} {bid : Nat} (h : NoWaiter s bid) (granule n : Nat) : s.feCascade bid granule n = s := by
  have hnone : s.feNext bid granule = none := by
    have hnil : (s.fes.filter fun q => q.2.waiting && q.2.granule == granule && (s.warpD q.2.wid).block == bid
        && !(s.warpD q.2.wid).captured && feMet q.2.qual ((s.blockD bid).isFull granule)) = [] := by
      rw [List.filter_eq_nil_iff]
      intro q hq hc
      simp only [Bool.and_eq_true, beq_iff_eq] at hc
      exact h q hq hc.1.1.1.1 hc.1.1.2
    simp only [State.feNext, hnil]
    rfl
  cases n with
  | zero => rfl
  | succ n => simp only [State.feCascade, hnone]

/-- Where no access waits, runs change the block alone. -/
theorem fillRuns_idle {s : State} {bid : Nat} (h : NoWaiter s bid) (runs : List (Nat × List Byte)) :
    s.fillRuns bid runs = s.modBlock bid fun b => filled b runs := by
  have h' : NoWaiter (s.modBlock bid fun b => filled b runs) bid := h
  exact Releases.foldl_fixed_of_mem _ fun g _ => feCascade_idle h' g _

end Sys2Proof.Laws.LocalStore

namespace Sys2Proof.Laws.TileTask

/-! # Tile tasks (04 R95 to R98, 08 R222 to R224, 12 R322) -/

open Sys2Proof.Machine Sys2Proof.Safety Sys2Proof.Rules Sys2Proof.Laws.LocalStore

/-! ## One work, one block -/

theorem workIs_of_works {s t : State} {id : Nat} {e : Work} {f : Work → Work} (he : kget? s.works id = some e)
    (ht : t.works = kmod s.works id f) : WorkIs s t id (f e) :=
  ⟨by rw [ht, kget?_kmod_self, he]; rfl, fun j hj => by rw [ht, kget?_kmod_ne _ _ hj]⟩

theorem blockIs_of_blocks {s t : State} {bid : Nat} {b : Block} {f : Block → Block} (hb : kget? s.blocks bid = some b)
    (ht : t.blocks = kmod s.blocks bid f) : BlockIs s t bid (f b) :=
  ⟨by rw [ht, kget?_kmod_self, hb]; rfl, fun j hj => by rw [ht, kget?_kmod_ne _ _ hj]⟩

theorem blockD_eq {s : State} {bid : Nat} {b : Block} (hb : kget? s.blocks bid = some b) : s.blockD bid = b := by
  simp only [State.blockD, State.block?, hb, Option.getD_some]

/-! ## Which task starts (08 R223) -/

theorem rangesMeet_iff (d e : BitVec 128) : rangesMeet (tdRange d) (tdRange e) = true ↔ Meets d e := by
  simp [rangesMeet, Meets]

theorem sources_eq (e : Work) : e.sources = (sourcesOf e).map tdRange := by
  unfold Work.sources sourcesOf; split <;> rfl

theorem depMet_of_depends {s : State} {e : Work} {b : Block} (hb : kget? s.blocks e.block = some b) (h : Depends b e) :
    s.depMet e = true := by
  unfold State.depMet
  rw [blockD_eq hb]
  cases hm : e.a.msb with
  | false => rfl
  | true =>
    have hlt := h (by rwa [BitVec.msb_eq_getLsbD_last] at hm)
    have hmod : (e.a.extractLsb' 0 32).toNat % 2 ^ 32 = (e.a.extractLsb' 0 32).toNat := Nat.mod_eq_of_lt (BitVec.isLt _)
    simp only [counterMet, wf, hmod, decide_eq_true hlt, Bool.or_true]

theorem hazard_of_noHazard {s : State} {id : Nat} {e : Work} (h : NoHazard s id e) : s.hazard id e = false := by
  rw [State.hazard, List.any_eq_false]
  intro q hq hc
  simp only [Bool.and_eq_true, Bool.or_eq_true, decide_eq_true_eq, beq_iff_eq, bne_iff_ne, sources_eq, List.any_map, List.any_eq_true,
    Function.comp_apply, rangesMeet_iff] at hc
  obtain ⟨⟨⟨⟨hlt, htask⟩, hblock⟩, hphase⟩, hmeet⟩ := hc
  obtain ⟨hdest, hsrc, hown⟩ := h q hq hlt htask hblock hphase
  rcases hmeet with (hm | ⟨d, hd, hm⟩) | ⟨d, hd, hm⟩
  · exact hdest hm
  · exact hsrc d hd hm
  · exact hown d hd hm

theorem mayStart_of {s : State} {id : Nat} {e : Work} {b : Block} (hk : e.kind.isTask = true) (hp : e.phase = .forked)
    (hh : s.blockHalted e.block = false) (hb : kget? s.blocks e.block = some b) (hd : Depends b e) (hz : NoHazard s id e) :
    s.mayStart id e = true := by
  simp [State.mayStart, hk, hp, hh, depMet_of_depends hb hd, hazard_of_noHazard hz]

/-- An engine of a core is at work on a task (12 R322). -/
def Busy (s : State) (ck m : Nat) : Prop :=
  ∃ q ∈ s.works, q.2.kind.isTask = true ∧ s.workCore q.2 = ck ∧ q.2.phase = .running ∧ q.2.engine = m

theorem any_coreWork (s : State) (ck : Nat) (sel : WorkKind → Bool) (p : Nat × Work → Bool) :
    (s.coreWork ck sel).any p = true ↔ ∃ q ∈ s.works, sel q.2.kind = true ∧ s.workCore q.2 = ck ∧ p q = true := by
  simp [State.coreWork, and_assoc]

theorem freeEngine_eq {s : State} {ck n : Nat} (hn : n < 4) (hfree : ¬Busy s ck n) (hlow : ∀ m < n, Busy s ck m) :
    s.freeEngine ck = some n := by
  have hbusy (m : Nat) : (s.coreWork ck WorkKind.isTask).any (fun q => q.2.phase == .running && q.2.engine == m) = true ↔ Busy s ck m := by
    rw [any_coreWork]; simp only [Bool.and_eq_true, beq_iff_eq]; rfl
  rw [State.freeEngine, List.find?_range_eq_some]
  refine ⟨by simpa using mt (hbusy n).1 hfree, List.mem_range.2 hn, fun m hm => ?_⟩
  rw [(hbusy m).2 (hlow m hm)]; rfl

/-! ## Its mantissas -/

/-- Values by rows and columns, in one list. -/
theorem flatMap_grid {α : Type} (r c : Nat) (f : Nat → Nat → α) :
    ((List.range r).flatMap fun i => (List.range c).map (f i)).length = r * c
      ∧ ∀ i j, i < r → j < c → ((List.range r).flatMap fun i => (List.range c).map (f i))[i * c + j]? = some (f i j) := by
  induction r with
  | zero => simp
  | succ r ih =>
    obtain ⟨hlen, hget⟩ := ih
    rw [List.range_succ, List.flatMap_append]
    refine ⟨by simp only [List.length_append, hlen, List.flatMap_cons, List.flatMap_nil, List.append_nil, List.length_map,
      List.length_range, Nat.succ_mul], fun i j hi hj => ?_⟩
    rcases Nat.lt_succ_iff_lt_or_eq.1 hi with h | rfl
    · rw [List.getElem?_append_left, hget i j h hj]
      rw [hlen]
      calc i * c + j < (i + 1) * c := by rw [Nat.succ_mul]; omega
        _ ≤ r * c := Nat.mul_le_mul_right _ h
    · rw [List.getElem?_append_right (by rw [hlen]; omega), hlen, Nat.add_sub_cancel_left]
      simp [hj]

theorem mants_length (b : Block) (d : BitVec 128) : (b.mants d).length = tdRows d * tdCols d := (flatMap_grid ..).1

theorem intOf_toInt (x : Nat) : intOf true 48 x = (BitVec.ofNat 48 x).toInt := by
  have hmod : x % 2 ^ 48 < 2 ^ 48 := Nat.mod_lt _ (by decide)
  rw [BitVec.toInt_eq_toNat_cond, BitVec.toNat_ofNat]
  simp only [intOf, true_and]
  split <;> split <;> omega

theorem mants_element {b : Block} {d : BitVec 128} (ht : tdTag d = 15) {i j : Nat} (hi : i < tdRows d) (hj : j < tdCols d) :
    (b.mants d)[i * tdCols d + j]? = some (BitVec.ofNat 48 (bytesNat (b.lsRead (tdOfs d i j) 8))).toInt := by
  rw [Block.mants, (flatMap_grid _ _ _).2 i j hi hj, intOf_toInt, Block.elem, ht]; rfl

/-! ## TASK_START -/

/-- The mantissas with which a task starts (04 R97). -/
def startMants (b : Block) (e : Work) : List Int :=
  if e.kind = .taskCvt then [] else if e.kind = .taskOvr ∧ e.next = 0 then List.replicate (tdRows e.td1 * tdCols e.td1) 0 else b.mants e.td1

theorem startMants_ovr {b : Block} {e : Work} (hk : e.kind = .taskOvr) (hn : e.next = 0) :
    startMants b e = List.replicate (tdRows e.td1 * tdCols e.td1) 0 := by
  simp [startMants, hk, hn]

theorem startMants_read {b : Block} {e : Work} (hk : e.kind = .task ∨ e.kind = .taskOvr ∧ e.next ≠ 0) :
    (startMants b e).length = tdRows e.td1 * tdCols e.td1 ∧ ∀ i j, i < tdRows e.td1 → j < tdCols e.td1 → tdTag e.td1 = 15 →
      (startMants b e)[i * tdCols e.td1 + j]? = some (BitVec.ofNat 48 (bytesNat (b.lsRead (tdOfs e.td1 i j) 8))).toInt := by
  have hread : startMants b e = b.mants e.td1 := by
    rcases hk with hk | ⟨hk, hn⟩
    · simp [startMants, hk]
    · simp [startMants, hk, hn]
  rw [hread]
  exact ⟨mants_length .., fun i j hi hj ht => mants_element ht hi hj⟩

theorem taskStart_starts {s : State} {id n : Nat} {e : Work} {b : Block} (he : kget? s.works id = some e) (hb : kget? s.blocks e.block = some b)
    (hmay : s.mayStart id e = true)
    (hfirst : ∀ q ∈ s.works, q.1 < id → q.2.kind.isTask = true → s.workCore q.2 = b.ck → s.mayStart q.1 q.2 = false)
    (hengine : s.freeEngine b.ck = some n) :
    exec (.taskStart id) s = .next (s.modWork id fun x =>
      { x with phase := .running, engine := n, fork := s.clk, base := x.next, mant := startMants b e }) := by
  have hcore : s.workCore e = b.ck := by rw [State.workCore, blockD_eq hb]
  have hnone : (s.coreWork b.ck WorkKind.isTask).any (fun q => decide (q.1 < id) && s.mayStart q.1 q.2) = false := by
    rw [Bool.eq_false_iff, Ne, any_coreWork]
    rintro ⟨q, hq, htask, hck, hp⟩
    simp only [Bool.and_eq_true, decide_eq_true_eq] at hp
    simp [hfirst q hq hp.1 htask hck] at hp
  simp only [exec, execTaskStart, he, hcore, hengine, hmay, hnone, Bool.not_true, Bool.or_self, Bool.false_eq_true, if_false, blockD_eq hb]
  rfl

/-! ## TASK_KBLOCK_COMMIT -/

/-- Whether a shift of 8 t brings every mantissa into range (04 R97). -/
def fits (x : Int) (l : List (Int × BlockSum)) (t : Int) : Bool := l.all fun q => mantOk (mantAt x t q.1 q.2)

theorem fits_zip (x : Int) (m : List Int) (sums : List BlockSum) (t : Int) :
    fits x (List.zip m sums) t = true
      ↔ ∀ (k : Nat) (a : Int) (p : BlockSum), m[k]? = some a → sums[k]? = some p → mantOk (mantAt x t a p) = true := by
  rw [fits, List.all_eq_true]
  constructor
  · intro h k a p ha hp
    exact h (a, p) (List.mem_iff_getElem?.2 ⟨k, List.getElem?_zip_eq_some.2 ⟨ha, hp⟩⟩)
  · rintro h ⟨a, p⟩ hq
    obtain ⟨k, hk⟩ := List.mem_iff_getElem?.1 hq
    obtain ⟨ha, hp⟩ := List.getElem?_zip_eq_some.1 hk
    exact h k a p ha hp

/-- The search for a shift stops at the first that fits, or where its steps end. -/
theorem shiftFor_eq {x : Int} {l : List (Int × BlockSum)} {n : Nat} (k : Nat) {t : Int} (hn : fits x l (t + n) = true)
    (hlow : ∀ j : Nat, j < n → fits x l (t + j) = false) : shiftFor x l k t = t + (min n k : Nat) := by
  induction k generalizing n t with
  | zero => simp [shiftFor]
  | succ k ih =>
    have hstep : shiftFor x l (k + 1) t = if fits x l t then t else shiftFor x l k (t + 1) := rfl
    rw [hstep]
    cases n with
    | zero => simp at hn; simp [hn]
    | succ n =>
      have h0 := hlow 0 (by omega)
      simp only [Nat.cast_zero, add_zero] at h0
      rw [h0, if_neg (by simp), ih (n := n) (by rw [← hn]; push_cast; ring_nf) fun j hj => by
        rw [← hlow (j + 1) (by omega)]; push_cast; ring_nf]
      omega

/-- The model's accumulation is that of 04 R97. -/
theorem bfaBlock_of_accumulates {x : Int} {m : List Int} {sums : List BlockSum} {r : Option (List Int × Int)} (hx : -32768 ≤ x)
    (h : Accumulates x m sums r) : bfaBlock x (List.zip m sums) = r := by
  obtain ⟨n, hfit, hlow, hover, hin⟩ := h
  have hshift : shiftFor x (List.zip m sums) 8300 0 = (min n 8300 : Nat) := by
    rw [shiftFor_eq 8300 (n := n) (by rw [Int.zero_add, fits_zip]; exact hfit), Int.zero_add]
    intro j hj
    obtain ⟨k, a, p, ha, hp, hbad⟩ := hlow j hj
    rw [Int.zero_add, Bool.eq_false_iff, Ne, fits_zip]
    intro hall
    rw [hall k a p ha hp] at hbad
    cases hbad
  simp only [bfaBlock, hshift]
  by_cases hbig : 32767 < x + 8 * n
  · rw [if_pos (by omega), hover hbig]
  · obtain ⟨l, rfl, hlen, hl⟩ := hin (by omega)
    rw [Nat.min_eq_left (by omega), if_neg hbig]
    refine congrArg (fun l => some (l, x + 8 * (n : Int))) (List.ext_getElem? fun k => ?_)
    cases hk : (List.zip m sums)[k]? with
    | none =>
      have : l[k]? = none := by
        rw [List.getElem?_eq_none_iff, hlen, ← List.length_zip]; exact List.getElem?_eq_none_iff.1 hk
      rw [List.getElem?_map, hk, this]; rfl
    | some q =>
      obtain ⟨ha, hp⟩ := List.getElem?_zip_eq_some.1 hk
      rw [List.getElem?_map, hk, hl k _ _ ha hp]; rfl

/-- What becomes of a k-block whose time has come: its scales are read, its block sums accumulated (04 R93, R97). -/
def commitBlock (s : State) (id : Nat) (e : Work) (b : Block) : Out :=
  match b.scales e.td2 (tdRows e.td2) e.blocks, b.scales e.td3 (tdCols e.td3) e.blocks with
  | .error c, _ => .next (s.failUnit id 0 c)
  | .ok _, .error c => .next (s.failUnit id 0 c)
  | .ok sa, .ok sb =>
    match bfaBlock e.etmp (List.zip e.mant (b.sums e.td2 e.td3 sa sb e.next)) with
    | none => .next (s.failUnit id 0 ecOvf)
    | some (m, x) =>
      let s1 := s.modWork id fun e => { e with mant := m, etmp := x, next := e.next + 1 }
      if s.blockHalted e.block ∧ e.next + 1 < e.blocks then
        .next ((s1.modWork id fun e => { e with phase := .stopped, mant := [] }).fillRuns e.block (mantRuns e.td1 m))
      else .next s1

theorem blocks_eq {e : Work} (hc : e.kind ≠ .taskCvt) : e.blocks = cdiv (tdCols e.td2) 32 := by rw [Work.blocks, if_neg hc]

section Commit

variable {s : State} {id : Nat} {e : Work} {b : Block}

theorem taskKblockCommit_eq (he : kget? s.works id = some e) (hb : kget? s.blocks e.block = some b)
    (hk : e.kind.isTask = true) (hp : e.phase = .running) (hf : e.fails = []) (hn : e.next < e.blocks) (hd : e.blockEnd (e.next + 1) ≤ s.clk) : exec (.taskKblockCommit id) s = commitBlock s id e b := by
  simp only [exec, execTaskKblockCommit, he, hk, hp, hf, blockD_eq hb, decide_eq_false (Nat.not_le.2 hn), decide_eq_false (Nat.not_lt.2 hd),
    Bool.not_true, List.isEmpty_nil, ne_eq, not_true_eq_false, decide_false, Bool.or_self, Bool.false_eq_true, if_false]
  rfl

theorem commitBlock_scales {c : Nat} (h : b.scales e.td2 (tdRows e.td2) e.blocks = .error c) :
    commitBlock s id e b = .next (s.failUnit id 0 c) := by
  simp only [commitBlock, h]

theorem commitBlock_sums {sa sb : List Nat} (ha : b.scales e.td2 (tdRows e.td2) e.blocks = .ok sa)
    (hb : b.scales e.td3 (tdCols e.td3) e.blocks = .ok sb) :
    (bfaBlock e.etmp (List.zip e.mant (b.sums e.td2 e.td3 sa sb e.next)) = none → commitBlock s id e b = .next (s.failUnit id 0 2))
    ∧ ∀ m x, bfaBlock e.etmp (List.zip e.mant (b.sums e.td2 e.td3 sa sb e.next)) = some (m, x) →
        (s.blockHalted e.block = false ∨ e.next + 1 = e.blocks) →
        commitBlock s id e b = .next (s.modWork id fun e => { e with mant := m, etmp := x, next := e.next + 1 }) := by
  constructor
  · intro h
    simp only [commitBlock, ha, hb, h]
  · intro m x h hgo
    have hstay : ¬(s.blockHalted e.block = true ∧ e.next + 1 < e.blocks) := by
      rcases hgo with h | h
      · simp [h]
      · omega
    simp only [commitBlock, ha, hb, h, if_neg hstay]

theorem failUnit_fails (he : kget? s.works id = some e) (hf : e.fails = []) (c : Nat) :
    ∃ e', WorkIs s (s.failUnit id 0 c) id e' ∧ e' = { e with fails := e'.fails } ∧ ∃ p d, e'.fails = [(0, c, p, d)] :=
  ⟨_, workIs_of_works he rfl, rfl, _, _, by rw [Work.failed, hf]; rfl⟩

end Commit

/-! ## TASK_END -/

theorem mem_mantRuns {d : BitVec 128} {m : List Int} (hm : m.length = tdRows d * tdCols d) (q : Nat × List Byte) :
    q ∈ mantRuns d m ↔ ∃ i j, i < tdRows d ∧ j < tdCols d ∧ q = (tdOfs d i j, natBytes (wrapInt 64 (m.getD (i * tdCols d + j) 0)) 8) := by
  have hc : 0 < tdCols d := Nat.succ_pos _
  rw [mantRuns, List.mem_map]
  constructor
  · rintro ⟨⟨k, x⟩, hk, rfl⟩
    have hx := MachineState.mem_zip_range hk
    obtain ⟨hlt, -⟩ := List.getElem?_eq_some_iff.1 hx
    refine ⟨k / tdCols d, k % tdCols d, Nat.div_lt_of_lt_mul (by rwa [Nat.mul_comm, ← hm]), Nat.mod_lt _ hc, ?_⟩
    rw [Nat.div_add_mod', List.getD_eq_getElem?_getD, hx]; rfl
  · rintro ⟨i, j, hi, hj, rfl⟩
    have hlt : i * tdCols d + j < m.length := by
      rw [hm]
      calc i * tdCols d + j < (i + 1) * tdCols d := by rw [Nat.succ_mul]; omega
        _ ≤ tdRows d * tdCols d := Nat.mul_le_mul_right _ hi
    refine ⟨(i * tdCols d + j, m[i * tdCols d + j]), zip_range_mem (List.getElem?_eq_getElem hlt), ?_⟩
    have hdiv : (i * tdCols d + j) / tdCols d = i := by
      rw [Nat.mul_comm, Nat.mul_add_div hc, Nat.div_eq_of_lt hj, Nat.add_zero]
    have hmod : (i * tdCols d + j) % tdCols d = j := by rw [Nat.add_comm, Nat.add_mul_mod_self_right, Nat.mod_eq_of_lt hj]
    simp only [hdiv, hmod, mantBytes, List.getD_eq_getElem?_getD, List.getElem?_eq_getElem hlt, Option.getD_some]

theorem mem_cvtRuns (b : Block) (d a : BitVec 128) (q : Nat × List Byte) :
    q ∈ b.cvtRuns d a ↔ ∃ i j, i < tdRows d ∧ j < tdCols d
      ∧ q = (tdOfs d i j, natBytes (cvtCode (tdTag d) (cvtValue a (b.elem a i j))) (tagSize (tdTag d))) := by
  simp only [Block.cvtRuns, List.mem_flatMap, List.mem_map, List.mem_range]
  constructor
  · rintro ⟨i, hi, j, hj, rfl⟩; exact ⟨i, j, hi, hj, rfl⟩
  · rintro ⟨i, j, hi, hj, rfl⟩; exact ⟨i, hi, j, hj, rfl⟩

theorem tagSize_pos (t : Nat) : 0 < tagSize t := by
  unfold tagSize; split <;> [skip; split <;> [skip; split]] <;> decide

/-- The exponent of a descriptor is what was set (01 R26). -/
theorem tdSetExp_exp (d : BitVec 128) (x : Int) : (tdSetExp d x).extractLsb' 80 16 = BitVec.ofInt 16 x := by
  have hx : (BitVec.ofNat 128 (wrapInt 16 x)).setWidth 16 = BitVec.ofInt 16 x := by
    apply BitVec.eq_of_toNat_eq
    have hlt : wrapInt 16 x < 2 ^ 16 := Elements.wrapInt_lt 16 x
    rw [BitVec.toNat_setWidth, BitVec.toNat_ofNat, BitVec.toNat_ofInt, Nat.mod_mod_of_dvd _ (by decide), Nat.mod_eq_of_lt hlt]
    rfl
  have hmask : ∀ i < 16, (~~~((0xFFFF : BitVec 128) <<< 80)).getLsbD (80 + i) = false := by decide
  rw [← hx]
  refine BitVec.eq_of_getLsbD_eq fun i hi => ?_
  have h80 : 80 + i < 128 := by omega
  simp only [tdSetExp, BitVec.getLsbD_extractLsb', BitVec.getLsbD_or, BitVec.getLsbD_and, hmask i hi, BitVec.getLsbD_shiftLeft,
    BitVec.getLsbD_setWidth, hi, h80, Nat.add_sub_cancel_left, decide_true, Bool.and_false, Bool.false_or, Bool.true_and,
    decide_eq_false (Nat.not_lt.2 (Nat.le_add_right 80 i)), Bool.not_false]

/-- A block whose descriptor takes the exponent of a task (01 R26, 08 R222). -/
def expSet (e : Work) (b : Block) : Block :=
  let d := kgetD b.descs e.tdn ⟨0, 0, 0, 0⟩
  { b with descs := kput b.descs e.tdn { d with val := tdSetExp d.val e.etmp } }

section End

variable {s : State} {id : Nat} {e : Work} {b : Block} (he : kget? s.works id = some e) (hk : e.kind.isTask = true)
  (hp : e.phase = .running) (ha : e.aborted = false)
include he hk hp ha

theorem taskEnd_stores (hidle : NoWaiter s e.block) (hc : e.kind ≠ .taskCvt) (hn : e.blocks ≤ e.next) (hf : e.fails = []) :
    exec (.taskEnd id) s = .next (((s.modBlock e.block fun b => filled b (mantRuns e.td1 e.mant)).putExp e e.etmp).finishWork id s.clk) := by
  simp only [exec, execTaskEnd, he, hk, hp, hc, ha, hf, if_neg (Nat.not_lt.2 hn), fillRuns_idle hidle, Bool.not_true, ne_eq,
    not_true_eq_false, decide_false, Bool.or_self, Bool.false_eq_true, if_false]

theorem taskEnd_converts (hidle : NoWaiter s e.block) (hb : kget? s.blocks e.block = some b) (hc : e.kind = .taskCvt)
    (hd : e.fork + 32 + cdiv (tdRows e.td1 * tdCols e.td1) 64 ≤ s.clk) (ht : tdTag e.td1 ≠ 15) :
    exec (.taskEnd id) s = .next ((s.modBlock e.block fun x => filled x (b.cvtRuns e.td1 e.td2)).finishWork id s.clk) := by
  have htask : WorkKind.isTask .taskCvt = true := hc ▸ hk
  simp only [exec, execTaskEnd, he, htask, hp, hc, ha, ht, if_neg (Nat.not_lt.2 hd), fillRuns_idle hidle, blockD_eq hb, Bool.not_true, ne_eq,
    not_true_eq_false, decide_false, Bool.or_self, Bool.false_eq_true, if_false, if_true]

theorem taskEnd_fails (hc : e.kind ≠ .taskCvt) {u c : Nat} {h : Nat × Nat} {rest : List (Nat × Nat × Nat × Nat)}
    (hf : e.fails = (u, c, h) :: rest) (hne : c ≠ 2) : exec (.taskEnd id) s = .next (s.finishWork id s.clk) := by
  simp only [exec, execTaskEnd, he, hk, hp, hc, ha, hf, hne, ecOvf, Bool.not_true, ne_eq,
    not_true_eq_false, decide_false, Bool.or_self, Bool.false_eq_true, if_false]

end End

theorem filled_descs (b : Block) (runs : List (Nat × List Byte)) : (filled b runs).descs = b.descs := by rw [filled_frame]

/-- Where the descriptor has not been rewritten since the task's issue, its exponent is set. -/
theorem putExp_blocks {s : State} {e : Work} {b : Block} (hb : kget? s.blocks e.block = some b)
    (hd : (kgetD b.descs e.tdn ⟨0, 0, 0, 0⟩).clk ≤ e.clk) : (s.putExp e e.etmp).blocks = kmod s.blocks e.block (expSet e) := by
  refine kmod_congr _ _ hb ?_
  simp only [decide_eq_true hd, Bool.true_or, if_true]
  rfl

theorem expSet_frame (e : Work) (b : Block) (runs : List (Nat × List Byte)) :
    expSet e (filled b runs) = { b with ls := (filled b runs).ls, full := (filled b runs).full, descs := (expSet e b).descs } := by
  rw [expSet, filled_descs]
  conv_lhs => rw [filled_frame]
  rfl

/-- TASK_END of a product: the destination takes the mantissas, its descriptor the exponent (08 R222). -/
theorem taskEnd_product {s : State} {id : Nat} {e : Work} {b : Block} (he : kget? s.works id = some e) (hk : e.kind.isTask = true)
    (hp : e.phase = .running) (ha : e.aborted = false) (hidle : NoWaiter s e.block) (hb : kget? s.blocks e.block = some b)
    (hc : e.kind ≠ .taskCvt) (hn : e.blocks ≤ e.next) (hf : e.fails = []) (hd : (kgetD b.descs e.tdn ⟨0, 0, 0, 0⟩).clk ≤ e.clk) :
    ∃ t, exec (.taskEnd id) s = .next t ∧ t = { s with works := t.works, blocks := t.blocks, free := t.free }
      ∧ BlockIs s t e.block (expSet e (filled b (mantRuns e.td1 e.mant))) ∧ WorkIs s t id { e with phase := .finished, due := s.clk } := by
  refine ⟨_, taskEnd_stores he hk hp ha hidle hc hn hf, rfl, ?_,
    workIs_of_works (f := fun x => { x with phase := .finished, due := s.clk }) he rfl⟩
  have hb1 : kget? (s.modBlock e.block fun b => filled b (mantRuns e.td1 e.mant)).blocks e.block = some (filled b (mantRuns e.td1 e.mant)) := by
    simp only [State.modBlock, kget?_kmod_self, hb, Option.map_some]
  exact blockIs_of_blocks (f := fun b => expSet e (filled b (mantRuns e.td1 e.mant))) hb
    ((putExp_blocks hb1 (by rwa [filled_descs])).trans (kmod_kmod ..))

end Sys2Proof.Laws.TileTask

namespace Sys2Proof.Laws.Kiln

/-! # Kiln requests (08 R226 to R228, 12 R324) -/

open Sys2Proof.Machine Sys2Proof.Safety Sys2Proof.Rules Sys2Proof.Laws.LocalStore Sys2Proof.Laws.TileTask

/-! ## A walk for a kiln request -/

theorem die_modDie_self (s : State) (k : Nat) (f : Die → Die) : (s.modDie k f).die k = f (s.die k) := by
  simp only [State.die, State.modDie, kgetD, kget?_kput_self, Option.getD_some]

theorem die_modDie_ne (s : State) {k j : Nat} (f : Die → Die) (h : j ≠ k) : (s.modDie k f).die j = s.die j := by
  simp only [State.die, State.modDie, kgetD, kget?_kput_ne _ _ h]

theorem die_modWork (s : State) (id j : Nat) (f : Work → Work) : (s.modWork id f).die j = s.die j := rfl

/-- A controller of a die has walked: no other die changes, nor the die's kiln; the driver may have been told. -/
def Walked (s t : State) (dk : Nat) : Prop :=
  t = { s with dies := t.dies, mem := t.mem, fe := t.fe, copies := t.copies } ∧ (∀ j, j ≠ dk → t.die j = s.die j)
    ∧ (t.die dk).kiln = (s.die dk).kiln ∧ (t.die dk).kilnFree = (s.die dk).kilnFree

theorem Walked.refl (s : State) (dk : Nat) : Walked s s dk := ⟨rfl, fun _ _ => rfl, rfl, rfl⟩

theorem Walked.trans {s t u : State} {dk : Nat} (h : Walked s t dk) (h' : Walked t u dk) : Walked s u dk := by
  obtain ⟨ht, hother, hkiln, hfree⟩ := h
  obtain ⟨hu, hother', hkiln', hfree'⟩ := h'
  exact ⟨by rw [hu, ht], fun j hj => (hother' j hj).trans (hother j hj), hkiln'.trans hkiln, hfree'.trans hfree⟩

theorem walked_modDie {s : State} {dk : Nat} {f : Die → Die} (hk : (f (s.die dk)).kiln = (s.die dk).kiln)
    (hf : (f (s.die dk)).kilnFree = (s.die dk).kilnFree) : Walked s (s.modDie dk f) dk :=
  ⟨rfl, fun _ hj => die_modDie_ne s f hj, by rw [die_modDie_self, hk], by rw [die_modDie_self, hf]⟩

theorem fqPost_walked (s : State) (dk w0 w1 w2 w3 : Nat) : Walked s (s.fqPost w0 w1 w2 w3) dk := by
  unfold State.fqPost
  dsimp only
  split
  · rw [State.fqWrite, feWrite_eq]
    exact ⟨rfl, fun _ _ => rfl, rfl, rfl⟩
  · exact ⟨rfl, fun _ _ => rfl, rfl, rfl⟩

theorem noteFrame_walked (s : State) (dk asid va : Nat) (leaf : Word) : Walked s (s.noteFrame dk asid va leaf) dk := by
  unfold State.noteFrame
  dsimp only
  split
  · exact walked_modDie rfl rfl
  · split
    · exact (walked_modDie rfl rfl).trans (fqPost_walked ..)
    · exact walked_modDie rfl rfl

theorem ctlFill_walked (s : State) (dk asid gen va : Nat) (leaf : Word) (tables : List (Nat × Nat × Nat)) :
    Walked s (s.ctlFill dk asid gen va leaf tables) dk := by
  unfold State.ctlFill
  exact walked_modDie rfl rfl

theorem ctlMiss_walked (s : State) (dk asid gen va : Nat) : Walked s (s.ctlMiss dk asid gen va).1 dk := by
  unfold State.ctlMiss
  split
  · exact (ctlFill_walked ..).trans (noteFrame_walked ..)
  · exact .refl ..

theorem foldl_walked {α : Type} {dk : Nat} {f : State → α → State} (hf : ∀ s a, Walked s (f s a) dk) (l : List α) (s : State) :
    Walked s (l.foldl f s) dk := by
  induction l generalizing s with
  | nil => exact .refl ..
  | cons a l ih => exact (hf s a).trans (ih _)

theorem kilnFill_walked (s : State) (e : Work) (dk : Nat) : Walked s (s.kilnFill e dk) dk := by
  refine foldl_walked (fun s va => ?_) _ s
  split
  · exact .refl ..
  · exact ctlMiss_walked ..

/-! ## KILN_REQUEST_ARRIVAL -/

section Arrival

variable {s : State} {id dk : Nat} {e : Work} {b : Block} (he : kget? s.works id = some e) (hk : e.kind = .kmv)
  (hb : kget? s.blocks e.block = some b) (hw : e.wait = [dk]) (hd : e.due ≤ s.clk) (hp : e.phase = .sent)
  (hfirst : ∀ q ∈ s.works, q.1 ≠ id → q.2.kind = .kmv → q.2.phase = .sent → q.2.wait.headD 0 = dk → s.kilnRank e ≤ s.kilnRank q.2)
  (hlive : (s.pkg (dk / 128)).failed = false) (hdie : s.dieLive dk = true)
  (hroute : s.noRoute b.pkg b.die (dk / 128) (dk % 128) e.plane = false)

/-- Whether the leaf of a request's matrix names another home than its stack (16 R380). -/
def homedElsewhere (s : State) (e : Work) (dk : Nat) : Bool :=
  match s.kilnLeaf e dk (kvField e.buf 0 64) with
  | some leaf => decide (s.homeOf (dk / 128) (s.workAsid e) leaf (kvField e.buf 0 64) ≠ some (dk / 128, dk % 128))
  | none => false

theorem homedElsewhere_false (h : ∀ leaf, s.kilnLeaf e dk (kvField e.buf 0 64) = some leaf →
    s.homeOf (dk / 128) (s.workAsid e) leaf (kvField e.buf 0 64) = some (dk / 128, dk % 128)) : homedElsewhere s e dk = false := by
  unfold homedElsewhere
  split
  next leaf hleaf => simp [h leaf hleaf]
  next => rfl

/-- What a stack does with the first request that reaches it (12 R324, 16 R380, R381). -/
def arrives (s : State) (id : Nat) (e : Work) (dk : Nat) : Out :=
  let now := kgetD (s.die dk).genReg (s.workAsid e) 0
  if now ≠ e.gen then .next (s.kilnReject id e dk tcStale now)
  else if homedElsewhere s e dk then .next (s.kilnReject id e dk tcMishome now)
  else if 256 ≤ (s.die dk).kiln.length then .next s
  else
    let m := kvRows e.buf
    let k := kvK e.buf
    let end_ := max e.due (s.die dk).kilnFree + 400 + cdiv k 64 + cdiv (3 * m * k) 32000 + cdiv (8 * m) 64
    .next (((s.kilnFill e dk).modDie dk fun d => { d with kiln := d.kiln ++ [id], kilnFree := end_ }).modWork id fun e =>
      { e with phase := .running, due := end_ + s.kilnWay e (dk / 128) (dk % 128) })

include he hk hb hw hd hp hfirst hlive hdie hroute in
theorem kilnRequestArrival_eq : exec (.kilnRequestArrival id) s = arrives s id e dk := by
  have hall : (s.works.all fun q => q.1 == id || q.2.kind != .kmv || q.2.phase != .sent || q.2.wait.headD 0 != dk
      || decide (s.kilnRank e ≤ s.kilnRank q.2)) = true := by
    rw [List.all_eq_true]
    intro q hq
    simp only [Bool.or_eq_true, beq_iff_eq, bne_iff_ne, decide_eq_true_eq]
    by_contra hno
    simp only [not_or, not_not] at hno
    obtain ⟨⟨⟨⟨hid, hkmv⟩, hsent⟩, hstack⟩, hrank⟩ := hno
    exact hrank (hfirst q hq hid hkmv hsent hstack)
  simp only [exec, execKilnRequestArrival, he, hk, hw, List.headD_cons, hp, hall, blockD_eq hb, hlive, hdie, hroute,
    decide_eq_false (Nat.not_lt.2 hd), reduceCtorEq, Bool.not_true, ne_eq, not_true_eq_false, decide_false, Bool.or_self,
    Bool.false_eq_true, if_false]
  rfl

end Arrival

/-- A request of an old generation goes back, counted (16 R381). -/
theorem arrives_stale {s : State} {id dk : Nat} {e : Work} (he : kget? s.works id = some e)
    (hg : kgetD (s.die dk).genReg (s.workAsid e) 0 ≠ e.gen) :
    ∃ t e', arrives s id e dk = .next t ∧ t = { s with works := t.works, dies := t.dies } ∧ WorkIs s t id e'
      ∧ e' = { e with phase := .forked, gen := kgetD (s.die dk).genReg (s.workAsid e) 0, due := e'.due } ∧ Counted s t dk 7 := by
  refine ⟨_, _, by rw [arrives, if_pos hg], rfl, workIs_of_works he rfl, rfl, ?_⟩
  rw [Counted, State.kilnReject, die_modWork, State.count, die_modDie_self, kgetD, kget?_kput_self]; rfl

/-- A request that its stack homes is queued while there is room (12 R324). -/
theorem arrives_queued {s : State} {id dk : Nat} {e : Work} (he : kget? s.works id = some e)
    (hg : kgetD (s.die dk).genReg (s.workAsid e) 0 = e.gen) (hhome : homedElsewhere s e dk = false)
    (hroom : (s.die dk).kiln.length < 256) :
    ∃ t e', arrives s id e dk = .next t
      ∧ t = { s with works := t.works, dies := t.dies, mem := t.mem, fe := t.fe, copies := t.copies } ∧ WorkIs s t id e'
      ∧ e' = { e with phase := .running, due := e'.due } ∧ (∀ j, j ≠ dk → t.die j = s.die j) ∧ (t.die dk).kiln = (s.die dk).kiln ++ [id]
      ∧ (t.die dk).kilnFree ≤ e'.due
      ∧ (t.die dk).kilnFree = max e.due (s.die dk).kilnFree + 400 + cdiv (kvK e.buf) 64 + cdiv (3 * kvRows e.buf * kvK e.buf) 32000
          + cdiv (8 * kvRows e.buf) 64 := by
  obtain ⟨hfill, hother, hkiln, -⟩ := kilnFill_walked s e dk
  rw [arrives, if_neg (not_not.2 hg), hhome, if_neg Bool.false_ne_true, if_neg (Nat.not_le.2 hroom)]
  generalize s.kilnFill e dk = u at hfill hother hkiln ⊢
  obtain ⟨dies, mem, fe, copies, rfl⟩ : ∃ dies mem fe copies, u = { s with dies := dies, mem := mem, fe := fe, copies := copies } :=
    ⟨_, _, _, _, hfill⟩
  refine ⟨_, _, rfl, rfl, workIs_of_works he rfl, rfl, fun j hj => ?_, ?_, ?_, ?_⟩
  · rw [die_modWork, die_modDie_ne _ _ hj, hother j hj]
  · rw [die_modWork, die_modDie_self, hkiln]
  · rw [die_modWork, die_modDie_self]
    exact Nat.le_add_right ..
  · rw [die_modWork, die_modDie_self]

/-! ## The result record (08 R227) -/

theorem status_empty {e : Work} (hk : e.kind = .kmv) (hf : e.fails = []) : e.status = 2 ^ 48 := by
  simp only [Work.status, Work.units, hk, hf]; rfl

theorem status_failed {e : Work} (hk : e.kind = .kmv) {c p d : Nat} (hf : e.fails = [(0, c, p, d)]) :
    e.status = c + 2 ^ 16 + 2 ^ 32 * p + 2 ^ 41 * d := by
  simp only [Work.status, Work.units, hk, hf]; rfl

/-- A die without a kiln request. -/
def kilnGone (s : State) (id dk : Nat) : State := s.modDie dk fun d => { d with kiln := d.kiln.filter (· != id) }

/-- The result record of a request: where it stands, its status word and exponent. -/
def resultRecord (e : Work) (word : Nat) (x : Int) : Nat × List Byte :=
  ((kvRange e.buf 2).1, natBytes word 8 ++ natBytes (wrapInt 16 x) 2 ++ natBytes 0 6)

/-- A request has ended: its block has become `b'`, its die's kiln no longer holds it. -/
def KilnEnded (s t : State) (id dk : Nat) (e : Work) (b b' : Block) : Prop :=
  ∃ e', t = { s with works := t.works, blocks := t.blocks, dies := t.dies, free := t.free } ∧ BlockIs s t e.block b'
    ∧ b' = { b with ls := b'.ls, full := b'.full } ∧ WorkIs s t id e' ∧ e'.phase = .finished ∧ e'.due = s.clk
    ∧ t.die dk = { s.die dk with kiln := (s.die dk).kiln.filter (· != id) } ∧ ∀ j, j ≠ dk → t.die j = s.die j

/-- The record written, the request ends: before it, `runs` may have gone to local store and a failure may have been noted. -/
theorem kilnRecord_ends {s : State} {id dk : Nat} {e : Work} {b : Block} {f : Work → Work} {runs : List (Nat × List Byte)} {x : Int} {n : Nat}
    (he : kget? s.works id = some e) (hb : kget? s.blocks e.block = some b) (hidle : NoWaiter s e.block) (ha : e.aborted = false)
    (hbuf : (f e).buf = e.buf) :
    KilnEnded s (State.kilnRecord { kilnGone s id dk with
        works := kmod s.works id f, blocks := kmod s.blocks e.block (filled · runs), free := n } id e x) id dk e b
      (filled b (runs ++ [resultRecord e (f e).status x])) := by
  have hget : kget? (kmod s.works id f) id = some (f e) := by rw [kget?_kmod_self, he]; rfl
  have hidle' : NoWaiter { kilnGone s id dk with works := kmod s.works id f, blocks := kmod s.blocks e.block (filled · runs), free := n }
      e.block := hidle
  simp only [State.kilnRecord, hget, Option.getD_some, ha, Bool.false_eq_true, if_false, fillRuns_idle hidle', hbuf]
  refine ⟨_, rfl, ?_, ?_, workIs_of_works (f := fun x => { f x with phase := .finished, due := s.clk }) he (kmod_kmod ..), rfl, rfl,
    (show _ = (kilnGone s id dk).die dk from rfl).trans (die_modDie_self ..),
    fun j hj => (show _ = (kilnGone s id dk).die j from rfl).trans (die_modDie_ne _ _ hj)⟩
  · rw [← filled_append]
    exact blockIs_of_blocks (f := fun b => filled (filled b runs) [resultRecord e (f e).status x]) hb (kmod_kmod ..)
  · exact filled_frame ..

/-! ## KILN_COMPLETE -/

def readMiss : KilnRead → Option Nat
  | .miss va => some va
  | _ => none

def readFail : KilnRead → Option (Nat × Nat × Nat)
  | .fail c p d => some (c, p, d)
  | _ => none

def readBytes : KilnRead → List Byte
  | .bytes l => l
  | _ => []

/-- What a request reads: its rows, and its scale stream (08 R226). -/
def kilnReads (s : State) (e : Work) (dk : Nat) : List KilnRead := (s.kilnRuns e).map fun r => s.kilnRun e dk (sectorPieces r.1 r.2)

/-- The scales of a request, or the status that ends it. -/
def kilnScales (s : State) (e : Work) : Except Nat (List Nat) :=
  if kvField e.buf 220 1 = 1 then sd4Decode (fun i => some (s.kilnByte e i)) (kvRows e.buf * (kvK e.buf / 32)) else .ok []

/-- The exponent that a request begins with. -/
def kilnExp (e : Work) : Int := intOf true 16 (kvField e.buf 256 16)

/-- The mantissas and exponent of a request, and whether the exponent ran over, from the bytes of its rows and its scales. -/
def kilnOut (e : Work) (b : Block) (l : List (List Byte)) (sc : List Nat) : List Int × Int × Bool :=
  let vec := (b.lsRead (kvRange e.buf 0).1 (kvK e.buf)).map fun x => intOf (kvField e.buf 219 1 == 1) 8 x.toNat
  let m0 := (List.range (kvRows e.buf)).map fun i =>
    if kvField e.buf 221 1 = 1 then intOf true 48 (bytesNat (b.lsRead ((kvRange e.buf 1).1 + 8 * i) 8)) else 0
  kilnGo ((l.take (kvRows e.buf)).map fun l => l.map fun y => duoVal y.toNat) vec sc (kvK e.buf / 32) (kvK e.buf / 32) 0 m0 (kilnExp e)

/-- A request's output and record are written (08 R227). -/
def kilnStores (s : State) (id : Nat) (e : Work) (dk : Nat) (out : List Int × Int × Bool) : State :=
  let s1 := (kilnGone s id dk).fillRuns e.block [((kvRange e.buf 1).1, out.1.flatMap mantBytes)]
  (if out.2.2 then s1.failUnit id 0 ecOvf else s1).kilnRecord id e out.2.1

/-- What becomes of a request by what it has read (08 R226, R227). -/
def completes (s : State) (id : Nat) (e : Work) (dk : Nat) : Out :=
  let reads := kilnReads s e dk
  match reads.findSome? readMiss with
  | some va => .next (s.engMiss id e (dk / 128) (dk % 128) va akRead)
  | none =>
    if reads.contains .poison then .next ((kilnGone s id dk).abortLaunch (s.blockD e.block).launch)
    else
      match reads.findSome? readFail with
      | some (c, p, d) => .next (((kilnGone s id dk).modWork id fun e => e.failed 0 c p d).kilnRecord id e (kilnExp e))
      | none =>
        match kilnScales s e with
        | .error c => .next (((kilnGone s id dk).failUnit id 0 c).kilnRecord id e (kilnExp e))
        | .ok sc => .next (kilnStores s id e dk (kilnOut e (s.blockD e.block) (reads.map readBytes) sc))

theorem kilnComplete_eq {s : State} {id dk : Nat} {e : Work} (he : kget? s.works id = some e) (hk : e.kind = .kmv) (hw : e.wait = [dk])
    (hd : e.due ≤ s.clk) (ha : e.aborted = false) (hp : e.phase = .running) (hs : s.workStuck id = false) :
    exec (.kilnComplete id) s = completes s id e dk := by
  simp only [exec, execKilnComplete, he, hk, hw, List.headD_cons, hp, hs, ha, decide_eq_false (Nat.not_lt.2 hd), ne_eq, not_true_eq_false,
    decide_false, Bool.or_self, Bool.false_eq_true, if_false]
  rfl

/-- The runs of a request that the kiln performs: its output, then its record. -/
def resultRuns (e : Work) (word : Nat) (out : List Int × Int × Bool) : List (Nat × List Byte) :=
  [((kvRange e.buf 1).1, out.1.flatMap mantBytes), resultRecord e word out.2.1]

section Complete

variable {s : State} {id dk : Nat} {e : Work} {b : Block}

theorem completes_bytes (hb : kget? s.blocks e.block = some b) {l : List (List Byte)} {sc : List Nat}
    (hr : kilnReads s e dk = l.map KilnRead.bytes) (hsc : kilnScales s e = .ok sc) :
    completes s id e dk = .next (kilnStores s id e dk (kilnOut e b l sc)) := by
  have hmiss : (l.map KilnRead.bytes).findSome? readMiss = none := by
    rw [List.findSome?_eq_none_iff]; rintro r hr; obtain ⟨x, -, rfl⟩ := List.mem_map.1 hr; rfl
  have hfail : (l.map KilnRead.bytes).findSome? readFail = none := by
    rw [List.findSome?_eq_none_iff]; rintro r hr; obtain ⟨x, -, rfl⟩ := List.mem_map.1 hr; rfl
  have hpoison : (l.map KilnRead.bytes).contains .poison = false := by simp
  have hbytes : (l.map KilnRead.bytes).map readBytes = l := by rw [List.map_map]; exact List.map_id l
  simp only [completes, hr, hmiss, hfail, hpoison, hbytes, hsc, blockD_eq hb, Bool.false_eq_true, if_false]

theorem completes_fail (hpoison : KilnRead.poison ∉ kilnReads s e dk) (hmiss : ∀ va, KilnRead.miss va ∉ kilnReads s e dk) {c p d : Nat}
    (hfail : (kilnReads s e dk).findSome? readFail = some (c, p, d)) :
    completes s id e dk = .next (((kilnGone s id dk).modWork id fun e => e.failed 0 c p d).kilnRecord id e (kilnExp e)) := by
  have hnone : (kilnReads s e dk).findSome? readMiss = none := by
    rw [List.findSome?_eq_none_iff]
    intro r hr
    cases r with
    | miss va => exact absurd hr (hmiss va)
    | bytes | fail | poison => rfl
  have hno : (kilnReads s e dk).contains .poison = false := by simpa using hpoison
  simp only [completes, hnone, hno, hfail, Bool.false_eq_true, if_false]

variable (he : kget? s.works id = some e) (hk : e.kind = .kmv) (hb : kget? s.blocks e.block = some b) (ha : e.aborted = false)
  (hidle : NoWaiter s e.block) (hf : e.fails = [])
include he hk hb ha hidle hf

/-- The output and the record stand in the block (08 R227). -/
theorem kilnStores_ends (out : List Int × Int × Bool) :
    ∃ word, KilnEnded s (kilnStores s id e dk out) id dk e b (filled b (resultRuns e word out))
      ∧ (out.2.2 = false → word = 2 ^ 48) ∧ (out.2.2 = true → word % 2 ^ 32 = 2 + 2 ^ 16 ∧ word / 2 ^ 48 = 0) := by
  have hidle' : NoWaiter (kilnGone s id dk) e.block := hidle
  unfold kilnStores
  simp only [fillRuns_idle hidle']
  cases hout : out.2.2 with
  | false =>
    have hends := kilnRecord_ends (f := fun x => x) (dk := dk) (runs := [((kvRange e.buf 1).1, out.1.flatMap mantBytes)]) (x := out.2.1)
      (n := s.free) he hb hidle ha rfl
    rw [kmod_id] at hends
    exact ⟨e.status, hends, fun _ => status_empty hk hf, nofun⟩
  | true =>
    have hends := kilnRecord_ends (f := fun x => x.failed 0 ecOvf s.noHome.1 s.noHome.2) (dk := dk)
      (runs := [((kvRange e.buf 1).1, out.1.flatMap mantBytes)]) (x := out.2.1) (n := s.free + 1) he hb hidle ha rfl
    refine ⟨_, hends, nofun, fun _ => ?_⟩
    have hpkg : s.noHome.1 < 512 := Nat.mod_lt _ (by decide)
    have hdie : s.noHome.2 < 128 := Nat.mod_lt _ (by decide)
    rw [status_failed (e := e.failed 0 ecOvf s.noHome.1 s.noHome.2) hk (by rw [Work.failed, hf]; rfl), ecOvf]
    omega

/-- A failed read leaves the output as it was, with its CODE in the record (08 R227). -/
theorem failedRead_ends (c p d : Nat) :
    KilnEnded s (((kilnGone s id dk).modWork id fun e => e.failed 0 c p d).kilnRecord id e (kilnExp e)) id dk e b
      (filled b [resultRecord e (c + 2 ^ 16 + 2 ^ 32 * p + 2 ^ 41 * d) (kilnExp e)]) := by
  have hends := kilnRecord_ends (f := fun x => x.failed 0 c p d) (dk := dk) (runs := []) (x := kilnExp e) (n := s.free) he hb hidle ha rfl
  rw [show (kmod s.blocks e.block fun x => filled x []) = s.blocks from kmod_id ..,
    status_failed (e := e.failed 0 c p d) hk (by rw [Work.failed, hf]; rfl)] at hends
  exact hends

end Complete

end Sys2Proof.Laws.Kiln

namespace Sys2Proof.Laws.TileTasks

/-! # Tile tasks and kiln requests (O51) -/

open Sys2Proof.Machine Sys2Proof.Safety Sys2Proof.Rules Sys2Proof.Laws.LocalStore Sys2Proof.Laws.TileTask Sys2Proof.Laws.Kiln

/-- Settles O51: each step meets its condition and takes its effect; the parts are TASK_START, TASK_KBLOCK_COMMIT, TASK_END (a product, a
conversion, a failed task), KILN_REQUEST_ARRIVAL (STALE, queued) and KILN_COMPLETE (stored, a failed read). -/
theorem tileTasks : Obligations.TileTasks := by
  unfold Obligations.TileTasks
  refine ⟨fun s id e b he hk hb => ⟨?start, ?commit, ?finish⟩, fun s id e b dk he hk hb hw hd ha => ⟨?arrival, ?complete⟩⟩
  case start =>
    intro n hp hh hdep hz hn hfirst busy hfree hlow
    exact ⟨_, _, taskStart_starts he hb (mayStart_of hk hp hh hb hdep hz) hfirst (freeEngine_eq hn hfree hlow), ⟨rfl, workIs_of_works he rfl⟩,
      rfl, startMants_ovr, fun hkind => startMants_read hkind⟩
  case commit =>
    intro hc hp hf hn hd
    rw [← blocks_eq hc] at hn ⊢
    rw [taskKblockCommit_eq he hb hk hp hf hn hd]
    refine ⟨fun sa sb r hsa hsb hx hr => ⟨fun hnone => ?_, fun m x hsome hgo => ?_⟩, fun c hsc => ?_⟩
    · obtain ⟨e', hfails⟩ := failUnit_fails he hf 2
      exact ⟨_, e', (commitBlock_sums hsa hsb).1 ((bfaBlock_of_accumulates hx hr).trans hnone), rfl, hfails⟩
    · exact ⟨_, (commitBlock_sums hsa hsb).2 m x ((bfaBlock_of_accumulates hx hr).trans hsome) hgo, rfl,
        workIs_of_works (f := fun e => { e with mant := m, etmp := x, next := e.next + 1 }) he rfl⟩
    · obtain ⟨e', hfails⟩ := failUnit_fails he hf c
      exact ⟨_, e', commitBlock_scales hsc, rfl, hfails⟩
  case finish =>
    intro hp ha hidle
    refine ⟨fun hc hn ht hlen hf hclk => ?_, fun hc hd ht => ?_, fun hc u c h rest hf hne => ?_⟩
    · refine ⟨_, taskEnd_product he hk hp ha hidle hb hc (by rwa [blocks_eq hc]) hf hclk, by rw [expSet_frame],
        filled_tile b (by decide) (mem_mantRuns hlen), ?_, fun n hn' => ?_⟩
      · simp only [expSet, filled_descs, kgetD, kget?_kput_self, Option.getD_some, tdSetExp_exp]
      · simp only [expSet, filled_descs, kgetD, kget?_kput_ne _ _ hn']
    · exact ⟨_, ⟨_, taskEnd_converts he hk hp ha hidle hb hc hd ht, rfl,
        blockIs_of_blocks (f := fun x => filled x (b.cvtRuns e.td1 e.td2)) hb rfl,
        workIs_of_works (f := fun x => { x with phase := .finished, due := s.clk }) he rfl⟩, filled_frame ..,
        filled_tile b (tagSize_pos _) (mem_cvtRuns b e.td1 e.td2)⟩
    · exact ⟨_, taskEnd_fails he hk hp ha hc hf hne, rfl, workIs_of_works (f := fun x => { x with phase := .finished, due := s.clk }) he rfl⟩
  case arrival =>
    intro hp hfirst hlive hdie hroute
    rw [kilnRequestArrival_eq he hk hb hw hd hp hfirst hlive hdie hroute]
    exact ⟨arrives_stale he, fun hg hleaf => arrives_queued he hg (homedElsewhere_false hleaf)⟩
  case complete =>
    intro hp hs hidle hf
    rw [kilnComplete_eq he hk hw hd ha hp hs]
    refine ⟨fun l sc hr hsc => ?_, fun c p d hpoison hmiss hfail => ?_⟩
    · obtain ⟨word, ⟨e', hends⟩, hok, hover⟩ := kilnStores_ends (dk := dk) he hk hb ha hidle hf (kilnOut e b l sc)
      exact ⟨_, word, ⟨_, e', completes_bytes hb hr hsc, hends⟩, filled_fills .., hok, hover⟩
    · rw [List.head?_filterMap] at hfail
      obtain ⟨e', hends⟩ := failedRead_ends (dk := dk) he hk hb ha hidle hf c p d
      exact ⟨_, ⟨_, e', completes_fail hpoison hmiss hfail, hends⟩, filled_fills ..⟩

end Sys2Proof.Laws.TileTasks

namespace Sys2Proof.Laws.Scalars

/-! # Scalar arithmetic, divisions and reads (05 R100 to R110, R126 to R129) -/

open Sys2Proof.Machine Sys2Proof.Safety Sys2Proof.Rules

/-! ## The values of the manual's tables -/

/-- Choosing by `≤` or by `<` is the same where equal ranks make equal choices. -/
theorem ite_le_eq_ite_lt {α β : Type} [LinearOrder β] {m n : β} {x y : α} (h : m = n → x = y) :
    (if m ≤ n then x else y) = if m < n then x else y := by
  rcases lt_trichotomy m n with hlt | heq | hgt
  · rw [if_pos hlt.le, if_pos hlt]
  · rw [h heq, ite_self, ite_self]
  · rw [if_neg hgt.not_ge, if_neg hgt.not_gt]

theorem sminW_eq (a b : Word) : sminW a b = if a.slt b then a else b := by
  simp only [sminW, BitVec.slt_eq_decide, decide_eq_true_eq]
  exact ite_le_eq_ite_lt BitVec.eq_of_toInt_eq

theorem smaxW_eq (a b : Word) : smaxW a b = if a.slt b then b else a := by
  simp only [smaxW, BitVec.slt_eq_decide, decide_eq_true_eq]
  exact ite_le_eq_ite_lt fun he => (BitVec.eq_of_toInt_eq he).symm

theorem sminuW_eq (a b : Word) : sminuW a b = if a.ult b then a else b := by
  simp only [sminuW, BitVec.ult_eq_decide, decide_eq_true_eq]
  exact ite_le_eq_ite_lt BitVec.eq_of_toNat_eq

theorem smaxuW_eq (a b : Word) : smaxuW a b = if a.ult b then b else a := by
  simp only [smaxuW, BitVec.ult_eq_decide, decide_eq_true_eq]
  exact ite_le_eq_ite_lt fun he => (BitVec.eq_of_toNat_eq he).symm

/-- The number of 1 bits, counted. -/
theorem popc_eq_countP {w : Nat} (a : BitVec w) : popc a = (List.range w).countP a.getLsbD := List.countP_eq_length_filter.symm

/-- The zero bits above the highest 1 bit, found from the top down or bit by bit. -/
theorem leadingZeros_eq (n : Nat) (a : Word) :
    leadingZeros n a = (((List.range n).reverse.find? fun i => a.getLsbD i).map fun i => n - 1 - i).getD n := by
  induction n with
  | zero => rfl
  | succ n ih =>
    rw [leadingZeros, List.range_succ, List.reverse_append, List.reverse_singleton, List.singleton_append, List.find?_cons]
    cases hn : a.getLsbD n with
    | true => simp
    | false =>
      rw [if_neg Bool.false_ne_true, ih]
      cases hf : (List.range n).reverse.find? fun i => a.getLsbD i with
      | none => simp [Nat.add_comm]
      | some i =>
        have hi : i < n := by simpa using List.mem_of_find?_eq_some hf
        simp only [Option.map_some, Option.getD_some]
        omega

theorem clzOf_eq (a : Word) : clzOf a = leadingZeros 64 a := (leadingZeros_eq 64 a).symm

theorem condHolds_signed (c : Nat) (a b : Word) : condHolds c a.toInt b.toInt = scalarCond true c a b := by
  have heq : (a.toInt == b.toInt) = (a == b) := by rw [Bool.eq_iff_iff, beq_iff_eq, beq_iff_eq, BitVec.toInt_inj]
  unfold condHolds scalarCond
  split
  · exact heq
  · exact congrArg not heq
  all_goals simp [BitVec.slt_eq_decide, BitVec.sle_eq_decide]

theorem condHolds_unsigned (c : Nat) (a b : Word) : condHolds c a.toNat b.toNat = scalarCond false c a b := by
  have heq : ((a.toNat : Int) == b.toNat) = (a == b) := by rw [Bool.eq_iff_iff, beq_iff_eq, beq_iff_eq, Int.natCast_inj, BitVec.toNat_inj]
  unfold condHolds scalarCond
  split
  · exact heq
  · exact congrArg not heq
  all_goals simp [BitVec.ult_eq_decide, BitVec.ule_eq_decide]

/-- Signed division truncates towards zero, and wraps for the most negative number divided by -1 (05 R104). -/
theorem sdivW_eq (a b : Word) : sdivW a b = if b = 0 then BitVec.allOnes 64 else a.sdiv b := by
  unfold sdivW
  congr 1
  exact BitVec.eq_of_toInt_eq (by rw [BitVec.toInt_ofInt, BitVec.toInt_sdiv])

theorem sdivuW_eq (a b : Word) : sdivuW a b = if b = 0 then BitVec.allOnes 64 else a.udiv b := by
  unfold sdivuW
  congr 1
  refine BitVec.eq_of_toNat_eq ?_
  rw [BitVec.toNat_ofNat, BitVec.udiv_eq, BitVec.toNat_udiv, Nat.mod_eq_of_lt ((Nat.div_le_self _ _).trans_lt a.isLt)]

/-! ## Bit fields (05 R107) -/

theorem bfxU_eq (a : Word) (p n : Nat) : bfxU a p n = (a.extractLsb' p n).setWidth 64 := by
  refine BitVec.eq_of_toNat_eq ?_
  rw [bfxU, nbits, BitVec.toNat_ofNat, BitVec.toNat_setWidth, BitVec.extractLsb'_toNat, Nat.shiftRight_eq_div_pow]

/-- A field that ends at bit 63 or below is shifted to the top and back. -/
theorem bfxS_eq (a : Word) {p n : Nat} (hn : 1 ≤ n) (h : p + n ≤ 64) : bfxS a p n = (a.extractLsb' p n).signExtend 64 := by
  refine BitVec.eq_of_getLsbD_eq fun i hi => ?_
  have hmsb : ((a >>> p) <<< (64 - n)).msb = a.getLsbD (p + (n - 1)) := by
    have h63 : 64 - 1 - (64 - n) = n - 1 := by omega
    rw [BitVec.msb_eq_getLsbD_last, BitVec.getLsbD_shiftLeft, BitVec.getLsbD_ushiftRight, h63]
    simp; omega
  have hfield : (a.extractLsb' p n).msb = a.getLsbD (p + (n - 1)) := by
    rw [BitVec.msb_eq_getLsbD_last, BitVec.getLsbD_extractLsb']
    simp; omega
  rw [bfxS, BitVec.getLsbD_sshiftRight, BitVec.getLsbD_signExtend, hmsb, hfield]
  by_cases hin : i < n
  · have hlt : 64 - n + i < 64 := by omega
    have hge : ¬ 64 - n + i < 64 - n := by omega
    have hsub : 64 - n + i - (64 - n) = i := by omega
    simp [hin, hi, hlt, hge, hsub]
  · have hge : ¬ 64 - n + i < 64 := by omega
    simp [hin, hi, hge]

/-- A mask of `n` bits, made by a power of 2 or by shifting ones to the right. -/
theorem ofNat_pow_sub_one (n : Nat) : BitVec.ofNat 64 (2 ^ n - 1) = BitVec.allOnes 64 >>> (64 - n) := by
  refine BitVec.eq_of_getLsbD_eq fun i hi => ?_
  rw [BitVec.getLsbD_ofNat, Nat.testBit_two_pow_sub_one, BitVec.getLsbD_ushiftRight, BitVec.getLsbD_allOnes]
  simp only [hi, decide_true, Bool.true_and, decide_eq_decide]
  omega

theorem bfiW_eq (a b : Word) (p n : Nat) : bfiW a b p n =
    let ones : Word := BitVec.allOnes 64 >>> (64 - n)
    (a &&& ~~~(ones <<< p)) ||| ((b &&& ones) <<< p) := by
  rw [bfiW, ofNat_pow_sub_one]

/-- A well-formed SBFX names a field of the register (02 R59, 05 R107). -/
theorem field_of_wf {f : SFmt} (h : (Instr.sbfx f).wf = true) :
    1 ≤ f.imm.toNat / 64 % 128 ∧ f.imm.toNat % 64 + f.imm.toNat / 64 % 128 ≤ 64 := by
  have hchk : checkS .scalar .scalar .none (f.imm.toNat < 8192 && 1 ≤ f.imm.toNat / 64 && f.imm.toNat % 64 + f.imm.toNat / 64 ≤ 64) f = none :=
    beq_iff_eq.mp h
  simp only [checkS, firstBroken] at hchk
  split at hchk
  · next hok =>
    simp only [Bool.and_eq_true, decide_eq_true_eq] at hok
    omega
  · cases hchk

/-! ## Scalar instructions with one result -/

/-- Each scalar instruction of the tables is one scalar operation with its value (05 R102 to R108). -/
theorem exec_scalar {s : State} {i : Instr} {f : SFmt} {lat words : Nat} {x : Word} (hwf : i.wf = true)
    (hi : scalarRule s i = some (f, lat, words, x)) : exec i s = .next (s.scalarOp f.sw f.sd.toNat lat words x) := by
  cases i with
  | sadd f | saddImm f | ssub f | ssubImm f | smul f | smulImm f | smulh f | smulhImm f | smulhU f | sand f | sandImm f | sor f | sorImm f
  | sxor f | sxorImm f | sshl f | sshlImm f | sshr f | sshrImm f | ssra f | ssraImm f | smov f | smovImm f | sldi f ext => cases hi; rfl
  | smin f | sminImm f => cases hi; rw [← sminW_eq]; rfl
  | smax f | smaxImm f => cases hi; rw [← smaxW_eq]; rfl
  | sminU f => cases hi; rw [← sminuW_eq]; rfl
  | smaxU f => cases hi; rw [← smaxuW_eq]; rfl
  | spopc f => cases hi; rw [← popc_eq_countP]; rfl
  | sclz f => cases hi; rw [← clzOf_eq]; rfl
  | scmp f => cases hi; rw [← condHolds_signed]; simp only [exec, execScmp, nbits, pow_zero, Nat.div_one]; rfl
  | scmpU f => cases hi; rw [← condHolds_unsigned]; simp only [exec, execScmpU, nbits, pow_zero, Nat.div_one]; rfl
  | ssel f =>
    cases hi
    simp only [exec, execSsel, nbits, pow_zero, Nat.div_one, ite_not]
    rfl
  | sbfx f =>
    cases hi
    obtain ⟨hn, hle⟩ := field_of_wf hwf
    rw [← bfxS_eq _ hn hle]
    simp only [exec, execSbfx, nbits, pow_zero, Nat.div_one]
    rfl
  | sbfxU f =>
    cases hi
    rw [← bfxU_eq]
    simp only [exec, execSbfxU, nbits, pow_zero, Nat.div_one]
    rfl
  | sbfi f =>
    cases hi
    simp only [exec, execSbfi, nbits, pow_zero, Nat.div_one, bfiW_eq]
    rfl
  | slea f =>
    cases hi
    simp only [exec, execSlea, nbits, pow_zero, Nat.div_one]
    rfl
  | _ => cases hi

/-- Settles O1: each instruction is one scalar operation with the value of its table. -/
theorem scalarResults : Obligations.ScalarResults := by
  intro s w p i f lat words x h hwf hi
  exact ⟨_, exec_scalar hwf hi, scalarOp_done h _ _ _ _ _⟩

/-! ## Divisions -/

/-- Each division keeps its warp slot's divider busy (05 R101, R104). -/
theorem exec_divide {s : State} {i : Instr} {f : SFmt} {q : Word} (hi : divideRule s i = some (f, q)) :
    exec i s = .next (s.divide f q) := by
  cases i with
  | sdiv f | sdivImm f => cases hi; rw [← sdivW_eq]; rfl
  | sdivU f => cases hi; rw [← sdivuW_eq]; rfl
  | _ => cases hi

/-- The entries of the other cores are as they were, and the divider of the warp's slot is busy for 34 clk. -/
theorem divide_core (s : State) (f : SFmt) (q : Word) (hcores : (s.scalarOp f.sw f.sd.toNat 34 1 q).cores = s.cores) (ck : Nat) :
    (s.divide f q).core ck = if ck = s.curBlock.ck
      then { s.core ck with divs := kput (s.core ck).divs s.curWarp.slotNo (s.clk + 34) } else s.core ck := by
  simp only [State.divide, State.core, kgetD, modCore_cores, kget?_kput, hcores]
  split
  · next he => subst he; rfl
  · rfl

/-- Settles O6: a division is a scalar operation of 34 clk, and then the divider is marked. -/
theorem scalarDivide : Obligations.ScalarDivide := by
  intro s w p i f q h hi
  have hdone := scalarOp_done h f.sw f.sd.toNat 34 1 q
  have ⟨⟨hframe, _⟩, _⟩ := hdone
  have hcores : (s.scalarOp f.sw f.sd.toNat 34 1 q).cores = s.cores := by rw [hframe]
  have hslot : w.slotNo = s.curWarp.slotNo := by rw [issuer_curWarp h]
  have hstate : { s.divide f q with cores := s.cores } = s.scalarOp f.sw f.sd.toNat 34 1 q := by
    rw [State.divide, State.modCore, hframe]
  refine ⟨_, exec_divide hi, hstate ▸ hdone, ?_, fun ck hck => ?_, ?_⟩
  · rw [divide_core s f q hcores, if_pos rfl, hslot]
    simp [kgetD]
  · rw [divide_core s f q hcores, if_neg hck]
  · rw [divide_core s f q hcores, if_pos rfl]

end Sys2Proof.Laws.Scalars

namespace Sys2Proof.Laws.Sequence

/-! # Instructions that go on at PC + 1 (05 R116, R117, R120, R124, 08 R232, R233) -/

open Sys2Proof.Machine Sys2Proof.Safety Sys2Proof.Rules

/-- BRC is taken where its condition holds of the register (02 R49, 05 R116). -/
theorem transferRule_brc (s : State) (p : Split) (f : JFmt) : transferRule s p (.brc f)
    = if ccHolds f.cc.toNat (s.rdS f.reg.toNat) then some (0, 4, fun _ => (p.pc + f.bofs.signExtend 48, false)) else none := by
  simp only [transferRule]
  generalize s.rdS f.reg.toNat = x
  congr 2
  rw [Bool.eq_iff_iff]
  unfold ccHolds
  split <;> simp [BitVec.slt_eq_decide]

/-- An instruction that goes on in sequence retires alone. -/
theorem exec_sequence {s : State} {w : Warp} {p : Split} (h : Issuer s w p) {i : Instr} {sw : Bool} (hi : sequenceRule s p i = some sw) :
    ∃ lat, exec i s = .next (s.retire sw lat 1) := by
  have hp := issuer_curSplit h
  cases i with
  | nop f => cases hi; exact ⟨1, rfl⟩
  | brc f =>
    obtain ⟨hnone, hsw⟩ := Option.ite_none_right_eq_some.mp hi
    cases hsw
    rw [transferRule_brc] at hnone
    have hc : ccHolds f.cc.toNat (s.rdS f.reg.toNat) = false := by
      rw [Bool.eq_false_iff]
      intro hc
      simp [hc] at hnone
    refine ⟨1, ?_⟩
    show execBrc f s = _
    simp only [execBrc, hc, Bool.false_eq_true, if_false]
  | brx f =>
    obtain ⟨hnone, hsw⟩ := Option.ite_none_right_eq_some.mp hi
    cases hsw
    have hz : p.lmask &&& s.rdM f.reg.toNat = 0 := by simpa [transferRule] using hnone
    refine ⟨1, ?_⟩
    show execBrx f s = _
    simp only [execBrx, hp, hz, if_true]
  | join f =>
    obtain ⟨hout, hsw⟩ := Option.ite_none_right_eq_some.mp hi
    cases hsw
    refine ⟨1, ?_⟩
    show s.joinOp f _ = _
    simp only [State.joinOp, hp, hout, if_true]
  | joinBnd f =>
    obtain ⟨hout, hsw⟩ := Option.ite_none_right_eq_some.mp hi
    cases hsw
    refine ⟨1, ?_⟩
    show s.joinOp f _ = _
    simp only [State.joinOp, hp, hout, if_true]
  | bkpt f =>
    obtain ⟨hdebug, hsw⟩ := Option.ite_none_left_eq_some.mp hi
    cases hsw
    exact ⟨2, if_neg hdebug⟩
  | ckpt f =>
    obtain ⟨hquiet, hsw⟩ := Option.ite_none_right_eq_some.mp hi
    cases hsw
    refine ⟨2, ?_⟩
    show execCkpt f s = _
    simp only [execCkpt, hquiet, if_true]
  | _ => cases hi

/-- Settles O8: each instruction retires alone, which changes its split and the results that its span has ended with. -/
theorem goesOnInSequence : Obligations.GoesOnInSequence := by
  intro s w p i sw h hi
  obtain ⟨lat, hexec⟩ := exec_sequence h hi
  obtain ⟨ids, g, hret, hregs, hothers, hproc, -⟩ := retire_proceeds h sw lat 1
  refine ⟨issued s ids 1 g, g w, by rw [hexec, hret], issued_only s ids 1 g, ?_, hregs, hothers, hproc⟩
  rw [issued_warp, h.1]
  rfl

end Sys2Proof.Laws.Sequence

namespace Sys2Proof.Laws.Masks

/-! # Masks, special registers and counters (01 R29, 05 R109, R110, R126 to R129, 07 R207) -/

open Sys2Proof.Machine Sys2Proof.Safety Sys2Proof.Rules

/-! ## A result and the advance of its instruction -/

/-- A warp in which a result of the split's span is to come keeps the split waiting. -/
theorem outstanding_of_newResult {s : State} {w w1 : Warp} {p : Split} (h : Issuer s w p) {d : Dest} {lat k : Nat} {lanes : Lanes}
    {vals : KMap Lane} {x : Word} (hr : kget? w1.results k = some (newResult s w p d lat lanes vals x false)) (q : Split)
    (hspan : q.span = p.span) (hlanes : q.lmask = p.lmask) (hlen : q.len ≠ 0) : w1.outstanding q = true := by
  obtain ⟨-, -, -, hm⟩ := h
  exact outstanding_of_result hr hlen (newResult_waits hspan hlanes hm)

/-- An instruction that enters one result and goes on: nothing else changes. -/
theorem addResult_retire {s : State} {w : Warp} {p : Split} (h : Issuer s w p) (d : Dest) (lat : Nat) (lanes : Lanes) (vals : KMap Lane)
    (x : Word) (sw : Bool) (words : Nat) :
    (s.addResult d lat lanes vals x false).retire sw lat words
      = issued s 1 1 fun u => onward s.cur.2 (goneOn s sw lat words) (enter s.nextId (newResult s w p d lat lanes vals x false) u) := by
  have hi := issued_issuer h 1 0 (f := enter s.nextId (newResult s w p d lat lanes vals x false)) rfl
  rw [addResult_eq h, retire_waiting hi sw lat words fun q h1 h2 h3 =>
    outstanding_of_newResult h (kget?_kput_self _ _ _) q h1 h2 h3, issued_issued]
  rfl

/-- What a mask instruction leaves (05 R126). -/
theorem maskOp_done {s : State} {w : Warp} {p : Split} (h : Issuer s w p) (sw : Bool) (md : Nat) (x : Lanes) :
    MaskDone s (s.maskOp sw md x) w p sw md x := by
  have hi := issued_issuer h 1 0 (f := enter s.nextId (newResult s w p (.msk md) 2 p.lmask [] (x.setWidth 64) false)) rfl
  rw [State.maskOp, State.putM, issuer_curSplit h, addResult_retire h]
  refine ⟨issued_only s _ _ _, onward s.cur.2 (goneOn s sw 2 1) (enter s.nextId _ w), ?_, rfl, fun k hk => ?_, goneOn_goesOn hi sw 2 1,
    ⟨_, ⟨kget?_kput_self _ _ _, rfl, rfl, rfl, rfl, rfl⟩, rfl, rfl⟩, fun k hk => kget?_kput_ne _ _ hk⟩
  · rw [issued_warp, h.1]; rfl
  · exact kget?_kmod_ne _ _ hk

/-- Each mask instruction of the tables is one mask operation with its value (05 R127). -/
theorem exec_mask {s : State} {i : Instr} {f : SFmt} {x : Lanes} (hi : maskRule s i = some (f, x)) :
    exec i s = .next (s.maskOp f.sw f.sd.toNat x) := by
  cases i with
  | mand f | mor f | mxor f | mnot f | mmov f => cases hi; rfl
  | mrest f =>
    have hcast : (s.rdS f.sa.toNat).setWidth 32 = (s.rdS f.sa.toNat).extractLsb' 0 32 := by ext; simp
    cases hi
    rw [← hcast]
    rfl
  | _ => cases hi

/-- The mask that narrows m0: `M[SA]`, which by then holds the old mask where SA is SD and SD is not 0 (05 R128). -/
theorem exec_msetem (s : State) (f : SFmt) : exec (.msetem f) s
    = .next ((if f.sd = 0 then s else s.putM f.sd.toNat 2 (s.rdM 0)).maskOp f.sw 0
        (s.rdM 0 &&& if f.sd ≠ 0 ∧ f.sa = f.sd then s.rdM 0 else s.rdM f.sa.toNat)) := by
  have hnarrow : (if f.sd = 0 ∨ f.sa ≠ f.sd then s.rdM f.sa.toNat else s.rdM 0)
      = if f.sd ≠ 0 ∧ f.sa = f.sd then s.rdM 0 else s.rdM f.sa.toNat := by
    rw [← ite_not]
    exact if_congr (by tauto) rfl rfl
  rw [← hnarrow]
  rfl

/-- MSETEM without a register for the old mask is one mask operation; with one, it enters the old mask first (05 R128). -/
theorem msetem_done {s : State} {w : Warp} {p : Split} (h : Issuer s w p) (f : SFmt) (x : Lanes) :
    ∃ t w', (if f.sd = 0 then s else s.putM f.sd.toNat 2 (s.rdM 0)).maskOp f.sw 0 x = t ∧ OnlyIssuer s t ∧ t.warp? s.cur.1 = some w'
      ∧ RegsKept w w' ∧ OthersKept w w' s.cur.2 ∧ GoesOn w' s.cur.2 p f.sw 1
      ∧ (∃ k r, Due s w' k 2 (.msk 0) r ∧ r.lanes = p.lmask ∧ r.sval = x.setWidth 64)
      ∧ (f.sd ≠ 0 → ∃ k r, Due s w' k 2 (.msk f.sd.toNat) r ∧ r.lanes = p.lmask ∧ r.sval = (s.rdM 0).setWidth 64) := by
  by_cases hsd : f.sd = 0
  · rw [if_pos hsd]
    obtain ⟨honly, w', hw', hregs, hothers, hgoes, hdue, -⟩ := maskOp_done h f.sw 0 x
    exact ⟨_, w', rfl, honly, hw', hregs, hothers, hgoes, ⟨_, hdue⟩, fun hne => absurd hsd hne⟩
  · rw [if_neg hsd, State.putM, issuer_curSplit h, addResult_eq h]
    generalize hold : newResult s w p (.msk f.sd.toNat) 2 p.lmask [] ((s.rdM 0).setWidth 64) false = old
    have hi := issued_issuer h 1 0 (f := enter s.nextId old) rfl
    obtain ⟨⟨hframe, hwarps⟩, w', hw', hregs, hothers, hgoes, ⟨r, hdue, hr⟩, hres⟩ := maskOp_done hi f.sw 0 x
    have hkept : kget? w'.results s.nextId = some old := (hres s.nextId (by simp)).trans (kget?_kput_self _ _ _)
    refine ⟨_, w', rfl, ⟨?_, fun k hk => ?_⟩, hw', ?_, hothers, hgoes, ⟨_, r, hdue, hr⟩, fun _ => ⟨s.nextId, old, ?_⟩⟩
    · rw [hframe]; rfl
    · exact (hwarps k hk).trans (kget?_kmod_ne s.warps _ hk)
    · rw [RegsKept, hregs]; rfl
    · subst hold
      exact ⟨⟨hkept, rfl, rfl, rfl, rfl, rfl⟩, rfl, rfl⟩

/-- Settles O28: one mask operation each; MSETEM two. -/
theorem maskResults : Obligations.MaskResults := by
  refine ⟨fun s w p i f x h hi => ⟨_, exec_mask hi, maskOp_done h f.sw f.sd.toNat x⟩, fun s w p f h => ?_⟩
  obtain ⟨t, w', ht, hdone⟩ := msetem_done h f (s.rdM 0 &&& if f.sd ≠ 0 ∧ f.sa = f.sd then s.rdM 0 else s.rdM f.sa.toNat)
  exact ⟨t, w', by rw [exec_msetem, ht], hdone⟩

/-! ## Reads of masks, splits and counters -/

/-- The lanes of the splits that satisfy a condition are those of the splits kept by it. -/
theorem lanesWhere_eq_filter (w : Warp) (c : Nat × Split → Bool) :
    (w.table.filter c).foldl (fun a q => a ||| q.2.lmask) 0 = w.table.foldl (fun a q => if c q then a ||| q.2.lmask else a) (0 : Lanes) :=
  List.foldl_filter

/-- Each read of the tables is one scalar operation with its value (05 R127, R129, 07 R207). -/
theorem exec_read {s : State} {w : Warp} {p : Split} (h : Issuer s w p) {i : Instr} {sw : Bool} {sd lat : Nat} {x : Word}
    (hi : readRule s w p i = some (sw, sd, lat, x)) : exec i s = .next (s.scalarOp sw sd lat 1 x) := by
  have hw := issuer_curWarp h
  have hp := issuer_curSplit h
  cases i with
  | mpopc f => cases hi; rw [← hp, ← Scalars.popc_eq_countP]; rfl
  | mffs f => cases hi; rw [← hp]; rfl
  | msave f | crd f => cases hi; rfl
  | splitq f =>
    cases hi
    show execSplitq f s = _
    simp only [execSplitq, hw, hp, Warp.groupOf, lanesWhere_eq_filter, Warp.liveLanes, lanesWhere, if_true]
  | _ => cases hi

/-! ## SRD and SWR -/

/-- The sum of a word's fields, one field taken off. -/
theorem sum_fields_cons (a lo x : Nat) (l : List (Nat × Nat)) :
    ((lo, x) :: l).foldl (fun a q => a + q.2 * 2 ^ q.1) a = l.foldl (fun a q => a + q.2 * 2 ^ q.1) (a + 2 ^ lo * x) := by
  rw [Nat.mul_comm, Releases.sum_fields_cons]

/-- A special register is made of its fields (01 R29). -/
theorem special_eq {s : State} {w : Warp} {p : Split} (h : Issuer s w p) (n : Nat) : s.special n = specialRule s w p n := by
  unfold State.special specialRule
  dsimp only
  rw [issuer_curWarp h, issuer_curSplit h]
  split <;> simp only [fieldsOf, sum_fields_cons, List.foldl_nil, Nat.zero_add, pow_zero, Nat.one_mul, dieX, dieY]

theorem exec_srd_special {s : State} {w : Warp} {p : Split} (h : Issuer s w p) (f : SFmt) (hn : f.imm.toNat % 16 ≠ 0) :
    exec (.srd f) s = .next (s.scalarOp f.sw f.sd.toNat 2 1 (specialRule s w p (f.imm.toNat % 16))) := by
  show execSrd f s = _
  simp only [execSrd, nbits, pow_zero, Nat.div_one, special_eq h]
  exact if_neg hn

theorem exec_srd_lane {s : State} {w : Warp} {p : Split} (h : Issuer s w p) (f : SFmt) (hn : f.imm.toNat % 16 = 0) :
    exec (.srd f) s =
      if w.budget ≤ f.imm.toNat / 16 % 256 then
        .next (s.raise 1 0x02 (BitVec.ofNat 64 (f.imm.toNat / 16 % 256 + 2 ^ 8 * (w.budget / 8))))
      else .next ((s.putV (f.imm.toNat / 16 % 256) 4 (s.effective 0)
        ((lanesOf (s.effective 0)).map fun l => (l, BitVec.ofNat 32 l)) 2).retire f.sw 4 1) := by
  show execSrd f s = _
  simp only [execSrd, nbits, pow_zero, Nat.div_one, issuer_curWarp h]
  exact if_pos hn

/-- A list of lanes with a value each gives a lane of the list its value. -/
theorem kget?_lanes {β : Type} (g : Nat → β) {m : Lanes} {l : Nat} (h : m.getLsbD l = true) :
    kget? ((lanesOf m).map fun l => (l, g l)) l = some (g l) := by
  obtain ⟨x, hx⟩ := Option.isSome_iff_exists.mp (lanes_valued m g l h)
  obtain ⟨k, -, hk⟩ := List.mem_map.mp (Results.kget?_mem hx)
  cases hk
  exact hx

/-- A vector result that an instruction enters: the split goes on, and registers stay but for the tag (05 R109, 01 R22). -/
theorem putV_retire_done {s : State} {w : Warp} {p : Split} (h : Issuer s w p) (sw : Bool) (vd lat : Nat) (m : Lanes) {vals : KMap Lane}
    (hv : Valued m vals) (t : BitVec 4) :
    ∃ u w' q, (s.putV vd lat m vals t).retire sw lat 1 = u ∧ OnlyIssuer s u ∧ u.warp? s.cur.1 = some w' ∧ RegsKeptButTags w w'
      ∧ OthersKept w w' s.cur.2 ∧ GoesOn w' s.cur.2 p sw 1 ∧ Due s w' s.nextId lat (.vec vd) q ∧ q.lanes = m ∧ q.vals = vals
      ∧ TagSet s w w' vd t ∧ TagsKept w w' [vd] := by
  obtain ⟨g, hstate, htable, hregs, -, htag, htags, hresults, -⟩ := putV_eff h vd lat m vals t hv
  have hi := issued_issuer h 1 0 htable
  have hentry : kget? (g w).results s.nextId = some (newResult s w p (.vec vd) lat m vals 0 false) := by
    rw [hresults, kget?_kput_self]
  rw [hstate, retire_waiting hi sw lat 1 (outstanding_of_newResult h hentry), issued_issued]
  refine ⟨_, onward s.cur.2 (goneOn s sw lat 1) (g w), _, rfl, issued_only s _ _ _, ?_, ?_, fun k hk => ?_, goneOn_goesOn hi sw lat 1,
    ⟨hentry, rfl, rfl, rfl, rfl, rfl⟩, rfl, rfl, htag, htags⟩
  · rw [issued_warp, h.1]; rfl
  · exact regsKeptButTags_trans hregs rfl
  · exact (kget?_kmod_ne _ _ hk).trans (by rw [htable])

/-- SWR sets SEED at issue and goes on (05 R110). -/
theorem swr_done {s : State} {w : Warp} {p : Split} (h : Issuer s w p) (f : SFmt) :
    ∃ t w', exec (.swr f) s = .next t ∧ OnlyIssuer s t ∧ t.warp? s.cur.1 = some w'
      ∧ w' = { w with seed := s.rdS f.sa.toNat, table := w'.table, results := w'.results }
      ∧ OthersKept w w' s.cur.2 ∧ Proceeds w' s.cur.2 p f.sw 1 := by
  let seeded : Warp → Warp := fun w => { w with seed := s.rdS f.sa.toNat }
  have hi : Issuer (issued s 0 0 seeded) (seeded w) p := issued_issuer h 0 0 rfl
  obtain ⟨ids, g, hret, hregs, hothers, hproc, -⟩ := retire_proceeds hi f.sw 2 1
  have hstate : (issued s 0 0 seeded).retire f.sw 2 1 = issued s (0 + ids) (0 + 1) fun u => g (seeded u) := by
    rw [hret, issued_issued]
  refine ⟨_, g (seeded w), congrArg Host.Outcome.next hstate, issued_only s _ _ _, ?_, ?_, hothers, hproc⟩
  · rw [issued_warp, h.1]; rfl
  · rw [hregs]

/-- Settles O29: reads are one scalar operation each; SRD of LANE enters a vector result or faults; SWR sets SEED. -/
theorem readResults : Obligations.ReadResults := by
  refine ⟨fun s w p i sw sd lat x h hi => ⟨_, exec_read h hi, scalarOp_done h sw sd lat 1 x⟩,
    fun s w p f h hn => ⟨_, exec_srd_special h f hn, scalarOp_done h _ _ _ _ _⟩, fun s w p f h hn => ⟨fun hvd => ?_, fun hvd => ?_⟩,
    fun s w p f h => swr_done h f⟩
  · obtain ⟨u, w', q, hu, honly, hw', hregs, hothers, hgoes, hdue, hlanes, hvals, htag, htags⟩ :=
      putV_retire_done h f.sw (f.imm.toNat / 16 % 256) 4 (s.effective 0) (fun l hl => lanes_valued _ (BitVec.ofNat 32) l hl) 2
    refine ⟨u, w', q, ?_, honly, hw', hregs, hothers, hgoes, hdue, hlanes, fun l hl => hvals ▸ kget?_lanes (BitVec.ofNat 32) hl, htag, htags⟩
    rw [exec_srd_lane h f hn, if_neg (Nat.not_le.mpr hvd), hu]
  · exact ⟨_, (exec_srd_lane h f hn).trans (if_pos hvd), Transfers.raise_takes h 1 _ _⟩

end Sys2Proof.Laws.Masks

namespace Sys2Proof.Laws.Divisions

/-! # Divisions: an issuer outside the slots (05 R115, 01 R33) -/

open Sys2Proof.Machine Sys2Proof.Safety Sys2Proof.Rules

/-- A resident warp whose one split is READY in the first overflow entry, where 01 R33 keeps DORMANT splits alone, and issues from it. M[2]
holds lane 0 alone, and so BRX by it divides the split into lane 0 and the rest. -/
def readyInOverflow : State :=
  { (State.reset.withWarp 0 0).modWarp 0 fun w => { w with m := kput w.m 2 1, table := w.table.map fun q => (8, q.2) } with cur := (0, 8) }

theorem readyInOverflow_issuer : Issuer readyInOverflow readyInOverflow.curWarp readyInOverflow.curSplit := ⟨rfl, rfl, rfl, by decide +kernel⟩

/-- BRX by M[2] with the target PC + 5 and no join group of its own. -/
def branchLaneZero : JFmt := ⟨false, 5, 0, 2, 0⟩

/-- BRX divides that split, and leaves lane 0 READY in the overflow entry of its parent. -/
theorem readyInOverflow_divides : ∃ t, exec (.brx branchLaneZero) readyInOverflow = .next t
    ∧ (t.split? 0 8).map (·.st) = some .ready :=
  ⟨_, rfl, by decide +kernel⟩

/-- Refutes O34: a part of a division that stays where its parent was is DORMANT in the overflow area, as the second clause asks, only if the
parent issued from a slot below 8, which `Issuer` does not say. In `readyInOverflow`, which no run from reset makes, the part of the lowest lane
takes entry 8 and is READY. -/
theorem not_transfersMove : ¬ Obligations.TransfersMove := by
  intro h
  obtain ⟨-, hdivides, -⟩ := h
  have hpair : PairPasses readyInOverflow readyInOverflow.curWarp (.brx branchLaneZero) := fun _ _ hr => by cases hr
  obtain ⟨t, w', hexec, -, hw', -, -, hparts⟩ := hdivides readyInOverflow _ _ (.brx branchLaneZero) 0 4 _ 0 1 readyInOverflow_issuer rfl hpair
    (by decide +kernel) (by decide +kernel) (by decide +kernel) (fun h => absurd rfl h) (by decide +kernel) (fun h => absurd rfl h)
  obtain ⟨k, q, hq, -, -, -, -, -, hdormant, hplace⟩ := hparts 0 (by decide +kernel)
  obtain rfl : k = 8 := hplace (by decide +kernel)
  obtain ⟨u, hu, hready⟩ := readyInOverflow_divides
  obtain rfl : t = u := by rw [hexec] at hu; cases hu; rfl
  have hst : (t.split? 0 8).map (·.st) = some q.st := by
    have : t.warp? 0 = some w' := hw'
    simp [State.split?, this, hq]
  rw [(hdormant le_rfl).1, hready] at hst
  cases hst

end Sys2Proof.Laws.Divisions

namespace Sys2Proof.Laws.Splits

/-! # Splits merge, move and park (05 R120, R121, R130, 07 R179, 09 R239, R246, R247) -/

open Sys2Proof.Machine Sys2Proof.Safety Sys2Proof.Rules

/-! ## A state with one warp replaced -/

/-- The state with another warp at `wid`, and the model's counters advanced. -/
def replaced (s : State) (wid n f : Nat) (w : Warp) : State :=
  { s with warps := kmod s.warps wid fun _ => w, nextId := n, free := f }

section
variable {s : State} {wid : Nat} {w : Warp}

@[simp] theorem replaced_replaced (n f n' f' : Nat) (w' v : Warp) :
    replaced (replaced s wid n f w') wid n' f' v = replaced s wid n' f' v := by
  simp only [replaced, kmod_kmod]

@[simp] theorem replaced_clk (n f : Nat) (v : Warp) : (replaced s wid n f v).clk = s.clk := rfl
@[simp] theorem replaced_cur (n f : Nat) (v : Warp) : (replaced s wid n f v).cur = s.cur := rfl
@[simp] theorem replaced_nextId (n f : Nat) (v : Warp) : (replaced s wid n f v).nextId = n := rfl
@[simp] theorem replaced_free (n f : Nat) (v : Warp) : (replaced s wid n f v).free = f := rfl

theorem replaced_warp?_ne (n f : Nat) (v : Warp) {k : Nat} (hk : k ≠ wid) : (replaced s wid n f v).warp? k = s.warp? k :=
  kget?_kmod_ne _ _ hk

variable (h : s.warp? wid = some w)
include h

theorem replaced_warp? (n f : Nat) (v : Warp) : (replaced s wid n f v).warp? wid = some v := by
  have hw : kget? s.warps wid = some w := h
  simp [replaced, State.warp?, hw]

theorem eq_replaced : s = replaced s wid s.nextId s.free w := by
  have hw : kget? s.warps wid = some w := h
  simp only [replaced, kmod_congr s.warps wid hw (f := fun _ => w) (g := fun x => x) rfl, kmod_id]

theorem modWarp_eq (g : Warp → Warp) : s.modWarp wid g = replaced s wid s.nextId s.free (g w) := by
  simp only [State.modWarp, replaced, kmod_congr s.warps wid h (f := g) (g := fun _ => g w) rfl]

theorem modSplit_eq (slot : Nat) (g : Split → Split) :
    s.modSplit wid slot g = replaced s wid s.nextId s.free { w with table := kmod w.table slot g } := modWarp_eq h _

theorem split?_eq (slot : Nat) : s.split? wid slot = kget? w.table slot := by simp [State.split?, h]

end

theorem replaced_only (s : State) (wid n f : Nat) (w : Warp) : OnlyWarp s (replaced s wid n f w) wid :=
  ⟨rfl, fun _ hk => replaced_warp?_ne n f w hk⟩

/-! ## What a wait, its end and the end of a span do to the split -/

/-- The split with a new span (09 R238). -/
def fresh (n nb : Nat) (p : Split) : Split :=
  { p.setEff .ready with span := n, len := 0, after := .none, rdy := 0, notBefore := nb, fault := none }

/-- The split past the instruction that it waited at (09 R245). -/
def woken (n nb : Nat) (p : Split) : Split := { fresh n nb p with pc := (fresh n nb p).pc + 1, wobj := 0, waux := 0 }

/-- The split in a wait state (09 R250). -/
def waiting (n : Nat) (halt : Bool) (x : SplitState) (wobj : Word) (waux : Lane) (p : Split) : Split :=
  { p.setEff x with wobj := wobj, waux := waux, arr := n, halted := p.halted || halt }

@[simp] theorem setEff_eff (p : Split) {x : SplitState} (hx : x ≠ .dormant) : (p.setEff x).eff = x := by
  unfold Split.setEff Split.eff
  by_cases hd : p.st = .dormant <;> simp [hd, hx]

theorem setEff_of_resident {p : Split} (x : SplitState) (hp : p.st ≠ .dormant) : p.setEff x = { p with st := x } := if_neg hp

/-- Setting the state touches nothing else of the split. -/
theorem setEff_fields (p : Split) (x : SplitState) : p.setEff x = { p with st := (p.setEff x).st, held := (p.setEff x).held } := by
  unfold Split.setEff
  split <;> rfl

@[simp] theorem setEff_pc (p : Split) (x : SplitState) : (p.setEff x).pc = p.pc := by rw [setEff_fields]
@[simp] theorem setEff_lmask (p : Split) (x : SplitState) : (p.setEff x).lmask = p.lmask := by rw [setEff_fields]
@[simp] theorem setEff_jgrp (p : Split) (x : SplitState) : (p.setEff x).jgrp = p.jgrp := by rw [setEff_fields]
@[simp] theorem setEff_jpc (p : Split) (x : SplitState) : (p.setEff x).jpc = p.jpc := by rw [setEff_fields]
@[simp] theorem setEff_wobj (p : Split) (x : SplitState) : (p.setEff x).wobj = p.wobj := by rw [setEff_fields]
@[simp] theorem setEff_waux (p : Split) (x : SplitState) : (p.setEff x).waux = p.waux := by rw [setEff_fields]

theorem fresh_eff (n nb : Nat) (p : Split) : (fresh n nb p).eff = .ready := setEff_eff p (by decide)

theorem woken_eff (n nb : Nat) (p : Split) : (woken n nb p).eff = .ready := fresh_eff n nb p

@[simp] theorem woken_pc (n nb : Nat) (p : Split) : (woken n nb p).pc = p.pc + 1 := congrArg (· + 1) (setEff_pc p .ready)
@[simp] theorem woken_lmask (n nb : Nat) (p : Split) : (woken n nb p).lmask = p.lmask := setEff_lmask p .ready
@[simp] theorem woken_jgrp (n nb : Nat) (p : Split) : (woken n nb p).jgrp = p.jgrp := setEff_jgrp p .ready
@[simp] theorem woken_jpc (n nb : Nat) (p : Split) : (woken n nb p).jpc = p.jpc := setEff_jpc p .ready

@[simp] theorem woken_wobj (n nb : Nat) (p : Split) : (woken n nb p).wobj = 0 := rfl
@[simp] theorem woken_waux (n nb : Nat) (p : Split) : (woken n nb p).waux = 0 := rfl

theorem waiting_eff (n : Nat) (halt : Bool) {x : SplitState} (hx : x ≠ .dormant) (wobj : Word) (waux : Lane) (p : Split) :
    (waiting n halt x wobj waux p).eff = x := setEff_eff p hx

section
variable {s : State} {wid : Nat} {w : Warp} (h : s.warp? wid = some w)
include h

theorem freshReady_eq (slot nb : Nat) : s.freshReady wid slot nb
    = replaced s wid (s.nextId + 1) s.free { w with table := kmod w.table slot (fresh s.nextId nb) } :=
  modWarp_eq (s := { s with nextId := s.nextId + 1 }) h _

theorem enterWait_eq (slot : Nat) (x : SplitState) (wobj : Word) (waux : Lane) : s.enterWait wid slot x wobj waux
    = replaced s wid (s.nextId + 1) s.free
        { w with whole := w.whole || w.haltH != 0
                 table := kmod w.table slot (waiting s.nextId (w.haltH != 0) x wobj waux) } :=
  modWarp_eq (s := { s with nextId := s.nextId + 1 }) h _

theorem wake_eq (slot nb : Nat) : s.wake wid slot nb = replaced s wid (s.nextId + 1) s.free
    { w with table := kmod w.table slot (woken s.nextId nb) } := by
  rw [State.wake, freshReady_eq h, modSplit_eq (replaced_warp? h _ _ _), replaced_replaced, kmod_kmod]
  rfl

end

/-! ## Tables in ascending order of key -/

section
variable {α : Type}

/-- The table in ascending order of key. -/
abbrev Ascending (m : KMap α) : Prop := m.Pairwise fun a b => a.1 < b.1

theorem Ascending.unique {m : KMap α} (hm : Ascending m) : Unique m :=
  List.pairwise_map.mpr (hm.imp fun h => Nat.ne_of_lt h)

theorem ascending_iff_keys (m : KMap α) : Ascending m ↔ (m.map Prod.fst).Pairwise (· < ·) := List.pairwise_map.symm

theorem kdel_sublist (m : KMap α) (k : Nat) : (kdel m k).Sublist m := by
  induction m with
  | nil => exact .slnil
  | cons a r ih =>
    unfold kdel
    split
    · exact List.sublist_cons_self _ _
    · exact ih.cons_cons _

theorem kmod_keys (m : KMap α) (k : Nat) (g : α → α) : (kmod m k g).map Prod.fst = m.map Prod.fst := by
  induction m with
  | nil => rfl
  | cons a r ih =>
    unfold kmod
    split <;> simp [ih]

theorem mem_kput {m : KMap α} {i : Nat} {x : α} {q : Nat × α} (h : q ∈ kput m i x) : q = (i, x) ∨ q ∈ m := by
  induction m with
  | nil => exact .inl (List.mem_singleton.mp h)
  | cons a r ih =>
    unfold kput at h
    split at h
    · exact List.mem_cons.mp h
    · split at h
      · exact (List.mem_cons.mp h).imp_right (List.mem_cons_of_mem _)
      · rcases List.mem_cons.mp h with rfl | h
        · exact .inr List.mem_cons_self
        · exact (ih h).imp_right (List.mem_cons_of_mem _)

theorem ascending_kmod {m : KMap α} (hm : Ascending m) (k : Nat) (g : α → α) : Ascending (kmod m k g) := by
  rw [ascending_iff_keys, kmod_keys, ← ascending_iff_keys]
  exact hm

theorem ascending_kput {m : KMap α} (hm : Ascending m) (i : Nat) (x : α) : Ascending (kput m i x) := by
  induction m with
  | nil => exact List.pairwise_singleton _ _
  | cons a r ih =>
    obtain ⟨ha, hr⟩ := List.pairwise_cons.mp hm
    unfold kput
    split
    · next hlt => exact List.pairwise_cons.mpr ⟨fun q hq => by
        rcases List.mem_cons.mp hq with rfl | hq
        · exact hlt
        · exact Nat.lt_trans hlt (ha q hq), hm⟩
    · split
      · next heq => exact List.pairwise_cons.mpr ⟨fun q hq => heq ▸ ha q hq, hr⟩
      · refine List.pairwise_cons.mpr ⟨fun q hq => ?_, ih hr⟩
        rcases mem_kput hq with rfl | hq
        · show a.1 < i
          omega
        · exact ha q hq

/-- Removing a list of keys removes those and keeps the rest. -/
theorem kget?_kdels {m : KMap α} (hm : Unique m) (l : List (Nat × α)) (k : Nat) :
    kget? (l.foldl (fun m q => kdel m q.1) m) k = if k ∈ l.map Prod.fst then none else kget? m k := by
  induction l generalizing m with
  | nil => simp
  | cons a r ih =>
    have hdel : Unique (kdel m a.1) := hm.sublist ((kdel_sublist m a.1).map _)
    rw [List.foldl_cons, ih hdel]
    by_cases hk : k = a.1
    · simp [hk, Transfers.kget?_kdel_self hm]
    · simp only [List.map_cons, List.mem_cons, hk, false_or, kget?_kdel_ne m hk]

theorem kdels_sublist (m : KMap α) (l : List (Nat × α)) : (l.foldl (fun m q => kdel m q.1) m).Sublist m := by
  induction l generalizing m with
  | nil => exact List.Sublist.refl _
  | cons a r ih => exact (ih _).trans (kdel_sublist m a.1)

end

/-! ## Merging (05 R120, R130) -/

/-- The lanes of a list of splits. -/
abbrev lanesOfAll (l : List (Nat × Split)) : Lanes := l.foldl (fun a x => a ||| x.2.lmask) 0

/-- The splits of `l` are one split, at the entry of the first: it has the lanes of all and goes on at `pc`, in a join group, from clk `nb` on. -/
structure Merged (w w' : Warp) (l : List (Nat × Split)) (pc : BitVec 48) (jgrp : BitVec 5) (jpc : BitVec 48) (nb k : Nat) (p q : Split) : Prop where
  warp   : w' = { w with table := w'.table }
  order  : Ascending w'.table
  first  : (k, p) ∈ l
  lowest : ∀ x ∈ l, k ≤ x.1
  entry  : kget? w'.table k = some q
  gone   : ∀ x ∈ l, x.1 ≠ k → kget? w'.table x.1 = none
  lanes  : q.lmask = lanesOfAll l
  pc     : q.pc = pc
  jgrp   : q.jgrp = jgrp
  jpc    : q.jpc = jpc
  wobj   : q.wobj = 0
  waux   : q.waux = 0
  eff    : q.eff = .ready
  place  : p.st ≠ .dormant → q.st = .ready
  start  : q.notBefore = nb

/-- The splits of a list as one, in the place of `p`. -/
def united (l : List (Nat × Split)) (p : Split) (pc : BitVec 48) (jgrp : BitVec 5) (jpc : BitVec 48) : Split :=
  { p with
    lmask := lanesOfAll l, age := ((oldestOf l).map fun q => q.2.age).getD p.age, pc := pc, jgrp := jgrp, jpc := jpc, wobj := 0, waux := 0
    halted := l.all fun q => q.2.halted }

theorem mergeAt_eq {s : State} {wid : Nat} {w : Warp} (h : s.warp? wid = some w) (k : Nat) (p : Split) (r : List (Nat × Split)) (pc : BitVec 48)
    (jgrp : BitVec 5) (jpc : BitVec 48) (nb : Nat) : s.mergeAt wid ((k, p) :: r) pc jgrp jpc nb = replaced s wid (s.nextId + 1) s.free
      { w with table := kmod (kput (r.foldl (fun m q => kdel m q.1) w.table) k (united ((k, p) :: r) p pc jgrp jpc)) k (fresh s.nextId nb) } := by
  simp only [State.mergeAt]
  rw [modWarp_eq h, freshReady_eq (replaced_warp? h _ _ _)]
  simp only [replaced_replaced, replaced_nextId, replaced_free]
  rfl

/-- Merging splits that a condition chooses from the table. -/
theorem mergeAt_merges {s : State} {wid : Nat} {w : Warp} (h : s.warp? wid = some w) (hm : Ascending w.table) {c : Nat × Split → Bool}
    (hl : w.table.filter c ≠ []) (pc : BitVec 48) (jgrp : BitVec 5) (jpc : BitVec 48) (nb : Nat) :
    ∃ w' k p q, s.mergeAt wid (w.table.filter c) pc jgrp jpc nb = replaced s wid (s.nextId + 1) s.free w'
      ∧ Merged w w' (w.table.filter c) pc jgrp jpc nb k p q
      ∧ ∀ i, (∀ x ∈ w.table.filter c, x.1 ≠ i) → kget? w'.table i = kget? w.table i := by
  have horder : Ascending (w.table.filter c) := hm.sublist List.filter_sublist
  generalize w.table.filter c = l at hl horder
  obtain _ | ⟨⟨k, p⟩, r⟩ := l
  · exact absurd rfl hl
  obtain ⟨hfirst, -⟩ := List.pairwise_cons.mp horder
  refine ⟨_, k, p, fresh s.nextId nb (united ((k, p) :: r) p pc jgrp jpc), mergeAt_eq h .., ?_⟩
  have hget : ∀ i, kget? (r.foldl (fun m q => kdel m q.1) w.table) i = if i ∈ r.map Prod.fst then none else kget? w.table i :=
    kget?_kdels hm.unique r
  refine ⟨?merged, fun i hi => ?rest⟩
  case rest =>
    have hik : i ≠ k := (hi _ List.mem_cons_self).symm
    have hir : i ∉ r.map Prod.fst := fun hmem => by
      obtain ⟨x, hx, rfl⟩ := List.mem_map.mp hmem
      exact hi x (List.mem_cons_of_mem _ hx) rfl
    rw [kget?_kmod_ne _ _ hik, kget?_kput_ne _ _ hik, hget, if_neg hir]
  constructor
  case entry => rw [kget?_kmod_self, kget?_kput_self, Option.map_some]
  case warp => rfl
  case order => exact ascending_kmod (ascending_kput (hm.sublist (kdels_sublist _ _)) _ _) _ _
  case first => exact List.mem_cons_self
  case lowest =>
    intro x hx
    rcases List.mem_cons.mp hx with rfl | hx
    · exact le_rfl
    · exact (hfirst x hx).le
  case gone =>
    intro x hx hne
    have hxr : x ∈ r := (List.mem_cons.mp hx).resolve_left fun h => hne (congrArg Prod.fst h)
    rw [kget?_kmod_ne _ _ hne, kget?_kput_ne _ _ hne, hget, if_pos (List.mem_map_of_mem hxr)]
  case eff => exact fresh_eff ..
  case place => exact fun hp => congrArg Split.st (setEff_of_resident (p := united ((k, p) :: r) p pc jgrp jpc) .ready hp)
  all_goals simp [fresh, united]

theorem Merged.mem {w w' : Warp} {l : List (Nat × Split)} {pc jgrp jpc nb k p q} (M : Merged w w' l pc jgrp jpc nb k p q) : ∃ x ∈ l, x.1 = k :=
  ⟨_, M.first, rfl⟩

/-! ## Join groups -/

/-- The warp keeps the entries of splits that do not wait in JOIN, and uses no entry that was free. -/
structure Resting (w w' : Warp) : Prop where
  warp  : w' = { w with table := w'.table }
  order : Ascending w'.table
  keeps : ∀ k q, kget? w.table k = some q → q.inJoin = false → kget? w'.table k = some q
  free  : ∀ k, kget? w.table k = none → kget? w'.table k = none

theorem Resting.trans {w w' v : Warp} (h : Resting w w') (h' : Resting w' v) : Resting w v where
  warp := by rw [h'.warp, h.warp]
  order := h'.order
  keeps k q hq hn := h'.keeps k q (h.keeps k q hq hn) hn
  free k hk := h'.free k (h.free k hk)

/-- A merged split stays through what touches only splits that wait in JOIN. -/
theorem Merged.rested {w w' v : Warp} {l : List (Nat × Split)} {pc jgrp jpc nb k p q} (M : Merged w w' l pc jgrp jpc nb k p q) (R : Resting w' v) :
    Merged w v l pc jgrp jpc nb k p q where
  __ := M
  warp := by rw [R.warp, M.warp]
  order := R.order
  entry := R.keeps k q M.entry (by simp [Split.inJoin, M.eff])
  gone x hx hne := R.free x.1 (M.gone x hx hne)

/-- A join group whose members all wait is merged (05 R120). -/
theorem joinCheck_of_all {s : State} {wid : Nat} {w : Warp} (h : s.warp? wid = some w) {g : BitVec 5} {j : BitVec 48} (hg : g ≠ 0)
    (hne : w.groupOf g j ≠ []) (hall : ∀ x ∈ w.groupOf g j, x.2.inJoin = true) :
    ∃ jpc, (g - 1 = 0 → jpc = 0) ∧ s.joinCheck wid g j = s.mergeAt wid (w.groupOf g j) (j + 1) (g - 1) jpc (s.clk + 4) := by
  simp only [State.joinCheck, h]
  generalize w.groupOf g j = l at hne hall
  obtain _ | ⟨⟨t, p⟩, r⟩ := l
  · exact absurd rfl hne
  · exact ⟨_, fun h0 => if_pos h0, if_pos ⟨hg, List.all_eq_true.mpr hall⟩⟩

/-- Any other is left alone. -/
theorem joinCheck_cases {s : State} {wid : Nat} {w : Warp} (h : s.warp? wid = some w) (g : BitVec 5) (j : BitVec 48) :
    s.joinCheck wid g j = s ∨ (g ≠ 0 ∧ w.groupOf g j ≠ [] ∧ ∀ x ∈ w.groupOf g j, x.2.inJoin = true) := by
  simp only [State.joinCheck, h]
  generalize w.groupOf g j = l
  obtain _ | ⟨⟨t, p⟩, r⟩ := l
  · exact .inl rfl
  · by_cases hall : g ≠ 0 ∧ ((t, p) :: r).all (fun q => q.2.inJoin) = true
    · exact .inr ⟨hall.1, List.cons_ne_nil _ _, List.all_eq_true.mp hall.2⟩
    · exact .inl (if_neg hall)

/-- A test of a join group touches only splits that wait in JOIN. -/
theorem joinCheck_rests {s : State} {wid : Nat} {w : Warp} (h : s.warp? wid = some w) (hm : Ascending w.table) (g : BitVec 5) (j : BitVec 48) :
    ∃ n w', s.joinCheck wid g j = replaced s wid n s.free w' ∧ Resting w w' := by
  rcases joinCheck_cases h g j with heq | ⟨hg, hne, hall⟩
  · exact ⟨_, w, by rw [heq]; exact eq_replaced h, rfl, hm, fun _ _ hq _ => hq, fun _ hk => hk⟩
  · obtain ⟨jpc, -, heq⟩ := joinCheck_of_all h hg hne hall
    have hmember : ∀ y ∈ w.groupOf g j, kget? w.table y.1 = some y.2 := fun y hy => Releases.kget?_of_unique hm.unique (List.mem_filter.mp hy).1
    obtain ⟨w', k, p, q, hmerge, M, hrest⟩ := mergeAt_merges h hm hne (j + 1) (g - 1) jpc (s.clk + 4)
    refine ⟨_, w', heq.trans hmerge, M.warp, M.order, fun i x hx hn => ?_, fun i hi => ?_⟩
    · rw [hrest i fun y hy hyi => ?_, hx]
      have hyx : some y.2 = some x := (hmember y hy).symm.trans (hyi ▸ hx)
      exact Bool.false_ne_true (hn.symm.trans (Option.some.inj hyx ▸ hall y hy))
    · rw [hrest i fun y hy hyi => ?_, hi]
      exact Option.some_ne_none _ ((hmember y hy).symm.trans (hyi ▸ hi))

/-- So do the tests of several join groups. -/
theorem joinChecks_rest {s : State} {wid : Nat} {w : Warp} (h : s.warp? wid = some w) (hm : Ascending w.table) (l : List (Nat × Split)) :
    ∃ n w', l.foldl (fun s q => s.joinCheck wid q.2.jgrp q.2.jpc) s = replaced s wid n s.free w' ∧ Resting w w' := by
  induction l generalizing s w with
  | nil => exact ⟨_, w, eq_replaced h, rfl, hm, fun _ _ hq _ => hq, fun _ hk => hk⟩
  | cons a r ih =>
    obtain ⟨n, w', hfirst, R⟩ := joinCheck_rests h hm a.2.jgrp a.2.jpc
    obtain ⟨n', v, hrest, R'⟩ := ih (s := replaced s wid n s.free w') (replaced_warp? h _ _ _) R.order
    exact ⟨n', v, by rw [List.foldl_cons, hfirst, hrest, replaced_replaced, replaced_free], R.trans R'⟩

/-! ## Gatherings and bounds (05 R121, R130) -/

/-- The least of a list is one of it, and none ranks lower. -/
theorem leastBy_least {α : Type} (rank : α → Nat) (l : List α) :
    match leastBy rank l with | none => l = [] | some a => a ∈ l ∧ ∀ x ∈ l, rank a ≤ rank x := by
  induction l with
  | nil => rfl
  | cons a r ih =>
    simp only [leastBy]
    cases hr : leastBy rank r with
    | none =>
      rw [hr] at ih
      simp [show r = [] from ih]
    | some b =>
      rw [hr] at ih
      obtain ⟨hb, hle⟩ := ih
      by_cases hba : rank b < rank a
      · simp only [hba, if_true]
        exact ⟨List.mem_cons_of_mem _ hb, List.forall_mem_cons.mpr ⟨hba.le, hle⟩⟩
      · simp only [hba, if_false]
        exact ⟨List.mem_cons_self, List.forall_mem_cons.mpr ⟨le_rfl, fun x hx => (not_lt.mp hba).trans (hle x hx)⟩⟩

/-- An element that ranks below every other is the least. -/
theorem leastBy_of_strict {α : Type} {rank : α → Nat} {l : List α} {a : α} (ha : a ∈ l) (hs : ∀ x ∈ l, x ≠ a → rank a < rank x) :
    leastBy rank l = some a := by
  have hl := leastBy_least rank l
  cases hb : leastBy rank l with
  | none =>
    rw [hb] at hl
    exact absurd ha (by simp [show l = [] from hl])
  | some b =>
    rw [hb] at hl
    obtain ⟨hmem, hle⟩ := hl
    by_contra hne
    exact absurd (hs b hmem fun h => hne (congrArg some h)) (not_lt.mpr (hle a ha))

/-- A gathering that is released merges at PC + 1 in the join group of its first arrival (05 R130). -/
theorem regangRelease_merges {s : State} {wid : Nat} {w : Warp} (h : s.warp? wid = some w) (hm : Ascending w.table) {pc : BitVec 48} {k0 : Nat}
    {f : Split} (hf : firstArrival (w.gathering pc) = some (k0, f)) :
    ∃ n w' k p q, s.regangRelease wid pc = replaced s wid n s.free w'
      ∧ Merged w w' (w.gathering pc) (pc + 1) f.jgrp f.jpc (s.clk + 4) k p q := by
  have hne : w.gathering pc ≠ [] := fun hnil => by
    rw [hnil] at hf
    cases hf
  obtain ⟨w', k, p, q, hmerge, M, -⟩ := mergeAt_merges h hm hne (pc + 1) f.jgrp f.jpc (s.clk + 4)
  obtain ⟨n, v, hchecks, R⟩ := joinChecks_rest (s := replaced s wid (s.nextId + 1) s.free w') (replaced_warp? h _ _ _) M.order (w.gathering pc)
  refine ⟨n, v, k, p, q, ?_, M.rested R⟩
  rw [replaced_replaced, replaced_free] at hchecks
  simp only [State.regangRelease, h, hf]
  rw [← hchecks, ← hmerge]
  rfl

/-- A gathering whose awaited lanes have all arrived is released. -/
theorem regangCheck_of_complete {s : State} {wid : Nat} {w : Warp} (h : s.warp? wid = some w) {pc : BitVec 48} {k0 : Nat} {f : Split}
    (hf : firstArrival (w.gathering pc) = some (k0, f))
    (hall : f.wobj.setWidth 32 &&& w.liveLanes &&& ~~~(lanesOfAll (w.gathering pc)) = 0) : s.regangCheck wid pc = s.regangRelease wid pc := by
  simp only [State.regangCheck, h, hf, hall, if_true]

/-- A split that waits in a gathering whose first arrival's bound is over, or of which a member came with bound 0, releases it. -/
theorem exec_regangBoundExpiry {s : State} {wid slot : Nat} {w : Warp} {p : Split} (h : s.warp? wid = some w) (hp : kget? w.table slot = some p)
    (hin : p.inRegang = true) {k0 : Nat} {f : Split} (hf : firstArrival (w.gathering p.pc) = some (k0, f))
    (hdue : f.waux = 0 ∨ ∃ x ∈ w.gathering p.pc, ∃ m, x.2.after = .regang m 0) :
    exec (.regangBoundExpiry wid slot) s = .next (s.regangRelease wid p.pc) := by
  show execRegangBoundExpiry wid slot s = _
  simp only [execRegangBoundExpiry, h, split?_eq h, hp, hin, hf, Bool.not_true, Bool.false_eq_true, if_false]
  refine if_pos ?_
  rcases hdue with h0 | ⟨x, hx, m, hafter⟩
  · simp [h0]
  · rw [Bool.or_eq_true]
    exact .inl (List.any_eq_true.mpr ⟨x, hx, by simp [hafter]⟩)

theorem exec_joinBoundExpiry {s : State} {wid slot : Nat} {w : Warp} {p : Split} (h : s.warp? wid = some w) (hp : kget? w.table slot = some p)
    {b : Nat} {j : BitVec 16} (hafter : p.after = .join b j) (hb : b < 2 ^ 32 - 1) (h0 : p.waux = 0) (hin : p.inJoin = true) :
    exec (.joinBoundExpiry wid slot) s = .next (s.joinExpire wid slot) := by
  show execJoinBoundExpiry wid slot s = _
  simp only [execJoinBoundExpiry, split?_eq h, hp, hafter]
  exact if_pos ⟨hin, hb, h0⟩

/-- The split one join group further out (05 R121). -/
def outward (g : BitVec 5) (j : BitVec 48) (p : Split) : Split := { p with jgrp := g - 1, jpc := if g - 1 = 0 then 0 else pcPlus j p.joinOfs }

/-- A bounded join member goes past the join alone, one level out (05 R121). -/
theorem joinExpire_leaves {s : State} {wid slot : Nat} {w : Warp} {p : Split} (h : s.warp? wid = some w) (hm : Ascending w.table)
    (hp : kget? w.table slot = some p) : ∃ n w', s.joinExpire wid slot = replaced s wid n s.free w' ∧ w' = { w with table := w'.table }
      ∧ kget? w'.table slot = some (woken s.nextId (s.clk + 4) (outward p.jgrp p.jpc p)) := by
  let v : Warp := { w with table := kmod w.table slot fun x => woken s.nextId (s.clk + 4) (outward p.jgrp p.jpc x) }
  have hexpire : s.joinExpire wid slot = (replaced s wid (s.nextId + 1) s.free v).joinCheck wid p.jgrp p.jpc := by
    simp only [State.joinExpire, split?_eq h, hp]
    rw [modSplit_eq h, wake_eq (replaced_warp? h _ _ _), replaced_replaced, kmod_kmod]
    rfl
  obtain ⟨n, w', hcheck, R⟩ := joinCheck_rests (s := replaced s wid (s.nextId + 1) s.free v) (replaced_warp? h _ _ _) (ascending_kmod hm _ _)
    p.jgrp p.jpc
  refine ⟨n, w', by rw [hexpire, hcheck, replaced_replaced, replaced_free], by rw [R.warp], R.keeps slot _ ?_ (by simp [Split.inJoin, woken_eff])⟩
  rw [kget?_kmod_self, hp, Option.map_some]

/-! ## Tables with one entry changed -/

section
variable {α : Type}

theorem mem_kmod {m : KMap α} (hm : Unique m) {k : Nat} {g : α → α} {y : Nat × α} (h : y ∈ kmod m k g) :
    (y.1 ≠ k ∧ y ∈ m) ∨ ∃ x, (k, x) ∈ m ∧ y = (k, g x) := by
  induction m with
  | nil => cases h
  | cons a r ih =>
    obtain ⟨hfirst, hr⟩ := List.nodup_cons.mp hm
    by_cases hk : k = a.1
    · rw [kmod, if_pos hk] at h
      rcases List.mem_cons.mp h with rfl | h
      · exact .inr ⟨a.2, by simp [hk], by rw [hk]⟩
      · exact .inl ⟨fun heq => hfirst (hk ▸ heq ▸ List.mem_map_of_mem h), List.mem_cons_of_mem _ h⟩
    · rw [kmod, if_neg hk] at h
      rcases List.mem_cons.mp h with rfl | h
      · exact .inl ⟨Ne.symm hk, List.mem_cons_self⟩
      · refine (ih hr h).imp (fun h => ⟨h.1, List.mem_cons_of_mem _ h.2⟩) ?_
        rintro ⟨x, hx, rfl⟩
        exact ⟨x, List.mem_cons_of_mem _ hx, rfl⟩

theorem kmod_of_absent {m : KMap α} {k : Nat} (h : ∀ x ∈ m, x.1 ≠ k) (g : α → α) : kmod m k g = m := by
  induction m with
  | nil => rfl
  | cons a r ih =>
    obtain ⟨ha, hr⟩ := List.forall_mem_cons.mp h
    rw [kmod, if_neg ha.symm, ih hr]

/-- A change that a condition does not see may be made before or after choosing by it. -/
theorem filter_kmod {m : KMap α} (hm : Unique m) {k : Nat} {g : α → α} {c : Nat × α → Bool} (hc : ∀ x, c (k, g x) = c (k, x)) :
    (kmod m k g).filter c = kmod (m.filter c) k g := by
  induction m with
  | nil => rfl
  | cons a r ih =>
    obtain ⟨hfirst, hr⟩ := List.nodup_cons.mp hm
    by_cases hk : k = a.1
    · subst hk
      rw [kmod, if_pos rfl, List.filter_cons, List.filter_cons, hc a.2]
      by_cases ha : c a = true
      · rw [if_pos ha, if_pos ha, kmod, if_pos rfl]
      · rw [if_neg ha, if_neg ha, kmod_of_absent]
        exact fun x hx heq => hfirst (heq ▸ List.mem_map_of_mem (List.mem_of_mem_filter hx))
    · rw [kmod, if_neg hk, List.filter_cons, List.filter_cons, ih hr]
      by_cases ha : c a = true
      · rw [if_pos ha, if_pos ha, kmod, if_neg hk]
      · rw [if_neg ha, if_neg ha]

theorem forall_keys_kmod {m : KMap α} {k : Nat} {g : α → α} (P : Nat → Prop) : (∀ y ∈ kmod m k g, P y.1) ↔ ∀ x ∈ m, P x.1 := by
  have hkeys : ∀ l : KMap α, (∀ y ∈ l, P y.1) ↔ ∀ i ∈ l.map Prod.fst, P i := fun l => List.forall_mem_map.symm
  rw [hkeys, hkeys, kmod_keys]

end

theorem lanes_kmod (m : KMap Split) (k : Nat) {g : Split → Split} (hg : ∀ x, (g x).lmask = x.lmask) : lanesOfAll (kmod m k g) = lanesOfAll m := by
  unfold lanesOfAll
  generalize (0 : Lanes) = a
  induction m generalizing a with
  | nil => rfl
  | cons b r ih =>
    unfold kmod
    split
    · simp only [List.foldl_cons, hg]
    · exact ih _

/-! ## Waits that begin (05 R120, R130, 09 R238, R239) -/

/-- The split that has issued a wait-type instruction. -/
def begun (a : After) (due : Nat) (p : Split) : Split := { p with len := p.len + 1, after := a, rdy := max p.rdy due }

theorem outstanding_of_quiet {w v : Warp} {p q : Split} (hquiet : Quiet w p) (hres : v.results = w.results) (hspan : q.span = p.span)
    (hlanes : q.lmask = p.lmask) : v.outstanding q = false := by
  have hnone : v.results.any (fun r => r.2.waits q) = false := List.any_eq_false.mpr fun r hr => by
    have h := hquiet r (hres ▸ hr)
    rw [Result.waits] at h ⊢
    rw [hspan, hlanes, h]
    exact Bool.false_ne_true
  rw [Warp.outstanding, hnone, Bool.and_false]

/-- With nothing of its span to come, a split enters its wait in its clk of issue. -/
theorem beginWait_eq {s : State} {w : Warp} {p : Split} (h : s.warp? s.cur.1 = some w) (hp : kget? w.table s.cur.2 = some p) (hquiet : Quiet w p)
    (a : After) (lat : Nat) : s.beginWait a lat = (replaced s s.cur.1 s.nextId (s.free + 1)
      { w with table := kmod w.table s.cur.2 (begun a (s.clk + lat)) }).enterAfter s.cur.1 s.cur.2 := by
  obtain ⟨v, hv⟩ : ∃ v : Warp, v = { w with table := kmod w.table s.cur.2 (begun a (s.clk + lat)) } := ⟨_, rfl⟩
  have hmod : ({ s with free := s.free + 1 } : State).modCur (begun a (s.clk + lat)) = replaced s s.cur.1 s.nextId (s.free + 1) v :=
    hv ▸ modSplit_eq (s := { s with free := s.free + 1 }) h _ _
  have hw := replaced_warp? h s.nextId (s.free + 1) v
  have hcur : (replaced s s.cur.1 s.nextId (s.free + 1) v).curWarp = v := by
    rw [State.curWarp, State.warpD, replaced_cur, hw, Option.getD_some]
  have hsplit : (replaced s s.cur.1 s.nextId (s.free + 1) v).curSplit = begun a (s.clk + lat) p := by
    rw [State.curSplit, State.splitD, replaced_cur, split?_eq hw, hv, kget?_kmod_self, hp]
    rfl
  have hout : v.outstanding (begun a (s.clk + lat) p) = false := outstanding_of_quiet hquiet (by rw [hv]) rfl rfl
  have hbegin : ∀ t, ({ s with free := s.free + 1 } : State).modCur (begun a (s.clk + lat)) = t → s.beginWait a lat
      = if t.curWarp.outstanding t.curSplit then t.modCur (fun p => p.setEff .spanPark) else t.enterAfter t.cur.1 t.cur.2 := fun _ h => h ▸ rfl
  rw [← hv, hbegin _ hmod, hcur, hsplit, hout]
  rfl

/-- The split that has issued JOIN and waits in it at once (05 R120, R121). -/
def joining (n : Nat) (halt : Bool) (b : Nat) (o : BitVec 16) (due : Nat) (p : Split) : Split :=
  waiting n halt .joinWait 0 (if b < 2 ^ 32 - 1 then BitVec.ofNat 32 b else BitVec.allOnes 32)
    (begun (.join b o) due { p with waux := BitVec.ofNat 32 b })

/-- The warp whose split at `slot` has begun a wait, by `g`. -/
def entered (w : Warp) (slot : Nat) (g : Split → Split) : Warp := { w with whole := w.whole || w.haltH != 0, table := kmod w.table slot g }

theorem entered_kept (w : Warp) (slot : Nat) (g : Split → Split) {w' : Warp} (h : w' = { entered w slot g with table := w'.table }) :
    KeptWaiting w w' := by
  rw [KeptWaiting, h]
  rfl

theorem enterAfter_join {s : State} {wid slot : Nat} {w : Warp} {q : Split} (h : s.warp? wid = some w) (hq : kget? w.table slot = some q) {b : Nat}
    {o : BitVec 16} (ha : q.after = .join b o) : s.enterAfter wid slot
      = (s.enterWait wid slot .joinWait 0 (if b < 2 ^ 32 - 1 then q.waux else BitVec.allOnes 32)).joinCheck wid q.jgrp q.jpc := by
  simp only [State.enterAfter, split?_eq h, hq, ha]

/-- JOIN of a split at its join PC, with nothing of its span to come, enters its wait and tests the join group. -/
theorem joinOp_eq {s : State} {w : Warp} {p : Split} (h : Issuer s w p) (hquiet : Quiet w p) (hg : p.jgrp ≠ 0) (hpc : p.pc = p.jpc) (f : JFmt)
    (b : Nat) : s.joinOp f b = .next ((replaced s s.cur.1 (s.nextId + 1) (s.free + 1)
      (entered w s.cur.2 (joining s.nextId (w.haltH != 0) b f.jofs (s.clk + 1)))).joinCheck s.cur.1 p.jgrp p.jpc) := by
  have hcur := issuer_curSplit h
  obtain ⟨hw, hp, -, -⟩ := h
  simp only [State.joinOp, hcur]
  rw [if_neg (not_or.mpr ⟨hg, not_not.mpr hpc⟩)]
  have hmod : s.modCur (fun p => { p with waux := BitVec.ofNat 32 b }) = replaced s s.cur.1 s.nextId s.free
      { w with table := kmod w.table s.cur.2 fun p => { p with waux := BitVec.ofNat 32 b } } := modSplit_eq hw _ _
  have hw1 := replaced_warp? hw s.nextId s.free { w with table := kmod w.table s.cur.2 fun p => { p with waux := BitVec.ofNat 32 b } }
  have hp1 : kget? (kmod w.table s.cur.2 fun p => { p with waux := BitVec.ofNat 32 b }) s.cur.2 = some { p with waux := BitVec.ofNat 32 b } := by
    rw [kget?_kmod_self, hp, Option.map_some]
  rw [hmod, beginWait_eq hw1 hp1 hquiet]
  simp only [replaced_replaced, replaced_cur, replaced_nextId, replaced_free, replaced_clk, kmod_kmod]
  have hw2 := replaced_warp? hw s.nextId (s.free + 1)
    { w with table := kmod w.table s.cur.2 fun p => begun (.join b f.jofs) (s.clk + 1) { p with waux := BitVec.ofNat 32 b } }
  have hp2 : kget? (kmod w.table s.cur.2 fun p => begun (.join b f.jofs) (s.clk + 1) { p with waux := BitVec.ofNat 32 b }) s.cur.2
      = some (begun (.join b f.jofs) (s.clk + 1) { p with waux := BitVec.ofNat 32 b }) := by
    rw [kget?_kmod_self, hp, Option.map_some]
  rw [enterAfter_join hw2 hp2 rfl, enterWait_eq hw2, replaced_replaced, kmod_kmod]
  rfl

theorem joining_inJoin (n : Nat) (halt : Bool) (b : Nat) (o : BitVec 16) (due : Nat) {p : Split} (hpc : p.pc = p.jpc) :
    (joining n halt b o due p).inJoin = true := by
  have heff : (joining n halt b o due p).eff = .joinWait := waiting_eff _ _ (by decide) _ _ _
  rw [Split.inJoin, heff]
  simp [joining, waiting, begun, hpc]

/-- The last member of a join group that arrives merges it (05 R120). -/
theorem joinOp_merges {s : State} {w : Warp} {p : Split} (h : Issuer s w p) (hquiet : Quiet w p) (hm : Ascending w.table) (hg : p.jgrp ≠ 0)
    (hpc : p.pc = p.jpc) (hall : ∀ q ∈ w.groupOf p.jgrp p.jpc, q.1 ≠ s.cur.2 → q.2.inJoin = true) (f : JFmt) (b : Nat) :
    ∃ g v w' k x q jpc, s.joinOp f b = .next (replaced s s.cur.1 (s.nextId + 2) (s.free + 1) w') ∧ (∀ x : Split, (g x).lmask = x.lmask)
      ∧ v = entered w s.cur.2 g ∧ (p.jgrp - 1 = 0 → jpc = 0)
      ∧ Merged v w' (kmod (w.groupOf p.jgrp p.jpc) s.cur.2 g) (p.jpc + 1) (p.jgrp - 1) jpc (s.clk + 4) k x q
      ∧ ∀ i, (∀ x ∈ kmod (w.groupOf p.jgrp p.jpc) s.cur.2 g, x.1 ≠ i) → kget? w'.table i = kget? v.table i := by
  obtain ⟨g, hgdef⟩ : ∃ g, g = joining s.nextId (w.haltH != 0) b f.jofs (s.clk + 1) := ⟨_, rfl⟩
  obtain ⟨v, hv⟩ : ∃ v, v = entered w s.cur.2 g := ⟨_, rfl⟩
  have hgroup : v.groupOf p.jgrp p.jpc = kmod (w.groupOf p.jgrp p.jpc) s.cur.2 g := by
    rw [hv]
    exact filter_kmod hm.unique fun x => by simp [hgdef, joining, waiting, begun]
  have hmem : (s.cur.2, g p) ∈ v.groupOf p.jgrp p.jpc := by
    have hentry : kget? v.table s.cur.2 = some (g p) := by
      rw [hv, entered, kget?_kmod_self, h.2.1, Option.map_some]
    exact List.mem_filter.mpr ⟨Results.kget?_mem hentry, by simp [hgdef, joining, waiting, begun]⟩
  have hjoins : ∀ y ∈ v.groupOf p.jgrp p.jpc, y.2.inJoin = true := by
    rw [hgroup]
    intro y hy
    rcases mem_kmod (Ascending.unique (hm.sublist List.filter_sublist)) hy with ⟨hne, hy⟩ | ⟨x, hx, rfl⟩
    · exact hall y hy hne
    · have hxp : some x = some p := (Releases.kget?_of_unique hm.unique (List.mem_of_mem_filter hx)).symm.trans h.2.1
      rw [hgdef, Option.some.inj hxp]
      exact joining_inJoin _ _ _ _ _ hpc
  have hw := replaced_warp? h.1 (s.nextId + 1) (s.free + 1) v
  obtain ⟨jpc, hjpc, hcheck⟩ := joinCheck_of_all hw hg (List.ne_nil_of_mem hmem) hjoins
  have hvm : Ascending v.table := hv ▸ ascending_kmod hm _ _
  obtain ⟨w', k, x, q, hmerge, M, hrest⟩ := mergeAt_merges hw hvm (List.ne_nil_of_mem hmem) (p.jpc + 1) (p.jgrp - 1) jpc (s.clk + 4)
  rw [show v.table.filter _ = _ from hgroup] at M hrest
  refine ⟨g, v, w', k, x, q, jpc, ?_, fun x => by simp [hgdef, joining, waiting, begun], hv, hjpc, M, hrest⟩
  rw [joinOp_eq h hquiet hg hpc, ← hgdef, ← hv, hcheck]
  rw [replaced_replaced] at hmerge
  exact congrArg Host.Outcome.next hmerge

/-- The split that has issued REGANG and waits in it at once (05 R130). -/
def regathering (n : Nat) (halt : Bool) (m : Lanes) (b : Nat) (due : Nat) (p : Split) : Split :=
  waiting n halt .joinWait (m.setWidth 64 ||| BitVec.ofNat 64 (2 ^ 63)) (BitVec.ofNat 32 b) (begun (.regang m b) due p)

theorem enterAfter_regang {s : State} {wid slot : Nat} {w : Warp} {q : Split} (h : s.warp? wid = some w) (hq : kget? w.table slot = some q) {m : Lanes}
    {b : Nat} (ha : q.after = .regang m b) : s.enterAfter wid slot
      = s.enterWait wid slot .joinWait (m.setWidth 64 ||| BitVec.ofNat 64 (2 ^ 63)) (BitVec.ofNat 32 b) := by
  simp only [State.enterAfter, split?_eq h, hq, ha]

/-- REGANG of a split with nothing of its span to come enters its wait. -/
theorem exec_regang {s : State} {w : Warp} {p : Split} (h : Issuer s w p) (hquiet : Quiet w p) (f : SFmt) :
    exec (.regang f) s = .next (replaced s s.cur.1 (s.nextId + 1) (s.free + 1)
      (entered w s.cur.2 (regathering s.nextId (w.haltH != 0) (s.rdM f.sa.toNat) (f.imm.toNat % 2 ^ 16) (s.clk + 1)))) := by
  obtain ⟨hw, hp, -, -⟩ := h
  show Host.Outcome.next (s.beginWait (.regang (s.rdM f.sa.toNat) (f.imm.toNat % 2 ^ 16)) 1) = _
  generalize hafter : After.regang (s.rdM f.sa.toNat) (f.imm.toNat % 2 ^ 16) = a
  have hw1 := replaced_warp? hw s.nextId (s.free + 1) { w with table := kmod w.table s.cur.2 (begun a (s.clk + 1)) }
  have hp1 : kget? (kmod w.table s.cur.2 (begun a (s.clk + 1))) s.cur.2 = some (begun a (s.clk + 1) p) := by
    rw [kget?_kmod_self, hp, Option.map_some]
  rw [beginWait_eq hw hp hquiet, enterAfter_regang hw1 hp1 hafter.symm, enterWait_eq hw1, replaced_replaced, kmod_kmod, ← hafter]
  rfl

theorem regathering_inRegang (n : Nat) (halt : Bool) (m : Lanes) (b due : Nat) (p : Split) : (regathering n halt m b due p).inRegang = true := by
  have heff : (regathering n halt m b due p).eff = .joinWait := waiting_eff _ _ (by decide) _ _ _
  rw [Split.inRegang, heff]
  simp only [regathering, waiting, BitVec.msb_or, show (BitVec.ofNat 64 (2 ^ 63)).msb = true from rfl, Bool.or_true, Bool.and_true]
  rfl

@[simp] theorem regathering_pc (n : Nat) (halt : Bool) (m : Lanes) (b due : Nat) (p : Split) : (regathering n halt m b due p).pc = p.pc :=
  setEff_pc _ _
@[simp] theorem regathering_lmask (n : Nat) (halt : Bool) (m : Lanes) (b due : Nat) (p : Split) :
    (regathering n halt m b due p).lmask = p.lmask := setEff_lmask _ _
@[simp] theorem regathering_jgrp (n : Nat) (halt : Bool) (m : Lanes) (b due : Nat) (p : Split) :
    (regathering n halt m b due p).jgrp = p.jgrp := setEff_jgrp _ _
@[simp] theorem regathering_jpc (n : Nat) (halt : Bool) (m : Lanes) (b due : Nat) (p : Split) : (regathering n halt m b due p).jpc = p.jpc :=
  setEff_jpc _ _

theorem regathering_st (n : Nat) (halt : Bool) (m : Lanes) (b due : Nat) {p : Split} (hp : p.st ≠ .dormant) :
    (regathering n halt m b due p).st = .joinWait :=
  congrArg Split.st (setEff_of_resident (p := begun (.regang m b) due p) .joinWait hp)

theorem regathering_awaits (n : Nat) (halt : Bool) (m : Lanes) (b due : Nat) (p : Split) :
    (regathering n halt m b due p).wobj.setWidth 32 = m := by
  simp [regathering, waiting, BitVec.setWidth_or]

/-- A REGANG that no other split waits in, and whose awaited lanes are the split's own, is released by the test of its clk (05 R130). -/
theorem regang_wakes {s : State} {w : Warp} {p : Split} (h : Issuer s w p) (hquiet : Quiet w p) (hm : Ascending w.table) (f : SFmt)
    (hnone : w.gathering p.pc = []) (hown : s.rdM f.sa.toNat &&& w.liveLanes &&& ~~~p.lmask = 0) :
    ∃ t w', exec (.regang f) s = .next t ∧ OnlyWarp s t s.cur.1 ∧ (t.regangCheck s.cur.1 p.pc).warp? s.cur.1 = some w' ∧ KeptWaiting w w'
      ∧ Woken s w' s.cur.2 p 4 := by
  obtain ⟨g, hg⟩ : ∃ g, g = regathering s.nextId (w.haltH != 0) (s.rdM f.sa.toNat) (f.imm.toNat % 2 ^ 16) (s.clk + 1) := ⟨_, rfl⟩
  obtain ⟨v, hv⟩ : ∃ v, v = entered w s.cur.2 g := ⟨_, rfl⟩
  have hexec : exec (.regang f) s = .next (replaced s s.cur.1 (s.nextId + 1) (s.free + 1) v) := hv ▸ hg ▸ exec_regang h hquiet f
  have hglanes : ∀ x, (g x).lmask = x.lmask := fun x => by rw [hg, regathering_lmask]
  have hvm : Ascending v.table := hv ▸ ascending_kmod hm _ _
  have hentry : kget? v.table s.cur.2 = some (g p) := by
    rw [hv, entered, kget?_kmod_self, h.2.1, Option.map_some]
  have halone : v.gathering p.pc = [(s.cur.2, g p)] := by
    refine Releases.filter_eq_single hvm.unique hentry (by simp [hg, regathering_inRegang]) fun y hy hne => ?_
    rcases mem_kmod hm.unique (hv ▸ hy) with ⟨-, hy⟩ | ⟨x, -, rfl⟩
    · exact Bool.eq_false_iff.mpr (List.filter_eq_nil_iff.mp hnone y hy)
    · exact absurd rfl hne
  have hfirst : firstArrival (v.gathering p.pc) = some (s.cur.2, g p) := by rw [halone]; rfl
  have hlive : v.liveLanes = w.liveLanes := hv ▸ lanes_kmod w.table s.cur.2 hglanes
  have hw := replaced_warp? h.1 (s.nextId + 1) (s.free + 1) v
  obtain ⟨n, w', k, x, q, hrelease, M⟩ := regangRelease_merges hw hvm hfirst
  have hcheck := regangCheck_of_complete hw hfirst (by
    rw [halone, hlive, hg, regathering_awaits, ← hg]
    simpa [hglanes] using hown)
  refine ⟨_, w', hexec, replaced_only .., ?_, entered_kept w s.cur.2 g (hv ▸ M.warp), ?_⟩
  · rw [hcheck, hrelease, replaced_replaced]
    exact replaced_warp? h.1 ..
  · rw [halone] at M
    obtain ⟨rfl, rfl⟩ : k = s.cur.2 ∧ x = g p := by simpa using M.first
    have hst : (g p).st ≠ .dormant := by
      rw [hg, regathering_st _ _ _ _ _ (by rw [h.2.2.1]; exact SplitState.noConfusion)]
      exact SplitState.noConfusion
    exact ⟨q, M.entry, M.place hst, M.pc, by simp [M.lanes, hglanes], by rw [M.jgrp, hg, regathering_jgrp],
      by rw [M.jpc, hg, regathering_jpc], M.wobj, M.waux, M.start⟩

/-- JOIN and JOIN.bnd of the last member to arrive merge its group at the lowest entry of a member (05 R120). -/
theorem exec_join_merges {s : State} {w : Warp} {p : Split} (h : Issuer s w p) (hquiet : Quiet w p) (hm : Ascending w.table) {i : Instr}
    (hi : ∃ f, i = .join f ∨ i = .joinBnd f) (hwait : waitType s w p i)
    (hall : ∀ q ∈ w.groupOf p.jgrp p.jpc, q.1 ≠ s.cur.2 → q.2.inJoin = true) :
    let l := w.groupOf p.jgrp p.jpc
    ∃ t w' k q, exec i s = .next t ∧ OnlyWarp s t s.cur.1 ∧ t.warp? s.cur.1 = some w' ∧ KeptWaiting w w'
      ∧ (∃ x ∈ l, x.1 = k) ∧ (∀ x ∈ l, k ≤ x.1) ∧ kget? w'.table k = some q ∧ (∀ x ∈ l, x.1 ≠ k → kget? w'.table x.1 = none)
      ∧ (∀ j, (∀ x ∈ l, x.1 ≠ j) → kget? w'.table j = kget? w.table j)
      ∧ q.lmask = l.foldl (fun a x => a ||| x.2.lmask) 0 ∧ q.pc = p.jpc + 1 ∧ q.jgrp = p.jgrp - 1
      ∧ (p.jgrp = 1 → q.jpc = 0) ∧ q.wobj = 0 ∧ q.waux = 0 ∧ q.eff = .ready ∧ q.notBefore = s.clk + 4 := by
  intro l
  have hjoin : ∃ f b, exec i s = s.joinOp f b := by
    obtain ⟨f, rfl | rfl⟩ := hi
    · exact ⟨f, _, rfl⟩
    · exact ⟨f, _, rfl⟩
  obtain ⟨hg, hpc⟩ : p.jgrp ≠ 0 ∧ p.pc = p.jpc := by
    obtain ⟨f, rfl | rfl⟩ := hi
    · exact hwait
    · exact hwait
  obtain ⟨f, b, hexec⟩ := hjoin
  obtain ⟨g, v, w', k, x, q, jpc, hop, hglanes, hv, hjpc, M, hrest⟩ := joinOp_merges h hquiet hm hg hpc hall f b
  have hown : (s.cur.2, p) ∈ l := List.mem_filter.mpr ⟨Results.kget?_mem h.2.1, by simp⟩
  have hkey : ∃ y ∈ l, y.1 = k := by
    by_contra hno
    push Not at hno
    exact (forall_keys_kmod (· ≠ k)).mpr hno _ M.first rfl
  refine ⟨_, w', k, q, hexec.trans hop, replaced_only .., replaced_warp? h.1 .., entered_kept w s.cur.2 g (hv ▸ M.warp), hkey,
    (forall_keys_kmod (k ≤ ·)).mp M.lowest, M.entry, (forall_keys_kmod fun i => i ≠ k → kget? w'.table i = none).mp M.gone, fun j hj => ?_,
    M.lanes.trans (lanes_kmod l s.cur.2 hglanes), M.pc, M.jgrp, fun h1 => M.jpc.trans (hjpc (by rw [h1]; rfl)), M.wobj, M.waux, M.eff, M.start⟩
  rw [hrest j ((forall_keys_kmod (· ≠ j)).mpr hj), hv, entered, kget?_kmod_ne _ _ (hj _ hown).symm]

/-! ## Slots and the overflow area (01 R36, 09 R239, R246, R247) -/

section
variable {s : State} {wid : Nat} {w : Warp} (h : s.warp? wid = some w)
include h

/-- A step of the part that leaves one warp replaced. -/
theorem gives_of_replaced {i : Instr} {n : Nat} {w' : Warp} (hexec : exec i s = .next (replaced s wid n s.free w')) :
    ∃ t, exec i s = .next t ∧ t = { s with warps := t.warps, nextId := t.nextId } ∧ t.warp? wid = some w' ∧ ∀ k, k ≠ wid → t.warp? k = s.warp? k :=
  ⟨_, hexec, rfl, replaced_warp? h .., fun _ hk => replaced_warp?_ne _ _ _ hk⟩

theorem exec_swapEpochAdvance (hc : w.captured = false) (he : w.ended = false) (hclk : w.epochClk + 256 ≤ s.clk) :
    exec (.swapEpochAdvance wid) s
      = .next (replaced s wid s.nextId s.free { w with epoch := w.epoch + 1, epochClk := s.clk, swapPend := w.swapDue }) := by
  show execSwapEpochAdvance wid s = _
  simp only [execSwapEpochAdvance, h, hc, he, not_lt.mpr hclk, decide_false, Bool.or_false, Bool.false_eq_true, if_false, modWarp_eq h]

/-- A pending swap starts (09 R246). -/
theorem exec_splitSwap (hc : w.captured = false) (hpend : w.swapPend = true) {o k : Nat} {a b : Split}
    (ho : oldestOf (w.table.filter fun q => 8 ≤ q.1 && !q.2.moving && q.2.held == .ready) = some (o, a)) (hk : w.swapCandidate = some (k, b)) :
    exec (.splitSwap wid) s = .next (replaced s wid s.nextId s.free
      { w with swapPend := false, moves := kput w.moves o (k, s.clk + 32)
               table := kmod (kmod w.table o fun p => { p with moving := true, age := w.epoch }) k fun p => { p with moving := true, age := w.epoch } }) := by
  show execSplitSwap wid s = _
  simp only [execSplitSwap, State.warpD, h, Option.getD_some, hc, Bool.false_eq_true, if_false, State.startSwap, hpend, Bool.not_true, ho, hk, modWarp_eq h]

/-- The lowest free slot is filled from the overflow area's one split (09 R246). -/
theorem exec_splitFill (hc : w.captured = false) {k o : Nat} {a : Split} (hk : k < 8) (hfree : kget? w.table k = none) (hmoves : w.moves = [])
    (hlow : ∀ j, j < k → (kget? w.table j).isSome = true) (hover : w.table.filter (fun q => decide (8 ≤ q.1)) = [(o, a)]) (ha : a.moving = false) :
    exec (.splitFill wid) s = .next (replaced s wid s.nextId s.free
      { w with moves := [(o, (k, s.clk + 32))], table := kmod w.table o fun p => { p with moving := true } }) := by
  have hslot : (List.range 8).find? (fun t => (kget? w.table t).isNone && !w.reserved t) = some k := by
    rw [List.find?_range_eq_some]
    refine ⟨by simp [hfree, Warp.reserved, hmoves], List.mem_range.mpr hk, fun j hj => ?_⟩
    obtain ⟨x, hx⟩ := Option.isSome_iff_exists.mp (hlow j hj)
    simp [hx]
  have hdormant : w.table.filter (fun q => 8 ≤ q.1 && !q.2.moving) = [(o, a)] := by
    have hboth := congrArg (List.filter fun q : Nat × Split => !q.2.moving) hover
    rw [List.filter_filter] at hboth
    simpa [Bool.and_comm, ha] using hboth
  show execSplitFill wid s = _
  have hold : oldestOf (if (List.filter (fun q : Nat × Split => q.2.held == .ready) [(o, a)]).isEmpty then [(o, a)]
      else List.filter (fun q : Nat × Split => q.2.held == .ready) [(o, a)]) = some (o, a) := by
    by_cases hr : a.held = .ready <;> simp [hr, oldestOf]
  simp only [execSplitFill, State.warpD, h, Option.getD_some, hc, Bool.false_eq_true, if_false, State.startFill, hslot, hdormant, hold, modWarp_eq h, hmoves, kput]

end

/-! ## Swaps and fills that are done (09 R239, R246) -/

theorem filter_kput_of_none {α : Type} {m : KMap α} {c : Nat × α → Bool} (hm : ∀ y ∈ m, c y = false) (i : Nat) (x : α) :
    (kput m i x).filter c = if c (i, x) then [(i, x)] else [] := by
  induction m with
  | nil => simp [kput, List.filter_cons]
  | cons a r ih =>
    obtain ⟨ha, hr⟩ := List.forall_mem_cons.mp hm
    have hnil : r.filter c = [] := List.filter_eq_nil_iff.mpr fun y hy => by simp [hr y hy]
    unfold kput
    split
    · rw [List.filter_cons, List.filter_cons, ha, hnil]; rfl
    · split
      · rw [List.filter_cons, hnil]
      · rw [List.filter_cons, show c (a.1, a.2) = false from ha, ih hr]; rfl

theorem filter_kput_of_key {α : Type} (m : KMap α) {c : Nat × α → Bool} {i : Nat} (hc : ∀ y, c (i, y) = false) (x : α) :
    (kput m i x).filter c = m.filter c := by
  induction m with
  | nil => simp [kput, hc]
  | cons a r ih =>
    unfold kput
    split
    · rw [List.filter_cons, hc]; rfl
    · split
      · next heq => rw [List.filter_cons, List.filter_cons, hc, show c (a.1, a.2) = false from heq ▸ hc a.2]; rfl
      · rw [List.filter_cons, List.filter_cons, ih]

/-- The split that a move brings in (09 R246). -/
def movedIn (age : BitVec 16) (a : Split) : Split := { a with st := a.held, held := .ready, age := age, moving := false }

/-- The split that a swap takes out. -/
def movedOut (b : Split) : Split := { b with st := .dormant, held := b.st, moving := false }

theorem finishMoves_swaps {w : Warp} {clk o k due : Nat} {a b : Split} (hmoves : w.moves = [(o, (k, due))]) (hdue : due ≤ clk)
    (ha : kget? w.table o = some a) (hb : kget? w.table k = some b) :
    w.finishMoves clk false = { w with moves := [], table := kput (kput w.table k (movedIn a.age a)) o (movedOut b) } := by
  simp only [Warp.finishMoves, hmoves, List.foldl_cons, List.foldl_nil, not_lt.mpr hdue, if_false, ha, hb, kdel, Bool.false_eq_true]
  rfl

theorem finishMoves_fills {w : Warp} {clk o k due : Nat} {a : Split} (hmoves : w.moves = [(o, (k, due))]) (hdue : due ≤ clk)
    (ha : kget? w.table o = some a) (hb : kget? w.table k = none) :
    w.finishMoves clk true = { w with moves := [], table := kput (kdel w.table o) k (movedIn w.epoch a) } := by
  simp only [Warp.finishMoves, hmoves, List.foldl_cons, List.foldl_nil, not_lt.mpr hdue, if_false, ha, hb, kdel, if_true]
  rfl

/-- The end of a span: SPAN-PARK while results are outstanding, else READY (09 R239). -/
theorem endSpan_ends {s : State} {wid k : Nat} {w : Warp} {a : Split} (h : s.warp? wid = some w) (hk : kget? w.table k = some a) (hst : a.st = .ready) :
    ∃ n w' a', s.endSpan wid k = replaced s wid n s.free w' ∧ w' = { w with table := w'.table, results := w'.results }
      ∧ (∀ j, j ≠ k → kget? w'.table j = kget? w.table j) ∧ kget? w'.table k = some a' ∧ a'.pc = a.pc ∧ a'.lmask = a.lmask
      ∧ a'.jgrp = a.jgrp ∧ a'.jpc = a.jpc ∧ a'.st = if w.outstanding a = true then .spanPark else .ready := by
  have hres : a.st ≠ .dormant := by rw [hst]; exact SplitState.noConfusion
  simp only [State.endSpan, h, split?_eq h, hk]
  by_cases hout : w.outstanding a = true
  · rw [if_pos hout, modSplit_eq h]
    refine ⟨_, _, { a.setEff .spanPark with after := .none }, rfl, rfl, fun j hj => kget?_kmod_ne _ _ hj, ?_, ?_⟩
    · rw [kget?_kmod_self, hk, Option.map_some]
    · simp [setEff_of_resident _ hres, hout]
  · rw [if_neg hout, freshReady_eq h, modWarp_eq (replaced_warp? h _ _ _), replaced_replaced]
    refine ⟨_, _, fresh s.nextId (max (max a.rdy a.notBefore) (s.clk + 1)) a, rfl, rfl, fun j hj => kget?_kmod_ne _ _ hj, ?_, ?_⟩
    · rw [Warp.gc, kget?_kmod_self, hk, Option.map_some]
    · simp [fresh, setEff_of_resident _ hres, hout]

/-- A split of a slot that is READY while the end of its span is still to take effect. -/
abbrev endsHere (t : Nat × Split) : Bool := decide (t.1 < 8) && t.2.st == .ready && t.2.after == .ended

/-- The split that a move has brought to slot `k`: as it stood in the overflow area, or READY or parked where its span has ended (09 R239). -/
structure CameIn (w w' : Warp) (k : Nat) (a : Split) (age : BitVec 16) : Prop where
  going : ¬(a.after = .ended ∧ a.held = .ready) → w'.results = w.results ∧ kget? w'.table k = some (movedIn age a)
  ended : a.after = .ended ∧ a.held = .ready → ∃ a', kget? w'.table k = some a' ∧ a'.pc = a.pc ∧ a'.lmask = a.lmask ∧ a'.jgrp = a.jgrp
    ∧ a'.jpc = a.jpc ∧ a'.st = (if w.outstanding a = true then .spanPark else .ready)

/-- Once the moves of a warp have been made, the split that came in ends its span where it has ended. -/
theorem finishMoves_comesIn {s : State} {wid k : Nat} {w : Warp} {fill : Bool} {a : Split} {age : BitVec 16} {table : KMap Split}
    (h : s.warp? wid = some w) (hmade : w.finishMoves s.clk fill = { w with moves := [], table := table })
    (hends : table.filter endsHere = if a.after = .ended ∧ a.held = .ready then [(k, movedIn age a)] else [])
    (hk : kget? table k = some (movedIn age a)) :
    ∃ n w', s.finishMoves wid fill = replaced s wid n s.free w' ∧ w' = { w with table := w'.table, results := w'.results, moves := [] }
      ∧ (∀ j, j ≠ k → kget? w'.table j = kget? table j) ∧ CameIn w w' k a age := by
  have hw := replaced_warp? h s.nextId s.free { w with moves := [], table := table }
  have hfinish : s.finishMoves wid fill = (table.filter endsHere).foldl (fun s t => s.endSpan wid t.1)
      (replaced s wid s.nextId s.free { w with moves := [], table := table }) := by
    have hmod := (modWarp_eq h fun w => w.finishMoves s.clk fill).trans (by rw [hmade])
    simp only [State.finishMoves, hmod, State.warpD, hw, Option.getD_some]
  by_cases hend : a.after = .ended ∧ a.held = .ready
  · rw [if_pos hend] at hends
    obtain ⟨n, w', a', hspan, hframe, hothers, hin, hpc, hlanes, hjgrp, hjpc, hst⟩ := endSpan_ends hw hk hend.2
    rw [replaced_replaced] at hspan
    exact ⟨n, w', by rw [hfinish, hends]; exact hspan, hframe, hothers, fun hno => absurd hend hno, fun _ => ⟨a', hin, hpc, hlanes, hjgrp, hjpc, hst⟩⟩
  · rw [if_neg hend] at hends
    exact ⟨s.nextId, { w with moves := [], table := table }, by rw [hfinish, hends]; rfl, rfl, fun _ _ => rfl, fun _ => ⟨rfl, hk⟩, fun hyes => absurd hyes hend⟩

/-- Of a table whose slots hold no ended span, the split that comes in is the one that may end there. -/
theorem filter_endsHere_kput {m : KMap Split} (hm : ∀ q ∈ m, q.1 < 8 → q.2.after ≠ .ended) {k : Nat} (hk : k < 8) (age : BitVec 16) (a : Split) :
    (kput m k (movedIn age a)).filter endsHere = if a.after = .ended ∧ a.held = .ready then [(k, movedIn age a)] else [] := by
  rw [filter_kput_of_none fun y hy => ?_]
  · simp [endsHere, movedIn, hk, and_comm]
  · by_cases hy8 : y.1 < 8
    · simp [endsHere, hm y hy hy8]
    · simp [endsHere, hy8]

/-- A swap done exchanges the two splits. -/
theorem exec_splitSwapDone {s : State} {wid : Nat} {w : Warp} (h : s.warp? wid = some w) {o k due : Nat} {a b : Split}
    (hmoves : w.moves = [(o, (k, due))]) (hdue : due ≤ s.clk) (ha : kget? w.table o = some a) (hb : kget? w.table k = some b) (hk : k < 8) (ho : 8 ≤ o)
    (hslots : ∀ q ∈ w.table, q.1 < 8 → q.2.after ≠ .ended) :
    ∃ n w', exec (.splitSwapDone wid) s = .next (replaced s wid n s.free w') ∧ w' = { w with table := w'.table, results := w'.results, moves := [] }
      ∧ CameIn w w' k a a.age ∧ kget? w'.table o = some (movedOut b) ∧ ∀ j, j ≠ o → j ≠ k → kget? w'.table j = kget? w.table j := by
  have hok : o ≠ k := by omega
  have hends : (kput (kput w.table k (movedIn a.age a)) o (movedOut b)).filter endsHere
      = if a.after = .ended ∧ a.held = .ready then [(k, movedIn a.age a)] else [] := by
    rw [filter_kput_of_key _ fun y => by simp [endsHere, not_lt.mpr ho], filter_endsHere_kput hslots hk]
  obtain ⟨n, w', hfinish, hframe, hothers, hin⟩ := finishMoves_comesIn h (finishMoves_swaps hmoves hdue ha hb) hends
    (by rw [kget?_kput_ne _ _ hok.symm, kget?_kput_self])
  refine ⟨n, w', congrArg Host.Outcome.next hfinish, hframe, hin, ?_, fun j hjo hjk => ?_⟩
  · rw [hothers o hok, kget?_kput_self]
  · rw [hothers j hjk, kget?_kput_ne _ _ hjo, kget?_kput_ne _ _ hjk]

/-- A fill done moves the dormant split to its slot. -/
theorem exec_splitFillDone {s : State} {wid : Nat} {w : Warp} (h : s.warp? wid = some w) (hu : Unique w.table) {o k due : Nat} {a : Split}
    (hmoves : w.moves = [(o, (k, due))]) (hdue : due ≤ s.clk) (ha : kget? w.table o = some a) (hb : kget? w.table k = none) (hk : k < 8) (ho : 8 ≤ o)
    (hslots : ∀ q ∈ w.table, q.1 < 8 → q.2.after ≠ .ended) :
    ∃ n w', exec (.splitFillDone wid) s = .next (replaced s wid n s.free w') ∧ w' = { w with table := w'.table, results := w'.results, moves := [] }
      ∧ CameIn w w' k a w.epoch ∧ kget? w'.table o = none ∧ ∀ j, j ≠ o → j ≠ k → kget? w'.table j = kget? w.table j := by
  have hok : o ≠ k := by omega
  have hslots' : ∀ q ∈ kdel w.table o, q.1 < 8 → q.2.after ≠ .ended := fun q hq => hslots q (Transfers.mem_of_mem_kdel hq)
  obtain ⟨n, w', hfinish, hframe, hothers, hin⟩ := finishMoves_comesIn h (finishMoves_fills hmoves hdue ha hb)
    (filter_endsHere_kput hslots' hk w.epoch a) (kget?_kput_self _ _ _)
  refine ⟨n, w', congrArg Host.Outcome.next hfinish, hframe, hin, ?_, fun j hjo hjk => ?_⟩
  · rw [hothers o hok, kget?_kput_ne _ _ hok, Transfers.kget?_kdel_self hu]
  · rw [hothers j hjk, kget?_kput_ne _ _ hjk, kget?_kdel_ne _ hjo]

/-! ## Merging at issue boundaries (09 R247) -/

/-- One split alone has none to merge with. -/
theorem mergeBoundary_of_single {s : State} {wid : Nat} {w : Warp} (h : s.warp? wid = some w) {i : Nat} {q : Split} (hw : w.table = [(i, q)]) (n : Nat) :
    s.mergeBoundary wid n = s := by
  cases n with
  | zero => rfl
  | succ n =>
    simp only [State.mergeBoundary, h, hw]
    by_cases hc : (i < 8 && q.atBoundary && decide (q.notBefore ≤ s.clk)) = true
    · simp [hc]
    · simp [hc]

/-- Two splits of the lower slots that share PC, join group and join PC merge in one round. -/
theorem mergeBoundary_pair {s : State} {wid : Nat} {w : Warp} (h : s.warp? wid = some w) {i j : Nat} {a b : Split} (hw : w.table = [(i, a), (j, b)])
    (hij : i < j) (hj : j < 8) (ha : a.atBoundary = true) (hb : b.atBoundary = true) (hna : a.notBefore ≤ s.clk) (hnb : b.notBefore ≤ s.clk)
    (hpc : a.pc = b.pc) (hg : a.jgrp = b.jgrp) (hjpc : a.jpc = b.jpc) (hh : a.halted = b.halted) (n : Nat) :
    s.mergeBoundary wid (n + 1)
      = (s.mergeAt wid [(i, a), (j, b)] a.pc a.jgrp a.jpc (max a.notBefore b.notBefore)).mergeBoundary wid n := by
  have hi : i < 8 := by omega
  have hboth : w.table.filter (fun t => t.1 < 8 && t.2.atBoundary && decide (t.2.notBefore ≤ s.clk)) = [(i, a), (j, b)] := by
    simp [hw, hi, hj, ha, hb, hna, hnb]
  simp only [State.mergeBoundary, h, hboth]
  simp [hij, hpc, hg, hjpc, hh]

/-- They merge in the lower slot, and may issue when both could. -/
theorem exec_regangMerge {s : State} {wid : Nat} {w : Warp} (h : s.warp? wid = some w) {i j : Nat} {a b : Split} (hw : w.table = [(i, a), (j, b)])
    (hij : i < j) (hj : j < 8) (ha : a.atBoundary = true) (hb : b.atBoundary = true) (hna : a.notBefore ≤ s.clk) (hnb : b.notBefore ≤ s.clk)
    (hpc : a.pc = b.pc) (hg : a.jgrp = b.jgrp) (hjpc : a.jpc = b.jpc) (hh : a.halted = b.halted) :
    exec (.regangMerge wid) s = .next (replaced s wid (s.nextId + 1) s.free { w with
      table := [(i, fresh s.nextId (max a.notBefore b.notBefore) (united [(i, a), (j, b)] a a.pc a.jgrp a.jpc))] }) := by
  have htable : kmod (kput (kdel w.table j) i (united [(i, a), (j, b)] a a.pc a.jgrp a.jpc)) i (fresh s.nextId (max a.notBefore b.notBefore))
      = [(i, fresh s.nextId (max a.notBefore b.notBefore) (united [(i, a), (j, b)] a a.pc a.jgrp a.jpc))] := by
    simp [hw, kdel, kput, kmod, hij.ne']
  show Host.Outcome.next (s.mergeBoundary wid (7 + 1)) = _
  rw [mergeBoundary_pair h hw hij hj ha hb hna hnb hpc hg hjpc hh, mergeAt_eq h]
  simp only [List.foldl_cons, List.foldl_nil, htable]
  rw [mergeBoundary_of_single (replaced_warp? h _ _ _) rfl]

/-! ## The end of SPAN-PARK (07 R179, 09 R239) -/

theorem exec_spanParkEnd {s : State} {wid slot : Nat} {w : Warp} {p : Split} (h : s.warp? wid = some w) (hp : kget? w.table slot = some p)
    (hst : p.st = .spanPark) : exec (.spanParkEnd wid slot) s = .next (s.settle wid slot) := by
  show execSpanParkEnd wid slot s = _
  simp only [execSpanParkEnd, split?_eq h, hp]
  exact if_pos (by simp [Split.eff, hst])

/-- A split whose results have all returned is READY at its PC with a new span. -/
theorem settle_quiet {s : State} {wid slot : Nat} {w : Warp} {p : Split} (h : s.warp? wid = some w) (hp : kget? w.table slot = some p)
    (hst : p.st = .spanPark) (hafter : p.after = .none) (hquiet : Quiet w p) : s.settle wid slot
      = replaced s wid (s.nextId + 1) s.free
          (Warp.gc { w with table := kmod w.table slot (fresh s.nextId (max (max p.rdy p.notBefore) s.clk)) }) := by
  have hsettled : s.settled wid p = true := by
    simp only [State.settled, State.warpD, h, Option.getD_some]
    exact List.all_eq_true.mpr fun r hr => by rw [hquiet r hr]; rfl
  have heff : p.eff = .spanPark := by simp [Split.eff, hst]
  simp only [State.settle, h, split?_eq h, hp, hsettled, heff, outstanding_of_quiet hquiet rfl rfl rfl, Bool.not_true, Bool.false_eq_true, if_false,
    Bool.not_false, if_true, hafter, State.enterAfter]
  rw [freshReady_eq h, modWarp_eq (replaced_warp? h _ _ _), replaced_replaced]
  rfl

/-! ## Records of faults (15 R360, 16 R385) -/

/-- From `s` to `t` the warp changes only in what its splits know of their faults. -/
def FaultsOnly (wid : Nat) (s t : State) : Prop :=
  ∀ w, s.warp? wid = some w → ∃ w', t.warp? wid = some w' ∧ w' = { w with table := w'.table }
    ∧ ∀ k q, kget? w.table k = some q → ∃ f, kget? w'.table k = some { q with fault := f }

theorem FaultsOnly.of_warps {wid : Nat} {s t : State} (h : t.warps = s.warps) : FaultsOnly wid s t :=
  fun w hw => ⟨w, by rw [State.warp?, h]; exact hw, rfl, fun _ q hq => ⟨q.fault, hq⟩⟩

theorem FaultsOnly.trans {wid : Nat} {s t u : State} (h : FaultsOnly wid s t) (h' : FaultsOnly wid t u) : FaultsOnly wid s u := by
  intro w hw
  obtain ⟨w', hw', hframe, hsplits⟩ := h w hw
  obtain ⟨v, hv, hframe', hsplits'⟩ := h' w' hw'
  refine ⟨v, hv, by rw [hframe', hframe], fun k q hq => ?_⟩
  obtain ⟨f, hf⟩ := hsplits k q hq
  obtain ⟨f', hf'⟩ := hsplits' k _ hf
  exact ⟨f', hf'⟩

theorem FaultsOnly.of_modWarp (wid : Nat) (s : State) (k : Nat) {g : Warp → Warp} (hg : ∀ w, g w = { w with table := (g w).table })
    (hsplits : ∀ w j q, kget? w.table j = some q → ∃ f, kget? (g w).table j = some { q with fault := f }) : FaultsOnly wid s (s.modWarp k g) := by
  intro w hw
  by_cases hk : wid = k
  · exact ⟨g w, by rw [warp?_modWarp, if_pos hk, ← hk, hw, Option.map_some], hg w, hsplits w⟩
  · exact ⟨w, by rw [warp?_modWarp, if_neg hk, hw], rfl, fun _ q hq => ⟨q.fault, hq⟩⟩

theorem FaultsOnly.of_modSplit (wid : Nat) (s : State) (slot : Nat) {g : Split → Split} (hg : ∀ q, g q = { q with fault := (g q).fault }) :
    FaultsOnly wid s (s.modSplit wid slot g) := by
  refine FaultsOnly.of_modWarp wid s wid (g := fun w => { w with table := kmod w.table slot g }) (fun _ => rfl) fun w j q hq => ?_
  rw [kget?_kmod]
  split
  · next hj =>
    refine ⟨(g q).fault, ?_⟩
    rw [← hj, hq, Option.map_some, ← hg]
  · exact ⟨q.fault, hq⟩

/-- Naming the record of a fault changes nothing else of a split. -/
theorem nameFault_fault (code seq : Nat) (m : Lanes) (k : Nat) (q : Split) : ∃ f, (nameFault code seq m (k, q)).2 = { q with fault := f } := by
  unfold nameFault
  split
  · exact ⟨_, rfl⟩
  · exact ⟨q.fault, rfl⟩

theorem writeExc_faultsOnly (wid : Nat) (s : State) (q : Nat) (r : ExcRec) : FaultsOnly wid s (s.writeExc q r) := by
  have hwarps : ∀ asid va l, (s.feWrite asid va l).warps = s.warps := fun asid va l => by rw [feWrite_eq]
  unfold State.writeExc
  dsimp only
  generalize hwritten : s.feWrite _ _ _ = s1
  have hs1 : s1.warps = s.warps := hwritten ▸ hwarps _ _ _
  split
  · refine FaultsOnly.trans (t := s1.modQueue q _) (FaultsOnly.of_warps hs1) (FaultsOnly.of_modWarp wid _ r.wid (fun _ => rfl) fun w j p hp => ?_)
    obtain ⟨f, hf⟩ := nameFault_fault r.code (s.queueD q).seq r.lmask j p
    refine ⟨f, (kget?_map_name r.code (s.queueD q).seq r.lmask w.table j).trans ?_⟩
    rw [hp, Option.map_some, hf]
  · exact FaultsOnly.of_warps hs1

theorem postExc_faultsOnly (wid : Nat) (s : State) (q : Nat) (r : ExcRec) : FaultsOnly wid s (s.postExc q r) := by
  unfold State.postExc
  dsimp only
  split
  · exact writeExc_faultsOnly wid s q r
  · exact FaultsOnly.of_warps rfl

theorem FaultsOnly.foldl {α : Type} {wid : Nat} {g : State → α → State} (hg : ∀ s a, FaultsOnly wid s (g s a)) (l : List α) (s : State) :
    FaultsOnly wid s (l.foldl g s) := by
  induction l generalizing s with
  | nil => exact FaultsOnly.of_warps rfl
  | cons a r ih => exact (hg s a).trans (ih _)

theorem postGroup_faultsOnly (s : State) (wid slot : Nat) : FaultsOnly wid s (s.postGroup wid slot) := by
  unfold State.postGroup
  split
  · exact FaultsOnly.of_warps rfl
  · next p hp =>
    dsimp only
    split
    · exact FaultsOnly.of_warps rfl
    · next f hf =>
      split
      · exact FaultsOnly.of_warps rfl
      · have hmarked : FaultsOnly wid s (s.modSplit wid slot fun p => { p with fault := some { f with recs := true } }) :=
          FaultsOnly.of_modSplit wid s slot fun _ => rfl
        split
        · exact hmarked.trans (FaultsOnly.foldl (fun s _ => postExc_faultsOnly wid s _ _) _ _)
        · exact (hmarked.trans (FaultsOnly.foldl (fun s _ => postExc_faultsOnly wid s _ _) _ _)).trans (postExc_faultsOnly wid _ _ _)

/-! ## Division by faulted accesses (07 R179) -/

/-- A new split takes the lowest free slot where no fill has reserved one (05 R115). -/
theorem place_of_free {w : Warp} (hmoves : w.moves = []) {t : Nat} (ht : t < 8) (hfree : kget? w.table t = none)
    (hlow : ∀ j, j < t → (kget? w.table j).isSome = true) (p : Split) :
    w.place p = ({ w with table := kput w.table t { p with age := w.epoch } }, some t) := by
  have hplace : w.freePlace = some t := by
    rw [Warp.freePlace, List.find?_range_eq_some]
    refine ⟨by simp [hfree, Warp.reserved, hmoves], List.mem_range.mpr (by omega), fun j hj => ?_⟩
    obtain ⟨x, hx⟩ := Option.isSome_iff_exists.mp (hlow j hj)
    simp [hx]
  simp only [Warp.place, hplace, ht, if_true]

/-- The part that goes on. -/
def soundPart (good : Lanes) (age : BitVec 16) (p : Split) : Split :=
  { p with lmask := good, st := .ready, held := .ready, after := .none, fault := none, wobj := 0, waux := 0, age := age }

theorem rest_ne_zero {bad lanes : Lanes} (hsub : bad = bad &&& lanes) (hne : bad ≠ lanes) : lanes &&& ~~~bad ≠ 0 := by
  intro h0
  refine hne (BitVec.eq_of_getLsbD_eq fun i hi => ?_)
  have hbit : (lanes &&& ~~~bad).getLsbD i = false := by
    rw [h0]
    exact BitVec.getLsbD_zero
  have hsubbit : bad.getLsbD i = (bad.getLsbD i && lanes.getLsbD i) := (congrArg (·.getLsbD i) hsub).trans BitVec.getLsbD_and
  rw [BitVec.getLsbD_and, BitVec.getLsbD_not, decide_eq_true hi, Bool.true_and] at hbit
  generalize bad.getLsbD i = x at hbit hsubbit
  generalize lanes.getLsbD i = y at hbit hsubbit
  revert hbit hsubbit
  cases x <;> cases y <;> decide

/-- The warp whose split at `slot` has parked FAULTED, the record of its fault and its lanes set by `g`. -/
def parkedBy (w : Warp) (n slot : Nat) (g : Split → Split) : Warp :=
  entered { w with table := kmod w.table slot (waiting n (w.haltH != 0) .faulted 0 0) } slot g

/-- That warp with the split's other part, `good`, going on from slot `t` by clk `nb`. -/
def dividedWarp (w : Warp) (n slot : Nat) (g : Split → Split) (t : Nat) (good : Split) (nb : Nat) : Warp :=
  { parkedBy w n slot g with table := kmod (kput (parkedBy w n slot g).table t good) t (fresh (n + 1) nb) }

/-- The lanes of faulted accesses park in the split's place; the others go on from the lowest free slot. -/
theorem faultDivide_eq {s : State} {wid slot : Nat} {w : Warp} {p : Split} (h : s.warp? wid = some w) (hp : kget? w.table slot = some p)
    (hafter : p.after = .none) (hmoves : w.moves = []) {t : Nat} (ht : t < 8) (hfree : kget? w.table t = none)
    (hlow : ∀ j, j < t → (kget? w.table j).isSome = true) {bad : Lanes}
    (hbad : (s.stuckReqs wid p).foldl (fun a q => a ||| q.2.lanes) 0 &&& p.lmask = bad) (hne : bad ≠ p.lmask) :
    ∃ g, (∀ q, g q = { q with lmask := bad, after := .none, fault := (g q).fault })
      ∧ s.faultDivide wid slot p = (replaced s wid (s.nextId + 2) s.free
          (dividedWarp w s.nextId slot g t (soundPart (p.lmask &&& ~~~bad) w.epoch p) (max p.rdy (s.clk + 1)))).postGroup wid slot := by
  have hsub : bad = bad &&& p.lmask := by rw [← hbad, BitVec.and_assoc, BitVec.and_self]
  have hgood := rest_ne_zero hsub hne
  have hdrop : s.dropAfter wid p = s := by simp only [State.dropAfter, hafter]
  have hslot : t ≠ slot := fun heq => by rw [heq, hp] at hfree; cases hfree
  have hparked : ∀ g, (s.enterWait wid slot .faulted 0 0).modSplit wid slot g = replaced s wid (s.nextId + 1) s.free (parkedBy w s.nextId slot g) :=
    fun g => by
      rw [enterWait_eq h, modSplit_eq (replaced_warp? h _ _ _), replaced_replaced]
      rfl
  have hw := fun g => replaced_warp? h (s.nextId + 1) s.free (parkedBy w s.nextId slot g)
  have hothers : ∀ g j, j ≠ slot → kget? (parkedBy w s.nextId slot g).table j = kget? w.table j := fun g j hj => by
    rw [parkedBy, entered, kget?_kmod_ne _ _ hj, kget?_kmod_ne _ _ hj]
  have hplace := fun g q => place_of_free (w := parkedBy w s.nextId slot g) hmoves ht ((hothers g t hslot).trans hfree) (fun j hj => by
    by_cases hjs : j = slot
    · simp [parkedBy, entered, hjs, hp]
    · rw [hothers g j hjs]
      exact hlow j hj) q
  refine ⟨?mark, ?keeps, ?divides⟩
  case divides =>
    simp only [State.faultDivide, hdrop, hbad, hparked, hgood, if_false, hw, hplace]
    rw [modWarp_eq (hw _), freshReady_eq (replaced_warp? (hw _) _ _ _), replaced_replaced, replaced_replaced]
    rfl
  case keeps => exact fun _ => rfl

theorem settle_divides {s : State} {wid slot : Nat} {w : Warp} {p : Split} (h : s.warp? wid = some w) (hp : kget? w.table slot = some p)
    (hst : p.st = .spanPark) (hout : w.outstanding p = true) (hsettled : s.settled wid p = true) : s.settle wid slot = s.faultDivide wid slot p := by
  have heff : p.eff = .spanPark := by simp [Split.eff, hst]
  simp only [State.settle, h, split?_eq h, hp, hsettled, heff, hout, Bool.not_true, Bool.false_eq_true, if_false, if_true]

/-- SPAN_PARK_END of a split that awaits faulted accesses alone: its two parts (07 R179). -/
theorem exec_spanParkEnd_divides {s : State} {wid slot : Nat} {w : Warp} {p : Split} (h : s.warp? wid = some w) (hp : kget? w.table slot = some p)
    (hst : p.st = .spanPark) (hafter : p.after = .none) (hout : w.outstanding p = true) (hsettled : s.settled wid p = true) (hmoves : w.moves = [])
    {free : Nat} (ht : free < 8) (hfree : kget? w.table free = none) (hlow : ∀ j, j < free → (kget? w.table j).isSome = true) {bad : Lanes}
    (hbad : (s.stuckReqs wid p).foldl (fun a q => a ||| q.2.lanes) 0 &&& p.lmask = bad) (hne : bad ≠ p.lmask) :
    ∃ t w' p' q', exec (.spanParkEnd wid slot) s = .next t ∧ t.warp? wid = some w' ∧ w' = { w with table := w'.table, whole := w'.whole }
      ∧ kget? w'.table slot = some p' ∧ p'.st = .faulted ∧ p'.pc = p.pc ∧ p'.lmask = bad ∧ p'.jgrp = p.jgrp ∧ p'.jpc = p.jpc ∧ p'.age = p.age
      ∧ kget? w'.table free = some q' ∧ q'.st = .ready ∧ q'.pc = p.pc ∧ q'.lmask = p.lmask &&& ~~~bad ∧ q'.jgrp = p.jgrp ∧ q'.jpc = p.jpc := by
  have hres : p.st ≠ .dormant := by rw [hst]; exact SplitState.noConfusion
  have hslot : free ≠ slot := fun heq => by rw [heq, hp] at hfree; cases hfree
  obtain ⟨g, hg, hdivide⟩ := faultDivide_eq h hp hafter hmoves ht hfree hlow hbad hne
  obtain ⟨w', hw', hframe, hsplits⟩ := postGroup_faultsOnly _ wid slot _ (replaced_warp? h (s.nextId + 2) s.free
    (dividedWarp w s.nextId slot g free (soundPart (p.lmask &&& ~~~bad) w.epoch p) (max p.rdy (s.clk + 1))))
  obtain ⟨f, hf⟩ := hsplits slot (g (waiting s.nextId (w.haltH != 0) .faulted 0 0 p)) (by
    rw [dividedWarp, kget?_kmod_ne _ _ hslot.symm, kget?_kput_ne _ _ hslot.symm, parkedBy, entered, kget?_kmod_self, kget?_kmod_self, hp]
    rfl)
  obtain ⟨f', hf'⟩ := hsplits free (fresh (s.nextId + 1) (max p.rdy (s.clk + 1)) (soundPart (p.lmask &&& ~~~bad) w.epoch p)) (by
    rw [dividedWarp, kget?_kmod_self, kget?_kput_self, Option.map_some])
  rw [hg, waiting, setEff_of_resident _ hres] at hf
  rw [fresh, setEff_of_resident _ (show (soundPart (p.lmask &&& ~~~bad) w.epoch p).st ≠ .dormant from SplitState.noConfusion)] at hf'
  refine ⟨_, w', _, _, ?_, hw', by rw [hframe]; rfl, hf, rfl, rfl, rfl, rfl, rfl, rfl, hf', rfl, rfl, rfl, rfl, rfl⟩
  rw [exec_spanParkEnd h hp hst, settle_divides h hp hst hout hsettled, hdivide]

/-- Settles O41: what joins and gatherings merge, what moves exchange, and what the ends of waits leave, each from one equation of its step. -/
theorem splitsManaged : Obligations.SplitsManaged := by
  unfold Obligations.SplitsManaged
  refine ⟨fun s w p h hquiet hm => ⟨fun i hi hwait hall => exec_join_merges h hquiet hm hi hwait hall, fun f hnone hown =>
    regang_wakes h hquiet hm f hnone hown⟩, fun s wid w h hu hc => ⟨fun he hclk => ?epoch, ?swap, ?swapDone, ?fill, ?fillDone, ?merge⟩,
    fun s wid slot w p h hp hm => ⟨?parkEnd, ?parkDivides, ?joinBound, ?regangBound⟩⟩
  case epoch => exact gives_of_replaced h (exec_swapEpochAdvance h hc he hclk)
  case swap =>
    intro o a k b hpend ho hk hok
    refine ⟨_, gives_of_replaced h (exec_splitSwap h hc hpend ho hk), rfl, kget?_kput_self _ _ _, ?_, ?_, fun j hjo hjk => ?_⟩
    · rw [kget?_kmod_ne _ _ hok, kget?_kmod_self]
    · rw [kget?_kmod_self, kget?_kmod_ne _ _ hok.symm]
    · rw [kget?_kmod_ne _ _ hjk, kget?_kmod_ne _ _ hjo]
  case swapDone =>
    intro o k due a b hmoves hdue ha hb hk ho hslots
    obtain ⟨n, w', hexec, hframe, hin, hout, hothers⟩ := exec_splitSwapDone h hmoves hdue ha hb hk ho hslots
    exact ⟨w', gives_of_replaced h hexec, hframe, hin.going, hin.ended, hout, hothers⟩
  case fill =>
    intro k o a hk hfree hmoves hlow hover ha
    have ho : kget? w.table o = some a :=
      Releases.kget?_of_unique hu (List.mem_of_mem_filter (hover ▸ List.mem_singleton_self (o, a)))
    refine ⟨_, gives_of_replaced h (exec_splitFill h hc hk hfree hmoves hlow hover ha), rfl, ?_, fun j hj => kget?_kmod_ne _ _ hj⟩
    rw [kget?_kmod_self, ho, Option.map_some]
  case fillDone =>
    intro o k due a hmoves hdue ha hb hk ho hslots
    obtain ⟨n, w', hexec, hframe, hin, hout, hothers⟩ := exec_splitFillDone h hu hmoves hdue ha hb hk ho hslots
    exact ⟨w', gives_of_replaced h hexec, hframe, hin.going, hin.ended, hout, hothers⟩
  case merge =>
    intro i j a b hw hij hj ha hb hna hnb hpc hg hjpc hh
    have hst : a.st = .ready := by
      simp only [Split.atBoundary, Bool.and_eq_true, beq_iff_eq] at ha
      exact ha.1.1
    refine ⟨_, _, gives_of_replaced h (exec_regangMerge h hw hij hj ha hb hna hnb hpc hg hjpc hh), rfl, ?_⟩
    rw [fresh, setEff_of_resident (p := united _ _ _ _ _) _ (by rw [united, hst]; exact SplitState.noConfusion)]
    exact ⟨by simp [united], rfl, rfl, rfl, rfl, max_le hna hnb, fun hold => by simp [united, oldestOf, hold],
      fun hold => by simp [united, oldestOf, hold]⟩
  case parkEnd =>
    intro hst hafter hquiet
    refine ⟨_, _, fresh s.nextId (max (max p.rdy p.notBefore) s.clk) p, by rw [exec_spanParkEnd h hp hst, settle_quiet h hp hst hafter hquiet],
      rfl, replaced_warp? h .., rfl, fun k hk => ?_, ?_, ?_⟩
    · rw [Warp.gc, kget?_kmod_ne _ _ hk]
    · rw [Warp.gc, kget?_kmod_self, hp, Option.map_some]
    · rw [fresh, setEff_of_resident _ (by rw [hst]; exact SplitState.noConfusion)]
      exact ⟨rfl, rfl, rfl, rfl, rfl, rfl, le_max_right _ _⟩
  case parkDivides =>
    intro hst hafter hout hsettled hmoves free ht hfree hlow bad hne
    exact exec_spanParkEnd_divides h hp hst hafter hout hsettled hmoves ht hfree hlow rfl hne
  case joinBound =>
    intro b j hafter hb h0 hin
    have hpc : p.pc = p.jpc := by
      simp only [Split.inJoin, Bool.and_eq_true, beq_iff_eq] at hin
      exact hin.2
    obtain ⟨n, w', hexpire, hframe, hentry⟩ := joinExpire_leaves h hm hp
    refine ⟨_, w', _, by rw [exec_joinBoundExpiry h hp hafter hb h0 hin, hexpire], rfl, replaced_warp? h .., hframe, hentry, woken_eff .., ?_⟩
    simp [outward, hpc, pcPlus, Split.joinOfs, hafter]
  case regangBound =>
    intro hin l k0 f hf hstrict hdue
    have hfirst : firstArrival (w.gathering p.pc) = some (k0, f) := leastBy_of_strict hf hstrict
    obtain ⟨n, w', k, x, q, hrelease, M⟩ := regangRelease_merges h hm hfirst
    exact ⟨_, w', k, q, by rw [exec_regangBoundExpiry h hp hin hfirst hdue, hrelease], rfl, replaced_warp? h .., M.warp, M.mem, M.lowest, M.gone,
      M.entry, M.lanes, M.pc, M.jgrp, M.jpc, M.eff, M.wobj, M.waux⟩

end Sys2Proof.Laws.Splits

namespace Sys2Proof.Laws.Requests

/-! # Memory instructions send their requests (07 R175 to R192) -/

open Sys2Proof.Machine Sys2Proof.Safety Sys2Proof.Rules Sys2Proof.Laws.Operands

/-! ## A request on its way -/

theorem kmod_kput {α : Type} (m : KMap α) (i : Nat) (x : α) (f : α → α) : kmod (kput m i x) i f = kput m i (f x) := by
  induction m with
  | nil => simp [kput, kmod]
  | cons a r ih =>
    obtain ⟨k, v⟩ := a
    simp only [kput]
    by_cases hlt : i < k
    · simp [hlt, kmod]
    · by_cases he : i = k
      · simp [he, kmod]
      · simp [hlt, he, kmod, ih]

theorem kput_kput {α : Type} (m : KMap α) (i : Nat) (x y : α) : kput (kput m i x) i y = kput m i y := by
  induction m with
  | nil => simp [kput]
  | cons a r ih =>
    obtain ⟨k, v⟩ := a
    simp only [kput]
    by_cases hlt : i < k
    · simp [hlt, kput]
    · by_cases he : i = k
      · simp [he, kput]
      · simp [hlt, he, kput, ih]

/-- What a request keeps on its way out: everything but the fields of its route. -/
def Travels (r q : Req) : Prop :=
  q = { r with phase := q.phase, stage := q.stage, arrive := q.arrive, pkg := q.pkg, die := q.die, plane := q.plane, filled := q.filled, tr := q.tr }

/-- The same of a store or a cache operation, whose mark says which copies it has reached (11 R284, R293). -/
def TravelsMarked (r q : Req) : Prop := ∃ op, Travels { r with op := op } q

/-- A request that is sent towards its home is entered with another route. -/
theorem sendOut_travels (s : State) (id : Nat) (r : Req) (near : Bool) :
    ∃ q, s.sendOut id r near = { s with reqs := kput s.reqs id q } ∧ Travels r q := by
  have home : ∀ hp hd near, ∃ q, s.sendHome id r hp hd near = { s with reqs := kput s.reqs id q } ∧ Travels r q := by
    intro hp hd near
    unfold State.sendHome
    dsimp only
    split
    · split <;> exact ⟨_, rfl, rfl⟩
    · exact ⟨_, rfl, rfl⟩
  unfold State.sendOut
  dsimp only
  split
  · split
    · exact home _ _ _
    · exact home _ _ _
  · exact ⟨_, rfl, rfl⟩

/-- A request that is posted is entered under the next number, on its way. -/
theorem postReq_travels (s : State) (r : Req) :
    ∃ q, s.postReq r = { s with reqs := kput s.reqs s.nextId q, nextId := s.nextId + 1 } ∧ Travels r q := by
  have hget : kget? (s.addReq r).reqs s.nextId = some r := kget?_kput_self ..
  have kept : ∀ f : Req → Req, Travels r (f r) →
      ∃ q, (s.addReq r).modReq s.nextId f = { s with reqs := kput s.reqs s.nextId q, nextId := s.nextId + 1 } ∧ Travels r q := by
    intro f hf
    refine ⟨f r, ?_, hf⟩
    simp only [State.modReq, addReq_reqs, kmod_kput]
    rfl
  unfold State.postReq State.start
  simp only [hget]
  split
  · exact kept _ rfl
  · split
    · obtain ⟨q, hq, ht⟩ := sendOut_travels (s.addReq r) s.nextId r true
      refine ⟨q, ?_, ht⟩
      rw [hq, addReq_reqs, kput_kput]
      rfl
    · exact kept _ rfl

/-! ## Lists of requests -/

/-- Requests that stand for those of a list, `R` to them, have been entered under new numbers; nothing else changes but copies. -/
def Posted (R : Req → Req → Prop) (s u : State) (l : List Req) : Prop :=
  u = { s with reqs := u.reqs, copies := u.copies, nextId := u.nextId } ∧ s.nextId ≤ u.nextId
    ∧ (∀ k, k < s.nextId → kget? u.reqs k = kget? s.reqs k)
    ∧ ∀ r ∈ l, ∃ k q, s.nextId ≤ k ∧ k < u.nextId ∧ kget? u.reqs k = some q ∧ R r q

theorem Posted.nil (R : Req → Req → Prop) (s : State) : Posted R s s [] :=
  ⟨rfl, le_rfl, fun _ _ => rfl, fun _ hr => absurd hr List.not_mem_nil⟩

theorem Posted.append {R : Req → Req → Prop} {s u v : State} {l m : List Req} (h : Posted R s u l) (h' : Posted R u v m) :
    Posted R s v (l ++ m) := by
  obtain ⟨hu, hn, hold, hreqs⟩ := h
  obtain ⟨hv, hn', hold', hreqs'⟩ := h'
  refine ⟨by rw [hv, hu], hn.trans hn', fun k hk => (hold' k (by omega)).trans (hold k hk), fun r hr => ?_⟩
  rcases List.mem_append.mp hr with hr | hr
  · obtain ⟨k, q, hle, hlt, hget, hR⟩ := hreqs r hr
    exact ⟨k, q, hle, by omega, (hold' k hlt).trans hget, hR⟩
  · obtain ⟨k, q, hle, hlt, hget, hR⟩ := hreqs' r hr
    exact ⟨k, q, by omega, hlt, hget, hR⟩

/-- One request entered, beside a change of the copies. -/
theorem Posted.single {R : Req → Req → Prop} {s : State} {r q : Req} (copies : KMap Copy) (h : R r q) :
    Posted R s { s with reqs := kput s.reqs s.nextId q, nextId := s.nextId + 1, copies := copies } [r] := by
  refine ⟨rfl, Nat.le_succ _, fun k hk => kget?_kput_ne _ _ (Nat.ne_of_lt hk), fun x hx => ?_⟩
  rw [List.mem_singleton.mp hx]
  exact ⟨s.nextId, q, le_rfl, Nat.lt_succ_self _, kget?_kput_self .., h⟩

theorem postReq_posted (s : State) (r : Req) : Posted Travels s (s.postReq r) [r] := by
  obtain ⟨q, hq, ht⟩ := postReq_travels s r
  rw [hq]
  exact .single s.copies ht

theorem postAll_posted (l : List Req) (s : State) : Posted Travels s (s.postAll l) l := by
  induction l generalizing s with
  | nil => exact .nil ..
  | cons r rest ih => exact (postReq_posted s r).append (ih _)

/-- A store is entered, whether an L1 copy takes its bytes, the page is untracked, or it goes home at once. -/
theorem postStore_posted (s : State) (r : Req) : Posted TravelsMarked s (s.postStore r) [r] := by
  have sent : ∀ (copies : KMap Copy) (op : Nat),
      Posted TravelsMarked s ({ s with copies := copies }.postReq { r with op := op }) [r] := by
    intro copies op
    obtain ⟨q, hq, ht⟩ := postReq_travels { s with copies := copies } { r with op := op }
    rw [hq]
    exact .single copies ⟨op, ht⟩
  have plain : Posted TravelsMarked s (s.postReq r) [r] := sent s.copies r.op
  unfold State.postStore
  dsimp only
  split
  · split
    · exact .single s.copies ⟨2, rfl⟩
    · exact plain
  · split
    · split
      · exact sent _ 1
      · exact plain
    · exact plain

theorem postStores_posted (l : List Req) (s : State) : Posted TravelsMarked s (s.postStores l) l := by
  induction l generalizing s with
  | nil => exact .nil ..
  | cons r rest ih => exact (postStore_posted s r).append (ih _)

/-! ## The registers that a request is to fill -/

theorem issued_id (s : State) : issued s 0 0 id = s := by
  have : kmod s.warps s.cur.1 id = s.warps := kmod_id ..
  simp only [issued, this, Nat.add_zero]

/-- A memory result for a register enters a warp, and the register takes its tag. -/
def destIn (s : State) (w : Warp) (p : Split) (lanes : Lanes) (v : Nat) (t : BitVec 4) (x : Warp) : Warp :=
  (enter s.nextId (newResult s w p (.vec v) 0 lanes [] 0 true) x).setTag s.orderKey v t

theorem addTagged_eq {s : State} {w : Warp} {p : Split} (h : Issuer s w p) (v : Nat) (lanes : Lanes) (t : BitVec 4) :
    (s.addResult (.vec v) 0 lanes [] 0 true).setTag v t = issued s 1 0 (destIn s w p lanes v t) := by
  rw [addResult_eq h, setTag_issued, issued_issued]
  rfl

theorem destIn_table (s : State) (w : Warp) (p : Split) (lanes : Lanes) (v : Nat) (t : BitVec 4) (x : Warp) :
    (destIn s w p lanes v t x).table = x.table := (setTag_kept _ _ _ _).1

/-- A tag that a later instruction has set stays (01 R22). -/
theorem setTag_late {w : Warp} {k r : Nat} {t : BitVec 4} (h : k < kgetD w.tagKey r 0) : w.setTag k r t = w := if_neg (Nat.not_le.mpr h)

/-- Memory results for a list of registers with their tags have been entered, under the numbers listed. -/
structure DestsEntered (s : State) (w v : Warp) (lanes : Lanes) (l : List (Nat × BitVec 4)) (ids : List Nat) : Prop where
  table : v.table = w.table
  kept : RegsKeptButTags w v
  old : ∀ k, k < s.nextId → kget? v.results k = kget? w.results k
  length : ids.length = l.length
  entered : ∀ (n : Nat) (d : Nat × BitVec 4), l[n]? = some d → ∃ id q, ids[n]? = some id ∧ kget? v.results id = some q ∧ q.dest = .vec d.1 ∧ q.mem = true
    ∧ q.done = (lanes == 0) ∧ q.pend = lanes
  tags : ∀ r, kgetD v.tags r 0 = kgetD w.tags r 0 ∨ (r, kgetD v.tags r 0) ∈ l
  tagged : (l.map Prod.fst).Nodup → ∀ d ∈ l, kgetD w.tagKey d.1 0 ≤ s.orderKey → kgetD v.tags d.1 0 = d.2
  tagKeys : ∀ r, r ∉ l.map Prod.fst → kgetD v.tagKey r 0 = kgetD w.tagKey r 0

theorem DestsEntered.nil (s : State) (w : Warp) (lanes : Lanes) : DestsEntered s w w lanes [] [] :=
  ⟨rfl, rfl, fun _ _ => rfl, rfl, by simp, fun _ => .inl rfl, by simp, fun _ _ => rfl⟩


/-- One more register in front of a list that has been entered. -/
theorem DestsEntered.cons {s s1 : State} {w u : Warp} {p : Split} {v : Nat} {lanes : Lanes} {t : BitVec 4}
    {l : List (Nat × BitVec 4)} {ids : List Nat} (h : DestsEntered s1 (destIn s w p lanes v t w) u lanes l ids)
    (hn : s1.nextId = s.nextId + 1) (hkey : s1.orderKey = s.orderKey) :
    DestsEntered s w u lanes ((v, t) :: l) (s.nextId :: ids) := by
  let w0 := enter s.nextId (newResult s w p (.vec v) 0 lanes [] 0 true) w
  obtain ⟨htable, hresults, hkept⟩ := setTag_kept w0 s.orderKey v t
  have htags : ∀ r, r ≠ v → kgetD (w0.setTag s.orderKey v t).tags r 0 = kgetD w.tags r 0 := fun r hr => setTag_other w0 _ _ _ _ hr
  have hkeys : ∀ r, r ≠ v → kgetD (w0.setTag s.orderKey v t).tagKey r 0 = kgetD w.tagKey r 0 := fun r hr => setTag_otherKey w0 _ _ _ _ hr
  have hset : kgetD w.tagKey v 0 ≤ s.orderKey → kgetD (w0.setTag s.orderKey v t).tags v 0 = t := setTag_tag w0 _ _ _
  have hsame : s.orderKey < kgetD w.tagKey v 0 → kgetD (w0.setTag s.orderKey v t).tags v 0 = kgetD w.tags v 0 := fun hlt => by
    rw [setTag_late (w := w0) hlt]; rfl
  have hold : ∀ k, k ≠ s.nextId → kget? (w0.setTag s.orderKey v t).results k = kget? w.results k := fun k hk => by
    rw [hresults]; exact kget?_kput_ne _ _ hk
  have hnew : kget? (w0.setTag s.orderKey v t).results s.nextId = some (newResult s w p (.vec v) 0 lanes [] 0 true) := by
    rw [hresults]; exact kget?_kput_self ..
  refine ⟨h.table.trans htable, regsKeptButTags_trans hkept h.kept, fun k hk => (h.old k (by omega)).trans (hold k (Nat.ne_of_lt hk)),
    by simp [h.length], fun n d hd => ?_, fun r => ?_, fun hnd d hd hle => ?_, fun r hr => ?_⟩
  · cases n with
    | zero =>
      cases hd
      exact ⟨s.nextId, _, rfl, (h.old s.nextId (by omega)).trans hnew, rfl, rfl, Bool.true_and _, rfl⟩
    | succ n => exact h.entered n d hd
  · rcases h.tags r with hr | hr
    · by_cases hv : r = v
      · subst hv
        by_cases hle : kgetD w.tagKey r 0 ≤ s.orderKey
        · rw [hr.trans (hset hle)]; exact .inr List.mem_cons_self
        · exact .inl (hr.trans (hsame (Nat.not_le.mp hle)))
      · exact .inl (hr.trans (htags r hv))
    · exact .inr (List.mem_cons_of_mem _ hr)
  · obtain ⟨hnot, hnd⟩ := List.nodup_cons.mp hnd
    rcases List.mem_cons.mp hd with rfl | hd
    · rcases h.tags v with hr | hr
      · exact hr.trans (hset hle)
      · exact absurd (List.mem_map.mpr ⟨_, hr, rfl⟩) hnot
    · have hne : d.1 ≠ v := fun he => hnot (List.mem_map.mpr ⟨d, hd, he⟩)
      exact h.tagged hnd d hd (by rw [hkey]; exact (hkeys _ hne).trans_le hle)
  · simp only [List.map_cons, List.mem_cons, not_or] at hr
    exact (h.tagKeys r hr.2).trans (hkeys r hr.1)

/-- LD enters a result for each of its registers (01 R22, 07 R181). -/
theorem loadDests_entered (lanes : Lanes) (ty : Nat) (l : List Nat) (i : Nat) {s : State} {w : Warp} {p : Split} (h : Issuer s w p) :
    ∃ a g ids, s.loadDests lanes ty l i = (issued s a 0 g, ids)
      ∧ DestsEntered s w (g w) lanes (List.zip l ((List.range' i l.length).map (loadTag ty))) ids := by
  induction l generalizing i s w with
  | nil => exact ⟨0, id, [], by rw [issued_id]; rfl, .nil ..⟩
  | cons v rest ih =>
    obtain ⟨a, g, ids, heq, hd⟩ := ih (i + 1) (issued_issuer h 1 0 (destIn_table s w p lanes v (loadTag ty i) w))
    refine ⟨1 + a, fun x => g (destIn s w p lanes v (loadTag ty i) x), s.nextId :: ids, ?_, hd.cons rfl rfl⟩
    rw [State.loadDests, addTagged_eq h, heq, issued_issued]

/-- A fetching atomic enters a result for each of its registers, with the tag that it has (07 R190). -/
theorem atomDests_entered (lanes : Lanes) (l : List Nat) {s : State} {w : Warp} {p : Split} (h : Issuer s w p) :
    ∃ a g ids, s.atomDests lanes l = (issued s a 0 g, ids)
      ∧ DestsEntered s w (g w) lanes (l.map fun v => (v, kgetD w.tags v 0)) ids := by
  induction l generalizing s w with
  | nil => exact ⟨0, id, [], by rw [issued_id]; rfl, .nil ..⟩
  | cons v rest ih =>
    have hcur : s.tagOfReg v = kgetD w.tags v 0 := by rw [State.tagOfReg, issuer_curWarp h]
    have hsame : ∀ r, kgetD (destIn s w p lanes v (kgetD w.tags v 0) w).tags r 0 = kgetD w.tags r 0 := by
      intro r
      by_cases hr : r = v
      · subst hr
        by_cases hle : kgetD w.tagKey r 0 ≤ s.orderKey
        · exact setTag_tag _ _ _ _ hle
        · rw [destIn, setTag_late (w := enter _ _ w) (Nat.not_le.mp hle)]; rfl
      · exact setTag_other _ _ _ _ _ hr
    obtain ⟨a, g, ids, heq, hd⟩ := ih (issued_issuer h 1 0 (destIn_table s w p lanes v (kgetD w.tags v 0) w))
    simp only [hsame] at hd
    refine ⟨1 + a, fun x => g (destIn s w p lanes v (kgetD w.tags v 0) x), s.nextId :: ids, ?_, hd.cons rfl rfl⟩
    rw [State.atomDests, hcur, addTagged_eq h, heq, issued_issued]

/-! ## The issue of a memory instruction -/

/-- An instruction whose registers, tags and addresses pass does its work and retires (07 R175, R178). -/
theorem runMem_passes {s : State} {w : Warp} {p : Split} (h : Issuer s w p) {r : MRule} (hr : r.Passes s w) {f : MFmt} {regs : List Nat}
    (hregs : regs = r.regs) {chk : List TagCheck} (hchk : demands chk = r.tags) {addrs : List Word} (haddrs : addrs = r.addrs.map Prod.snd)
    {size : Nat} (hsize : ∀ a : Word, (size != 0 && a.toNat % size != 0) = (a.toNat % r.align != 0)) (eff : State → State) :
    s.runMem f regs chk (addrFault addrs size) eff = .next ((eff s).retire f.sw 2 1) := by
  obtain ⟨hbudget, htags, hall⟩ := hr
  have hv := vecFault_none s regs false chk (by rwa [hregs, issuer_curWarp h]) (.inr (demands_pass (hchk ▸ htags)))
  have hn : addrs.find? (fun a => wf a 57 3 != 0) = none := by
    simp only [haddrs, wf, Commands.toNat_bne_zero, List.find?_map, Function.comp_def, Option.map_eq_none_iff, List.find?_eq_none]
    intro a ha; simp [(hall a ha).1]
  have hm : addrs.find? (fun a => size != 0 && a.toNat % size != 0) = none := by
    simp only [haddrs, hsize, List.find?_map, Function.comp_def, Option.map_eq_none_iff, List.find?_eq_none]
    intro a ha; simp [(hall a ha).2]
  simp only [State.runMem, hv, addrFault, hn, hm]

/-- What the split goes on with once its requests are posted (07 R178): the results entered are still to come. -/
theorem posted_retires {R : Req → Req → Prop} {s u : State} {w : Warp} {p : Split} (h : Issuer s w p) {a : Nat} {g : Warp → Warp}
    (htable : (g w).table = w.table) (hkept : RegsKeptButTags w (g w)) {l : List Req} (hpost : Posted R (issued s a 0 g) u l) (sw : Bool) :
    ∃ w', MemIssued s (u.retire sw 2 1) w w' p sw ∧ RegsKept (g w) w'
      ∧ (∀ k r, kget? (g w).results k = some r → r.done = false → kget? w'.results k = some r)
      ∧ ∀ r ∈ l, ∃ q, (∃ k, s.nextId ≤ k ∧ kget? (u.retire sw 2 1).reqs k = some q) ∧ R r q := by
  obtain ⟨hu, hn, hold, hreqs⟩ := hpost
  obtain ⟨reqs, copies, n, rfl⟩ : ∃ reqs copies n, u = { issued s a 0 g with reqs := reqs, copies := copies, nextId := n } := ⟨_, _, _, hu⟩
  have hi : Issuer { issued s a 0 g with reqs := reqs, copies := copies, nextId := n } (g w) p := issued_issuer h a 0 htable
  obtain ⟨ids, f, hret, hregs, hothers, hproc, hres⟩ := retire_proceeds hi sw 2 1
  rw [hret]
  refine ⟨f (g w), ⟨rfl, fun k hk => ?_, fun k hk => hold k (Nat.lt_add_right a hk), ?_, ?_, fun k hk => ?_, hproc⟩, hregs, hres, fun r hr => ?_⟩
  · exact (kget?_kmod_ne _ f hk).trans (kget?_kmod_ne _ g hk)
  · exact (issued_warp _ ids 1 f).trans (by rw [hi.1]; rfl)
  · exact regsKeptButTags_trans hkept (by unfold RegsKept at hregs; unfold RegsKeptButTags; rw [hregs])
  · rw [hothers k hk, htable]
  · obtain ⟨k, q, hle, -, hget, hR⟩ := hreqs r hr
    exact ⟨q, ⟨k, (Nat.le_add_right ..).trans hle, hget⟩, hR⟩

/-- What the issuer asks for: what `Sent` says of a request beside its number. -/
def Asks (s : State) (f : MFmt) (kind : ReqKind) (lanes : Lanes) (a : Word) (size : Nat) (r : Req) : Prop :=
  r.kind = kind ∧ r.wid = s.cur.1 ∧ r.own = s.curSplit.lmask ∧ r.lanes = lanes ∧ r.va = a ∧ r.size = size ∧ r.scope = f.sc.toNat
    ∧ r.ord = f.fq.toNat ∧ r.asid = s.curLaunch.asid ∧ r.clk = s.clk

theorem newReq_asks {s : State} {w : Warp} {p : Split} (h : Issuer s w p) {a : Nat} {g : Warp → Warp} (htable : (g w).table = w.table)
    (hkept : RegsKeptButTags w (g w)) (kind : ReqKind) (lanes : Lanes) (seq : Nat) (va : Word) (size : Nat) (f : MFmt) :
    Asks s f kind lanes va size ((issued s a 0 g).newReq kind lanes seq va size f) := by
  have hi := issued_issuer h a 0 htable
  have hblock : (issued s a 0 g).curBlock = s.curBlock := by
    have : (g w).block = w.block := by rw [hkept]
    rw [State.curBlock, State.curBlock, issuer_curWarp hi, issuer_curWarp h, this]
    rfl
  refine ⟨rfl, rfl, ?_, rfl, rfl, rfl, rfl, rfl, ?_, rfl⟩
  · show (issued s a 0 g).curSplit.lmask = _
    rw [issuer_curSplit hi, issuer_curSplit h]
  · show ((issued s a 0 g).launchD (issued s a 0 g).curBlock.launch).asid = _
    rw [hblock]
    rfl

theorem Travels.asks {s : State} {f : MFmt} {kind : ReqKind} {lanes : Lanes} {a : Word} {size : Nat} {r q : Req} (h : Travels r q)
    (hr : Asks s f kind lanes a size r) : Asks s f kind lanes a size q := by
  rw [h]
  exact hr

theorem TravelsMarked.asks {s : State} {f : MFmt} {kind : ReqKind} {lanes : Lanes} {a : Word} {size : Nat} {r q : Req} (h : TravelsMarked r q)
    (hr : Asks s f kind lanes a size r) : Asks s f kind lanes a size q := by
  obtain ⟨op, h⟩ := h
  exact h.asks (r := { r with op := op }) hr

/-! ## Loads -/

/-- Destinations entered are those of the registers, with every lane to come. -/
theorem DestsEntered.fetches {s : State} {w v w' : Warp} {lanes : Lanes} {l : List (Nat × BitVec 4)} {ids : List Nat}
    (h : DestsEntered s w v lanes l ids) (hlanes : lanes ≠ 0)
    (hres : ∀ k r, kget? v.results k = some r → r.done = false → kget? w'.results k = some r) {q : Req} (hq : q.regs = ids) :
    Fetches w' q lanes ((l.map Prod.fst).map .vec) := by
  have hdone : (lanes == 0) = false := beq_false_of_ne hlanes
  refine ⟨by simp [hq, h.length], fun n d hd => ?_⟩
  simp only [List.map_map, List.getElem?_map, Option.map_eq_some_iff] at hd
  obtain ⟨x, hx, rfl⟩ := hd
  obtain ⟨id, r, hid, hget, hdest, hmem, hd, hpend⟩ := h.entered n x hx
  rw [hdone] at hd
  exact ⟨id, r, hq ▸ hid, hres id r hget hd, hdest, hmem, hd, hpend⟩

theorem dataRule_nodup (f : MFmt) : (dataRule f).Nodup := by
  unfold dataRule
  split
  · simp
  · split <;> simp

/-- The lanes that an active lane belongs to are some. -/
theorem effective_ne_zero {s : State} {f : MFmt} {l : Nat} (h : l ∈ activeLanes s f) : s.effective f.msk.toNat ≠ 0 := by
  intro h0
  simp [activeLanes, h0] at h

theorem mem_laneAddrs {s : State} {f : MFmt} {l : Nat} (h : l ∈ activeLanes s f) : (l, laneAddr s f l) ∈ s.laneAddrs f :=
  List.mem_map_of_mem h

theorem zip_fst {α β : Type} (l : List α) (m : List β) (h : l.length ≤ m.length) : (List.zip l m).map Prod.fst = l := by
  rw [List.map_fst_zip h]

/-- The load of a lane at its address (07 R181). -/
def laneLoad (s : State) (f : MFmt) (ids : List Nat) (sext : Bool) (seq : Nat) (x : Nat × Word) : Req :=
  { s.newReq .load (1#32 <<< x.1) seq x.2 (szBytes f) f with regs := ids, sext := sext }

/-- LD posts its loads after it has entered its results (07 R178, R181). -/
theorem exec_ld {s : State} {w : Warp} {p : Split} (h : Issuer s w p) {ty : BitVec 4} {f : MFmt} {r : MRule}
    (hrule : memRule s (.ld ty f) = some r) (hpass : r.Passes s w) {u : State} {ids : List Nat}
    (hdests : s.loadDests (s.effective f.msk.toNat) ty.toNat (dataRule f) 0 = (u, ids)) :
    exec (.ld ty f) s = .next ((u.postAll ((s.laneAddrs f).map (laneLoad u f ids (ty == 1) s.nextId))).retire f.sw 2 1) := by
  cases hrule
  dsimp only [exec, execLd]
  refine (runMem_passes h hpass (by simp) (by simp) rfl (szBytes_align f) _).trans ?_
  rw [dataRegs_rule, hdests]
  rfl

theorem loadTag_eq (ty : BitVec 4) (n : Nat) : loadTag ty.toNat n = if (ty = 13 ∨ ty = 14) ∧ n = 1 then 15 else ty := by
  have h13 : ty.toNat = 13 ↔ ty = 13 := BitVec.toNat_inj (y := 13)
  have h14 : ty.toNat = 14 ↔ ty = 14 := BitVec.toNat_inj (y := 14)
  simp only [loadTag, isPairTy_iff, h13, h14, BitVec.ofNat_toNat, BitVec.setWidth_eq]

/-- LD sends a load for each active lane and tags its registers (07 R181, 01 R22). -/
theorem ld_issues {s : State} {w : Warp} {p : Split} (h : Issuer s w p) {ty : BitVec 4} {f : MFmt} {r : MRule}
    (hrule : memRule s (.ld ty f) = some r) (hpass : r.Passes s w) :
    ∃ t w', exec (.ld ty f) s = .next t ∧ MemIssued s t w w' p f.sw
      ∧ (∀ l ∈ activeLanes s f, ∃ q, Sent s t f .load (1#32 <<< l) (laneAddr s f l) (2 ^ f.sz.toNat) q ∧ q.hint = f.hnt.toNat
          ∧ q.sext = decide (ty = 1) ∧ Fetches w' q (s.effective f.msk.toNat) ((dataRule f).map .vec))
      ∧ (∀ (n v : Nat), (dataRule f)[n]? = some v → TagSet s w w' v (if (ty = 13 ∨ ty = 14) ∧ n = 1 then 15 else ty))
      ∧ TagsKept w w' (dataRule f) := by
  obtain ⟨a, g, ids, hdests, hd⟩ := loadDests_entered (s.effective f.msk.toNat) ty.toNat (dataRule f) 0 h
  obtain ⟨w', hissued, hregs, hres, hsent⟩ := posted_retires h hd.table hd.kept
    (postAll_posted ((s.laneAddrs f).map (laneLoad (issued s a 0 g) f ids (ty == 1) s.nextId)) _) f.sw
  have hfst := zip_fst (dataRule f) ((List.range' 0 (dataRule f).length).map (loadTag ty.toNat)) (by simp)
  have htags : w'.tags = (g w).tags := by rw [hregs]
  refine ⟨_, w', exec_ld h hrule hpass hdests, hissued, fun l hl => ?_, fun n v hv hle => ?_, fun v hv => ?_⟩
  · obtain ⟨q, hq, htravel⟩ := hsent _ (List.mem_map_of_mem (mem_laneAddrs hl))
    have hfetch := hd.fetches (effective_ne_zero hl) hres (q := q) (by rw [htravel]; rfl)
    rw [hfst] at hfetch
    exact ⟨q, ⟨hq, htravel.asks (newReq_asks h hd.table hd.kept .load _ s.nextId _ _ f)⟩, by rw [htravel]; rfl, by rw [htravel]; exact beq_eq_decide .., hfetch⟩
  · obtain ⟨hn, hv⟩ := List.getElem?_eq_some_iff.mp hv
    have hmem : (v, loadTag ty.toNat n) ∈ List.zip (dataRule f) ((List.range' 0 (dataRule f).length).map (loadTag ty.toNat)) :=
      List.mem_of_getElem? (i := n) (by simp [hn, hv])
    rw [htags, hd.tagged (by rw [hfst]; exact dataRule_nodup f) _ hmem hle, loadTag_eq]
  · rw [htags]
    rcases hd.tags v with hv' | hv'
    · exact hv'
    · exact absurd (List.of_mem_zip hv').1 hv

/-- The result of a request for the split goes to s[DATA], in every lane (07 R183); s63 discards it. -/
theorem scalarDest_fetches {s : State} {w w' : Warp} {p : Split} {n : Nat} {q : Req} (hq : q.regs = [s.nextId])
    (hres : ∀ k r, kget? (enter s.nextId (newResult s w p (.sca n) 0 (BitVec.allOnes 32) [] 0 true) w).results k = some r → r.done = false →
      kget? w'.results k = some r) :
    Fetches w' q (BitVec.allOnes 32) [if n = 63 then .none else .sca n] := by
  refine ⟨by simp [hq], fun i d hd => ?_⟩
  cases i with
  | succ i => simp at hd
  | zero =>
    cases hd
    refine ⟨s.nextId, _, by rw [hq]; rfl, hres _ _ (kget?_kput_self ..) rfl, ?_, rfl, rfl, rfl⟩
    by_cases h63 : n = 63
    · subst h63; rfl
    · simp only [newResult, h63, if_false]
      split <;> simp_all

/-- A request for the split that is to fill s[DATA] (07 R183, R199). -/
theorem scalarRequest_issues {s : State} {w : Warp} {p : Split} (h : Issuer s w p) {i : Instr} {f : MFmt} {kind : ReqKind} {va : Word}
    {size : Nat} (sext : Bool)
    (hexec : exec i s = .next (((s.addResult (.sca f.data.toNat) 0 (BitVec.allOnes 32) [] 0 true).postReq
      { (s.addResult (.sca f.data.toNat) 0 (BitVec.allOnes 32) [] 0 true).newReq kind s.curSplit.lmask s.nextId va size f with
        regs := [s.nextId], sext := sext }).retire f.sw 2 1)) :
    ∃ t w' q, exec i s = .next t ∧ MemIssued s t w w' p f.sw ∧ RegsKept w w' ∧ Sent s t f kind p.lmask va size q ∧ q.sext = sext
      ∧ Fetches w' q (BitVec.allOnes 32) [if f.data.toNat = 63 then .none else .sca f.data.toNat] := by
  rw [addResult_eq h, issuer_curSplit h] at hexec
  generalize hr : newResult s w p (.sca f.data.toNat) 0 (BitVec.allOnes 32) [] 0 true = r at hexec
  obtain ⟨w', hissued, hregs, hres, hsent⟩ := posted_retires (s := s) (a := 1) (g := enter s.nextId r) h rfl rfl (postReq_posted _ _) f.sw
  obtain ⟨q, hq, htravel⟩ := hsent _ (List.mem_singleton_self _)
  refine ⟨_, w', q, hexec, hissued, by rw [RegsKept, hregs]; rfl,
    ⟨hq, htravel.asks (newReq_asks (a := 1) (g := enter s.nextId r) h rfl rfl kind p.lmask s.nextId va size f)⟩, by rw [htravel], ?_⟩
  exact scalarDest_fetches (by rw [htravel]) (hr ▸ hres)

/-- LDS and LDS.sx send one load for the split (07 R183). -/
theorem loadScalar_issues {s : State} {w : Warp} {p : Split} (h : Issuer s w p) {i : Instr} {f : MFmt} (hi : i = .lds f ∨ i = .ldsSx f)
    {r : MRule} (hrule : memRule s i = some r) (hpass : r.Passes s w) :
    ∃ t w' q, exec i s = .next t ∧ MemIssued s t w w' p f.sw ∧ RegsKept w w' ∧ Sent s t f .load p.lmask (onceAddr s f) (2 ^ f.sz.toNat) q
      ∧ q.sext = decide (i = .ldsSx f) ∧ Fetches w' q (BitVec.allOnes 32) [if f.data.toNat = 63 then .none else .sca f.data.toNat] := by
  rcases hi with rfl | rfl <;> cases hrule
  · rw [show decide (Instr.lds f = .ldsSx f) = false by simp]
    refine scalarRequest_issues h false ?_
    dsimp only [exec, execLds, State.loadScalar]
    exact runMem_passes h hpass rfl (chk := []) rfl rfl (szBytes_align f) _
  · rw [decide_eq_true rfl]
    refine scalarRequest_issues h true ?_
    dsimp only [exec, execLdsSx, State.loadScalar]
    exact runMem_passes h hpass rfl (chk := []) rfl rfl (szBytes_align f) _

theorem lineVa_lineOf (asid va g : Nat) : lineVa (lineOf asid va g) = lineBase va g := by
  have : va % 2 ^ 57 / g * g < 2 ^ 57 := (Nat.div_mul_le_self _ _).trans_lt (Nat.mod_lt _ (by decide))
  simp only [lineVa, lineOf, lineBase]
  omega

/-- LKQRY sends one query of the line for the split (07 R199). -/
theorem lkqry_issues {s : State} {w : Warp} {p : Split} (h : Issuer s w p) {f : MFmt} {r : MRule} (hrule : memRule s (.lkqry f) = some r)
    (hpass : r.Passes s w) :
    ∃ t w' q a, exec (.lkqry f) s = .next t ∧ MemIssued s t w w' p f.sw ∧ RegsKept w w'
      ∧ Sent s t f .lkqry p.lmask a (s.grainAt s.curBlock.pkg s.curLaunch.asid (onceAddr s f).toNat) q
      ∧ a = BitVec.ofNat 64 (lineBase (onceAddr s f).toNat (s.grainAt s.curBlock.pkg s.curLaunch.asid (onceAddr s f).toNat))
      ∧ Fetches w' q (BitVec.allOnes 32) [if f.data.toNat = 63 then .none else .sca f.data.toNat] := by
  cases hrule
  obtain ⟨t, w', q, hexec, hissued, hregs, hsent, -, hfetch⟩ :=
    scalarRequest_issues (i := .lkqry f) (kind := .lkqry) (va := lineWord (s.lockLine (onceAddr s f)))
      (size := s.grainAt s.curBlock.pkg s.curLaunch.asid (onceAddr s f).toNat) h false (by
        dsimp only [exec, execLkqry]
        exact runMem_passes h hpass rfl (chk := []) rfl rfl line_align _)
  exact ⟨t, w', q, _, hexec, hissued, hregs, hsent, congrArg (BitVec.ofNat 64) (lineVa_lineOf ..), hfetch⟩

/-- Settles O9, by instruction. -/
theorem loadsIssue : Obligations.LoadsIssue := by
  unfold Obligations.LoadsIssue
  intro s w p i r h hwf hrule hpass
  refine ⟨fun ty f hi => ?_, fun f hi => loadScalar_issues h hi hrule hpass, fun f hi => ?_⟩
  · subst hi
    exact ld_issues h hrule hpass
  · subst hi
    exact lkqry_issues h hrule hpass

end Sys2Proof.Laws.Requests

namespace Sys2Proof.Laws.Requests

/-! # Stores, prefetches and cache operations send their requests (07 R175 to R189) -/

open Sys2Proof.Machine Sys2Proof.Safety Sys2Proof.Rules Sys2Proof.Laws.Operands

theorem newReq_asks_self {s : State} {w : Warp} {p : Split} (h : Issuer s w p) (kind : ReqKind) (lanes : Lanes) (seq : Nat) (va : Word)
    (size : Nat) (f : MFmt) : Asks s f kind lanes va size (s.newReq kind lanes seq va size f) := by
  have := newReq_asks (a := 0) (g := id) h rfl rfl kind lanes seq va size f
  rwa [issued_id] at this

/-- Requests of an instruction without results, once they are posted: no register changes, and the split goes on (07 R178). -/
theorem posted_keeps {R : Req → Req → Prop} {s u : State} {w : Warp} {p : Split} (h : Issuer s w p) {l : List Req} (n : Nat)
    (hpost : Posted R { s with nextId := s.nextId + n } u l) (sw : Bool) :
    ∃ w', MemIssued s (u.retire sw 2 1) w w' p sw ∧ RegsKept w w'
      ∧ ∀ r ∈ l, ∃ q, (∃ k, s.nextId ≤ k ∧ kget? (u.retire sw 2 1).reqs k = some q) ∧ R r q := by
  have hbump : issued s n 0 id = { s with nextId := s.nextId + n } := by
    have : kmod s.warps s.cur.1 id = s.warps := kmod_id ..
    rw [issued, this]
    rfl
  obtain ⟨w', hissued, hregs, -, hsent⟩ := posted_retires (g := id) h rfl rfl (hbump.symm ▸ hpost) sw
  exact ⟨w', hissued, hregs, hsent⟩

/-! ## Stores -/

/-- The store of a lane (07 R181). -/
def laneStore (s : State) (f : MFmt) (x : Nat × Word) : Req :=
  { s.newReq .store (1#32 <<< x.1) (s.nextId + x.1) x.2 (szBytes f) f with data := s.storeData f x.1 }

theorem storeData_rule (s : State) (f : MFmt) (l : Nat) :
    s.storeData f l = ((dataRule f).flatMap fun v => natBytes (s.rdV v l 1).toNat 4).take (2 ^ f.sz.toNat) := by
  rw [State.storeData, dataRegs_rule]
  rfl

/-- ST sends a store for each active lane (07 R181). -/
theorem st_issues {s : State} {w : Warp} {p : Split} (h : Issuer s w p) {ty : BitVec 4} {f : MFmt} {r : MRule}
    (hrule : memRule s (.st ty f) = some r) (hpass : r.Passes s w) :
    ∃ t w', exec (.st ty f) s = .next t ∧ MemIssued s t w w' p f.sw ∧ RegsKept w w'
      ∧ ∀ l ∈ activeLanes s f, ∃ q, Sent s t f .store (1#32 <<< l) (laneAddr s f l) (2 ^ f.sz.toNat) q
        ∧ q.data = ((dataRule f).flatMap fun v => natBytes (s.rdV v l 1).toNat 4).take (2 ^ f.sz.toNat) := by
  have hexec : exec (.st ty f) s
      = .next (({ s with nextId := s.nextId + 32 }.postStores ((s.laneAddrs f).map (laneStore s f))).retire f.sw 2 1) := by
    cases hrule
    dsimp only [exec, execSt]
    exact runMem_passes h hpass (by simp) (by simp) rfl (szBytes_align f) _
  obtain ⟨w', hissued, hregs, hsent⟩ := posted_keeps h 32 (postStores_posted ((s.laneAddrs f).map (laneStore s f)) _) f.sw
  refine ⟨_, w', hexec, hissued, hregs, fun l hl => ?_⟩
  obtain ⟨q, hq, htravel⟩ := hsent _ (List.mem_map_of_mem (mem_laneAddrs hl))
  have hasks := htravel.asks (r := laneStore s f (l, laneAddr s f l)) (newReq_asks_self h .store (1#32 <<< l) (s.nextId + l) _ (szBytes f) f)
  obtain ⟨op, htravel⟩ := htravel
  exact ⟨q, ⟨hq, hasks⟩, by rw [htravel]; exact storeData_rule s f l⟩

/-- The store of a split (07 R183). -/
def splitStore (s : State) (f : MFmt) (lanes : Lanes) : Req :=
  { s.newReq .store lanes s.nextId (onceAddr s f) (szBytes f) f with data := natBytes (s.rdS f.data.toNat).toNat (szBytes f) }

/-- STS sends one store for the split (07 R183). -/
theorem sts_issues {s : State} {w : Warp} {p : Split} (h : Issuer s w p) {f : MFmt} {r : MRule} (hrule : memRule s (.sts f) = some r)
    (hpass : r.Passes s w) :
    ∃ t w' q, exec (.sts f) s = .next t ∧ MemIssued s t w w' p f.sw ∧ RegsKept w w'
      ∧ Sent s t f .store p.lmask (onceAddr s f) (2 ^ f.sz.toNat) q ∧ q.data = natBytes (s.rdS f.data.toNat).toNat (2 ^ f.sz.toNat) := by
  have hexec : exec (.sts f) s = .next ((s.postStore (splitStore s f s.curSplit.lmask)).retire f.sw 2 1) := by
    cases hrule
    dsimp only [exec, execSts]
    exact runMem_passes h hpass rfl (chk := []) rfl rfl (szBytes_align f) _
  rw [issuer_curSplit h] at hexec
  obtain ⟨w', hissued, hregs, hsent⟩ := posted_keeps h 0 (postStore_posted s (splitStore s f p.lmask)) f.sw
  obtain ⟨q, hq, htravel⟩ := hsent _ (List.mem_singleton_self _)
  have hasks := htravel.asks (r := splitStore s f p.lmask) (newReq_asks_self h .store p.lmask s.nextId (onceAddr s f) (szBytes f) f)
  obtain ⟨op, htravel⟩ := htravel
  exact ⟨_, w', q, hexec, hissued, hregs, ⟨hq, hasks⟩, by rw [htravel]; rfl⟩

/-! ## Prefetches and cache operations -/

/-- The line of a lane's address, with the address's memory tag (07 R188, R189). -/
def lineOfLane (s : State) (a : Word) : Word :=
  BitVec.ofNat 64 (lineBase a.toNat (s.grainAt s.curBlock.pkg s.curLaunch.asid a.toNat)) ||| (a &&& 0xF000000000000000)

/-- The request of a lane for its line. -/
def laneLine (s : State) (f : MFmt) (kind : ReqKind) (seq : Nat) (x : Nat × Word) : Req :=
  s.newReq kind (1#32 <<< x.1) seq (lineOfLane s x.2) (s.grainAt s.curBlock.pkg s.curLaunch.asid x.2.toNat) f

/-- The step of CWB and CINV for one lane. -/
def maintainLane (f : MFmt) (kind : ReqKind) (seq : Nat) (s : State) (x : Nat × Word) : State :=
  match s.leafAt s.curBlock.pkg (laneLine s f kind seq x).asid (lineOfLane s x.2).toNat with
  | some _ => s.addReq { laneLine s f kind seq x with op := 2, phase := .out, arrive := s.clk + 2 }
  | none => s.postReq (laneLine s f kind seq x)

theorem maintainLane_posted (f : MFmt) (kind : ReqKind) (seq : Nat) (s : State) (x : Nat × Word) :
    Posted TravelsMarked s (maintainLane f kind seq s x) [laneLine s f kind seq x] := by
  unfold maintainLane
  split
  · exact .single s.copies ⟨2, rfl⟩
  · obtain ⟨q, hq, ht⟩ := postReq_travels s (laneLine s f kind seq x)
    rw [hq]
    exact .single s.copies ⟨_, ht⟩

/-- What a lane asks for does not depend on the requests of the lanes before it. -/
theorem laneLine_congr {s u : State} (h : u = { s with reqs := u.reqs, copies := u.copies, nextId := u.nextId }) (f : MFmt) (kind : ReqKind)
    (seq : Nat) : laneLine u f kind seq = laneLine s f kind seq := by
  rw [h]
  rfl

theorem maintainLanes_posted (f : MFmt) (kind : ReqKind) (seq : Nat) (l : List (Nat × Word)) (s : State) :
    Posted TravelsMarked s (l.foldl (maintainLane f kind seq) s) (l.map (laneLine s f kind seq)) := by
  induction l generalizing s with
  | nil => exact .nil ..
  | cons x rest ih =>
    have hone := maintainLane_posted f kind seq s x
    have hrest := ih (maintainLane f kind seq s x)
    rw [laneLine_congr hone.1] at hrest
    exact hone.append hrest

/-- The prefetch of a lane (07 R188). -/
def lanePrefetch (s : State) (f : MFmt) (l2 : Nat) (x : Nat × Word) : Req :=
  { laneLine s f .prf s.nextId x with op := l2, hint := if l2 = 1 then 3 else f.hnt.toNat }

/-- Lanes whose address is canonical. -/
def canonicalLanes (s : State) (f : MFmt) : List (Nat × Word) := (s.laneAddrs f).filter fun x => wf x.2 57 3 == 0

theorem mem_canonicalLanes {s : State} {f : MFmt} {l : Nat} (hl : l ∈ activeLanes s f) (ha : (laneAddr s f l).extractLsb' 57 3 = 0) :
    (l, laneAddr s f l) ∈ canonicalLanes s f :=
  List.mem_filter.mpr ⟨mem_laneAddrs hl, by simp [wf, ha]⟩

/-- The checks of a prefetch or of a cache operation: its index register, and of a cache operation its addresses. -/
def lineRule (s : State) (f : MFmt) (lanes : List Nat) : MRule := ⟨f, indexRule f, indexTags f, lanes.map fun l => (l, laneAddr s f l), 1⟩

/-- PRF and PRF.l2 send a prefetch for each active lane with a canonical address (07 R188). -/
theorem prefetch_issues {s : State} {w : Warp} {p : Split} (h : Issuer s w p) {f : MFmt} (hpass : (lineRule s f []).Passes s w) (l2 : Nat) :
    ∃ t w', s.prefetch f l2 = .next t ∧ MemIssued s t w w' p f.sw ∧ RegsKept w w'
      ∧ ∀ l ∈ activeLanes s f, (laneAddr s f l).extractLsb' 57 3 = 0 → ∃ q, Sent s t f .prf (1#32 <<< l) (lineOfLane s (laneAddr s f l))
          (s.grainAt s.curBlock.pkg s.curLaunch.asid (laneAddr s f l).toNat) q ∧ q.op = l2 := by
  have hexec : s.prefetch f l2 = .next ((s.postAll ((canonicalLanes s f).map (lanePrefetch s f l2))).retire f.sw 2 1) := by
    dsimp only [State.prefetch]
    exact runMem_passes h hpass (idxRegs_rule f) (demands_idxChk f) (addrs := []) rfl line_align _
  obtain ⟨w', hissued, hregs, hsent⟩ := posted_keeps h 0 (postAll_posted ((canonicalLanes s f).map (lanePrefetch s f l2)) s) f.sw
  refine ⟨_, w', hexec, hissued, hregs, fun l hl ha => ?_⟩
  obtain ⟨q, hq, htravel⟩ := hsent _ (List.mem_map_of_mem (mem_canonicalLanes hl ha))
  exact ⟨q, ⟨hq, htravel.asks (r := lanePrefetch s f l2 (l, laneAddr s f l)) (newReq_asks_self h .prf (1#32 <<< l) s.nextId (lineOfLane s _) (s.grainAt s.curBlock.pkg s.curLaunch.asid _) f)⟩, by rw [htravel]; rfl⟩

/-- CWB and CINV send a request for the line of each active lane (07 R189). -/
theorem maintain_issues {s : State} {w : Warp} {p : Split} (h : Issuer s w p) {f : MFmt}
    (hpass : (lineRule s f (activeLanes s f)).Passes s w) (kind : ReqKind) :
    ∃ t w', s.maintain f kind = .next t ∧ MemIssued s t w w' p f.sw ∧ RegsKept w w'
      ∧ ∀ l ∈ activeLanes s f, ∃ q, Sent s t f kind (1#32 <<< l) (lineOfLane s (laneAddr s f l))
          (s.grainAt s.curBlock.pkg s.curLaunch.asid (laneAddr s f l).toNat) q := by
  have hexec : s.maintain f kind = .next (((s.laneAddrs f).foldl (maintainLane f kind s.nextId) s).retire f.sw 2 1) := by
    dsimp only [State.maintain]
    exact runMem_passes h hpass (idxRegs_rule f) (demands_idxChk f) rfl line_align _
  obtain ⟨w', hissued, hregs, hsent⟩ := posted_keeps h 0 (maintainLanes_posted f kind s.nextId (s.laneAddrs f) s) f.sw
  refine ⟨_, w', hexec, hissued, hregs, fun l hl => ?_⟩
  obtain ⟨q, hq, htravel⟩ := hsent _ (List.mem_map_of_mem (mem_laneAddrs hl))
  exact ⟨q, hq, htravel.asks (r := laneLine s f kind s.nextId (l, laneAddr s f l)) (newReq_asks_self h kind (1#32 <<< l) s.nextId (lineOfLane s _) (s.grainAt s.curBlock.pkg s.curLaunch.asid _) f)⟩

/-- Settles O36, by instruction. -/
theorem storesIssue : Obligations.StoresIssue := by
  unfold Obligations.StoresIssue
  refine ⟨fun s w p i r h _ hrule hpass => ⟨fun ty f hi => ?_, fun f hi => ?_⟩, fun s w p i f kind h _ hi hidx htags hcanon => ?_⟩
  · subst hi
    exact st_issues h hrule hpass
  · subst hi
    exact sts_issues h hrule hpass
  · have hone : (lineRule s f []).Passes s w := ⟨hidx, htags, by simp [lineRule]⟩
    have hlines : kind ≠ .prf → (lineRule s f (activeLanes s f)).Passes s w := fun hk =>
      ⟨hidx, htags, by simpa [lineRule, Nat.mod_one] using hcanon.resolve_left hk⟩
    rcases hi with ⟨rfl, rfl⟩ | ⟨rfl, rfl⟩ | ⟨rfl, rfl⟩ | ⟨rfl, rfl⟩
    · obtain ⟨t, w', hexec, hissued, hregs, hsent⟩ := prefetch_issues h hone 0
      refine ⟨t, w', hexec, hissued, hregs, fun l hl ha => ?_⟩
      obtain ⟨q, hq, hop⟩ := hsent l hl ha
      exact ⟨q, hq, by simp, fun _ => hop⟩
    · obtain ⟨t, w', hexec, hissued, hregs, hsent⟩ := prefetch_issues h hone 1
      refine ⟨t, w', hexec, hissued, hregs, fun l hl ha => ?_⟩
      obtain ⟨q, hq, hop⟩ := hsent l hl ha
      exact ⟨q, hq, fun _ => hop, by simp⟩
    · obtain ⟨t, w', hexec, hissued, hregs, hsent⟩ := maintain_issues h (hlines (by simp)) .cwb
      refine ⟨t, w', hexec, hissued, hregs, fun l hl _ => ?_⟩
      obtain ⟨q, hq⟩ := hsent l hl
      exact ⟨q, hq, by simp, by simp⟩
    · obtain ⟨t, w', hexec, hissued, hregs, hsent⟩ := maintain_issues h (hlines (by simp)) .cinv
      refine ⟨t, w', hexec, hissued, hregs, fun l hl _ => ?_⟩
      obtain ⟨q, hq⟩ := hsent l hl
      exact ⟨q, hq, by simp, by simp⟩

end Sys2Proof.Laws.Requests

namespace Sys2Proof.Laws.Requests

/-! # Atomics send one request for each address (07 R190 to R192) -/

open Sys2Proof.Machine Sys2Proof.Safety Sys2Proof.Rules Sys2Proof.Laws.Operands

/-! ## Lanes by address -/

/-- The lanes of an address, in the order of the list. -/
def lanesAt (l : List (Nat × Word)) (a : Word) : List Nat := (l.filter (·.2 == a)).map Prod.fst

/-- Groups hold the lanes of their address among those taken so far, and every address taken has a group. -/
def Grouped (l : List (Nat × Word)) (acc : List (Word × List Nat)) : Prop :=
  (∀ q ∈ acc, q.2 = lanesAt l q.1) ∧ ∀ x ∈ l, ∃ q ∈ acc, q.1 = x.2

theorem lanesAt_snoc (l : List (Nat × Word)) (x : Nat × Word) (a : Word) :
    lanesAt (l ++ [x]) a = if x.2 = a then lanesAt l a ++ [x.1] else lanesAt l a := by
  by_cases h : x.2 = a <;> simp [lanesAt, h]

theorem lanesAt_eq_nil {l : List (Nat × Word)} {a : Word} (h : ∀ x ∈ l, x.2 ≠ a) : lanesAt l a = [] := by
  simpa [lanesAt] using h

/-- A lane joins the group of its address. -/
theorem Grouped.join {l : List (Nat × Word)} {acc : List (Word × List Nat)} (h : Grouped l acc) (x : Nat × Word)
    (hx : ∃ q ∈ acc, q.1 = x.2) : Grouped (l ++ [x]) (acc.map fun q => if q.1 = x.2 then (q.1, q.2 ++ [x.1]) else q) := by
  refine ⟨fun q hq => ?_, fun y hy => ?_⟩
  · obtain ⟨g, hg, rfl⟩ := List.mem_map.mp hq
    rw [lanesAt_snoc]
    by_cases he : g.1 = x.2
    · simp [he, h.1 g hg]
    · simp [he, Ne.symm he, h.1 g hg]
  · have hgroup : ∃ q ∈ acc, q.1 = y.2 := by
      rcases List.mem_append.mp hy with hy | hy
      · exact h.2 y hy
      · rwa [List.mem_singleton.mp hy]
    obtain ⟨q, hq, he⟩ := hgroup
    exact ⟨_, List.mem_map_of_mem hq, by split <;> exact he⟩

/-- A lane whose address is new begins a group. -/
theorem Grouped.begin {l : List (Nat × Word)} {acc : List (Word × List Nat)} (h : Grouped l acc) (x : Nat × Word)
    (hx : ∀ q ∈ acc, q.1 ≠ x.2) : Grouped (l ++ [x]) (acc ++ [(x.2, [x.1])]) := by
  have hnew : ∀ y ∈ l, y.2 ≠ x.2 := fun y hy he => by
    obtain ⟨q, hq, hq'⟩ := h.2 y hy
    exact hx q hq (hq'.trans he)
  refine ⟨fun q hq => ?_, fun y hy => ?_⟩
  · rw [lanesAt_snoc]
    rcases List.mem_append.mp hq with hq | hq
    · rw [if_neg (Ne.symm (hx q hq)), h.1 q hq]
    · rw [List.mem_singleton.mp hq, if_pos rfl, lanesAt_eq_nil hnew]; rfl
  · rcases List.mem_append.mp hy with hy | hy
    · obtain ⟨q, hq, he⟩ := h.2 y hy
      exact ⟨q, List.mem_append_left _ hq, he⟩
    · exact ⟨_, List.mem_append_right _ (List.mem_singleton_self _), by rw [List.mem_singleton.mp hy]⟩

/-- The groups of a list hold, for each address, its lanes in the order of the list (07 R192). -/
theorem groupLanes_grouped (l done : List (Nat × Word)) (acc : List (Word × List Nat)) (h : Grouped done acc) :
    Grouped (done ++ l) (groupLanes l acc) := by
  induction l generalizing done acc with
  | nil => simpa [groupLanes] using h
  | cons x rest ih =>
    rw [List.append_cons, groupLanes]
    split
    · next hany =>
      exact ih _ _ (h.join x (by simpa using hany))
    · next hany =>
      exact ih _ _ (h.begin x fun q hq he => hany (List.any_eq_true.mpr ⟨q, hq, by simpa using he⟩))

/-- The active lanes that name an address, lowest first. -/
def lanesNaming (s : State) (f : MFmt) (a : Word) : List Nat := (activeLanes s f).filter fun m => laneAddr s f m == a

theorem lanesAt_laneAddrs (s : State) (f : MFmt) (a : Word) : lanesAt (s.laneAddrs f) a = lanesNaming s f a := by
  show (((activeLanes s f).map fun l => (l, laneAddr s f l)).filter (·.2 == a)).map Prod.fst = _
  simp [lanesNaming, List.filter_map, Function.comp_def]

theorem mem_groups {s : State} {f : MFmt} {l : Nat} (hl : l ∈ activeLanes s f) :
    (laneAddr s f l, lanesNaming s f (laneAddr s f l)) ∈ groupLanes (s.laneAddrs f) [] := by
  obtain ⟨hlanes, hall⟩ := groupLanes_grouped (s.laneAddrs f) [] [] ⟨by simp, by simp⟩
  obtain ⟨q, hq, he⟩ := hall _ (List.mem_append_right _ (mem_laneAddrs hl))
  have := hlanes q hq
  rw [he, List.nil_append, lanesAt_laneAddrs] at this
  rwa [show q = (laneAddr s f l, lanesNaming s f (laneAddr s f l)) from Prod.ext he this] at hq

/-! ## The requests -/

/-- The request of a group (07 R192). -/
def groupReq (s : State) (f : MFmt) (kind : ReqKind) (op slow : Nat) (ids : List Nat) (opnds : Nat → Word × Word) (g : Word × List Nat) : Req :=
  { s.newReq kind (maskOf g.2) s.nextId g.1 (szBytes f) f with
    slow := slow, op := op, regs := ids, opnds := g.2.map fun l => (l, (opnds l).1, (opnds l).2) }

theorem postGroups_posted (s : State) (f : MFmt) (kind : ReqKind) (op : Nat) (ids : List Nat) (la : List (Nat × Word))
    (opnds : Nat → Word × Word) : ∃ slow, Posted Travels s (s.postGroups f kind op ids la opnds)
      ((groupLanes la []).map (groupReq s f kind op slow ids opnds)) :=
  ⟨_, postAll_posted _ s⟩

/-- What an atomic sends and leaves, `opnds` holding the operand and the compare value of each lane (07 R190 to R192). -/
def AtomicIssues (s t : State) (w w' : Warp) (p : Split) (f : MFmt) (kind : ReqKind) (op : Nat) (opnds : Nat → Word × Word) : Prop :=
  MemIssued s t w w' p f.sw ∧ RegsKeptButTags w w' ∧ (∀ v, kgetD w'.tags v 0 = kgetD w.tags v 0)
    ∧ ∀ l ∈ activeLanes s f, ∃ q, Sent s t f kind (maskOf (lanesNaming s f (laneAddr s f l))) (laneAddr s f l) (2 ^ f.sz.toNat) q ∧ q.op = op
      ∧ q.opnds = (lanesNaming s f (laneAddr s f l)).map (fun m => (m, (opnds m).1, (opnds m).2))
      ∧ (kind = .atom → Fetches w' q (s.effective f.msk.toNat) ((dataRule f).map .vec))

/-- The registers of an atomic's result are entered with the tags they have; a RED enters none. -/
def AtomDests (s : State) (w v : Warp) (f : MFmt) (kind : ReqKind) (ids : List Nat) : Prop :=
  v.table = w.table ∧ RegsKeptButTags w v ∧ (∀ r, kgetD v.tags r 0 = kgetD w.tags r 0)
    ∧ (kind = .atom → DestsEntered s w v (s.effective f.msk.toNat) ((dataRule f).map fun v => (v, kgetD w.tags v 0)) ids)

theorem DestsEntered.atomDests {s : State} {w v : Warp} {f : MFmt} {kind : ReqKind} {ids : List Nat}
    (h : DestsEntered s w v (s.effective f.msk.toNat) ((dataRule f).map fun v => (v, kgetD w.tags v 0)) ids) : AtomDests s w v f kind ids := by
  refine ⟨h.table, h.kept, fun r => (h.tags r).elim id fun hr => ?_, fun _ => h⟩
  obtain ⟨x, -, hx⟩ := List.mem_map.mp hr
  obtain ⟨rfl, hx⟩ := Prod.mk.inj hx
  exact hx.symm

theorem postGroups_issues {s : State} {w : Warp} {p : Split} (h : Issuer s w p) {f : MFmt} {kind : ReqKind} {a : Nat} {g : Warp → Warp}
    {ids : List Nat} (hd : AtomDests s w (g w) f kind ids) (op : Nat) (opnds : Nat → Word × Word) :
    ∃ w', AtomicIssues s (((issued s a 0 g).postGroups f kind op ids (s.laneAddrs f) opnds).retire f.sw 2 1) w w' p f kind op opnds := by
  obtain ⟨htable, hkept, htags, hdests⟩ := hd
  obtain ⟨slow, hpost⟩ := postGroups_posted (issued s a 0 g) f kind op ids (s.laneAddrs f) opnds
  obtain ⟨w', hissued, hregs, hres, hsent⟩ := posted_retires h htable hkept hpost f.sw
  have htags' : w'.tags = (g w).tags := by rw [hregs]
  refine ⟨w', hissued, hissued.2.2.2.2.1, fun v => by rw [htags', htags], fun l hl => ?_⟩
  obtain ⟨q, hq, htravel⟩ := hsent _ (List.mem_map_of_mem (mem_groups hl))
  refine ⟨q, ⟨hq, htravel.asks (newReq_asks h htable hkept kind _ (issued s a 0 g).nextId _ _ f)⟩, by rw [htravel]; rfl, by rw [htravel]; rfl,
    fun hk => ?_⟩
  have := (hdests hk).fetches (effective_ne_zero hl) hres (q := q) (by rw [htravel]; rfl)
  simpa [Function.comp_def] using this

/-- The operand of a lane: a pair for an SZ of 3 (07 R190). -/
def atomVal (s : State) (f : MFmt) (v l : Nat) : Word := if f.sz = 3 then s.rdPair v l else (s.rdV v l 1).setWidth 64

theorem atomOpnd_rule (s : State) (f : MFmt) : s.atomOpnd f = atomVal s f := by
  funext v l
  simp only [State.atomOpnd, atomVal, show f.sz = 3 ↔ f.sz.toNat = 3 from BitVec.toNat_inj.symm]

/-- ATOM, with its operation (07 R190). -/
theorem atom_issues {s : State} {w : Warp} {p : Split} (h : Issuer s w p) {o : BitVec 4} {f : MFmt} {r : MRule}
    (hrule : memRule s (.atom o f) = some r) (hpass : r.Passes s w) :
    ∃ t w', exec (.atom o f) s = .next t ∧ AtomicIssues s t w w' p f .atom o.toNat fun m => (atomVal s f f.data.toNat m, 0) := by
  obtain ⟨a, g, ids, hdests, hd⟩ := atomDests_entered (s.effective f.msk.toNat) (dataRule f) h
  obtain ⟨w', hissued⟩ := postGroups_issues h (a := a) hd.atomDests o.toNat fun m => (atomVal s f f.data.toNat m, 0)
  refine ⟨_, w', ?_, hissued⟩
  cases hrule
  dsimp only [exec, execAtom]
  refine (runMem_passes h hpass (by simp) (by simp) rfl (szBytes_align f) _).trans ?_
  rw [dataRegs_rule, hdests, atomOpnd_rule]

/-- RED, with its operation (07 R190). -/
theorem red_issues {s : State} {w : Warp} {p : Split} (h : Issuer s w p) {o : BitVec 4} {f : MFmt} {r : MRule}
    (hrule : memRule s (.red o f) = some r) (hpass : r.Passes s w) :
    ∃ t w', exec (.red o f) s = .next t ∧ AtomicIssues s t w w' p f .red o.toNat fun m => (atomVal s f f.data.toNat m, 0) := by
  obtain ⟨w', hissued⟩ := postGroups_issues h (a := 0) (g := id) (f := f) (kind := .red) (ids := []) ⟨rfl, rfl, fun _ => rfl, by simp⟩ o.toNat
    fun m => (atomVal s f f.data.toNat m, 0)
  rw [issued_id] at hissued
  refine ⟨_, w', ?_, hissued⟩
  cases hrule
  dsimp only [exec, execRed]
  refine (runMem_passes h hpass (by simp) (by simp) rfl (szBytes_align f) _).trans ?_
  rw [atomOpnd_rule]

/-- ATOMC: compare value at DATA, new value at the next register or pair (07 R191). -/
theorem atomc_issues {s : State} {w : Warp} {p : Split} (h : Issuer s w p) {f : MFmt} (hwf : (Instr.atomc f).wf = true) {r : MRule}
    (hrule : memRule s (.atomc f) = some r) (hpass : r.Passes s w) :
    ∃ t w', exec (.atomc f) s = .next t
      ∧ AtomicIssues s t w w' p f .atom 15 fun m => (atomVal s f (f.data.toNat + (dataRule f).length) m, atomVal s f f.data.toNat m) := by
  obtain ⟨a, g, ids, hdests, hd⟩ := atomDests_entered (s.effective f.msk.toNat) (dataRule f) h
  obtain ⟨w', hissued⟩ := postGroups_issues h (a := a) hd.atomDests 15
    fun m => (atomVal s f (f.data.toNat + (dataRule f).length) m, atomVal s f f.data.toNat m)
  refine ⟨_, w', ?_, hissued⟩
  cases hrule
  dsimp only [exec, execAtomc]
  refine (runMem_passes h hpass (by rw [atomc_regs (wf_atomc hwf), idxRegs_rule]) (by simp) rfl (szBytes_align f) _).trans ?_
  rw [dataRegs_rule, hdests, atomOpnd_rule]

/-- The operations of ATOM and RED are 0 to 14 (02 R61). -/
theorem wf_atom {i : Instr} {o : BitVec 4} {f : MFmt} (hwf : i.wf = true) (hi : i = .atom o f ∨ i = .red o f) : o.toNat ≠ 15 := by
  have hle : o.toNat ≤ 14 := by
    rcases hi with rfl | rfl <;> simpa [variantOk] using wf_checkM hwf rfl rfl rfl rfl rfl _ (.head _)
  omega

/-- Settles O10, by instruction. -/
theorem atomicsIssue : Obligations.AtomicsIssue := by
  unfold Obligations.AtomicsIssue
  intro s w p i r f op kind h hwf hrule hpass hi
  rcases hi with ⟨o, rfl, rfl, hkind⟩ | ⟨rfl, rfl, rfl⟩ | ⟨o, rfl, rfl, hkind⟩
  · simp only [wf_atom hwf (.inl rfl), if_false]
    subst hkind
    exact atom_issues h hrule hpass
  · exact atomc_issues h hwf hrule hpass
  · simp only [wf_atom hwf (.inr rfl), if_false]
    subst hkind
    exact red_issues h hrule hpass

end Sys2Proof.Laws.Requests

namespace Sys2Proof.Laws.Signals

/-! # Counter signals issue (07 R206 to R208, 08 R234) -/

open Sys2Proof.Machine Sys2Proof.Safety Sys2Proof.Rules

/-! ## The table of a warp whose split retires -/

/-- A warp's table may have changed at one split alone. -/
def OneSplit (s t : State) (wid slot : Nat) : Prop :=
  ∀ w, s.warp? wid = some w → ∃ w' g, t.warp? wid = some w' ∧ w'.table = kmod w.table slot g

theorem OneSplit.trans {s t u : State} {wid slot : Nat} (h : OneSplit s t wid slot) (h' : OneSplit t u wid slot) : OneSplit s u wid slot := by
  intro w hw
  obtain ⟨w1, g, hw1, htable⟩ := h w hw
  obtain ⟨w2, g', hw2, htable'⟩ := h' w1 hw1
  exact ⟨w2, fun x => g' (g x), hw2, by rw [htable', htable, kmod_kmod]⟩

theorem oneSplit_modWarp {s t : State} (ht : t.warps = s.warps) {wid slot : Nat} {f : Warp → Warp} {g : Split → Split}
    (hf : ∀ w, (f w).table = kmod w.table slot g) : OneSplit s (t.modWarp wid f) wid slot := by
  intro w hw
  have hget : kget? s.warps wid = some w := hw
  exact ⟨f w, g, by simp [State.modWarp, State.warp?, ht, hget], hf w⟩

theorem oneSplit_modSplit {s t : State} (ht : t.warps = s.warps) (wid slot : Nat) (g : Split → Split) :
    OneSplit s (t.modSplit wid slot g) wid slot := oneSplit_modWarp ht fun _ => rfl

theorem OneSplit.refl {s : State} (wid slot : Nat) : OneSplit s s wid slot := fun w hw => ⟨w, id, hw, (kmod_id ..).symm⟩

theorem oneSplit_endSpan (s : State) (wid slot : Nat) : OneSplit s (s.endSpan wid slot) wid slot := by
  unfold State.endSpan
  split
  · split
    · exact oneSplit_modSplit rfl _ _ _
    · refine (oneSplit_modWarp (t := { s with nextId := s.nextId + 1 }) rfl (fun _ => rfl)).trans (oneSplit_modWarp rfl (g := id) fun w => ?_)
      exact (kmod_id ..).symm
  · exact .refl _ _

/-- The table of the issuer once it retires: its own split alone changes. -/
theorem oneSplit_retire (s : State) (sw : Bool) (lat words : Nat) : OneSplit s (s.retire sw lat words) s.cur.1 s.cur.2 := by
  unfold State.retire
  dsimp only
  split
  · exact (oneSplit_modSplit (t := { s with free := s.free + 1 }) rfl _ _ _).trans (oneSplit_endSpan _ _ _)
  · exact oneSplit_modSplit (t := { s with free := s.free + 1 }) rfl _ _ _

/-- A split of a table that has changed at one place is one of before, or the one at that place. -/
theorem mem_kmod_or {α : Type} {m : KMap α} {k : Nat} {g : α → α} {y : Nat × α} (h : y ∈ kmod m k g) :
    y ∈ m ∨ kget? (kmod m k g) k = some y.2 := by
  induction m with
  | nil => cases h
  | cons a r ih =>
    obtain ⟨i, v⟩ := a
    by_cases hk : k = i
    · simp only [kmod, hk, if_true, List.mem_cons] at h ⊢
      rcases h with rfl | h
      · simp [kget?]
      · exact .inl (.inr h)
    · simp only [kmod, hk, if_false, List.mem_cons, kget?] at h ⊢
      rcases h with rfl | h
      · exact .inl (.inl rfl)
      · exact (ih h).imp .inr id

/-- Where no split waits for a counter, none does once the issuer has retired. -/
theorem retire_noCntWait {s : State} {w : Warp} {p : Split} (h : Issuer s w p) {ids : Nat} {g : Warp → Warp} {sw : Bool} {lat words : Nat}
    (hret : s.retire sw lat words = issued s ids 1 g) (hproc : Proceeds (g w) s.cur.2 p sw words) (hidle : ∀ q ∈ w.table, q.2.eff ≠ .cntWait) :
    ∀ q ∈ (g w).table, q.2.eff ≠ .cntWait := by
  intro q hq
  obtain ⟨w', f, hw', htable⟩ := oneSplit_retire s sw lat words w h.1
  rw [hret, issued_warp, h.1] at hw'
  cases hw'
  obtain ⟨p', hp', -, -, -, -, hst, -⟩ := hproc
  rw [htable] at hq hp'
  rcases mem_kmod_or hq with hq | hq
  · exact hidle q hq
  · rw [hq] at hp'
    cases hp'
    rcases hst with hst | hst <;> simp [Split.eff, hst]

/-! ## The instructions -/

/-- CSIG that nothing holds back adds its increment at once (07 R206, R207). -/
theorem csig_adds {s : State} {w : Warp} {p : Split} (h : Issuer s w p) (f : XFmt)
    (hs : s.signalReady s.cur.1 s.nextId f.sc.toNat = true) (hu : Unique s.warps) (hb : (s.block? w.block).isSome = true)
    (hidle : ∀ k v, s.warp? k = some v → v.block = w.block → ∀ q ∈ v.table, q.2.eff ≠ .cntWait) :
    ∃ t w', exec (.csig f) s = .next t ∧ t.warp? s.cur.1 = some w' ∧ RegsKept w w' ∧ OthersKept w w' s.cur.2 ∧ Proceeds w' s.cur.2 p f.sw 1
      ∧ (t.blockD w.block).counters
          = kput s.curBlock.counters f.num.toNat (kgetD s.curBlock.counters f.num.toNat 0 + BitVec.ofNat 64 f.imm.toNat)
      ∧ t.mem = s.mem ∧ (∀ k, k ≠ s.cur.1 → t.warp? k = s.warp? k) := by
  obtain ⟨ids, g, hret, hregs, hothers, hproc, -⟩ := retire_proceeds h f.sw 2 1
  have hw : (issued s ids 1 g).warp? s.cur.1 = some (g w) := (issued_warp s ids 1 g).trans (by rw [h.1]; rfl)
  have hother : ∀ k, k ≠ s.cur.1 → (issued s ids 1 g).warp? k = s.warp? k := fun k hk => kget?_kmod_ne _ g hk
  let add (b : Block) : Block :=
    { b with counters := kput b.counters f.num.toNat (kgetD b.counters f.num.toNat 0 + BitVec.ofNat 64 f.imm.toNat) }
  let u := (issued s ids 1 g).place1.modBlock w.block add
  have hunique : Unique u.warps := by
    show ((kmod s.warps s.cur.1 g).map Prod.fst).Nodup
    rwa [Splits.kmod_keys]
  have hcheck : u.counterCheck w.block f.num.toNat = u := by
    refine Releases.counterCheck_idle (s := u) hunique (fun k v hv hblock => ?_) _
    by_cases hk : k = s.cur.1
    · subst hk
      cases hw.symm.trans hv
      exact retire_noCntWait h hret hproc (hidle _ w h.1 rfl)
    · exact hidle k v ((hother k hk).symm.trans hv) hblock
  obtain ⟨b, hb⟩ := Option.isSome_iff_exists.mp hb
  refine ⟨u, g w, ?_, hw, hregs, hothers, hproc, ?_, rfl, hother⟩
  · show execCsig f s = _
    simp only [execCsig, hs, hret, if_true, issuer_curWarp h]
    exact congrArg Host.Outcome.next hcheck
  · have hget : kget? s.blocks w.block = some b := hb
    simp [u, add, State.blockD, State.block?, State.modBlock, State.curBlock, issuer_curWarp h, State.place1, issued, hget]

/-- A signal that is held back is posted, and its split goes on (08 R234). -/
theorem signal_posts {s : State} {w : Warp} {p : Split} (h : Issuer s w p) {f : XFmt}
    (hs : s.signalReady s.cur.1 s.nextId f.sc.toNat = false) {i : Instr} (hi : i = .csig f ∨ i = .evnt f) :
    ∃ t w' k x, exec i s = .next t ∧ t.warp? s.cur.1 = some w' ∧ RegsKept w w' ∧ OthersKept w w' s.cur.2 ∧ Proceeds w' s.cur.2 p f.sw 1
      ∧ t = { s with warps := t.warps, posts := t.posts, nextId := t.nextId, free := t.free }
      ∧ kget? t.posts k = some x ∧ x.wid = s.cur.1 ∧ x.num = f.num.toNat ∧ x.val = f.imm.toNat ∧ x.scope = f.sc.toNat
      ∧ x.evnt = decide (i = .evnt f) := by
  obtain ⟨ids, g, hret, hregs, hothers, hproc, -⟩ := retire_proceeds h f.sw 2 1
  have hw : (issued s ids 1 g).warp? s.cur.1 = some (g w) := (issued_warp s ids 1 g).trans (by rw [h.1]; rfl)
  let x : Post := ⟨s.cur.1, (issued s ids 1 g).nextId, f.sc.toNat, decide (i = .evnt f), f.num.toNat, f.imm.toNat⟩
  let u := issued s ids 1 g
  have hexec : exec i s = .next { u with posts := kput u.posts u.nextId x, nextId := u.nextId + 1 } := by
    rcases hi with rfl | rfl
    · show execCsig f s = _
      simp only [execCsig, hs, hret, Bool.false_eq_true, if_false, x, u, show decide (Instr.csig f = .evnt f) = false by simp]
    · show execEvnt f s = _
      simp only [execEvnt, hs, hret, Bool.false_eq_true, if_false, x, u, decide_true]
  exact ⟨_, g w, u.nextId, x, hexec, hw, hregs, hothers, hproc, rfl, kget?_kput_self .., rfl, rfl, rfl, rfl, rfl⟩

/-- Settles O11: what nothing holds back acts at once, what is held back is posted, and WSYNC checks its mask. -/
theorem signalsIssue : Obligations.SignalsIssue := by
  unfold Obligations.SignalsIssue
  refine fun s w p f h => ⟨fun hs hu hb hidle => csig_adds h f hs hu hb hidle, fun hs i hi => signal_posts h hs hi, fun hm => ?_⟩
  refine ⟨_, ?_, Transfers.raise_takes h 1 0x11 _⟩
  show execWsync f s = _
  have hmask : (s.rdS f.sa.toNat).setWidth 32 = (s.rdS f.sa.toNat).extractLsb' 0 32 := by
    ext i; simp
  have hinfo : syncInfo ((s.rdS f.sa.toNat).extractLsb' 0 32) 0 = ((s.rdS f.sa.toNat).extractLsb' 0 32).setWidth 64 := by
    exact (BitVec.setWidth_eq_append (by decide)).symm
  simp only [execWsync, issuer_curSplit h, hmask, if_pos hm, hinfo]


end Sys2Proof.Laws.Signals

namespace Sys2Proof.Laws.Answers

/-! # Answers to translation faults: a request that waits with a leaf (16 R386) -/

open Sys2Proof.Machine Sys2Proof.Safety Sys2Proof.Rules

/-- A request sent towards its home holds no leaf: the home's controller looks it up again (16 R378). -/
theorem sendHome_leafless (s : State) (id : Nat) (r : Req) (hp hd : Nat) (near : Bool) :
    ∃ q, kget? (s.sendHome id r hp hd near).reqs id = some q ∧ q.tr = none := by
  unfold State.sendHome
  dsimp only
  split
  · split <;> exact ⟨_, kget?_kput_self .., rfl⟩
  · exact ⟨_, kget?_kput_self .., rfl⟩

/-- A replay of a request whose page its placement cache holds sends it without its leaf. -/
theorem replay_leafless {s : State} {id : Nat} {r : Req} (hr : kget? s.reqs id = some r) (hx : r.phase = .xlate)
    (hplc : (kget? (s.die (128 * (s.siteOf r.wid).1 + (s.siteOf r.wid).2.1)).plc
      (tlbKey r.asid (s.genOf (s.blockOf r.wid).ck r.asid) r.va.toNat)).isSome = true) :
    ∃ q, kget? (s.replay id).reqs id = some q ∧ q.tr = none := by
  obtain ⟨e, he⟩ := Option.isSome_iff_exists.mp hplc
  simp only [State.replay, hr, hx, if_true, State.sendOut, he]
  split <;> exact sendHome_leafless ..

/-- A load of package 0 that waits for the driver under record 7, with a leaf that it was given before. -/
def leafWaits : State :=
  { State.reset.withWarp 0 0 with
    dies := [(0, { Die.reset with plc := [(tlbKey 0 0 0, tlbEntry 0 0 0 0)] })]
    reqs := [(3, { (default : Req) with kind := .load, phase := .xlate, tr := some 0 })]
    tickets := [(9, { (default : Ticket) with num := 7, reqs := [3] })] }

/-- Refutes O24: a replay keeps what the statement lists of a request only where the request holds no leaf. In `leafWaits`, which no run
from reset makes, the request waits for the driver with a leaf, and the replay sends it out without one. -/
theorem not_translationAnswers : ¬ Obligations.TranslationAnswers := by
  intro h
  obtain ⟨-, hanswers⟩ := h leafWaits 7 0
  obtain ⟨⟨t, hexec, -, -, hsent⟩, -⟩ := hanswers 9 _ (List.mem_singleton_self _) rfl rfl fun x hx _ _ => List.mem_singleton.mp hx
  obtain ⟨r', hr', -, hkept⟩ := hsent 3 _ rfl (List.mem_singleton_self _) rfl
  obtain ⟨q, hq, hnone⟩ := replay_leafless (s := { leafWaits with tickets := [] }) (id := 3) rfl rfl (by decide +kernel)
  have ht : t = State.replay { leafWaits with tickets := [] } 3 := by
    have : exec (.tfansReplay 7 0) leafWaits = .next (State.replay { leafWaits with tickets := [] } 3) := rfl
    rw [hexec] at this
    cases this
    rfl
  rw [ht, hq] at hr'
  cases hr'
  rw [hkept] at hnone
  cases hnone

end Sys2Proof.Laws.Answers

namespace Sys2Proof.Laws.Aborting

/-! # The abort of a launch (15 R362) -/

open Sys2Proof.Machine Sys2Proof.Safety Sys2Proof.Rules

/-! ## Tables that an abort cuts down -/

section
variable {α : Type}

/-- Some entries of a table change, by their value. -/
def changeIf (c : α → Prop) [DecidablePred c] (g : α → α) (m : KMap α) : KMap α := m.map fun q => if c q.2 then (q.1, g q.2) else q

theorem kget?_changeIf (c : α → Prop) [DecidablePred c] (g : α → α) (m : KMap α) (k : Nat) :
    kget? (changeIf c g m) k = (kget? m k).map fun x => if c x then g x else x := by
  induction m with
  | nil => rfl
  | cons a r ih =>
    obtain ⟨i, v⟩ := a
    by_cases hk : k = i
    · by_cases hv : c v <;> simp [changeIf, kget?, hk, hv]
    · have : kget? (changeIf c g r) k = _ := ih
      by_cases hv : c v <;> simp [changeIf, kget?, hk, hv] <;> exact this

theorem kget?_filter_none {m : KMap α} (hm : Unique m) {c : Nat × α → Bool} {k : Nat} {x : α} (h : kget? m k = some x) (hc : c (k, x) = false) :
    kget? (m.filter c) k = none := by
  cases hget : kget? (m.filter c) k with
  | none => rfl
  | some y =>
    obtain ⟨hmem, hy⟩ := List.mem_filter.mp (Results.kget?_mem hget)
    rw [Releases.kget?_of_unique hm hmem] at h
    cases h
    rw [hc] at hy
    cases hy

end

/-! ## The warps of the launch -/

/-- A warp that has been ended by an abort. -/
def endedWarp (w : Warp) : Warp := { w with table := [], moves := [], locks := [], results := [], ended := true }

/-- Warps of the list have been ended: their requests that are not posted writes are gone, and nothing changes but locks, grants and what
such a warp has under way. -/
def WarpsEnded (s t : State) (l : List Nat) : Prop :=
  t = { s with lockTab := t.lockTab, grants := t.grants, nextId := t.nextId, reqs := t.reqs, fes := t.fes, posts := t.posts, warps := t.warps }
    ∧ (∀ k, t.warp? k = (s.warp? k).map fun w => if k ∈ l then endedWarp w else w) ∧ t.warps.map Prod.fst = s.warps.map Prod.fst
    ∧ (∀ r ∈ t.reqs, r ∈ s.reqs) ∧ ∀ r ∈ t.reqs, ∀ k ∈ l, r.2.from k = false ∨ r.2.isPosted = true

/-- Only the locks at their homes and the grants change. -/
def LocksOnly (s t : State) : Prop := t = { s with lockTab := t.lockTab, grants := t.grants, nextId := t.nextId }

theorem LocksOnly.trans {s t u : State} (h : LocksOnly s t) (h' : LocksOnly t u) : LocksOnly s u := by
  unfold LocksOnly at *
  rw [h', h]

theorem setLock_only (s : State) (dk line : Nat) (e : LockEntry) : LocksOnly s (s.setLock dk line e) := by
  unfold State.setLock
  split <;> rfl

theorem passLock_only (s : State) (dk line : Nat) (e : LockEntry) (fatal : Bool) (src t0 : Nat) :
    LocksOnly s (s.passLock dk line e fatal src t0) := by
  unfold State.passLock
  split
  · exact (setLock_only s dk line _).trans rfl
  · exact setLock_only s dk line _

theorem holderFatal_only (s : State) (dk line : Nat) : LocksOnly s (s.holderFatal dk line) := by
  unfold State.holderFatal
  dsimp only
  split
  · exact passLock_only ..
  · rfl

theorem foldl_locksOnly {α : Type} (f : State → α → State) (hf : ∀ s a, LocksOnly s (f s a)) (l : List α) (s : State) :
    LocksOnly s (l.foldl f s) := by
  induction l generalizing s with
  | nil => rfl
  | cons a r ih => exact (hf s a).trans (ih _)

/-- The locks of a warp end at their homes, and its slots go. -/
theorem dropLocks_only (s : State) (wid : Nat) :
    ∃ u, LocksOnly s u ∧ s.dropLocks wid = u.modWarp wid fun w => { w with locks := [] } := by
  refine ⟨_, foldl_locksOnly _ (fun s k => foldl_locksOnly _ (fun s dk => ?_) _ s) _ s, rfl⟩
  dsimp only
  split
  · exact holderFatal_only ..
  · exact setLock_only ..

theorem endWarp_ends (s : State) (wid : Nat) : WarpsEnded s (s.endWarp wid) [wid] := by
  obtain ⟨u, hu, hdrop⟩ := dropLocks_only s wid
  have hwarps : (s.endWarp wid).warps = kmod s.warps wid endedWarp := by
    simp only [State.endWarp, hdrop, State.modWarp, kmod_kmod, show u.warps = s.warps by rw [hu]]
    rfl
  have hreqs : ∀ r ∈ (s.endWarp wid).reqs, r ∈ s.reqs ∧ (r.2.from wid = false ∨ r.2.isPosted = true) := fun r hr => by
    simp only [State.endWarp, hdrop, State.modWarp, List.mem_filter, show u.reqs = s.reqs by rw [hu]] at hr
    simpa using hr
  refine ⟨?_, fun k => ?_, by rw [hwarps, Splits.kmod_keys], fun r hr => (hreqs r hr).1, fun r hr k hk => ?_⟩
  · simp only [State.endWarp, hdrop, State.modWarp]
    rw [hu]
  · show kget? (s.endWarp wid).warps k = _
    rw [hwarps]
    by_cases hk : k = wid
    · subst hk; simp [State.warp?]
    · simp [kget?_kmod_ne _ _ hk, State.warp?, hk]
  · rw [List.mem_singleton.mp hk]
    exact (hreqs r hr).2

theorem WarpsEnded.cons {s t u : State} {k : Nat} {l : List Nat} (h : WarpsEnded s t [k]) (h' : WarpsEnded t u l) : WarpsEnded s u (k :: l) := by
  obtain ⟨hframe, hwarps, hkeys, hold, hgone⟩ := h
  obtain ⟨hframe', hwarps', hkeys', hold', hgone'⟩ := h'
  refine ⟨by rw [hframe', hframe], fun i => ?_, hkeys'.trans hkeys, fun r hr => hold r (hold' r hr), fun r hr i hi => ?_⟩
  · rw [hwarps', hwarps, Option.map_map]
    congr 1
    funext w
    by_cases hi : i = k <;> by_cases hl : i ∈ l <;> simp [hi, hl, endedWarp]
  · rcases List.mem_cons.mp hi with rfl | hi
    · exact hgone r (hold' r hr) i (List.mem_singleton_self _)
    · exact hgone' r hr i hi

theorem endWarps_ends (l : List Nat) (s : State) : WarpsEnded s (l.foldl State.endWarp s) l := by
  induction l generalizing s with
  | nil => exact ⟨rfl, by simp, rfl, fun _ hr => hr, by simp⟩
  | cons k rest ih => exact (endWarp_ends s k).cons (ih _)

/-! ## The rest of the launch -/

theorem mem_launchWarps {s : State} (hu : Unique s.warps) {k : Nat} {w : Warp} (hw : s.warp? k = some w) (l : Nat) :
    k ∈ s.launchWarps l ↔ (s.blockD w.block).launch = l := by
  simp only [State.launchWarps, List.mem_map, List.mem_filter, beq_iff_eq]
  constructor
  · rintro ⟨q, ⟨hq, hl⟩, rfl⟩
    have : some q.2 = some w := (Releases.kget?_of_unique hu hq).symm.trans hw
    cases this
    exact hl
  · exact fun hl => ⟨(k, w), ⟨Results.kget?_mem hw, hl⟩, rfl⟩

/-- The wires of a launch are free (12 R319). -/
theorem freeWires_none (s : State) (l p n : Nat) : kget? ((s.freeWires l).pkg p).wires n ≠ some l := by
  intro h
  obtain ⟨x, hx, hw⟩ : ∃ x : Pkg, (s.freeWires l).pkg p = x ∧ kget? x.wires n = some l := ⟨_, rfl, h⟩
  have hpkg : (s.freeWires l).pkg p = Pkg.reset ∨ ∃ y : Pkg, (s.freeWires l).pkg p = { y with wires := y.wires.filter fun w => w.2 != l } := by
    cases hget : kget? (s.freeWires l).pkgs p with
    | none => exact .inl (by simp [State.pkg, kgetD, hget])
    | some y =>
      obtain ⟨q, -, hq⟩ := List.mem_map.mp (Results.kget?_mem hget)
      cases hq
      exact .inr ⟨q.2, by simp [State.pkg, kgetD, hget]⟩
  rcases hpkg with hp | ⟨y, hp⟩
  · rw [hp] at h
    cases h
  · rw [hp] at h
    have := (List.mem_filter.mp (Results.kget?_mem h)).2
    simp at this

/-- Work of a launch. -/
def hersWork (s : State) (l : Nat) (e : Work) : Bool := (s.blockD e.block).launch == l

theorem hersWork_congr {s u : State} (h : u.blocks = s.blocks) (l : Nat) (e : Work) : hersWork u l e = ((s.blockD e.block).launch == l) := by
  rw [hersWork, State.blockD, State.blockD, State.block?, State.block?, h]

/-- What stays of the engine work, the blocks and the warps once the warps of a launch have ended. -/
def cutDown (s : State) (l : Nat) (x : Launch) : State :=
  { s with
    works := changeIf (fun e => hersWork s l e = true) (fun e => { e with aborted := true })
      (s.works.filter fun q => !(hersWork s l q.2 && q.2.waiting))
    blocks := changeIf (fun b => b.launch = l) (fun b => { b with aborted := true }) (s.blocks.filter fun q => q.2.launch != l || q.2.resident)
    warps := s.warps.filter fun q => (s.blockD q.2.block).launch != l || (s.blockD q.2.block).resident
    phases := s.phases.filter fun q => q.2.launch != l
    armed := match x.firing with
      | some (a, _) => kmod s.armed a fun y =>
          { y with disarm := true, waiting := [], busy := y.busy.filter fun b => !y.waiting.any fun w => w.1 == b }
      | none => s.armed }

theorem cutDown_block {s : State} {l : Nat} (x : Launch) {bid : Nat} {b : Block} (hb : kget? s.blocks bid = some b)
    (hkeep : b.launch ≠ l ∨ b.resident = true) :
    kget? (cutDown s l x).blocks bid = some (if b.launch = l then { b with aborted := true } else b) := by
  have hkept := kget?_filter s.blocks (fun q => q.2.launch != l || q.2.resident) hb (by simpa using hkeep)
  simp only [cutDown, kget?_changeIf, hkept, Option.map_some]

theorem cutDown_block_gone {s : State} (hu : Unique s.blocks) {l : Nat} (x : Launch) {bid : Nat} {b : Block} (hb : kget? s.blocks bid = some b)
    (hl : b.launch = l) (hres : b.resident = false) : kget? (cutDown s l x).blocks bid = none := by
  have hgone := kget?_filter_none hu (c := fun q => q.2.launch != l || q.2.resident) hb (by simp [hl, hres])
  simp only [cutDown, kget?_changeIf, hgone, Option.map_none]

theorem cutDown_work {s : State} {l : Nat} (x : Launch) {i : Nat} {e : Work} (he : kget? s.works i = some e)
    (hkeep : (hersWork s l e && e.waiting) = false) :
    kget? (cutDown s l x).works i = some (if hersWork s l e = true then { e with aborted := true } else e) := by
  have hkept := kget?_filter s.works (fun q => !(hersWork s l q.2 && q.2.waiting)) he (by simp [hkeep])
  simp only [cutDown, kget?_changeIf, hkept, Option.map_some]

theorem cutDown_work_gone {s : State} (hu : Unique s.works) {l : Nat} (x : Launch) {i : Nat} {e : Work} (he : kget? s.works i = some e)
    (hl : hersWork s l e = true) (hwait : e.waiting = true) : kget? (cutDown s l x).works i = none := by
  have hgone := kget?_filter_none hu (c := fun q => !(hersWork s l q.2 && q.2.waiting)) he (by simp [hl, hwait])
  simp only [cutDown, kget?_changeIf, hgone, Option.map_none]

/-- A launch that has been aborted. -/
def abortedLaunch (drains : Launch → List Nat) (x : Launch) : Launch :=
  { x with aborted := true, pend := [], images := [], saved := false, halting := false, answers := [], drains := drains x }

/-- A queue without the records of a launch. -/
def withoutRecords (l : Nat) (q : Queue) : Queue :=
  { q with waiting := q.waiting.filter fun r => r.launch != l, heldRecs := q.heldRecs.filter fun r => r.launch != l }

theorem abortLaunch_eq {s : State} {l : Nat} {x : Launch} (hx : s.launch? l = some x) (ha : x.aborted = false) :
    ∃ drains, s.abortLaunch l = ((((cutDown ((s.launchWarps l).foldl State.endWarp s) l x).freeWires l).modLaunch l
      (abortedLaunch drains)).modQueue x.queue (withoutRecords l)) := by
  refine ⟨fun x => if (((s.launchWarps l).foldl State.endWarp s).residentBlocks l).isEmpty then [0] else x.drains, ?_⟩
  simp only [State.abortLaunch, hx, ha, Bool.false_eq_true, if_false]
  rfl

/-- The abort of a launch. -/
theorem abortLaunch_aborts (s : State) (l : Nat) (hw : Unique s.warps) (hb : Unique s.blocks) (he : Unique s.works) :
    Aborts s (s.abortLaunch l) l := by
  refine ⟨fun hall => ?_, fun x hx ha => ?_⟩
  · unfold State.abortLaunch
    split
    · rfl
    · next x hx => rw [if_pos (hall x hx)]
  · obtain ⟨drains, heq⟩ := abortLaunch_eq hx ha
    obtain ⟨hframe, hwarps, hkeys, hold, hgone⟩ := endWarps_ends (s.launchWarps l) s
    generalize (s.launchWarps l).foldl State.endWarp s = u at *
    have hblockD : u.blockD = s.blockD := by rw [hframe]; rfl
    have hlaunches : kget? u.launches l = some x := by rw [hframe]; exact hx
    rw [heq]
    have hblocks : u.blocks = s.blocks := by rw [hframe]
    have hworks : u.works = s.works := by rw [hframe]
    have harmed : u.armed = s.armed := by rw [hframe]
    have hqueues : u.queues = s.queues := by rw [hframe]
    have hget : ∀ {k w}, s.warp? k = some w → kget? u.warps k = some (if (s.blockD w.block).launch = l then endedWarp w else w) := fun {k w} hk => by
      have := hwarps k
      rw [hk, Option.map_some] at this
      simp only [mem_launchWarps hw hk] at this
      exact this
    have hpass : ∀ (k : Nat) (w : Warp), (s.blockD w.block).launch ≠ l ∨ (s.blockD w.block).resident = true →
        ((u.blockD w.block).launch != l || (u.blockD w.block).resident) = true := fun k w h => by simpa [hblockD] using h
    refine ⟨?_, fun k hk => ?_, ⟨abortedLaunch drains x, ?_, rfl, rfl, rfl, rfl, rfl, rfl⟩, fun key buf a hfire harm => ?_, fun k w hk hers hres => ?_,
      fun k w hk hers => ?_, fun bid b hbid => ⟨fun hl => ?_, fun hl hres => ?_, fun hl hres => ?_⟩,
      fun i e hi => ⟨fun hl => ?_, fun hl hwait => ?_, fun hl hwait => ?_⟩, fun r hr => ?_, fun p n => ?_, fun z hz r hr => ?_⟩
    · show u.mem = s.mem
      rw [hframe]
    · exact (kget?_kmod_ne _ _ hk).trans (by rw [hframe]; rfl)
    · exact (kget?_kmod_self ..).trans (congrArg (Option.map _) hlaunches)
    · show ∃ a', kget? (cutDown u l x).armed key = some a' ∧ _
      rw [cutDown, hfire, harmed]
      exact ⟨_, (kget?_kmod_self ..).trans (congrArg (Option.map _) harm), rfl, rfl⟩
    · have := hget hk
      rw [if_pos hers] at this
      exact kget?_filter _ _ this (hpass k w (.inr hres))
    · have := hget hk
      rw [if_neg hers] at this
      exact kget?_filter _ _ this (hpass k w (.inl hers))
    · exact (cutDown_block x (hblocks ▸ hbid) (.inl hl)).trans (congrArg some (if_neg hl))
    · exact (cutDown_block x (hblocks ▸ hbid) (.inr hres)).trans (congrArg some (if_pos hl))
    · exact cutDown_block_gone (hblocks.symm ▸ hb) x (hblocks ▸ hbid) hl hres
    · have hers : hersWork u l e = false := (hersWork_congr hblocks l e).trans (beq_false_of_ne hl)
      exact (cutDown_work x (hworks ▸ hi) (by simp [hers])).trans (congrArg some (if_neg (by simp [hers])))
    · exact cutDown_work_gone (hworks.symm ▸ he) x (hworks ▸ hi) ((hersWork_congr hblocks l e).trans (beq_iff_eq.mpr hl)) hwait
    · exact (cutDown_work x (hworks ▸ hi) (by simp [hwait])).trans (congrArg some (if_pos ((hersWork_congr hblocks l e).trans (beq_iff_eq.mpr hl))))
    · by_cases hpost : r.2.isPosted = true
      · exact .inl hpost
      · by_cases hwork : r.2.work.1 = 0
        · refine .inr (.inr fun w hwid hers => ?_)
          have := (hgone r hr _ ((mem_launchWarps hw hwid l).mpr hers)).resolve_right hpost
          simp [Req.from, hwork] at this
        · exact .inr (.inl hwork)
    · exact freeWires_none (cutDown u l x) l p n
    · have hz : kget? (kmod u.queues x.queue (withoutRecords l)) x.queue = some z := hz
      rw [kget?_kmod_self] at hz
      obtain ⟨y, -, rfl⟩ := Option.map_eq_some_iff.mp hz
      simpa using (List.mem_filter.mp hr).2

end Sys2Proof.Laws.Aborting

namespace Sys2Proof.Laws.Answers

/-! # Answers to exception records (07 R179, 08 R232, R235, 15 R361, R362) -/

open Sys2Proof.Machine Sys2Proof.Safety Sys2Proof.Rules Sys2Proof.Laws.Splits

/-! ## The record that an answer names -/

/-- The state whose queue waits for the record no more. -/
def unwaited (s : State) (q seq : Nat) : State :=
  { s with queues := kmod s.queues q fun x => { x with waiting := x.waiting.filter fun y => y.seq != seq } }

section
variable {s : State} {q n : Nat} {x : Queue} (hx : kget? s.queues q = some x)
include hx

theorem excNamed_none (h : ∀ r ∈ x.waiting, r.seq % 2 ^ 48 ≠ n % 2 ^ 48) : s.excNamed q n = none := by
  simpa [State.excNamed, State.queueD, hx] using h

theorem excNamed_some {r : ExcRec} (hr : r ∈ x.waiting) (hn : r.seq % 2 ^ 48 = n % 2 ^ 48)
    (hu : ∀ y ∈ x.waiting, y.seq % 2 ^ 48 = n % 2 ^ 48 → y = r) : s.excNamed q n = some r := by
  have hsome : (x.waiting.find? fun y => y.seq % 2 ^ 48 == n % 2 ^ 48).isSome = true :=
    List.find?_isSome.mpr ⟨r, hr, beq_iff_eq.mpr hn⟩
  obtain ⟨y, hy⟩ := Option.isSome_iff_exists.mp hsome
  have he := hu y (List.mem_of_find?_eq_some hy) (by simpa using List.find?_some hy)
  simpa only [State.excNamed, State.queueD, hx, Option.getD_some, he] using hy

end

/-- The split whose record has a number, where no other split's has it. -/
theorem answered_slot {s : State} {wid seq slot : Nat} {w : Warp} {p : Split} {f : FaultInfo} (hw : s.warp? wid = some w)
    (hp : kget? w.table slot = some p) (hst : p.st = .faulted) (hf : p.fault = some f) (hrecs : f.recs = true)
    (hseq : f.group = seq) (hothers : ∀ k y g, (k, y) ∈ w.table → k ≠ slot → y.fault = some g → g.group ≠ seq ∧ g.accs ≠ seq) :
    s.answered wid seq = some slot := by
  have hwd : s.warpD wid = w := by simp [State.warpD, hw]
  have heff : p.eff = .faulted := by simp [Split.eff, hst]
  obtain ⟨t, ht⟩ : ∃ t, w.table.find? (fun t => t.2.eff == .faulted &&
      (match t.2.fault with | some f => f.recs && (f.group == seq || f.accs == seq) | none => false)) = some t :=
    Option.isSome_iff_exists.mp (List.find?_isSome.mpr ⟨(slot, p), Results.kget?_mem hp, by simp [heff, hf, hrecs, hseq]⟩)
  have hslot : t.1 = slot := by
    by_contra hne
    have htest := List.find?_some ht
    cases hg : t.2.fault with
    | none => simp [hg] at htest
    | some g =>
      obtain ⟨hgroup, haccs⟩ := hothers t.1 t.2 g (List.mem_of_find?_eq_some ht) hne hg
      simp [hg, hgroup, haccs] at htest
  simp only [State.answered, hwd]
  exact (congrArg (Option.map Prod.fst) ht).trans (congrArg some hslot)

/-! ## A split with nothing held goes on -/

/-- With no request waiting for an answer, a split parked by completion faults stays, or goes on if all its results are there. -/
theorem settle_free {s : State} {wid slot : Nat} {w : Warp} {p : Split} {f : FaultInfo} (hw : s.warp? wid = some w)
    (hp : kget? w.table slot = some p) (hst : p.st = .faulted) (hf : p.fault = some f) (hk : f.kind = .completion)
    (hfree : s.stuckReqs wid p = []) :
    s.settle wid slot = if s.settled wid p then replaced s wid (s.nextId + 1) s.free
      (Warp.gc { w with table := kmod w.table slot (fresh s.nextId (max p.rdy (s.clk + 1))) }) else s := by
  have heff : p.eff = .faulted := by simp [Split.eff, hst]
  have hwd : s.warpD wid = w := by simp [State.warpD, hw]
  simp only [State.settle, hw, split?_eq hw, hp, hf, hk, beq_self_eq_true, heff]
  by_cases hs : s.settled wid p = true
  · have hout : w.outstanding p = false := by
      simp only [State.settled, hfree, hwd, List.all_eq_true, Bool.or_eq_true, Bool.not_eq_true'] at hs
      simp only [Warp.outstanding, Bool.and_eq_false_iff, List.any_eq_false]
      refine .inr fun q hq => ?_
      rcases hs q hq with h | h
      · simp [h]
      · unfold Result.covered at h
        unfold Result.waits
        split at h
        · next v hv =>
          simp only [List.foldl_nil, show ~~~(0 : Lanes) = BitVec.allOnes 32 from rfl, BitVec.and_allOnes, Bool.and_eq_true, beq_iff_eq] at h
          simp [hv, h.1, h.2]
        · simp at h
    simp only [hs, hout, Bool.not_true, Bool.false_eq_true, if_false, Bool.not_false, if_true, and_self, reduceCtorEq]
    rw [freshReady_eq hw, modWarp_eq (replaced_warp? hw _ _ _), replaced_replaced]
    rfl
  · simp [hs]

/-- The split past the fault that an answer has ended (15 R361): it waits for the accesses that it holds alone. -/
def past (clk n : Nat) (p : Split) : Split :=
  { p with pc := p.pc + BitVec.ofNat 48 n, fault := some ⟨.completion, 0, 0, p.pc, noSeq, noSeq, false⟩, rdy := max p.rdy (clk + 1) }

/-- The warp of a split past its fault; one that a HALTW stopped goes on. -/
def pastWarp (clk slot : Nat) (k : FaultKind) (skip : Bool) (w : Warp) : Warp :=
  { w with stopped := if k = .stop true then false else w.stopped, table := kmod w.table slot (past clk (k.after skip)) }

theorem answerSplit_eq {s : State} {wid slot seq : Nat} {w : Warp} {p : Split} {f : FaultInfo} (hw : s.warp? wid = some w)
    (hp : kget? w.table slot = some p) (hf : p.fault = some f) (haccs : f.accs ≠ seq) (skip : Bool) :
    s.answerSplit wid slot seq skip
      = ((replaced s wid s.nextId s.free (pastWarp s.clk slot f.kind skip w)).answerHeld (s.stuckReqs wid p) skip).settle wid slot := by
  simp only [State.answerSplit, split?_eq hw, hp, hf, haccs, if_false]
  rw [modWarp_eq hw, modSplit_eq (replaced_warp? hw _ _ _), replaced_replaced]
  congr 3
  by_cases hk : f.kind = .stop true <;> simp only [pastWarp, hk, if_true, if_false] <;> rfl

theorem fresh_past {p : Split} (hst : p.st = .faulted) {n clk k : Nat} :
    fresh n (max (past clk k p).rdy (clk + 1)) (past clk k p)
      = { p with st := .ready, pc := p.pc + BitVec.ofNat 48 k, span := n, len := 0, after := .none, rdy := 0, notBefore := max p.rdy (clk + 1)
                 fault := none } := by
  have hmax : max (max p.rdy (clk + 1)) (clk + 1) = max p.rdy (clk + 1) := max_eq_left (le_max_right _ _)
  have hres : (past clk k p).st ≠ .dormant := by simp [past, hst]
  rw [fresh, setEff_of_resident _ hres]
  simp only [past, hmax]

theorem waits_past (r : Result) (clk n : Nat) (p : Split) : r.waits (past clk n p) = r.waits p := rfl

/-- A split that holds no access, with nothing on its way, is READY after resume or skip. -/
theorem answerSplit_goesOn {s : State} {wid slot seq : Nat} {w : Warp} {p : Split} {f : FaultInfo} (hw : s.warp? wid = some w)
    (hp : kget? w.table slot = some p) (hst : p.st = .faulted) (hf : p.fault = some f) (haccs : f.accs ≠ seq) (skip : Bool)
    (hreqs : ∀ y ∈ s.reqs, y.2.wid = wid → y.2.span ≠ p.span) (hq : Quiet w p) :
    ∃ t w' p', s.answerSplit wid slot seq skip = t ∧ t = { s with warps := t.warps, nextId := t.nextId } ∧ (∀ k, k ≠ wid → t.warp? k = s.warp? k)
      ∧ t.warp? wid = some w' ∧ w' = { w with table := w'.table, results := w'.results, stopped := w'.stopped }
      ∧ w'.stopped = (if f.kind = .stop true then false else w.stopped)
      ∧ (∀ k, k ≠ slot → kget? w'.table k = kget? w.table k) ∧ kget? w'.table slot = some p'
      ∧ p' = { p with st := .ready, pc := p'.pc, span := p'.span, len := 0, after := .none, rdy := 0, notBefore := max p.rdy (s.clk + 1), fault := none }
      ∧ p'.pc = p.pc + BitVec.ofNat 48 (f.kind.after skip) := by
  have hfree : ∀ (u : State) (n : Nat), u.reqs = s.reqs → u.stuckReqs wid (past s.clk n p) = [] := fun u n hu => by
    simp only [State.stuckReqs, hu, List.filter_eq_nil_iff, Bool.and_eq_true, beq_iff_eq, not_and]
    exact fun y hy h => absurd h.1.1.2 (hreqs y hy h.1.1.1)
  have hnone : s.stuckReqs wid p = [] := hfree s 0 rfl
  let w1 := pastWarp s.clk slot f.kind skip w
  let s1 := replaced s wid s.nextId s.free w1
  have hw1 : s1.warp? wid = some w1 := replaced_warp? hw _ _ _
  have hp1 : kget? w1.table slot = some (past s.clk (f.kind.after skip) p) := (kget?_kmod_self ..).trans (congrArg (Option.map _) hp)
  have hsettled : s1.settled wid (past s.clk (f.kind.after skip) p) = true := by
    have hwd : s1.warpD wid = w1 := by simp [State.warpD, hw1]
    simp only [State.settled, hwd, List.all_eq_true, Bool.or_eq_true, Bool.not_eq_true']
    exact fun q hq' => .inl (hq q hq')
  have hgone : fresh s1.nextId (max (past s.clk (f.kind.after skip) p).rdy (s1.clk + 1)) (past s.clk (f.kind.after skip) p) = _ := fresh_past hst
  have hstate : s.answerSplit wid slot seq skip = s1.settle wid slot := by
    rw [answerSplit_eq hw hp hf haccs, hnone]; rfl
  rw [hstate, settle_free hw1 hp1 hst rfl rfl (hfree s1 _ rfl), if_pos hsettled, replaced_replaced]
  refine ⟨_, _, _, rfl, rfl, fun k hk => replaced_warp?_ne _ _ _ hk, replaced_warp? hw _ _ _, rfl, rfl, fun k hk => ?_,
    (kget?_kmod_self ..).trans (congrArg (Option.map _) hp1), ?_, ?_⟩
  · exact (kget?_kmod_ne _ _ hk).trans (kget?_kmod_ne _ _ hk)
  · rw [hgone]
  · rw [hgone]

/-! ## Skipped accesses -/

/-- Requests of a warp have been dropped, with what they were to return: nothing changes but them and the warp's results. -/
structure HeldDropped (s t : State) (wid : Nat) (ids : List Nat) : Prop where
  frame : t = { s with reqs := t.reqs, warps := t.warps }
  others : ∀ k, k ≠ wid → t.warp? k = s.warp? k
  warp : ∀ w, s.warp? wid = some w → ∃ w', t.warp? wid = some w' ∧ w' = { w with results := w'.results }
  reqs : t.reqs.Sublist s.reqs
  gone : ∀ k ∈ ids, kget? t.reqs k = none
  kept : ∀ k, k ∉ ids → kget? t.reqs k = kget? s.reqs k

theorem HeldDropped.refl (s : State) (wid : Nat) : HeldDropped s s wid [] :=
  ⟨rfl, fun _ _ => rfl, fun w hw => ⟨w, hw, rfl⟩, .refl _, by simp, fun _ _ => rfl⟩

theorem HeldDropped.trans {s t u : State} {wid : Nat} {k l : List Nat} (h : HeldDropped s t wid k) (h' : HeldDropped t u wid l) :
    HeldDropped s u wid (k ++ l) := by
  refine ⟨by rw [h'.frame, h.frame], fun i hi => (h'.others i hi).trans (h.others i hi), fun w hw => ?_, h'.reqs.trans h.reqs,
    fun i hi => ?_, fun i hi => ?_⟩
  · obtain ⟨w1, hw1, hkept⟩ := h.warp w hw
    obtain ⟨w2, hw2, hkept'⟩ := h'.warp w1 hw1
    exact ⟨w2, hw2, by rw [hkept', hkept]⟩
  · by_cases hl : i ∈ l
    · exact h'.gone i hl
    · exact (h'.kept i hl).trans (h.gone i ((List.mem_append.mp hi).resolve_right hl))
  · rw [List.mem_append, not_or] at hi
    exact (h'.kept i hi.2).trans (h.kept i hi.1)

/-- The results of one request, of one register after another, complete as they are. -/
theorem dropMems_dropped (wid : Nat) (lanes : Lanes) (l : List Nat) (s : State) :
    HeldDropped s (l.foldl (fun s k => s.dropMem wid k lanes) s) wid [] := by
  induction l generalizing s with
  | nil => exact .refl s wid
  | cons k rest ih =>
    have hone : HeldDropped s (s.dropMem wid k lanes) wid [] := by
      refine ⟨rfl, fun i hi => kget?_kmod_ne _ _ hi, fun w hw => ?_, .refl _, by simp, fun _ _ => rfl⟩
      have hw' : kget? s.warps wid = some w := hw
      exact ⟨_, (kget?_kmod_self ..).trans (congrArg (Option.map _) hw'), rfl⟩
    exact hone.trans (ih _)

theorem skipReq_dropped {s : State} (hu : Unique s.reqs) {wid id : Nat} (hwid : ∀ y, kget? s.reqs id = some y → y.wid = wid) :
    HeldDropped s (s.skipReq id) wid [id] := by
  unfold State.skipReq
  cases hr : kget? s.reqs id with
  | none => exact ⟨rfl, fun _ _ => rfl, fun w hw => ⟨w, hw, rfl⟩, .refl _, by simpa using hr, fun _ _ => rfl⟩
  | some r =>
    have hdel : HeldDropped s { s with reqs := kdel s.reqs id } wid [id] := by
      refine ⟨rfl, fun _ _ => rfl, fun w hw => ⟨w, hw, rfl⟩, kdel_sublist _ _, fun k hk => ?_, fun k hk => ?_⟩
      · rw [List.mem_singleton.mp hk]; exact Transfers.kget?_kdel_self hu id
      · exact kget?_kdel_ne _ (by simpa using hk)
    have := hdel.trans (dropMems_dropped wid r.lanes r.regs { s with reqs := kdel s.reqs id })
    rw [List.append_nil] at this
    simpa only [hwid r hr] using this

theorem unique_sublist {α : Type} {m m' : KMap α} (h : m'.Sublist m) (hu : Unique m) : Unique m' := (h.map Prod.fst).nodup hu

theorem answerHeld_dropped (wid : Nat) (l : List (Nat × Req)) {s : State} (hu : Unique s.reqs)
    (hwid : ∀ q ∈ l, ∀ y, kget? s.reqs q.1 = some y → y.wid = wid) : HeldDropped s (s.answerHeld l true) wid (l.map Prod.fst) := by
  induction l generalizing s with
  | nil => exact .refl s wid
  | cons q rest ih =>
    have hone := skipReq_dropped hu (hwid q List.mem_cons_self)
    refine hone.trans (ih (unique_sublist hone.reqs hu) fun q' hq' y hy => ?_)
    exact hwid q' (List.mem_cons_of_mem _ hq') y (Releases.kget?_of_unique hu (hone.reqs.subset (Results.kget?_mem hy)))

/-- Requests of a split that an answer may skip (07 R179). -/
def Held (wid : Nat) (p : Split) (y : Req) : Prop :=
  y.wid = wid ∧ y.span = p.span ∧ (y.lanes &&& p.lmask) ≠ 0 ∧ (y.kind = .load ∨ y.kind = .atom ∨ y.kind = .lkqry)
    ∧ (y.phase = .xlate ∨ y.phase = .faulted)

theorem mem_stuckReqs {s : State} {wid : Nat} {p : Split} {q : Nat × Req} : q ∈ s.stuckReqs wid p ↔ q ∈ s.reqs ∧ Held wid p q.2 := by
  simp only [State.stuckReqs, List.mem_filter, Bool.and_eq_true, beq_iff_eq, bne_iff_ne, Req.isResult, Req.stuck, Bool.or_eq_true, Held, and_assoc,
    or_assoc]

theorem mem_stuckIds {s : State} (hu : Unique s.reqs) {wid : Nat} {p : Split} {k : Nat} {y : Req} (hy : kget? s.reqs k = some y) :
    k ∈ (s.stuckReqs wid p).map Prod.fst ↔ Held wid p y := by
  constructor
  · intro hk
    obtain ⟨q, hq, rfl⟩ := List.mem_map.mp hk
    obtain ⟨hmem, hheld⟩ := mem_stuckReqs.mp hq
    cases (Releases.kget?_of_unique hu hmem).symm.trans hy
    exact hheld
  · exact fun h => List.mem_map_of_mem (f := Prod.fst) (mem_stuckReqs.mpr ⟨Results.kget?_mem hy, h⟩)

/-- Skip drops what a completion fault holds (07 R179): the split stays at its PC, and goes on if nothing else is on its way. -/
theorem answerSplit_drops {s : State} {wid slot seq : Nat} {w : Warp} {p : Split} {f : FaultInfo} (hw : s.warp? wid = some w)
    (hp : kget? w.table slot = some p) (hst : p.st = .faulted) (hf : p.fault = some f) (haccs : f.accs ≠ seq) (hk : f.kind = .completion)
    (hu : Unique s.reqs) :
    ∃ t w' p', s.answerSplit wid slot seq true = t ∧ t = { s with warps := t.warps, nextId := t.nextId, reqs := t.reqs }
      ∧ (∀ k, k ≠ wid → t.warp? k = s.warp? k) ∧ t.warp? wid = some w' ∧ w' = { w with table := w'.table, results := w'.results }
      ∧ (∀ k, k ≠ slot → kget? w'.table k = kget? w.table k) ∧ kget? w'.table slot = some p' ∧ p'.pc = p.pc ∧ p'.lmask = p.lmask
      ∧ ∀ k y, kget? s.reqs k = some y → (Held wid p y → kget? t.reqs k = none) ∧ (¬Held wid p y → kget? t.reqs k = some y) := by
  let w1 := pastWarp s.clk slot f.kind true w
  let s1 := replaced s wid s.nextId s.free w1
  let p1 := past s.clk (f.kind.after true) p
  have hp1 : kget? w1.table slot = some p1 := (kget?_kmod_self ..).trans (congrArg (Option.map _) hp)
  have hdrop : HeldDropped s1 (s1.answerHeld (s.stuckReqs wid p) true) wid ((s.stuckReqs wid p).map Prod.fst) := by
    refine answerHeld_dropped wid _ hu fun q hq y hy => ?_
    obtain ⟨hmem, hheld, -⟩ := mem_stuckReqs.mp hq
    cases (Releases.kget?_of_unique hu hmem).symm.trans hy
    exact hheld
  have hstate : s.answerSplit wid slot seq true = (s1.answerHeld (s.stuckReqs wid p) true).settle wid slot := answerSplit_eq hw hp hf haccs true
  generalize s1.answerHeld (s.stuckReqs wid p) true = u at hdrop hstate
  obtain ⟨hframe, hothers, hwarp, hsub, hgone, hkept⟩ := hdrop
  obtain ⟨w2, hw2, hresults⟩ := hwarp w1 (replaced_warp? hw _ _ _)
  have hp2 : kget? w2.table slot = some p1 := by rw [hresults]; exact hp1
  have hfree : u.stuckReqs wid p1 = [] := by
    refine List.eq_nil_iff_forall_not_mem.mpr fun q hq => ?_
    obtain ⟨hmem, hheld⟩ := mem_stuckReqs.mp hq
    have hin : q.1 ∈ (s.stuckReqs wid p).map Prod.fst := List.mem_map_of_mem (mem_stuckReqs.mpr ⟨hsub.subset hmem, hheld⟩)
    have hthere := Releases.kget?_of_unique (unique_sublist hsub hu) hmem
    rw [hgone _ hin] at hthere
    cases hthere
  have hstay : w1 = { w with table := w1.table } := by simp [w1, pastWarp, hk]
  have hw2' : w2 = { w with table := w2.table, results := w2.results } := by rw [hresults, hstay]
  have htable : ∀ k, k ≠ slot → kget? w2.table k = kget? w.table k := fun k hk => by rw [hresults]; exact kget?_kmod_ne _ _ hk
  have hpc : p1.pc = p.pc := by simp [p1, past, hk, FaultKind.after]
  have hreqs : ∀ k y, kget? s.reqs k = some y → (Held wid p y → kget? u.reqs k = none) ∧ (¬Held wid p y → kget? u.reqs k = some y) := fun k y hy =>
    ⟨fun h => hgone k ((mem_stuckIds hu hy).mpr h), fun h => (hkept k fun hin => h ((mem_stuckIds hu hy).mp hin)).trans hy⟩
  have hother : ∀ k, k ≠ wid → u.warp? k = s.warp? k := fun k hk => (hothers k hk).trans (replaced_warp?_ne _ _ _ hk)
  rw [hstate, settle_free hw2 hp2 hst rfl rfl hfree]
  split
  · refine ⟨_, _, _, rfl, ?_, fun k hk => (replaced_warp?_ne _ _ _ hk).trans (hother k hk), replaced_warp? hw2 _ _ _, ?_, fun k hk => ?_,
      (kget?_kmod_self ..).trans (congrArg (Option.map _) hp2), ?_, ?_, hreqs⟩
    · rw [hframe]; rfl
    · rw [Warp.gc, hw2']
    · exact (kget?_kmod_ne _ _ hk).trans (htable k hk)
    · exact (setEff_pc _ _).trans hpc
    · exact setEff_lmask ..
  · exact ⟨u, w2, p1, rfl, by rw [hframe]; rfl, hother, hw2, hw2', htable, hp2, hpc, rfl, hreqs⟩

/-! ## The answers -/

section
variable {s : State} {q n : Nat} {r : ExcRec} (hr : s.excNamed q n = some r)
include hr

theorem exansAbort_eq : exec (.exansAbort q n) s = .next (if r.last then (unwaited s q r.seq).abortLaunch r.launch else unwaited s q r.seq) := by
  show execExansAbort q n s = _
  simp only [execExansAbort, hr]
  split <;> rfl

theorem answer_of_last (hlast : r.last = true) {w : Warp} (hw : s.warp? r.wid = some w) (skip : Bool) :
    s.answer q n skip = if w.captured then
        (unwaited s q r.seq).modLaunch r.launch fun l => { l with answers := l.answers ++ [(r.wid, r.seq, skip)] }
      else match s.answered r.wid r.seq with
        | none => unwaited s q r.seq
        | some slot => (unwaited s q r.seq).answerSplit r.wid slot r.seq skip := by
  have hwd : s.warpD r.wid = w := by simp [State.warpD, hw]
  simp only [State.answer, hr, hlast, hwd, Bool.not_true, Bool.false_eq_true, if_false]
  rfl

theorem answer_of_notLast (hlast : r.last = false) (skip : Bool) : s.answer q n skip = unwaited s q r.seq := by
  simp only [State.answer, hr, hlast, Bool.not_false, if_true]
  rfl

end

/-- Resume and skip are one operation. -/
theorem exec_answer (q n : Nat) (s : State) (skip : Bool) :
    exec (if skip = true then .exansSkip q n else .exansResume q n) s = .next (s.answer q n skip) := by
  cases skip <;> rfl

/-- Settles O23: no record, a record that is not its group's last, an abort, a captured warp, and the split of the record. -/
theorem answersAct : Obligations.AnswersAct := by
  intro s q n x hx
  refine ⟨fun hnone => ⟨?_, fun skip => ?_⟩, fun r hr hn hu => ?_⟩
  · show execExansAbort q n s = _
    simp only [execExansAbort, excNamed_none hx hnone]
  · rw [exec_answer, State.answer, excNamed_none hx hnone]
  have hnamed := excNamed_some hx hr hn hu
  refine ⟨fun hlast => ⟨?_, fun skip => ?_⟩, fun hlast hw hb he => ?_, fun skip w hlast hw => ⟨fun hcap => ?_, fun slot p f hcap hp hut hst hf hrecs hgroup haccs hothers => ?_⟩⟩
  · rw [exansAbort_eq hnamed, if_neg (by simp [hlast])]; rfl
  · rw [exec_answer, answer_of_notLast hnamed hlast]; rfl
  · exact ⟨_, (exansAbort_eq hnamed).trans (congrArg Host.Outcome.next (if_pos hlast)), Aborting.abortLaunch_aborts (unwaited s q r.seq) r.launch hw hb he⟩
  · rw [exec_answer, answer_of_last hnamed hlast hw, if_pos hcap]; rfl
  · have hslot := answered_slot hw hp hst hf hrecs hgroup hothers
    have hexec : ∀ skip, s.answer q n skip = (unwaited s q r.seq).answerSplit r.wid slot r.seq skip := fun skip => by
      rw [answer_of_last hnamed hlast hw, if_neg (by simp [hcap]), hslot]
    refine ⟨fun hk hreqs hq => ?_, fun hk hskip hur => ?_⟩
    · obtain ⟨t, w', p', ht, hframe, hother, hw', hkept, hstop, htable, hp', hfields, hpc⟩ :=
        answerSplit_goesOn (s := unwaited s q r.seq) hw hp hst hf haccs skip hreqs hq
      refine ⟨t, w', p', by rw [exec_answer, hexec, ht], hframe, hother, hw', hkept, hstop, htable, hp', hfields, hpc.trans ?_⟩
      cases hkind : f.kind with
      | issue m => cases skip <;> rfl
      | stop halt => rfl
      | completion => exact absurd hkind hk
    · obtain ⟨t, w', p', ht, hrest⟩ := answerSplit_drops (s := unwaited s q r.seq) hw hp hst hf haccs hk hur
      exact ⟨t, w', p', (exec_answer q n s true).trans (by rw [hexec, ht]), hrest⟩

end Sys2Proof.Laws.Answers

namespace Sys2Proof.Laws.Unlocks

/-! # An UNLOCK whose line is LOST (07 R180, R196, 12 R313, 16 R388) -/

open Sys2Proof.Machine Sys2Proof.Safety Sys2Proof.Rules

/-- A tracked leaf on die 0 of package 0 that may be read and written. -/
def trackedLeaf : Word := 0x80000123F

/-- The UNLOCK of warp 0 for the line at 4,096, accepted by its home. -/
def unlockOfLine : Req := { (default : Req) with kind := .unlock, va := 4096, size := 4, phase := .out, filled := true, tr := some trackedLeaf }

/-- The line's entry: warp 0 holds it, and warp 9 waits. -/
def heldWithWaiter : LockEntry := { (default : LockEntry) with holder := some 0, queue := [⟨9, true, 0, 0, 0⟩] }

/-- That UNLOCK at its home, where the line's directory entry is LOST. -/
def unlockOfLost : State :=
  { State.reset.withWarp 0 0 with
    reqs := [(3, unlockOfLine)]
    lockTab := [(lineKey 0 (lineOf 0 4096 4), heldWithWaiter)]
    dirs := [(lineKey 0 (lineOf 0 4096 32), { (default : Dir) with lost := true })] }

theorem unlockOfLost_atHome : AtHome unlockOfLost 3 unlockOfLine trackedLeaf :=
  ⟨rfl, rfl, by decide +kernel, by decide +kernel, by decide +kernel, rfl⟩

theorem unlockOfLost_unique : Unique unlockOfLost.lockTab := by
  unfold Rules.Unique
  decide +kernel

/-- The request is kept: word of the failure goes back to its core (01 R32). -/
theorem unlockOfLost_keeps : ∃ t, exec (.unlockRequest 3) unlockOfLost = .next t ∧ t.reqs.length = 1 := ⟨_, rfl, by decide +kernel⟩

/-- Refutes O38: the hand-over of a LOST line is not reported in the step in which the home makes the UNLOCK. In `unlockOfLost` the request is
kept and carries the failure back to its core, where the statement says that it is gone and the failure counted. -/
theorem not_lockRequests : ¬ Obligations.LockRequests := by
  intro h
  obtain ⟨-, hhome⟩ := h
  obtain ⟨-, hunlock⟩ := hhome unlockOfLost 3 unlockOfLine trackedLeaf unlockOfLost_atHome (by decide +kernel) unlockOfLost_unique (.inr rfl) rfl
  obtain ⟨hholder, -⟩ := hunlock rfl
  obtain ⟨hpass, -⟩ := hholder (by decide +kernel)
  obtain ⟨hlost, -⟩ := hpass [] ⟨9, true, 0, 0, 0⟩ [] (by decide +kernel) (by simp) rfl
  obtain ⟨t, w', hexec, hframe, -⟩ := hlost (by decide +kernel) _ rfl rfl
  obtain ⟨u, hu, hlength⟩ := unlockOfLost_keeps
  obtain rfl : t = u := by rw [hexec] at hu; cases hu; rfl
  have hgone : t.reqs = [] := by rw [hframe]; rfl
  rw [hgone] at hlength
  cases hlength

end Sys2Proof.Laws.Unlocks

namespace Sys2Proof.Laws.Writes

/-! # Writes and atomics at the home (07 R190 to R192, 11 R294) -/

open Sys2Proof.Machine Sys2Proof.Safety Sys2Proof.Rules

/-! ## Bytes of memory -/

theorem bytesNat_lt (l : List Byte) : bytesNat l < 2 ^ (8 * l.length) := by
  induction l with
  | nil => simp [bytesNat]
  | cons b r ih =>
    have hb := b.isLt
    have hpow : 2 ^ (8 * (b :: r).length) = 256 * 2 ^ (8 * r.length) := by
      rw [List.length_cons, Nat.mul_succ, Nat.pow_add, Nat.mul_comm]
    rw [bytesNat, hpow]
    omega

@[simp] theorem memRead_length (m : List Host.Cell) (a n : Nat) : (memRead m a n).length = n := by
  induction n generalizing a with
  | zero => rfl
  | succ n ih => simp [memRead, ih]

/-- A byte of memory after a run of bytes has been written. -/
theorem memGet_memWrite (l : List Byte) {m : List Host.Cell} (hm : Memory.wf m = true) (a j : Nat) :
    memGet (memWrite m a l) j = if a ≤ j then (l[j - a]?).getD (memGet m j) else memGet m j := by
  induction l generalizing m a with
  | nil => simp [memWrite]
  | cons b r ih =>
    rw [memWrite, ih (memPut_wf m a b hm), memGet_memPut m a j b hm]
    by_cases hlt : a < j
    · have hsub : j - a = j - (a + 1) + 1 := by omega
      simp [Nat.succ_le_of_lt hlt, hlt.le, hlt.ne', hsub]
    · by_cases he : j = a
      · subst he; simp
      · have h1 : ¬ a + 1 ≤ j := by omega
        have h2 : ¬ a ≤ j := by omega
        simp [h1, h2, he]

/-- What a run of bytes does to memory. -/
theorem puts_of_memWrite {s t : State} (hs : MemoryOk s) {a : Nat} {l : List Byte} (ht : t.mem = memWrite s.mem a l) : Puts s t a l := by
  refine ⟨fun i b hi => ?_, fun j hj => ?_⟩
  · simp [ht, memGet_memWrite l hs, hi]
  · rw [ht, memGet_memWrite l hs]
    split
    · rw [List.getElem?_eq_none (by omega)]; rfl
    · rfl

/-! ## The value of an atomic -/

/-- Operations of an F32 value: their rule is the model's own. -/
abbrev floatOp (op : Nat) : Prop := op = 12 ∨ op = 13 ∨ op = 14

theorem intOf_signed {n : Nat} (hn : 0 < n) (x : Nat) : intOf true n x = (BitVec.ofNat n x).toInt := by
  have hpow : 2 ^ n = 2 * 2 ^ (n - 1) := by rw [← Nat.pow_succ']; congr 1; omega
  rw [BitVec.toInt_eq_toNat_cond, BitVec.toNat_ofNat]
  simp only [intOf, true_and]
  have hcast : ((2 ^ n : Nat) : Int) = 2 ^ n := by simp
  split <;> split <;> omega

/-- An integer of n bits is that of its number. -/
theorem intOf_inj {n : Nat} (hn : 0 < n) {x y : Nat} (hx : x < 2 ^ n) (hy : y < 2 ^ n) (h : intOf true n x = intOf true n y) : x = y := by
  rw [intOf_signed hn, intOf_signed hn, BitVec.toInt_inj] at h
  have := congrArg BitVec.toNat h
  rwa [BitVec.toNat_ofNat, BitVec.toNat_ofNat, Nat.mod_eq_of_lt hx, Nat.mod_eq_of_lt hy] at this

/-- An atomic on integers leaves a number of as many bits. -/
theorem atomNew_lt {op n old b c : Nat} (hop : ¬ floatOp op) (ho : old < 2 ^ n) (hb : b < 2 ^ n) : atomNew op n old b c < 2 ^ n := by
  unfold atomNew
  split
  · exact Nat.mod_lt _ (Nat.two_pow_pos n)
  · exact Nat.mod_lt _ (Nat.two_pow_pos n)
  · exact Nat.and_lt_two_pow _ hb
  · exact Nat.or_lt_two_pow ho hb
  · exact Nat.xor_lt_two_pow ho hb
  · split <;> assumption
  · split <;> assumption
  · exact (Nat.min_le_left _ _).trans_lt ho
  · exact Nat.max_lt.mpr ⟨ho, hb⟩
  · exact hb
  · split <;> omega
  · split <;> omega
  · exact absurd (.inl rfl) hop
  · exact absurd (.inr (.inl rfl)) hop
  · exact absurd (.inr (.inr rfl)) hop
  · split <;> assumption

/-- The model's value of an atomic is that of the rule (07 R190, R191). -/
theorem atomicRule_eq {op n old b : Nat} (c : Nat) (hn : 0 < n) (ho : floatOp op ∨ old < 2 ^ n) (hb : b < 2 ^ n) :
    atomicRule op n old b c = atomNew op n old b c := by
  have hofold : ¬ floatOp op → (BitVec.ofNat n old).toNat = old := fun h => by
    rw [BitVec.toNat_ofNat, Nat.mod_eq_of_lt (ho.resolve_left h)]
  have hofb : (BitVec.ofNat n b).toNat = b := by rw [BitVec.toNat_ofNat, Nat.mod_eq_of_lt hb]
  unfold atomicRule
  split
  · rw [BitVec.toNat_add, hofold (by decide), hofb]; rfl
  · rw [BitVec.toNat_sub, hofold (by decide), hofb]
    simp only [atomNew, Nat.mod_eq_of_lt hb]
    congr 1
    omega
  · rw [BitVec.toNat_and, hofold (by decide), hofb]; rfl
  · rw [BitVec.toNat_or, hofold (by decide), hofb]; rfl
  · rw [BitVec.toNat_xor, hofold (by decide), hofb]; rfl
  · simp only [atomNew, BitVec.slt, intOf_signed hn, decide_eq_true_eq]
    split <;> split <;> omega
  · have hlt := ho.resolve_left (by decide)
    simp only [atomNew, BitVec.slt, decide_eq_true_eq, ← intOf_signed hn]
    split <;> split
    · rfl
    · omega
    · exact intOf_inj hn hlt hb (by omega)
    · rfl
  · simp only [atomNew, Nat.min_def]
    split <;> split <;> omega
  · simp only [atomNew, Nat.max_def]
    split <;> split <;> omega
  · rfl
  · rfl
  · simp only [atomNew]
  · rfl
  · rfl

/-! ## A group in order -/

/-- What the first `k` lanes of a group leave (07 R192). -/
def leftBy (r : Req) (x k : Nat) : Nat := (atomSeq r.op (8 * r.size) x (r.opnds.take k)).1

theorem atomSeq_length (op n x : Nat) (l : List (Nat × Word × Word)) : (atomSeq op n x l).2.length = l.length := by
  induction l generalizing x with
  | nil => rfl
  | cons a r ih => obtain ⟨i, b, c⟩ := a; simp [atomSeq, ih]

/-- Each lane takes what the lanes before it left, and leaves what its operation makes of that. -/
theorem atomSeq_step {op n : Nat} {l : List (Nat × Word × Word)} {k i : Nat} {b c : Word} (h : l[k]? = some (i, b, c)) (x : Nat) :
    (atomSeq op n x (l.take (k + 1))).1
        = atomNew op n (atomSeq op n x (l.take k)).1 (b.toNat % 2 ^ n) (c.toNat % 2 ^ n)
      ∧ (atomSeq op n x l).2[k]? = some (i, BitVec.ofNat 64 (atomSeq op n x (l.take k)).1) := by
  induction l generalizing k x with
  | nil => simp at h
  | cons a r ih =>
    cases k with
    | zero =>
      obtain rfl : a = (i, b, c) := by simpa using h
      exact ⟨rfl, rfl⟩
    | succ k =>
      obtain ⟨j, d, e⟩ := a
      exact ih (k := k) h _

theorem leftBy_lt {r : Req} (hop : ¬ floatOp r.op) {x : Nat} (hx : x < 2 ^ (8 * r.size)) (k : Nat) : leftBy r x k < 2 ^ (8 * r.size) := by
  unfold leftBy
  induction r.opnds.take k generalizing x with
  | nil => exact hx
  | cons a l ih =>
    obtain ⟨i, b, c⟩ := a
    exact ih (atomNew_lt hop hx (Nat.mod_lt _ (Nat.two_pow_pos _)))

/-- The model's sequence is that of the rule (07 R192). -/
theorem atomSeq_sequence {r : Req} (hsize : 0 < r.size) {x : Nat} (hx : x < 2 ^ (8 * r.size)) :
    Sequence r (leftBy r x) (atomSeq r.op (8 * r.size) x r.opnds).2 := by
  intro k l b c hk
  obtain ⟨hstep, hold⟩ := atomSeq_step hk x (op := r.op) (n := 8 * r.size)
  have hlt : floatOp r.op ∨ leftBy r x k < 2 ^ (8 * r.size) := or_iff_not_imp_left.mpr fun hop => leftBy_lt hop hx k
  exact ⟨hstep.trans (atomicRule_eq _ (by omega) hlt (Nat.mod_lt _ (Nat.two_pow_pos _))).symm, hold⟩

theorem leftBy_all (r : Req) (x : Nat) : leftBy r x r.opnds.length = (atomSeq r.op (8 * r.size) x r.opnds).1 := by
  rw [leftBy, List.take_length]

/-! ## A write at its home -/

/-- Copies, directories and invalidations alone change. -/
def Spread (s t : State) : Prop := t = { s with copies := t.copies, dirs := t.dirs, invals := t.invals, nextId := t.nextId }

theorem Spread.trans {s t u : State} (h : Spread s t) (h' : Spread t u) : Spread s u := by
  unfold Spread at *
  rw [h', h]

theorem foldl_spread {α : Type} {f : State → α → State} (hf : ∀ s a, Spread s (f s a)) (l : List α) (s : State) : Spread s (l.foldl f s) := by
  induction l generalizing s with
  | nil => rfl
  | cons a r ih => exact (hf s a).trans (ih _)

theorem ownCopies_spread (s : State) (r : Req) (leaf : Word) (l : List Byte) : Spread s (s.ownCopies r leaf l) := by
  unfold State.ownCopies
  dsimp only
  split
  · exact foldl_spread (by intro _ _; exact rfl) _ _
  · rfl

theorem sendInvals_spread (s : State) (id : Nat) (r : Req) (leaf : Word) (place : Nat) : Spread s (s.sendInvals id r leaf place) := by
  unfold State.sendInvals
  dsimp only
  split
  · exact foldl_spread (by intro _ _; exact rfl) _ _
  · refine Spread.trans (foldl_spread ?_ _ s) rfl
    intro _ _
    exact rfl

/-- The request of a write that has been made (11 R288). -/
def madeReq (s : State) (key : Nat) (l : List Byte) (r : Req) : Req := { r with place := s.nextId, wrote := some (key, memRead s.mem key l.length) }

/-- A change of one core's logical time is that of every core's record at most. -/
theorem modCore_ltime (s : State) (k ck : Nat) (g : Core → Nat) :
    (s.modCore k fun c => { c with ltime := g c }).core ck
      = { s.core ck with ltime := ((s.modCore k fun c => { c with ltime := g c }).core ck).ltime } := by
  by_cases hk : ck = k
  · subst hk; simp [State.modCore, State.core, kgetD]
  · simp [State.modCore, State.core, kgetD, kget?_kput_ne _ _ hk]

/-- What a write at its home changes: its bytes of memory, its request, and what its copies and directories learn. -/
theorem applyWrite_frame (s : State) (id : Nat) (r : Req) (leaf : Word) (l : List Byte) :
    ∃ t, s.applyWrite id r leaf l = t
      ∧ t = { s with
          mem := memWrite s.mem (r.key leaf) l, memPoison := t.memPoison, reqs := kmod s.reqs id (madeReq s (r.key leaf) l), copies := t.copies
          dirs := t.dirs, invals := t.invals, wclock := t.wclock, cores := t.cores, nextId := t.nextId }
      ∧ (∀ ck, t.core ck = { s.core ck with ltime := (t.core ck).ltime }) ∧ (leafTr leaf = true → s.wclock < t.wclock) := by
  let s1 : State := ({ s with mem := memWrite s.mem (r.key leaf) l, nextId := s.nextId + 1 }.cleanSectors (r.key leaf) l.length).modReq id
    (madeReq s (r.key leaf) l)
  by_cases htr : leafTr leaf = true
  · let s3 := ({ s1 with wclock := s1.wclock + 1 } : State).modCore (s.blockOf r.wid).ck fun c => { c with ltime := max c.ltime (s1.wclock + 1) }
    obtain ⟨t, ht, hspread⟩ : ∃ t, s.applyWrite id r leaf l = t ∧ Spread s3 t :=
      ⟨_, if_pos htr, (ownCopies_spread s3 r leaf l).trans (sendInvals_spread _ _ _ _ _)⟩
    have hcore : ∀ ck, t.core ck = s3.core ck := fun ck => by rw [hspread]; rfl
    have hclock : t.wclock = s.wclock + 1 := by rw [hspread]; rfl
    have hframe : t = { s3 with
        memPoison := t.memPoison, copies := t.copies, dirs := t.dirs, invals := t.invals, wclock := t.wclock, cores := t.cores
        nextId := t.nextId } := by
      rw [hspread]
    refine ⟨t, ht, hframe, fun ck => ?_, fun _ => hclock ▸ Nat.lt_succ_self _⟩
    rw [hcore]
    exact modCore_ltime ({ s1 with wclock := s1.wclock + 1 } : State) _ ck fun c => max c.ltime (s1.wclock + 1)
  · exact ⟨s1, if_neg htr, rfl, fun _ => rfl, fun h => absurd h htr⟩

/-- The home region alone changes where it takes what a request has touched. -/
theorem homeFill_eq (s : State) (r : Req) (leaf : Word) : ∃ h, s.homeFill r leaf = { s with homes := h } := by
  unfold State.homeFill
  split
  · exact ⟨_, rfl⟩
  · exact ⟨_, rfl⟩

/-- A write that has been made: memory holds its bytes, and its request is as it was but for what tells of the write. -/
theorem applyWrite_makes {s : State} (hs : MemoryOk s) {id : Nat} {r : Req} (hr : kget? s.reqs id = some r) (h : KMap Home) (leaf : Word) (l : List Byte) :
    ∃ t r', ({ s with homes := h } : State).applyWrite id r leaf l = t ∧ kget? t.reqs id = some r'
      ∧ r' = { r with place := r'.place, wrote := r'.wrote } ∧ (∀ x, t.backTime x = s.backTime x) ∧ (leafTr leaf = true → s.wclock < t.wclock)
      ∧ ∀ f, MemorySide s (t.modReq id f) ∧ Puts s (t.modReq id f) (r.key leaf) l := by
  obtain ⟨t, ht, hframe, hcore, hclock⟩ := applyWrite_frame ({ s with homes := h } : State) id r leaf l
  refine ⟨t, madeReq { s with homes := h } (r.key leaf) l r, ht, ?_, rfl, fun x => ?_, hclock, fun f => ⟨⟨?_, hcore⟩, puts_of_memWrite hs ?_⟩⟩
  · rw [hframe]; simp [hr]
  · rw [hframe]; rfl
  · rw [hframe]; rfl
  · rw [hframe]; rfl

/-! ## What a write meets at its home -/

theorem meetHome_of_atHome {s : State} {id : Nat} {r : Req} {leaf : Word} (h : AtHome s id r leaf) : s.meetHome r = s.checkLeaf r leaf := by
  obtain ⟨-, -, -, -, -, hhome⟩ := h
  rw [State.meetHome, hhome]

theorem arrived_of_atHome {s : State} {id : Nat} {r : Req} {leaf : Word} (h : AtHome s id r leaf) : s.arrived r = true := by
  obtain ⟨-, hphase, harrive, hlink, -, -⟩ := h
  simp [State.arrived, hphase, harrive, hlink]

theorem checkLeaf_passes {s : State} {r : Req} {leaf : Word} (h : HomePasses s r leaf) : s.checkLeaf r leaf = .go leaf := by
  obtain ⟨hperm, hro, hlost, htag, -⟩ := h
  simp [State.checkLeaf, hperm, hro, hlost, htag]

theorem checkLeaf_refused {s : State} {r : Req} {leaf : Word} (h : r.permitted leaf = false ∨ s.readOnly r = true) :
    s.checkLeaf r leaf = .fail cbRefused fcAccess := by
  rcases h with h | h <;> simp [State.checkLeaf, h]

theorem checkLeaf_lost {s : State} {r : Req} {leaf : Word} (hperm : r.permitted leaf = true) (hro : s.readOnly r = false) (h : s.lineLost r leaf = true) :
    s.checkLeaf r leaf = .fail cbCohlost fcCohlost := by
  simp [State.checkLeaf, hperm, hro, h]

theorem checkLeaf_tag {s : State} {r : Req} {leaf : Word} (hperm : r.permitted leaf = true) (hro : s.readOnly r = false) (hlost : s.lineLost r leaf = false)
    (h : s.homeTagOk r leaf = false) : s.checkLeaf r leaf = .fail cbTagf fcTagchk := by
  simp [State.checkLeaf, hperm, hro, hlost, h]

/-- A posted write on its way back. -/
def ackReq (t : State) (r : Req) : Req := { r with phase := .applied, arrive := t.backTime r + r.slow }

/-- A write's way back begins: the acknowledgement of a posted one. -/
def acked (id : Nat) (t : State) : State := t.modReq id (ackReq t)

/-- The way back of an atomic, with the old values. -/
def answered (s : State) (id : Nat) (old : List (Nat × Word)) (t : State) : State :=
  t.modReq id fun r => { r with phase := .reply, old := old, arrive := s.backTime r + r.slow }

section
variable {s : State} {id : Nat} {r : Req} {leaf : Word}

theorem storeApply_store (h : AtHome s id r leaf) (hp : HomePasses s r leaf) (hk : r.kind = .store) (hop : r.op ≠ 2) :
    exec (.storeApply id) s = .next (acked id ((s.homeFill r leaf).applyWrite id r leaf r.data)) := by
  have harr := arrived_of_atHome h
  have hmeet := (meetHome_of_atHome h).trans (checkLeaf_passes hp)
  obtain ⟨hr, -, -, -, hmake, -⟩ := h
  obtain ⟨-, -, -, -, hslow⟩ := hp
  dsimp only [exec]
  simp only [execStoreApply, hr, hk, harr, hmake, hop, hmeet, hslow, acked]
  rfl

theorem storeApply_red (h : AtHome s id r leaf) (hp : HomePasses s r leaf) (hk : r.kind = .red)
    (hpoison : (s.homeFill r leaf).memPoison.contains (r.key leaf / 32) = false) :
    exec (.storeApply id) s = .next (acked id ((s.homeFill r leaf).applyWrite id r leaf
      (natBytes (atomSeq r.op (8 * r.size) (bytesNat (memRead (s.homeFill r leaf).mem (r.key leaf) r.size)) r.opnds).1 r.size))) := by
  have harr := arrived_of_atHome h
  have hmeet := (meetHome_of_atHome h).trans (checkLeaf_passes hp)
  obtain ⟨hr, -, -, -, hmake, -⟩ := h
  obtain ⟨-, -, -, -, hslow⟩ := hp
  dsimp only [exec]
  simp only [execStoreApply, hr, hk, harr, hmake, hmeet, hslow, hpoison, acked]
  simp
  rfl

theorem atomicApply_eq (h : AtHome s id r leaf) (hp : HomePasses s r leaf) (hk : r.kind = .atom)
    (hpoison : (s.homeFill r leaf).memPoison.contains (r.key leaf / 32) = false) :
    let seq := atomSeq r.op (8 * r.size) (bytesNat (memRead (s.homeFill r leaf).mem (r.key leaf) r.size)) r.opnds
    exec (.atomicApply id) s = .next (answered (s.homeFill r leaf) id seq.2 ((s.homeFill r leaf).applyWrite id r leaf (natBytes seq.1 r.size))) := by
  have harr := arrived_of_atHome h
  have hmeet := (meetHome_of_atHome h).trans (checkLeaf_passes hp)
  obtain ⟨hr, -, -, -, hmake, -⟩ := h
  obtain ⟨-, -, -, -, hslow⟩ := hp
  dsimp only [exec]
  simp only [execAtomicApply, hr, hk, harr, hmake, hmeet, hslow, hpoison, answered]
  simp

theorem storeApply_fails {cause code : Nat} (h : AtHome s id r leaf) (hk : r.kind = .store) (hop : r.op ≠ 2) (hcheck : s.checkLeaf r leaf = .fail cause code)
    (hcause : ¬(cause = cbDpeer ∨ cause = cbDlink)) :
    exec (.storeApply id) s = .next (s.modReq id fun _ => { r with phase := .failed, fault := cause, arrive := s.backTime r }) := by
  have harr := arrived_of_atHome h
  have hmeet := (meetHome_of_atHome h).trans hcheck
  obtain ⟨hr, -, -, -, hmake, -⟩ := h
  dsimp only [exec]
  simp only [execStoreApply, hr, hk, harr, hmake, hop, hmeet, State.refuseWrite, hcause]
  rfl

end

/-! ## Failures come back -/

/-- STAGE_ACK of a write that its home has refused: its failure is recorded (01 R32). -/
theorem stageAck_failed {s : State} {id : Nat} {r : Req} (hr : kget? s.reqs id = some r) (hposted : r.isPosted = true) (hphase : r.phase = .failed)
    (harrive : r.arrive ≤ s.clk) : exec (.stageAck id) s = .next (s.failPosted id r r.fault) := by
  dsimp only [exec]
  simp [execStageAck, hr, hposted, hphase, harrive]

/-- A failure of a warp that has not ended goes to its pending failure record, with SAVED while it is saved. -/
theorem reportFail_eq {s : State} {wid : Nat} {w : Warp} (hw : s.warp? wid = some w) (hlive : w.ended = false) (causes : BitVec 8) (n pkg die : Nat) :
    s.reportFail wid causes n pkg die
      = s.modWarp wid fun w' => { w' with pfr := w'.pfr.add (if w.captured then causes ||| (1#8 <<< cbSaved) else causes) n pkg die } := by
  simp [State.reportFail, hw, hlive]

/-- What a posted write's failure changes: its warp's record, and a copy that held its bytes. -/
theorem failPosted_eq {s : State} {id : Nat} {r : Req} {w : Warp} (hw : s.warp? r.wid = some w) (hlive : w.ended = false) (hwork : r.work.1 = 0) (cause : Nat) :
    ∃ c, s.failPosted id r cause = { s.modWarp r.wid fun w' =>
      { w' with pfr := w'.pfr.add (if w.captured then (1#8 <<< cause) ||| (1#8 <<< cbSaved) else 1#8 <<< cause) 1 r.pkg r.die } with
        reqs := kdel s.reqs id, copies := c } := by
  simp only [State.failPosted, hwork, ne_eq, not_true_eq_false, if_false, reportFail_eq hw hlive]
  split
  · split
    · split
      · exact ⟨_, rfl⟩
      · exact ⟨_, rfl⟩
    · exact ⟨_, rfl⟩
  · exact ⟨_, rfl⟩

/-- Settles O43: the value of a group of lanes is the model's own sequence, whose steps agree with the rule, and a run of bytes written leaves every
other byte; a refused write changes its request alone, and its failure the warp's record. -/
theorem writesApply : Obligations.WritesApply := by
  refine ⟨fun s id r leaf hmem hat hpass hop => ⟨fun hk => ?_, fun hsize hpoison => ⟨fun hk => ?_, fun hk => ?_⟩⟩,
    fun s id r leaf cause hat hk hop hcause => ?_, fun s id r w hr hphase harrive hwork hk hw hlive => ?_⟩
  · obtain ⟨h, hfill⟩ := homeFill_eq s r leaf
    obtain ⟨t, r', ht, hr', hrest, hback, hclock, hframe⟩ := applyWrite_makes hmem hat.1 h leaf r.data
    obtain ⟨hside, hputs⟩ := hframe (ackReq t)
    have hop2 : r.op ≠ 2 := hop.resolve_right (not_not_intro hk)
    refine ⟨acked id t, ackReq t r', ?_, hside, hputs, ?_, ?_, hclock⟩
    · rw [storeApply_store hat hpass hk hop2, hfill, ht]
    · simp [acked, State.modReq, hr']
    · rw [ackReq, hback, hrest]; rfl
  · obtain ⟨h, hfill⟩ := homeFill_eq s r leaf
    obtain ⟨t, r', ht, hr', hrest, hback, -, hframe⟩ := applyWrite_makes hmem hat.1 h leaf
      (natBytes (leftBy r (bytesNat (memRead s.mem (r.key leaf) r.size)) r.opnds.length) r.size)
    obtain ⟨hside, hputs⟩ := hframe (ackReq t)
    have hx := bytesNat_lt (memRead s.mem (r.key leaf) r.size)
    rw [memRead_length] at hx
    refine ⟨acked id t, ackReq t r', leftBy r _, _, ?_, hside, rfl,
      atomSeq_sequence (by omega) hx, hputs, ?_, ?_⟩
    · rw [storeApply_red hat hpass hk (by rw [hfill]; exact hpoison), hfill, ← ht, leftBy_all]
    · simp [acked, State.modReq, hr']
    · rw [ackReq, hback, hrest]; rfl
  · obtain ⟨h, hfill⟩ := homeFill_eq s r leaf
    obtain ⟨t, r', ht, hr', hrest, -, -, hframe⟩ := applyWrite_makes hmem hat.1 h leaf
      (natBytes (leftBy r (bytesNat (memRead s.mem (r.key leaf) r.size)) r.opnds.length) r.size)
    have hx := bytesNat_lt (memRead s.mem (r.key leaf) r.size)
    rw [memRead_length] at hx
    let old := (atomSeq r.op (8 * r.size) (bytesNat (memRead s.mem (r.key leaf) r.size)) r.opnds).2
    obtain ⟨hside, hputs⟩ := hframe fun x => { x with phase := .reply, old := old, arrive := (s.homeFill r leaf).backTime x + x.slow }
    refine ⟨answered (s.homeFill r leaf) id old t, { r' with phase := .reply, old := old, arrive := s.backTime r' + r'.slow }, leftBy r _, ?_, hside, rfl,
      atomSeq_sequence (by omega) hx, atomSeq_length _ _ _ _, hputs, ?_, ?_⟩
    · rw [atomicApply_eq hat hpass hk (by rw [hfill]; exact hpoison), hfill, ← ht, leftBy_all]
    · rw [hfill]
      simp [answered, State.modReq, hr']
      rfl
    · rw [hrest]; rfl
  · obtain ⟨code, hcheck, hother⟩ : ∃ code, s.checkLeaf r leaf = .fail cause code ∧ ¬(cause = cbDpeer ∨ cause = cbDlink) := by
      rcases hcause with ⟨rfl, h⟩ | ⟨rfl, hperm, hro, hlost⟩ | ⟨rfl, hperm, hro, hlost, htag⟩
      · exact ⟨_, checkLeaf_refused h, by decide⟩
      · exact ⟨_, checkLeaf_lost hperm hro hlost, by decide⟩
      · exact ⟨_, checkLeaf_tag hperm hro hlost htag, by decide⟩
    exact ⟨_, storeApply_fails hat hk hop hcheck hother, rfl, by simp [State.modReq, hat.1], fun k hne => kget?_kmod_ne _ _ hne⟩
  · have hposted : r.isPosted = true := by rcases hk with h | h | h | h | h <;> simp [Req.isPosted, h]
    obtain ⟨c, ht⟩ := failPosted_eq (id := id) hw hlive hwork r.fault
    refine ⟨_, { w with pfr := w.pfr.add (if w.captured then (1#8 <<< r.fault) ||| (1#8 <<< cbSaved) else 1#8 <<< r.fault) 1 r.pkg r.die },
      (stageAck_failed hr hposted hphase harrive).trans (congrArg Host.Outcome.next ht), ?_, ?_⟩
    · exact (kget?_kmod_self _ _ _).trans (congrArg _ hw)
    · refine ⟨rfl, ?_, rfl, fun h => by simp [FailRec.add, h], fun h => by simp [FailRec.add, h], rfl, fun k hne => kget?_kmod_ne _ _ hne⟩
      cases hc : w.captured <;> simp [FailRec.add, BitVec.or_assoc, cbSaved]

end Sys2Proof.Laws.Writes

namespace Sys2Proof.Laws.Serving

/-! # Loads are served (07 R179, R182, R188, R199, 11 R286) -/

open Sys2Proof.Machine Sys2Proof.Safety Sys2Proof.Rules Sys2Proof.Laws.Writes

/-! ## Copies move -/

/-- Memory, copies and directories alone change. -/
def Moved (s t : State) : Prop := t = { s with mem := t.mem, memPoison := t.memPoison, copies := t.copies, dirs := t.dirs }

/-- Memory stands, and no copy has dirty bytes. -/
def StaysClean (s t : State) : Prop := t.mem = s.mem ∧ CleanCopies t

theorem Moved.refl (s : State) : Moved s s := rfl

theorem Moved.trans {s t u : State} (h : Moved s t) (h' : Moved t u) : Moved s u := by
  unfold Moved at *
  rw [h', h]

theorem StaysClean.trans {s t u : State} (h : StaysClean s t) (h' : CleanCopies t → StaysClean t u) : StaysClean s u :=
  ⟨(h' h.2).1.trans h.1, (h' h.2).2⟩

/-- What moves copies, and moves no byte where none is dirty. -/
def Refreshes (s t : State) : Prop := Moved s t ∧ (CleanCopies s → StaysClean s t)

theorem Refreshes.refl (s : State) : Refreshes s s := ⟨rfl, fun h => ⟨rfl, h⟩⟩

theorem Refreshes.trans {s t u : State} (h : Refreshes s t) (h' : Refreshes t u) : Refreshes s u :=
  ⟨h.1.trans h'.1, fun hc => (h.2 hc).trans h'.2⟩

/-- A copy is entered in a state, or taken out. -/
def putCopy (t : State) (k : Nat) (c : Copy) : State := { t with copies := kput t.copies k c }
def dropCopy (s : State) (k : Nat) : State := { s with copies := kdel s.copies k }

/-- A copy that takes bytes which its home has not. -/
def dirtied (c : Copy) (l : List (Nat × Byte) × BitVec 16) : Copy :=
  { c.putBytes l.1 with dirty := l.1.foldl (fun d q => ninsert d q.1) c.dirty, poison := (c.putBytes l.1).poison ||| l.2 }

theorem cleanCopies_putCopy {t : State} (h : CleanCopies t) (k : Nat) {c : Copy} (hc : c.dirty = []) : CleanCopies (putCopy t k c) := by
  intro q hq
  rcases Splits.mem_kput hq with rfl | hq
  · exact hc
  · exact h q hq

theorem cleanCopies_dropCopy {s : State} (h : CleanCopies s) (k : Nat) : CleanCopies (dropCopy s k) :=
  fun q hq => h q (Transfers.mem_of_mem_kdel hq)

/-- A copy that stands, or a new one, has no dirty byte where none has. -/
theorem dirty_of_clean {s : State} (h : CleanCopies s) (k : Nat) (place asid blk : Nat) (leaf : Word) :
    ((kget? s.copies k).getD (newCopy place asid blk leaf)).dirty = [] := by
  cases hk : kget? s.copies k with
  | none => rfl
  | some c => exact h (k, c) (Results.kget?_mem hk)

theorem dirtyBytes_clean {c : Copy} (h : c.dirty = []) (sel : Nat → Bool) : (c.dirtyBytes sel).1 = [] := by
  simp [Copy.dirtyBytes, h]

theorem outgoing_mem {s : State} {place asid blk : Nat} {q : Nat × Copy} (h : s.outgoing place asid blk = some q) : q ∈ s.copies := by
  unfold State.outgoing at h
  split at h
  · cases h
  · dsimp only at h
    split at h
    · cases h
    · exact (List.mem_filter.mp (List.mem_filter.mp (List.mem_of_getElem? h)).1).1

/-- A copy is given up with its dirty bytes, on a path of at most `n` levels. -/
def givenUp (n : Nat) (s : State) (q : Nat × Copy) : State :=
  (dropCopy s q.1).putDirty n (s.below q.2).1 q.2.asid q.2.blk q.2.leaf (s.below q.2).2 (q.2.dirtyBytes fun _ => true)

/-- A place has room, once the copy that has to go is given up. -/
def roomed (n : Nat) (s : State) (place asid blk : Nat) : State :=
  match s.outgoing place asid blk with
  | none => s
  | some q => givenUp n s q

theorem putDirty_place (n : Nat) (s : State) (pl asid blk : Nat) (leaf : Word) (home : Nat) (l : List (Nat × Byte) × BitVec 16) :
    s.putDirty (n + 1) (some pl) asid blk leaf home l = putCopy (roomed n s pl asid blk) (copyKey pl asid blk)
      (dirtied ((kget? (roomed n s pl asid blk).copies (copyKey pl asid blk)).getD (newCopy pl asid blk leaf)) l) := by
  rw [State.putDirty]
  unfold roomed
  cases s.outgoing pl asid blk <;> rfl

theorem putDirty_home (n : Nat) (s : State) (asid blk : Nat) (leaf : Word) (home : Nat) (l : List (Nat × Byte) × BitVec 16) :
    s.putDirty n none asid blk leaf home l = s.writeHome asid blk leaf home l := by
  cases n <;> rfl

theorem putDirty_moved (n : Nat) (s : State) (place : Option Nat) (asid blk : Nat) (leaf : Word) (home : Nat) (l : List (Nat × Byte) × BitVec 16) :
    Moved s (s.putDirty n place asid blk leaf home l) := by
  induction n generalizing s place asid blk leaf home l with
  | zero => exact rfl
  | succ n ih =>
    cases place with
    | none => exact rfl
    | some pl =>
      rw [putDirty_place]
      refine Moved.trans (t := roomed n s pl asid blk) ?_ rfl
      unfold roomed
      split
      · exact .refl s
      · exact Moved.trans (t := dropCopy s _) rfl (ih ..)

theorem writeHome_clean {s : State} (hs : CleanCopies s) (asid blk : Nat) (leaf : Word) (home : Nat) {l : List (Nat × Byte) × BitVec 16} (hl : l.1 = []) :
    StaysClean s (s.writeHome asid blk leaf home l) := ⟨by simp [State.writeHome, hl], hs⟩

/-- No byte reaches memory where no copy has one that is dirty. -/
theorem putDirty_clean (n : Nat) {s : State} (hs : CleanCopies s) (place : Option Nat) (asid blk : Nat) (leaf : Word) (home : Nat)
    {l : List (Nat × Byte) × BitVec 16} (hl : l.1 = []) : StaysClean s (s.putDirty n place asid blk leaf home l) := by
  induction n generalizing s place asid blk leaf home l with
  | zero => exact writeHome_clean hs _ _ _ _ hl
  | succ n ih =>
    cases place with
    | none => exact writeHome_clean hs _ _ _ _ hl
    | some pl =>
      rw [putDirty_place]
      have hroom : StaysClean s (roomed n s pl asid blk) := by
        unfold roomed
        split
        · exact ⟨rfl, hs⟩
        · next q ho =>
          have hv := dirtyBytes_clean (hs q (outgoing_mem ho)) fun _ => true
          exact StaysClean.trans (t := dropCopy s q.1) ⟨rfl, cleanCopies_dropCopy hs q.1⟩ fun h => ih h _ _ _ _ _ hv
      refine ⟨hroom.1, cleanCopies_putCopy hroom.2 _ ?_⟩
      simpa [dirtied, hl] using dirty_of_clean hroom.2 _ pl asid blk leaf

theorem givenUp_refreshes (n : Nat) {s : State} {q : Nat × Copy} (hq : q ∈ s.copies) : Refreshes s (givenUp n s q) := by
  refine ⟨Moved.trans (t := dropCopy s q.1) rfl (putDirty_moved ..), fun hs => ?_⟩
  have hv := dirtyBytes_clean (hs q hq) fun _ => true
  exact StaysClean.trans (t := dropCopy s q.1) ⟨rfl, cleanCopies_dropCopy hs q.1⟩ fun h => putDirty_clean _ h _ _ _ _ _ hv

theorem evict_refreshes (s : State) (k : Nat) : Refreshes s (s.evict k) := by
  unfold State.evict
  split
  · exact .refl s
  · next c hk => exact givenUp_refreshes levels (q := (k, c)) (Results.kget?_mem hk)

theorem makeRoom_refreshes (s : State) (place asid blk : Nat) (leaf : Word) : Refreshes s (s.makeRoom place asid blk leaf) := by
  unfold State.makeRoom
  split
  · split
    · exact .refl s
    · exact evict_refreshes s _
  · split
    · exact evict_refreshes s _
    · exact .refl s

theorem dropLine_clean {c : Copy} (h : c.dirty = []) (va grain : Nat) : (c.dropLine va grain).dirty = [] := by
  simp [Copy.dropLine, h]

theorem fillSector_refreshes (s : State) (place asid va : Nat) (leaf : Word) (bytes : List Byte) (tag : BitVec 4) (poison : Bool) (hint : Nat) :
    Refreshes s (s.fillSector place asid va leaf bytes tag poison hint) := by
  obtain ⟨hmoved, hclean⟩ := makeRoom_refreshes s place asid (blkOf va) leaf
  refine ⟨hmoved.trans rfl, fun hs => (hclean hs).trans fun h => ⟨rfl, cleanCopies_putCopy h _ ?_⟩⟩
  have hfound := dirty_of_clean h (copyKey place asid (blkOf va)) place asid (blkOf va) leaf
  dsimp only
  split
  · exact dropLine_clean hfound _ _
  · exact hfound

theorem refreshes_ite {s t u : State} {c : Prop} [Decidable c] (ht : Refreshes s t) (hu : Refreshes s u) : Refreshes s (if c then t else u) := by
  split <;> assumption

theorem noteReader_refreshes (s : State) (pkg die hpkg hdie line : Nat) : Refreshes s (s.noteReader pkg die hpkg hdie line) := by
  unfold State.noteReader
  split
  · split
    · exact .refl s
    · exact ⟨rfl, fun h => ⟨rfl, h⟩⟩
  · dsimp only
    split
    · exact ⟨rfl, fun h => ⟨rfl, h⟩⟩
    · split
      · exact ⟨rfl, fun h => ⟨rfl, h⟩⟩
      · exact ⟨rfl, fun h => ⟨rfl, h⟩⟩

/-- The refresh of a load's path moves copies alone, and no byte where none is dirty. -/
theorem fillPath_refreshes (s : State) (r : Req) (leaf : Word) (bytes : List Byte) (tag : BitVec 4) (poison : Bool) (src : Option Nat) :
    Refreshes s (s.fillPath r leaf bytes tag poison src) := by
  unfold State.fillPath
  dsimp only
  have hgo : ∀ (f : State × List Byte → Nat → List Byte) (places : List Nat) (q : State × List Byte), Refreshes s q.1 →
      Refreshes s (places.foldl (fun q pl => (q.1.fillSector pl r.asid r.va.toNat leaf q.2 tag poison r.hint, f q pl)) q).1 := by
    intro f places
    induction places with
    | nil => exact fun q h => h
    | cons pl rest ih => exact fun q h => ih _ (h.trans (fillSector_refreshes ..))
  exact refreshes_ite ((hgo _ _ _ (.refl s)).trans (noteReader_refreshes ..)) (hgo _ _ _ (.refl s))

/-- Where no copy is dirty, a load takes the bytes that were found. -/
theorem mergeNear_clean {s : State} (hs : CleanCopies s) (r : Req) (src : Option Nat) (l : List Byte) : s.mergeNear r src l = l := by
  unfold State.mergeNear
  dsimp only
  generalize (match src with | some x => _ | none => _ : List Nat).reverse = places
  induction places generalizing l with
  | nil => rfl
  | cons pl rest ih =>
    rw [List.foldl_cons]
    cases hc : s.copy? pl r.asid r.va.toNat with
    | none => exact ih l
    | some c =>
      have hdirty : c.dirty = [] := hs _ (Results.kget?_mem hc)
      simp only [hdirty, List.contains_nil, Bool.false_eq_true, if_false]
      rw [show (List.zip (List.range l.length) l).map (fun q => q.2) = l from List.map_snd_zip (by simp)]
      exact ih l

/-! ## A load at its home -/

/-- What a request's service may change, after its home region and the requests. -/
theorem memorySide_of_moved {s t : State} {h : KMap Home} {q : KMap Req} (ht : Moved { s with homes := h, reqs := q } t) : MemorySide s t := by
  unfold Moved at ht
  exact ⟨by rw [ht], fun ck => by rw [ht]; rfl⟩

theorem reqs_of_moved {s t : State} (ht : Moved s t) : t.reqs = s.reqs := by
  unfold Moved at ht
  rw [ht]

/-- A request on its way back with bytes. -/
def reply (l : List Byte) (due : Nat) (r : Req) : Req := { r with phase := .reply, data := l, arrive := due }

/-- A request that has been answered, while copies are refreshed. -/
theorem answer_side {s t : State} {id : Nat} {r : Req} (hr : kget? s.reqs id = some r) {h : KMap Home} {f : Req → Req}
    (ht : Refreshes { s with homes := h, reqs := kmod s.reqs id f } t) :
    MemorySide s t ∧ (CleanCopies s → t.mem = s.mem) ∧ kget? t.reqs id = some (f r) := by
  refine ⟨memorySide_of_moved ht.1, fun hs => (ht.2 hs).1, ?_⟩
  rw [reqs_of_moved ht.1]
  simp [hr]

section
variable {s : State} {id : Nat} {r : Req} {leaf : Word}

theorem homeServeLoad_load (h : AtHome s id r leaf) (hk : r.kind = .load) (hstage : 2 ≤ r.stage) :
    exec (.homeServeLoad id) s = match s.checkLeaf r leaf with
      | .fail _ code => .next (s.refuseRead id code (s.meetInfo r code) (s.backTime r))
      | .wait => .next s
      | .go _ => if s.slowHome r then .next (s.waitHome id r leaf) else .next ((s.homeFill r leaf).serveHome id r leaf) := by
  have harr := arrived_of_atHome h
  obtain ⟨hr, hphase, -, -, hmake, hhome⟩ := h
  have h0 : r.stage ≠ 0 := by omega
  have h1 : r.stage ≠ 1 := by omega
  dsimp only [exec]
  simp only [execHomeServeLoad, hr, hk, hphase, harr, hmake, hhome, h0, h1]
  rfl

/-- The answer of a home, and the copies of its path. -/
theorem serveHome_serves {s0 : State} {h : KMap Home} (h0 : s0 = { s with homes := h }) (hpoison : s.memPoison.contains (r.key leaf / 32) = false) :
    Refreshes { s with homes := h, reqs := kmod s.reqs id fun x => reply (s.mergeNear r none (memRead s.mem (r.key leaf) r.size)) (s.backTime x) x }
      (s0.serveHome id r leaf) := by
  subst h0
  unfold State.serveHome
  rw [if_neg (by simpa using hpoison)]
  exact fillPath_refreshes ..

theorem homeServeLoad_prf (h : AtHome s id r leaf) (hk : r.kind = .prf) (hperm : r.permitted leaf = true) (hlost : s.lineLost r leaf = false)
    (hslow : s.slowHome r = false) : exec (.homeServeLoad id) s = .next ((s.homeFill r leaf).servePrf id r leaf) := by
  have harr := arrived_of_atHome h
  obtain ⟨hr, hphase, -, -, hmake, hhome⟩ := h
  dsimp only [exec]
  simp only [execHomeServeLoad, hr, hk, hphase, harr, hmake, hhome, hperm, hlost, hslow]
  rfl

theorem foldl_refreshes {α : Type} {f : State → α → State} (hf : ∀ t i, Refreshes t (f t i)) (l : List α) (t : State) : Refreshes t (l.foldl f t) := by
  induction l generalizing t with
  | nil => exact .refl t
  | cons i rest ih => exact (hf t i).trans (ih _)

/-- A prefetch enters the sectors of its line in the places of its path, and ends. -/
theorem servePrf_serves (s : State) (id : Nat) (r : Req) (leaf : Word) :
    ∃ t, Refreshes s t ∧ s.servePrf id r leaf = { t with reqs := kdel t.reqs id } := by
  unfold State.servePrf
  dsimp only
  exact ⟨_, foldl_refreshes (fun t i => fillPath_refreshes t { r with va := r.va + BitVec.ofNat 64 (32 * i) } leaf _ _ _ none) _ s, rfl⟩

theorem homeServeLoad_lkqry (h : AtHome s id r leaf) (hk : r.kind = .lkqry) (hperm : r.permitted leaf = true) (htr : leafTr leaf = true) :
    exec (.homeServeLoad id) s = .next (s.modReq id fun r' => reply (natBytes (s.lockQuery (128 * r.pkg + r.die)
      (lineOf r.asid r.va.toNat (leafGrain leaf)) r.wid (s.lineLost r leaf)).toNat 8) (s.backTime r') r') := by
  have harr := arrived_of_atHome h
  obtain ⟨hr, hphase, -, -, hmake, hhome⟩ := h
  dsimp only [exec]
  simp only [execHomeServeLoad, hr, hk, hphase, harr, hmake, hhome, hperm, htr]
  rfl

end

/-! ## The word of LKQRY -/

/-- The fields of the word of LKQRY (07 R199). -/
theorem lockQuery_fields (s : State) (dk line wid : Nat) (lost : Bool) :
    let e := s.lockEntry dk line
    let x := (s.lockQuery dk line wid lost).toNat
    x % 4 = (if lost then 3 else if e.holder = some wid then 1 else if e.holder.isSome || e.lostHolder then 2 else 0)
      ∧ x / 4 % 2 = (if ∃ q ∈ e.queue, q.key = wid then 1 else 0) ∧ x / 2 ^ 8 % 2 ^ 8 = min e.queue.length 255 := by
  intro e x
  obtain ⟨st, hst⟩ : ∃ st, (if lost then 3 else if e.holder = some wid then 1 else if e.holder.isSome || e.lostHolder then 2 else 0) = st := ⟨_, rfl⟩
  obtain ⟨m, hm⟩ : ∃ m, (if e.queue.any fun x => x.key == wid then 1 else 0) = m := ⟨_, rfl⟩
  obtain ⟨rest, hrest⟩ : ∃ rest, (if st = 1 ∨ st = 2 then 2 ^ 16 * e.hpkg + 2 ^ 25 * e.hdie + 2 ^ 32 * e.hcore else 0) = 2 ^ 16 * rest := by
    split
    · exact ⟨e.hpkg + 2 ^ 9 * e.hdie + 2 ^ 16 * e.hcore, by omega⟩
    · exact ⟨0, rfl⟩
  have hx : x = (st + 4 * m + 2 ^ 8 * min e.queue.length 255 + 2 ^ 16 * rest) % 2 ^ 64 := by
    rw [← hrest, ← hm, ← hst]
    exact BitVec.toNat_ofNat ..
  have hst3 : st ≤ 3 := by rw [← hst]; split_ifs <;> omega
  have hm1 : m ≤ 1 := by rw [← hm]; split <;> omega
  have hq : (if ∃ q ∈ e.queue, q.key = wid then 1 else 0) = m := by rw [← hm]; simp
  have hlen : min e.queue.length 255 ≤ 255 := Nat.min_le_right _ _
  rw [hq, hst, hx]
  refine ⟨?_, ?_, ?_⟩ <;> omega

/-! ## A load at a copy -/

/-- A copy that may serve a load answers it, with the bytes that its core wrote above. -/
theorem serveCopy_serves {s : State} {id : Nat} {r : Req} {c : Copy} (htag : c.tagOk r.va = true) (hpoison : c.poison.getLsbD (sectorOf r.va.toNat) = false)
    (hlost : c.tracked = true → s.entryLost (lineOf r.asid r.va.toNat c.grain) = false) (back : Nat) (fill : Bool) :
    Refreshes { s with reqs := kmod s.reqs id (reply (s.mergeNear r (some c.place) (c.read r.va.toNat r.size)) (s.clk + back)) }
      (s.serveCopy id r c back fill) := by
  have hl : (c.tracked && s.entryLost (lineOf r.asid r.va.toNat c.grain)) = false := by
    cases ht : c.tracked
    · rfl
    · simp [hlost ht]
  simp only [State.serveCopy, hl, htag, hpoison, Bool.not_true, Bool.and_false, Bool.false_eq_true, if_false]
  exact refreshes_ite (fillPath_refreshes ..) (.refl _)

theorem homeServeLoad_copy {s : State} {id : Nat} {r : Req} {k : Nat} {c : Copy} (hr : kget? s.reqs id = some r) (hphase : r.phase = .out)
    (harr : s.arrived r = true) (hmake : s.mayMake r = true) (hk : r.kind = .load)
    (hcopy : r.stage = 0 ∧ s.l1Hit r = some (k, c) ∨ r.stage = 1 ∧ s.nearHit r = some (k, c)) :
    ∃ back fill, exec (.homeServeLoad id) s = .next (s.serveCopy id r c back fill) := by
  rcases hcopy with ⟨h0, hhit⟩ | ⟨h1, hhit⟩
  · dsimp only [exec]
    simp only [execHomeServeLoad, hr, hk, hphase, harr, hmake, h0, hhit]
    exact ⟨_, _, rfl⟩
  · dsimp only [exec]
    simp only [execHomeServeLoad, hr, hk, hphase, harr, hmake, h1, hhit]
    exact ⟨_, _, rfl⟩

/-! ## A failure that has come back -/

/-- No split of the warp waits behind completion faults: none is settled. -/
theorem settleFaulted_idle {s : State} {wid : Nat} (h : ∀ w, s.warp? wid = some w → ∀ q ∈ w.table, q.2.eff ≠ .faulted) : s.settleFaulted wid = s := by
  have hnone : ((s.warpD wid).table.filter fun t => t.2.eff == .faulted) = [] := by
    rw [List.filter_eq_nil_iff]
    intro q hq
    unfold State.warpD at hq
    cases hw : s.warp? wid with
    | none => rw [hw] at hq; exact absurd hq (List.not_mem_nil)
    | some w => rw [hw] at hq; simpa using h w hw q hq
  rw [State.settleFaulted, hnone, List.foldl_nil]

theorem loadReply_failed {s : State} {id : Nat} {r : Req} (hr : kget? s.reqs id = some r) (hphase : r.phase = .failed) (harrive : r.arrive ≤ s.clk)
    (hwork : r.work.1 = 0) (hk : r.kind = .load ∨ r.kind = .atom ∨ r.kind = .lkqry)
    (hidle : ∀ w, s.warp? r.wid = some w → ∀ q ∈ w.table, q.2.eff ≠ .faulted) :
    exec (.loadReply id) s = .next { s with reqs := kmod s.reqs id fun x => { x with phase := .faulted, fault := r.fault, info := r.info } } := by
  have hresult : r.isResult = true := by rcases hk with h | h | h <;> simp [Req.isResult, h]
  have hfault : s.faultReq id r.fault r.info = { s with reqs := kmod s.reqs id fun x => { x with phase := .faulted, fault := r.fault, info := r.info } } := by
    simp [State.faultReq, hr, hwork, State.modReq]
  dsimp only [exec]
  simp only [execLoadReply, hr, Nat.not_lt.mpr harrive, hphase, hresult, and_self, if_true, if_false, hfault]
  rw [settleFaulted_idle]
  exact hidle

end Sys2Proof.Laws.Serving

namespace Sys2Proof.Laws.Landing

/-! # Values arrive in registers (01 R16, R18, 07 R181 to R183, R193) -/

open Sys2Proof.Machine Sys2Proof.Safety Sys2Proof.Rules Sys2Proof.Laws.Results

/-! ## One warp changes -/

/-- The state in which one warp is `w'`. -/
def withWarp (s : State) (wid : Nat) (w' : Warp) (free : Nat) : State := { s with free := free, warps := kmod s.warps wid fun _ => w' }

theorem withWarp_warp {s : State} {wid : Nat} {w : Warp} (hw : s.warp? wid = some w) (w' : Warp) (free : Nat) :
    (withWarp s wid w' free).warp? wid = some w' := Releases.warp?_kmod_self hw _

theorem withWarp_other (s : State) {wid j : Nat} (hj : j ≠ wid) (w' : Warp) (free : Nat) : (withWarp s wid w' free).warp? j = s.warp? j :=
  kget?_kmod_ne _ _ hj

theorem withWarp_withWarp (s : State) (wid : Nat) (a b : Warp) (f g : Nat) : withWarp (withWarp s wid a f) wid b g = withWarp s wid b g := by
  simp [withWarp, kmod_kmod]

theorem kmod_self {α : Type} {m : KMap α} {k : Nat} {x : α} (h : kget? m k = some x) : kmod m k (fun _ => x) = m :=
  (kmod_congr m k h (g := fun x => x) rfl).trans (kmod_id m k)

theorem withWarp_self {s : State} {wid : Nat} {w : Warp} (hw : s.warp? wid = some w) : withWarp s wid w s.free = s := by
  rw [withWarp, kmod_self hw]

/-! ## The results of a warp -/

/-- Results of one span that go to one register are one: R240 leaves no choice. -/
def Distinct (w : Warp) : Prop := ∀ a ∈ w.results, ∀ b ∈ w.results, a.2.span = b.2.span → a.2.dest = b.2.dest → a.2.key = b.2.key

theorem Distinct.alone {w : Warp} (h : Distinct w) {k : Nat} {q : Result} (hq : kget? w.results k = some q) : Alone w q :=
  fun a ha hspan hdest => h a ha (k, q) (kget?_mem hq) hspan hdest

/-- A result goes where it went before: its span, register and place in issue order. -/
def SameDest (q q' : Result) : Prop := q'.span = q.span ∧ q'.dest = q.dest ∧ q'.key = q.key

theorem mem_kmod_of {α : Type} {m : KMap α} {k : Nat} {g : α → α} {y : Nat × α} (h : y ∈ kmod m k g) : y ∈ m ∨ ∃ x, (k, x) ∈ m ∧ y.2 = g x := by
  rcases Signals.mem_kmod_or h with h | h
  · exact .inl h
  · rw [kget?_kmod_self, Option.map_eq_some_iff] at h
    obtain ⟨x, hx, hy⟩ := h
    exact .inr ⟨x, kget?_mem hx, hy.symm⟩

/-- A change of one result that leaves its register leaves all results distinct. -/
theorem distinct_kmod {w w' : Warp} {k : Nat} {g : Result → Result} (hr : w'.results = kmod w.results k g) (hg : ∀ q, SameDest q (g q))
    (h : Distinct w) : Distinct w' := by
  have hold : ∀ a ∈ w'.results, ∃ b ∈ w.results, SameDest b.2 a.2 := by
    intro a ha
    rw [hr] at ha
    rcases mem_kmod_of ha with ha | ⟨x, hx, ha⟩
    · exact ⟨a, ha, rfl, rfl, rfl⟩
    · exact ⟨(k, x), hx, ha ▸ hg x⟩
  intro a ha b hb hspan hdest
  obtain ⟨a', ha', hsa, hda, hka⟩ := hold a ha
  obtain ⟨b', hb', hsb, hdb, hkb⟩ := hold b hb
  rw [hka, hkb]
  exact h a' ha' b' hb' (by rw [← hsa, ← hsb, hspan]) (by rw [← hda, ← hdb, hdest])

/-- Lanes of vector registers take values; results stay distinct, and go where they went. -/
structure LanesLand (w w' : Warp) : Prop where
  frame : w' = { w with v := w'.v, results := w'.results }
  dest : ∀ k q, kget? w.results k = some q → ∃ q', kget? w'.results k = some q' ∧ q'.dest = q.dest
  distinct : Distinct w → Distinct w'

theorem LanesLand.refl (w : Warp) : LanesLand w w := ⟨rfl, fun _ q h => ⟨q, h, rfl⟩, id⟩

theorem LanesLand.trans {w u x : Warp} (h : LanesLand w u) (h' : LanesLand u x) : LanesLand w x := by
  refine ⟨by rw [h'.frame, h.frame], fun k q hq => ?_, h'.distinct ∘ h.distinct⟩
  obtain ⟨q', hq', hd⟩ := h.dest k q hq
  obtain ⟨q'', hq'', hd'⟩ := h'.dest k q' hq'
  exact ⟨q'', hq'', hd'.trans hd⟩

/-! ## Lanes of a memory result -/

/-- A result of which some lanes have been written. -/
def progressed (pend lanes : Lanes) (vals : KMap Lane) (sval : Word) (q : Result) : Result :=
  { q with pend := pend &&& ~~~lanes, vals := kputs q.vals vals, sval := sval, done := pend &&& ~~~lanes == 0 }

/-- The warp after some lanes of result `k`, which is `q`, have been written. -/
def landedOn (free k : Nat) (q : Result) (lanes : Lanes) (vals : KMap Lane) (sval : Word) (w : Warp) : Warp :=
  let u := w.landResult free q lanes vals sval
  { u with results := kmod u.results k (progressed q.pend lanes vals sval) }

theorem landMem_eq {s : State} {wid k : Nat} {w : Warp} {q : Result} (hw : s.warp? wid = some w) (hq : kget? w.results k = some q) (lanes : Lanes)
    (vals : KMap Lane) (sval : Word) : s.landMem wid k lanes vals sval = withWarp s wid (landedOn s.free k q lanes vals sval w) (s.free + 1) := by
  simp only [State.landMem, hw, hq]
  have hone := kmod_congr s.warps wid (f := landedOn s.free k q lanes vals sval) (g := fun _ => landedOn s.free k q lanes vals sval w) hw rfl
  exact congrArg (fun m => ({ s with free := s.free + 1, warps := m } : State)) hone

/-- Some lanes of a vector register take the values of a memory result. -/
theorem landedOn_vec {w : Warp} (hd : Distinct w) {k : Nat} {q : Result} (hq : kget? w.results k = some q) {n : Nat} (hdest : q.dest = .vec n) (free : Nat)
    (lanes : Lanes) (vals : KMap Lane) (sval : Word) :
    LanesLand w (landedOn free k q lanes vals sval w)
      ∧ (landedOn free k q lanes vals sval w).v = (w.putLanes n (vals.filter fun p => lanes.getLsbD p.1)).v := by
  have heq : landedOn free k q lanes vals sval w = { w.putLanes n (vals.filter fun p => lanes.getLsbD p.1) with
      results := kmod w.results k (progressed q.pend lanes vals sval) } := by
    simp only [landedOn, Warp.landResult, hdest, standing_of_alone (hd.alone hq)]
    rfl
  rw [heq]
  refine ⟨⟨rfl, fun j x hx => ?_, distinct_kmod rfl fun _ => ⟨rfl, rfl, rfl⟩⟩, rfl⟩
  by_cases hj : j = k
  · subst hj
    exact ⟨progressed q.pend lanes vals sval x, by rw [kget?_kmod_self, hx]; rfl, rfl⟩
  · exact ⟨x, by rw [kget?_kmod_ne _ _ hj, hx], rfl⟩

section
variable {wid lane : Nat} {s : State} {w : Warp}

/-- One lane of a vector register takes its value. -/
theorem landMem_lane (hw : s.warp? wid = some w) (hd : Distinct w) {k n : Nat} {q : Result} (hq : kget? w.results k = some q) (hdest : q.dest = .vec n)
    (hlane : lane < 32) (x : Lane) :
    ∃ w' f, s.landMem wid k (1#32 <<< lane) [(lane, x)] 0 = withWarp s wid w' f ∧ LanesLand w w' ∧ kgetD w'.v (32 * n + lane) 0 = x
      ∧ ∀ j, j ≠ 32 * n + lane → kgetD w'.v j 0 = kgetD w.v j 0 := by
  obtain ⟨hland, hv⟩ := landedOn_vec hd hq hdest s.free (1#32 <<< lane) [(lane, x)] 0
  have hbit : (1#32 <<< lane).getLsbD lane = true := by simp [hlane]
  have hall : ([(lane, x)] : KMap Lane).filter (fun p => (1#32 <<< lane).getLsbD p.1) = [(lane, x)] := by simp [hlane]
  refine ⟨_, _, landMem_eq hw hq _ _ _, hland, ?_, fun j hj => ?_⟩
  · rw [hv, hall]
    exact putLanes_value w n (by simp) (by simp)
  · rw [hv, hall]
    exact putLanes_other w n (by simpa using hj)

/-- The bytes that a lane fetched are written to its registers, low register first (07 R181). -/
theorem landLane_lands (hlane : lane < 32) (sx : Bool) (regs : List Nat) (hw : s.warp? wid = some w) (hd : Distinct w) (n : Nat → Nat)
    (hinj : ∀ i j, i < regs.length → j < regs.length → n i = n j → i = j)
    (hregs : ∀ i k, regs[i]? = some k → ∃ q, kget? w.results k = some q ∧ q.dest = .vec (n i)) (l : List Byte) :
    ∃ w' f, s.landLane wid lane sx regs l = withWarp s wid w' f ∧ LanesLand w w'
      ∧ (∀ i, i < regs.length → kgetD w'.v (32 * n i + lane) 0 = BitVec.ofNat 32 (extend sx ((l.drop (4 * i)).take 4) 4))
      ∧ ∀ j, (∀ i, i < regs.length → j ≠ 32 * n i + lane) → kgetD w'.v j 0 = kgetD w.v j 0 := by
  induction regs generalizing s w n l with
  | nil => exact ⟨w, s.free, (withWarp_self hw).symm, .refl w, fun i hi => absurd hi (Nat.not_lt_zero i), fun _ _ => rfl⟩
  | cons k rest ih =>
    obtain ⟨q, hq, hdest⟩ := hregs 0 k rfl
    obtain ⟨u, f, hu, hland, hvalue, hother⟩ := landMem_lane hw hd hq hdest hlane (BitVec.ofNat 32 (extend sx (l.take 4) 4))
    have hshift : ∀ i j, i < rest.length → j < rest.length → n (i + 1) = n (j + 1) → i = j := fun i j hi hj hn =>
      Nat.succ.inj (hinj (i + 1) (j + 1) (Nat.succ_lt_succ hi) (Nat.succ_lt_succ hj) hn)
    obtain ⟨w', f', hw', hland', hvalue', hother'⟩ := ih (withWarp_warp hw u f) (hland.distinct hd) (fun i => n (i + 1)) hshift
      (fun i k' hk' => by
        obtain ⟨q', hq', hd'⟩ := hregs (i + 1) k' hk'
        obtain ⟨q'', hq'', hd''⟩ := hland.dest k' q' hq'
        exact ⟨q'', hq'', hd''.trans hd'⟩) (l.drop 4)
    refine ⟨w', f', ?_, hland.trans hland', fun i hi => ?_, fun j hj => ?_⟩
    · rw [State.landLane, hu, hw', withWarp_withWarp]
    · cases i with
      | zero =>
        rw [hother' _ fun i hi he => ?_, hvalue]
        · simp
        · have := hinj 0 (i + 1) (by simp) (Nat.succ_lt_succ hi) (by omega)
          omega
      | succ i =>
        rw [hvalue' i (Nat.lt_of_succ_lt_succ hi), List.drop_drop, Nat.mul_succ, Nat.add_comm 4]
    · rw [hother' j fun i hi => hj (i + 1) (Nat.succ_lt_succ hi), hother j (hj 0 (Nat.succ_pos _))]

end

/-! ## The bytes of a value -/

theorem bytesNat_natBytes (x n : Nat) : bytesNat (natBytes x n) = x % 256 ^ n := by
  induction n generalizing x with
  | zero => simp [natBytes, bytesNat, Nat.mod_one]
  | succ n ih => rw [natBytes, bytesNat, ih, Nat.pow_succ', Nat.mod_mul, BitVec.toNat_ofNat]

/-- Bytes that are extended by their sign (02 R56). -/
theorem extend_signed (l : List Byte) {n : Nat} (hn : l.length ≤ n) :
    BitVec.ofNat (8 * n) (extend true l n) = (BitVec.ofNat (8 * l.length) (bytesNat l)).signExtend (8 * n) := by
  have hx := Writes.bytesNat_lt l
  have hpow : 2 ^ (8 * l.length) ≤ 2 ^ (8 * n) := Nat.pow_le_pow_right (by omega) (by omega)
  refine BitVec.eq_of_toNat_eq ?_
  rw [BitVec.toNat_signExtend, BitVec.msb_eq_decide, BitVec.toNat_ofNat, BitVec.toNat_setWidth, BitVec.toNat_ofNat, Nat.mod_eq_of_lt hx,
    Nat.mod_eq_of_lt (hx.trans_le hpow)]
  simp only [extend, true_and, decide_eq_true_eq]
  by_cases hlt : l.length < n
  · simp only [hlt, true_and]
    split
    · rw [Nat.mod_eq_of_lt (by omega)]; omega
    · rw [Nat.mod_eq_of_lt (by omega)]; rfl
  · have hlen : l.length = n := by omega
    rw [if_neg (fun h => hlt h.1), Nat.mod_eq_of_lt (by omega), hlen]
    split <;> omega

theorem extend_unsigned (l : List Byte) (n : Nat) : extend false l n = bytesNat l := by simp [extend]

/-! ## An atomic's values, and a scalar -/

theorem natBytes_word (x : Word) : BitVec.ofNat 32 (extend false (((natBytes x.toNat 4).drop (4 * 0)).take 4) 4) = x.setWidth 32 := by
  rw [extend_unsigned, List.take_of_length_le (by simp), Nat.mul_zero, List.drop_zero, bytesNat_natBytes]
  exact BitVec.eq_of_toNat_eq (by simp)

/-- The old values of a group's lanes are written to one register (07 R190). -/
theorem foldl_landLane {wid k n : Nat} (old : List (Nat × Word)) {s : State} {w : Warp} {q : Result} (hw : s.warp? wid = some w) (hd : Distinct w)
    (hq : kget? w.results k = some q) (hdest : q.dest = .vec n) (hnodup : (old.map Prod.fst).Nodup) (hlanes : ∀ x ∈ old, x.1 < 32) :
    ∃ w' f, old.foldl (fun s x => s.landLane wid x.1 false [k] (natBytes x.2.toNat 4)) s = withWarp s wid w' f ∧ LanesLand w w'
      ∧ (∀ l x, (l, x) ∈ old → kgetD w'.v (32 * n + l) 0 = x.setWidth 32)
      ∧ ∀ j, (∀ x ∈ old, j ≠ 32 * n + x.1) → kgetD w'.v j 0 = kgetD w.v j 0 := by
  induction old generalizing s w q with
  | nil => exact ⟨w, s.free, (withWarp_self hw).symm, .refl w, fun _ _ h => absurd h (List.not_mem_nil), fun _ _ => rfl⟩
  | cons a rest ih =>
    obtain ⟨hnot, hrest⟩ := List.nodup_cons.mp hnodup
    obtain ⟨u, f, hu, hland, hvalue, hother⟩ := landLane_lands (hlanes a List.mem_cons_self) false [k] hw hd (fun _ => n) (fun i j hi hj _ => by
      simp only [List.length_singleton] at hi hj; omega) (fun i k' hk' => by
      cases i with
      | zero => exact ⟨q, by simpa using (by simpa using hk' : k = k') ▸ hq, hdest⟩
      | succ i => simp at hk') (natBytes a.2.toNat 4)
    obtain ⟨q', hq', hd'⟩ := hland.dest k q hq
    obtain ⟨w', f', hw', hland', hvalue', hother'⟩ := ih (withWarp_warp hw u f) (hland.distinct hd) hq' (hd'.trans hdest) hrest
      fun x hx => hlanes x (List.mem_cons_of_mem _ hx)
    refine ⟨w', f', ?_, hland.trans hland', fun l x hx => ?_, fun j hj => ?_⟩
    · rw [List.foldl_cons, hu, hw', withWarp_withWarp]
    · rcases List.mem_cons.mp hx with rfl | hx
      · rw [hother' _ fun y hy he => hnot (List.mem_map.mpr ⟨y, hy, by omega⟩), hvalue 0 (by simp), natBytes_word]
      · exact hvalue' l x hx
    · rw [hother' j fun x hx => hj x (List.mem_cons_of_mem _ hx), hother j fun i _ => hj a List.mem_cons_self]

/-- A scalar takes the value of a memory result, unless a later write has been made or takes its place (01 R18). -/
theorem landMem_scalar {s : State} {wid k n : Nat} {w : Warp} {q : Result} (hw : s.warp? wid = some w) (hd : Distinct w) (hq : kget? w.results k = some q)
    (hdest : q.dest = .sca n) (hn : n < 63) (lanes : Lanes) (x : Word) :
    ∃ w' f, s.landMem wid k lanes [] x = withWarp s wid w' f ∧ w' = { w with sc := w'.sc, scKey := w'.scKey, results := w'.results }
      ∧ kgetD w'.sc n 0 = (if q.key < kgetD w.scKey n 0 ∨ w.laterScalar q.key n q.span q.long = true then kgetD w.sc n 0 else x)
      ∧ ∀ j, j ≠ n → kgetD w'.sc j 0 = kgetD w.sc j 0 := by
  have halone := hd.alone hq
  have heq : landedOn s.free k q lanes [] x w = { w.putScalar q.key n q.span q.long x with
      results := kmod (w.putScalar q.key n q.span q.long x).results k (progressed q.pend lanes [] x) } := by
    simp only [landedOn, Warp.landResult, hdest, stands_of_alone halone, if_true]
  refine ⟨_, _, landMem_eq hw hq lanes [] x, ?_, ?_, fun j hj => ?_⟩
  · rw [heq, putScalar_frame]
  · rw [heq]
    refine (putScalar_sc w q.long x hn (lastOwn_of_alone halone hdest)).trans ?_
    cases w.laterScalar q.key n q.span q.long
    · by_cases hk : kgetD w.scKey n 0 ≤ q.key
      · simp [hk]
      · simp [hk, Nat.lt_of_not_le hk]
    · simp
  · rw [heq]
    exact putScalar_sc_ne w q.key n q.span q.long x hj

end Sys2Proof.Laws.Landing

namespace Sys2Proof.Laws.Serving

/-! # Replies of loads and atomics are written (07 R181 to R183, R193, 10 R279) -/

open Sys2Proof.Machine Sys2Proof.Safety Sys2Proof.Rules Sys2Proof.Laws.Writes Sys2Proof.Laws.Landing

/-- What the reply of a request leaves of its state, and of its warp (07 R182). -/
def Replied (s t : State) (id : Nat) (r : Req) (w w' : Warp) : Prop :=
  w' = { w with v := w'.v, sc := w'.sc, scKey := w'.scKey, results := w'.results, acqAt := w'.acqAt } ∧ t.mem = s.mem ∧ t.reqs = kdel s.reqs id
    ∧ (∀ j, j ≠ r.wid → t.warp? j = s.warp? j) ∧ (r.ord ≠ 2 → r.ord ≠ 4 → t.copies = s.copies ∧ t.cores = s.cores ∧ w'.acqAt = w.acqAt)

/-- The state without a request. -/
def withoutReq (s : State) (id : Nat) : State := { s with reqs := kdel s.reqs id }

section
variable {s : State} {id : Nat} {r : Req} {w : Warp}

/-- A reply writes its value; an acquire then takes effect. -/
theorem loadReply_writes (hr : kget? s.reqs id = some r) (hphase : r.phase = .reply) (harrive : r.arrive ≤ s.clk) (hw : s.warp? r.wid = some w)
    (hidle : ∀ q ∈ w.table, q.2.eff ≠ .faulted) (hwork : r.work.1 = 0) {w1 : Warp} {f : Nat}
    (hland : (withoutReq s id).landReq r = withWarp (withoutReq s id) r.wid w1 f)
    (hframe : w1 = { w with v := w1.v, sc := w1.sc, scKey := w1.scKey, results := w1.results }) :
    ∃ t w', exec (.loadReply id) s = .next t ∧ t.warp? r.wid = some w' ∧ Replied s t id r w w' ∧ w'.v = w1.v ∧ w'.sc = w1.sc := by
  let s1 := withWarp (withoutReq s id) r.wid w1 f
  have hw1 : s1.warp? r.wid = some w1 := withWarp_warp (s := withoutReq s id) hw w1 f
  have hexec : exec (.loadReply id) s = .next ((if r.ord = 2 ∨ r.ord = 4 then s1.acquire r.wid r.scope else s1).settleFaulted r.wid) := by
    dsimp only [exec]
    simp only [execLoadReply, hr, Nat.not_lt.mpr harrive, hphase, hwork]
    simp only [if_false, reduceCtorEq, false_and, ne_eq, not_true_eq_false]
    rw [show ({ s with reqs := kdel s.reqs id } : State).landReq r = s1 from hland]
  have htable : w1.table = w.table := by rw [hframe]
  have hothers : ∀ j, j ≠ r.wid → s1.warp? j = s.warp? j := fun j hj => withWarp_other _ hj _ _
  by_cases hord : r.ord = 2 ∨ r.ord = 4
  · rw [if_pos hord] at hexec
    obtain ⟨cores, copies, hacq⟩ : ∃ cores copies, s1.acquire r.wid r.scope = { s1 with
        warps := kmod s1.warps r.wid fun w => { w with acqAt := s1.nextId }, cores := cores, copies := copies } := ⟨_, _, Releases.acquire_eq s1 r.wid r.scope⟩
    rw [hacq] at hexec
    have hw2 := Releases.warp?_kmod_self hw1 fun w => { w with acqAt := s1.nextId }
    rw [settleFaulted_idle fun w' hw' => by cases hw2.symm.trans hw'; exact htable ▸ hidle] at hexec
    refine ⟨_, _, hexec, hw2, ⟨?_, rfl, rfl, fun j hj => ?_, fun h2 h4 => (hord.elim h2 h4).elim⟩, rfl, rfl⟩
    · rw [hframe]
    · exact (kget?_kmod_ne _ _ hj).trans (hothers j hj)
  · rw [if_neg hord, settleFaulted_idle fun w' hw' => by cases hw1.symm.trans hw'; exact htable ▸ hidle] at hexec
    refine ⟨_, _, hexec, hw1, ⟨?_, rfl, rfl, hothers, fun _ _ => ⟨rfl, rfl, ?_⟩⟩, rfl, rfl⟩
    · rw [hframe]
    · rw [hframe]

/-- The bytes of a load that touches no argument slot at or above NARG (10 R279). -/
theorem argBytes_eq (h : r.kind = .load →
    (s.launchOf r.wid).desc.args.toNat % 2 ^ 57 + 2048 ≤ r.va.toNat % 2 ^ 57
      ∨ r.va.toNat % 2 ^ 57 + r.data.length ≤ (s.launchOf r.wid).desc.args.toNat % 2 ^ 57 + 8 * (s.launchOf r.wid).desc.kern.narg) :
    s.argBytes r = r.data := by
  unfold State.argBytes
  dsimp only
  split
  · rfl
  · next hk =>
    have hrange := h (by simpa using hk)
    refine (List.map_congr_left (g := Prod.snd) fun q hq => if_neg ?_).trans (List.map_snd_zip (by simp))
    have hlt : q.1 < r.data.length := List.mem_range.mp (List.of_mem_zip hq).1
    omega

theorem resultDest_eq (hw : s.warp? r.wid = some w) {k : Nat} {q : Result} (hq : kget? w.results k = some q) : s.resultDest r.wid k = q.dest := by
  have hget : s.warpD r.wid = w := by rw [State.warpD, hw]; rfl
  rw [State.resultDest, hget, hq]

theorem landReq_load {k n : Nat} {rest : List Nat} {q : Result} (hw : s.warp? r.wid = some w) (hregs : r.regs = k :: rest)
    (hq : kget? w.results k = some q) (hdest : q.dest = .vec n) (hk : r.kind = .load) :
    s.landReq r = s.landLane r.wid (ffs r.lanes) r.sext (k :: rest) (s.argBytes r) := by
  simp only [State.landReq, hregs, resultDest_eq hw hq, hdest, hk]
  rfl

theorem landReq_atom {k n : Nat} {q : Result} (hw : s.warp? r.wid = some w) (hregs : r.regs = [k]) (hq : kget? w.results k = some q)
    (hdest : q.dest = .vec n) (hk : r.kind = .atom) :
    s.landReq r = r.old.foldl (fun s x => s.landLane r.wid x.1 false [k] (natBytes x.2.toNat r.size)) s := by
  simp only [State.landReq, hregs, resultDest_eq hw hq, hdest, hk, if_true]

theorem landReq_scalar {k n : Nat} {q : Result} (hw : s.warp? r.wid = some w) (hregs : r.regs = [k]) (hq : kget? w.results k = some q)
    (hdest : q.dest = .sca n) :
    s.landReq r = s.landMem r.wid k (BitVec.allOnes 32) [] (BitVec.ofNat 64 (extend r.sext (s.argBytes r) 8)) := by
  simp only [State.landReq, hregs, resultDest_eq hw hq, hdest]

end

theorem ffs_shift {lane : Nat} (h : lane < 32) : ffs (1#32 <<< lane) = lane := by
  revert lane
  decide

/-- A register's part of the bytes that a lane fetched (07 R181). -/
theorem part_eq {r : Req} {i : Nat} (hlen : r.data.length = r.size) (hi : i < r.regs.length)
    (hsize : (r.size = 1 ∨ r.size = 2) ∧ r.regs.length = 1 ∨ r.size = 4 * r.regs.length) :
    BitVec.ofNat 32 (extend r.sext ((r.data.drop (4 * i)).take 4) 4)
      = if r.size < 4 ∧ r.sext then (BitVec.ofNat (8 * r.size) (bytesNat r.data)).signExtend 32
        else BitVec.ofNat 32 (bytesNat ((r.data.drop (4 * i)).take 4)) := by
  rcases hsize with ⟨hs, hone⟩ | hs
  · obtain rfl : i = 0 := by omega
    have hwhole : (r.data.drop (4 * 0)).take 4 = r.data := by
      rw [Nat.mul_zero, List.drop_zero, List.take_of_length_le (by omega)]
    rw [hwhole]
    cases hx : r.sext with
    | false => simp [extend_unsigned]
    | true =>
      rw [if_pos ⟨by omega, rfl⟩, ← hlen]
      exact extend_signed r.data (n := 4) (by omega)
  · have hfour : ((r.data.drop (4 * i)).take 4).length = 4 := by simp only [List.length_take, List.length_drop]; omega
    have hlt : ¬ r.size < 4 := by omega
    simp [extend, hfour, hlt]

/-- A scalar's value from the bytes that returned. -/
theorem scalar_value {l : List Byte} (h : l.length ≤ 8) (sx : Bool) :
    BitVec.ofNat 64 (extend sx l 8) = if sx then (BitVec.ofNat (8 * l.length) (bytesNat l)).signExtend 64 else BitVec.ofNat 64 (bytesNat l) := by
  cases sx with
  | false => simp [extend_unsigned]
  | true => exact extend_signed l (n := 8) h

/-- Settles O44: a reply carries the bytes that its copy or its home has, and LOAD_REPLY writes them, lane by lane, register by register. -/
theorem loadsServed : Obligations.LoadsServed := by
  refine ⟨fun s id r => ⟨fun leaf hat hk hstage hwork => ⟨fun hpass hpoison => ?_, fun code hcode => ?_⟩, ?_, fun leaf hat hk hperm hlost hslow => ?_,
    fun leaf hat hk hperm htr => ?_, fun hr hphase harrive hlink hmake hk k c hcopy htag hpoison hlost => ?_⟩,
    fun s id r w hr hphase harrive hw hidle hwork hdistinct hargs => ⟨?_, ?_, ?_⟩⟩
  · obtain ⟨h, hfill⟩ := homeFill_eq s r leaf
    obtain ⟨hside, hmem, hreq⟩ := answer_side hat.1 (serveHome_serves (id := id) hfill hpoison)
    have hexec := homeServeLoad_load hat hk hstage
    rw [checkLeaf_passes hpass] at hexec
    obtain ⟨-, -, -, -, hslow⟩ := hpass
    refine ⟨_, _, hexec.trans (if_neg (by simp [hslow])), hside, hmem, hreq, rfl, fun hc => mergeNear_clean hc r none _⟩
  · obtain ⟨cause, hcheck, hother⟩ : ∃ cause, s.checkLeaf r leaf = .fail cause code ∧ code ≠ fcPeerdead := by
      have hro : s.readOnly r = false := by simp [State.readOnly, hk]
      rcases hcode with ⟨rfl, hperm⟩ | ⟨rfl, hperm, hlost⟩ | ⟨rfl, hperm, hlost, htag⟩
      · exact ⟨_, checkLeaf_refused (.inl hperm), by decide⟩
      · exact ⟨_, checkLeaf_lost hperm hro hlost, by decide⟩
      · exact ⟨_, checkLeaf_tag hperm hro hlost htag, by decide⟩
    have hexec := homeServeLoad_load hat hk hstage
    rw [hcheck] at hexec
    simp only [State.refuseRead, hother, if_false] at hexec
    exact ⟨_, { r with phase := .failed, fault := code, info := s.meetInfo r code, arrive := s.backTime r }, hexec, rfl, by simp [State.modReq, hat.1], rfl⟩
  · exact loadReply_failed
  · obtain ⟨h, hfill⟩ := homeFill_eq s r leaf
    obtain ⟨t, ht, hserve⟩ := servePrf_serves (s.homeFill r leaf) id r leaf
    rw [hfill] at ht
    refine ⟨_, (homeServeLoad_prf hat hk hperm hlost hslow).trans (congrArg _ hserve), ?_, fun hc => (ht.2 hc).1, ?_⟩
    · exact memorySide_of_moved (h := h) (q := kdel t.reqs id) (by have := ht.1; unfold Moved at *; rw [this])
    · rw [reqs_of_moved ht.1]
  · intro line e
    obtain ⟨hstate, hqueue, hlen⟩ := lockQuery_fields s (128 * r.pkg + r.die) line r.wid (s.lineLost r leaf)
    exact ⟨_, _, _, homeServeLoad_lkqry hat hk hperm htr, rfl, by simp [State.modReq, hat.1]; rfl, rfl, hstate, hqueue, hlen⟩
  · intro bytes
    have harr : s.arrived r = true := by simp [State.arrived, hphase, harrive, hlink]
    obtain ⟨back, fill, hexec⟩ := homeServeLoad_copy hr hphase harr hmake hk hcopy
    obtain ⟨hside, hmem, hreq⟩ := answer_side (h := s.homes) hr (serveCopy_serves (id := id) htag hpoison hlost back fill)
    exact ⟨_, _, hexec, hside, hmem, hreq, rfl, fun hc => mergeNear_clean hc r (some c.place) (c.read r.va.toNat r.size)⟩
  · intro lane n hlane hlanes hk hlen hne hsize _ hinj hregs
    obtain ⟨k, rest, hcons⟩ := List.exists_cons_of_ne_nil hne
    obtain ⟨q, hq, hdest⟩ := hregs 0 k (by rw [hcons]; rfl)
    obtain ⟨w1, f, hland, hlands, hvalue, hother⟩ := landLane_lands (s := withoutReq s id) hlane r.sext r.regs hw hdistinct n hinj hregs r.data
    have hreq : (withoutReq s id).landReq r = withWarp (withoutReq s id) r.wid w1 f := by
      rw [landReq_load (s := withoutReq s id) hw hcons hq hdest hk, argBytes_eq (s := withoutReq s id) hargs, hlanes, ffs_shift hlane, ← hcons, hland]
    obtain ⟨t, w', hexec, hw', hkept, hv, hsc⟩ := loadReply_writes hr hphase harrive hw hidle hwork hreq (by rw [hlands.frame])
    refine ⟨t, w', hexec, hw', hkept, hsc.trans (by rw [hlands.frame]), fun i hi => ?_, fun j hj => by rw [hv, hother j hj]⟩
    rw [hv, hvalue i hi]
    exact part_eq hlen hi hsize
  · intro k q n hregs hq hdest hk hsize hnodup hlanes
    obtain ⟨w1, f, hland, hlands, hvalue, hother⟩ := foldl_landLane (s := withoutReq s id) r.old hw hdistinct hq hdest hnodup hlanes
    have hreq : (withoutReq s id).landReq r = withWarp (withoutReq s id) r.wid w1 f := by
      rw [landReq_atom (s := withoutReq s id) hw hregs hq hdest hk, hsize, hland]
    obtain ⟨t, w', hexec, hw', hkept, hv, hsc⟩ := loadReply_writes hr hphase harrive hw hidle hwork hreq (by rw [hlands.frame])
    exact ⟨t, w', hexec, hw', hkept, hsc.trans (by rw [hlands.frame]), fun l x hx => by rw [hv, hvalue l x hx], fun j hj => by rw [hv, hother j hj]⟩
  · intro k q n hregs hq hdest hn hk _ hlen
    obtain ⟨w1, f, hland, hframe, hvalue, hother⟩ := landMem_scalar (s := withoutReq s id) hw hdistinct hq hdest hn (BitVec.allOnes 32)
      (BitVec.ofNat 64 (extend r.sext r.data 8))
    have hreq : (withoutReq s id).landReq r = withWarp (withoutReq s id) r.wid w1 f := by
      rw [landReq_scalar (s := withoutReq s id) hw hregs hq hdest, argBytes_eq (s := withoutReq s id) hargs, hland]
    obtain ⟨t, w', hexec, hw', hkept, hv, hsc⟩ := loadReply_writes hr hphase harrive hw hidle hwork hreq (by rw [hframe])
    refine ⟨t, w', hexec, hw', hkept, hv.trans (by rw [hframe]), ?_, fun j hj => by rw [hsc, hother j hj]⟩
    rw [hsc, hvalue, scalar_value hlen]

end Sys2Proof.Laws.Serving

namespace Sys2Proof.Laws.LocalAccess

/-! # Accesses to local store are made (07 R184 to R186) -/

open Sys2Proof.Machine Sys2Proof.Safety Sys2Proof.Rules Sys2Proof.Laws.LocalStore Sys2Proof.Laws.Landing

/-! ## Runs that are written -/

/-- A block with runs written to its local store, whose bits stand. -/
def written (b : Block) (runs : List (Nat × List Byte)) : Block := runs.foldl (fun b q => b.lsWrite q.1 q.2) b

theorem written_frame (b : Block) (runs : List (Nat × List Byte)) : written b runs = { b with ls := (written b runs).ls } := by
  induction runs generalizing b with
  | nil => rfl
  | cons q rest ih => exact ih (b.lsWrite q.1 q.2)

/-- A byte of local store after runs: that of a run that covers it, else as it was. -/
theorem written_ls (b : Block) (runs : List (Nat × List Byte)) (o : Nat) :
    (∃ q ∈ runs, byteAt q o = some (kgetD (written b runs).ls o 0))
      ∨ (∀ q ∈ runs, byteAt q o = none) ∧ kgetD (written b runs).ls o 0 = kgetD b.ls o 0 := by
  induction runs generalizing b with
  | nil => exact .inr ⟨fun q hq => absurd hq List.not_mem_nil, rfl⟩
  | cons q rest ih =>
    rcases ih (b.lsWrite q.1 q.2) with ⟨p, hp, hbyte⟩ | ⟨hnone, hls⟩
    · exact .inl ⟨p, List.mem_cons_of_mem _ hp, hbyte⟩
    · rw [lsWrite_ls] at hls
      cases hq : byteAt q o with
      | none => exact .inr ⟨List.forall_mem_cons.2 ⟨hq, hnone⟩, hls.trans (by rw [hq]; rfl)⟩
      | some x => exact .inl ⟨q, .head _, hq.trans (congrArg some (by rw [hq] at hls; exact hls.symm))⟩

theorem setFull_contains (b : Block) (g g' : Nat) (v : Bool) : (b.setFull g v).full.contains g' = if g' = g then v else b.full.contains g' := by
  cases v <;> by_cases h : g' = g <;> simp [Block.setFull, mem_ninsert, h]

/-! ## The split behind an access -/

/-- Warps change in their tables alone. -/
def TablesOnly (s t : State) : Prop :=
  t = { s with warps := t.warps, nextId := t.nextId } ∧ ∀ k, ∃ f : Warp → Warp, (∀ w, f w = { w with table := (f w).table }) ∧ t.warp? k = (s.warp? k).map f

theorem TablesOnly.trans {s t u : State} (h : TablesOnly s t) (h' : TablesOnly t u) : TablesOnly s u := by
  obtain ⟨ht, hw⟩ := h
  obtain ⟨hu, hw'⟩ := h'
  refine ⟨by rw [hu, ht], fun k => ?_⟩
  obtain ⟨f, hf, heq⟩ := hw k
  obtain ⟨g, hg, heq'⟩ := hw' k
  exact ⟨g ∘ f, fun w => by rw [Function.comp_apply, hg, hf], by rw [heq', heq, Option.map_map]⟩

theorem TablesOnly.refl (s : State) : TablesOnly s s := ⟨rfl, fun _ => ⟨id, fun _ => rfl, (congrFun Option.map_id _).symm⟩⟩

theorem tablesOnly_modWarp (s : State) (n wid : Nat) {f : Warp → Warp} (hf : ∀ w, f w = { w with table := (f w).table }) :
    TablesOnly s ({ s with nextId := n }.modWarp wid f) := by
  refine ⟨rfl, fun k => ?_⟩
  by_cases hk : k = wid
  · subst hk; exact ⟨f, hf, kget?_kmod_self _ _ _⟩
  · exact ⟨id, fun _ => rfl, (kget?_kmod_ne _ _ hk).trans (congrFun Option.map_id _).symm⟩

theorem tablesOnly_modSplit (s : State) (wid slot : Nat) (g : Split → Split) : TablesOnly s (s.modSplit wid slot g) :=
  tablesOnly_modWarp s s.nextId wid fun _ => rfl

theorem tablesOnly_wake (s : State) (wid slot notBefore : Nat) : TablesOnly s (s.wake wid slot notBefore) :=
  (tablesOnly_modWarp s (s.nextId + 1) wid fun _ => rfl).trans (tablesOnly_modSplit _ _ _ _)

/-- The split of an access that is made goes on or waits on: its warp's table alone changes (07 R185). -/
theorem feProgress_tablesOnly (s : State) (a : FeAccess) (lat : Nat) : TablesOnly s (s.feProgress a lat) := by
  unfold State.feProgress
  split
  · exact .refl s
  · next slot p _ =>
    split
    · dsimp only
      split
      · exact (tablesOnly_modSplit s _ _ _).trans (tablesOnly_wake _ _ _ _)
      · exact tablesOnly_modSplit s _ _ _
    · exact tablesOnly_modSplit s _ _ _

theorem TablesOnly.block {s t : State} (h : TablesOnly s t) (k : Nat) : (t.warpD k).block = (s.warpD k).block := by
  obtain ⟨f, hf, heq⟩ := h.2 k
  rw [State.warpD, State.warpD, heq]
  cases s.warp? k with
  | none => rfl
  | some w => show (f w).block = w.block; rw [hf]

/-! ## No other access of the granule -/

theorem feCascade_none {s : State} {bid granule : Nat} (h : s.feNext bid granule = none) (n : Nat) : s.feCascade bid granule n = s := by
  cases n with
  | zero => rfl
  | succ n => rw [State.feCascade, h]

/-- Once the only access of a granule has been made, none waits for the granule. -/
theorem feWake_alone {s u : State} {id bid granule : Nat} (hu : Unique s.fes) (hfes : u.fes = kdel s.fes id)
    (hblock : ∀ k, (u.warpD k).block = (s.warpD k).block) (halone : ∀ q ∈ s.fes, q.1 ≠ id → ¬(q.2.granule = granule ∧ (s.warpD q.2.wid).block = bid)) :
    u.feWake bid granule = u := by
  refine feCascade_none ?_ _
  have hnil : (u.fes.filter fun q => q.2.waiting && q.2.granule == granule && (u.warpD q.2.wid).block == bid
      && !(u.warpD q.2.wid).captured && feMet q.2.qual ((u.blockD bid).isFull granule)) = [] := by
    rw [List.filter_eq_nil_iff]
    intro q hq hc
    simp only [Bool.and_eq_true, beq_iff_eq] at hc
    obtain ⟨⟨⟨⟨-, hgranule⟩, hb⟩, -⟩, -⟩ := hc
    rw [hfes] at hq
    refine halone q (Transfers.mem_of_mem_kdel hq) (fun he => ?_) ⟨hgranule, (hblock _).symm.trans hb⟩
    have hnone := Transfers.kget?_kdel_self hu id
    have hstands := Releases.kget?_of_unique (hu.sublist ((Splits.kdel_sublist s.fes id).map _)) hq
    rw [he, hnone] at hstands
    cases hstands
  simp only [State.feNext, hnil]
  rfl

theorem feMet_iff (qual : Nat) (full : Bool) : feMet qual full = true ↔ (qual = 1 ∨ qual = 2 → full = true) ∧ (qual = 5 → full = false) := by
  unfold feMet
  split
  · simp
  · simp
  · simp
  · next h1 h2 h5 => exact iff_of_true rfl ⟨fun h => (h.elim h1 h2).elim, fun h => (h5 h).elim⟩

theorem feAfter_eq (qual : Nat) (full : Bool) :
    feAfter qual full = if qual = 2 ∨ qual = 3 then false else if qual = 4 ∨ qual = 5 then true else full := by
  unfold feAfter
  split
  · simp
  · simp
  · simp
  · simp
  · next h2 h3 h4 h5 => rw [if_neg (not_or.mpr ⟨h2, h3⟩), if_neg (not_or.mpr ⟨h4, h5⟩)]

theorem bankTime_or (s : State) (wid lane granule : Nat) : s.bankTime wid lane granule = 7 ∨ s.bankTime wid lane granule = 12 := by
  unfold State.bankTime
  dsimp only
  split
  · exact .inl rfl
  · exact .inr rfl

section
variable {s : State} {id : Nat} {a : FeAccess} {w : Warp}

/-- FE_GRANULE_ACCESS of the only access of its granule that has reached its bank. -/
theorem feGranuleAccess_eq (ha : kget? s.fes id = some a) (hw : s.warp? a.wid = some w) (hwait : a.waiting = false) (hreach : a.reach ≠ 0)
    (hdue : a.reach ≤ s.clk) (hcap : w.captured = false) (hready : s.feReady a = true)
    (halone : ∀ q ∈ s.fes, q.1 ≠ id → ¬(q.2.granule = a.granule ∧ (s.warpD q.2.wid).block = w.block)) :
    exec (.feGranuleAccess id) s = if feMet a.qual ((s.blockD w.block).isFull a.granule) then .next ((s.feMake id a).feWake w.block a.granule)
      else .next { s with nextId := s.nextId + 1, fes := kmod s.fes id fun q => { q with waiting := true, order := s.nextId } } := by
  have hwarp : s.warpD a.wid = w := by rw [State.warpD, hw]; rfl
  have hothers : ∀ c : Nat × FeAccess → Bool, (s.fes.any fun q => q.1 != id && q.2.granule == a.granule && (s.warpD q.2.wid).block == w.block && c q) = false := by
    intro c
    rw [List.any_eq_false]
    intro q hq hc
    simp only [Bool.and_eq_true, bne_iff_ne, beq_iff_eq] at hc
    obtain ⟨⟨⟨hne, hgranule⟩, hblock⟩, -⟩ := hc
    exact halone q hq hne ⟨hgranule, hblock⟩
  dsimp only [exec]
  simp only [execFeGranuleAccess, ha, hwarp, hwait, hcap, hready, hdue, Bool.and_assoc, decide_true, Bool.and_false, Bool.not_false, Bool.true_and,
    Bool.and_true, Bool.not_eq_true']
  have hno := hothers fun q => !q.2.waiting && (q.2.reach != 0 && (decide (q.2.reach ≤ s.clk) && (!(q.2.waits && (s.warpD q.2.wid).captured) && s.feReady q.2)))
    && decide (s.feRank q.2 < s.feRank a)
  simp only [Bool.and_assoc] at hno
  rw [hno]
  simp [hreach]

/-! ## What is made -/

/-- The runs of an access's lanes. -/
def runsOf (a : FeAccess) : List (Nat × List Byte) := (lanesOf a.lanes).map fun l => (kgetD a.ofs l 0, kgetD a.data l [])

/-- A block changes, and an access has been made. -/
def accessed (s : State) (id bid : Nat) (g : Block → Block) : State := { s with blocks := kmod s.blocks bid g, fes := kdel s.fes id }

theorem accessed_blockD {bid : Nat} (h : (s.block? bid).isSome = true) (g : Block → Block) : (accessed s id bid g).blockD bid = g (s.blockD bid) := by
  obtain ⟨b, hb⟩ := Option.isSome_iff_exists.mp h
  have hget : kget? s.blocks bid = some b := hb
  simp [State.blockD, State.block?, accessed, hget]

theorem feMake_store (hw : s.warp? a.wid = some w) (hstore : a.store = true) :
    s.feMake id a = (accessed s id w.block fun b => (written b (runsOf a)).setFull a.granule
      (feAfter a.qual ((s.blockD w.block).isFull a.granule))).feProgress a (s.accessTime a) := by
  have hwarp : s.warpD a.wid = w := by rw [State.warpD, hw]; rfl
  simp only [State.feMake, hstore, if_true, hwarp, State.blockOf, State.modBlock, kmod_kmod, written, runsOf, List.foldl_map]
  rfl

theorem feMake_load (hw : s.warp? a.wid = some w) (hstore : a.store = false) {u : State}
    (hu : (lanesOf a.lanes).foldl (fun u l => u.sendLane a.wid l (u.clk + u.bankTime a.wid l a.granule) a.sext a.regs
      ((s.blockD w.block).lsRead (kgetD a.ofs l 0) a.size)) s = u) :
    s.feMake id a = (accessed u id w.block fun b => b.setFull a.granule
      (feAfter a.qual ((s.blockD w.block).isFull a.granule))).feProgress a (s.accessTime a) := by
  have hwarp : s.warpD a.wid = w := by rw [State.warpD, hw]; rfl
  simp only [State.feMake, hstore, hwarp, State.blockOf, State.modBlock, ← hu]
  rfl

/-! ## Values on their way -/

/-- A result with values on their way to its lanes. -/
def fetching (due : Nat) (vals : KMap Lane) (q : Result) : Result := { q with coming := kputs q.coming (vals.map fun p => (p.1, (due, p.2))) }

theorem sendMem_eq {wid : Nat} (hw : s.warp? wid = some w) (k due : Nat) (vals : KMap Lane) :
    s.sendMem wid k due vals = withWarp s wid { w with results := kmod w.results k (fetching due vals) } s.free := by
  have hone := kmod_congr s.warps wid (f := fun w => { w with results := kmod w.results k (fetching due vals) })
    (g := fun _ => { w with results := kmod w.results k (fetching due vals) }) hw rfl
  exact congrArg (fun m => ({ s with warps := m } : State)) hone

end

/-- Lanes that fetch from local store: their values are on their way to one register (07 R185). -/
theorem foldl_sendLane {wid k granule : Nat} (sx : Bool) (bytes : Nat → List Byte) (lanes : List Nat) (hnodup : lanes.Nodup) {s : State} {w : Warp}
    {q : Result} (hw : s.warp? wid = some w) (hq : kget? w.results k = some q) :
    ∃ w' q', lanes.foldl (fun s l => s.sendLane wid l (s.clk + s.bankTime wid l granule) sx [k] (bytes l)) s = withWarp s wid w' s.free
      ∧ w' = { w with results := w'.results } ∧ kget? w'.results k = some q'
      ∧ (∀ l ∈ lanes, ∃ d, (d = s.clk + 7 ∨ d = s.clk + 12) ∧ kget? q'.coming l = some (d, BitVec.ofNat 32 (extend sx ((bytes l).take 4) 4)))
      ∧ ∀ l, l ∉ lanes → kget? q'.coming l = kget? q.coming l := by
  induction lanes generalizing s w q with
  | nil => exact ⟨w, q, (withWarp_self hw).symm, rfl, hq, fun _ h => absurd h List.not_mem_nil, fun _ _ => rfl⟩
  | cons l rest ih =>
    obtain ⟨hnot, hrest⟩ := List.nodup_cons.mp hnodup
    let x : Lane := BitVec.ofNat 32 (extend sx ((bytes l).take 4) 4)
    let d := s.clk + s.bankTime wid l granule
    let u : Warp := { w with results := kmod w.results k (fetching d [(l, x)]) }
    have hsend : s.sendLane wid l d sx [k] (bytes l) = withWarp s wid u s.free := sendMem_eq hw k d [(l, x)]
    have hu : kget? u.results k = some (fetching d [(l, x)] q) := by rw [kget?_kmod_self, hq]; rfl
    obtain ⟨w', q', hfold, hframe, hq', hvalues, hothers⟩ := ih hrest (withWarp_warp hw u s.free) hu
    refine ⟨w', q', ?_, by rw [hframe], hq', fun m hm => ?_, fun m hm => ?_⟩
    · rw [List.foldl_cons, hsend, hfold, withWarp_withWarp]
      rfl
    · rcases List.mem_cons.mp hm with rfl | hm
      · refine ⟨d, (bankTime_or s wid m granule).imp (congrArg _) (congrArg _), (hothers m hnot).trans ?_⟩
        exact kget?_kput_self ..
      · exact hvalues m hm
    · rw [hothers m fun h => hm (List.mem_cons_of_mem _ h)]
      exact kget?_kput_ne _ _ fun he => hm (he ▸ List.mem_cons_self)

/-- The value that a lane fetches into one register. -/
theorem lane_value {l : List Byte} {n : Nat} (hl : l.length = n) (hn : n = 1 ∨ n = 2 ∨ n = 4) (sx : Bool) :
    BitVec.ofNat 32 (extend sx (l.take 4) 4)
      = if sx = true ∧ n < 4 then (BitVec.ofNat (8 * n) (bytesNat l)).signExtend 32 else BitVec.ofNat 32 (bytesNat l) := by
  rw [List.take_of_length_le (by omega)]
  by_cases h : sx = true ∧ n < 4
  · obtain ⟨rfl, hlt⟩ := h
    rw [if_pos ⟨rfl, hlt⟩, ← hl]
    exact extend_signed l (n := 4) (by omega)
  · rw [if_neg h, extend, if_neg]
    rintro ⟨hs, hlt, -⟩
    exact h ⟨hs, hl ▸ hlt⟩

section
variable {s : State} {id : Nat} {a : FeAccess} {w : Warp}

/-- The condition of an access and its effect on the bit. -/
theorem accessed_bit {b : Block} {b1 : Block} {granule qual : Nat} (hfull : b1.full = b.full) :
    (b1.setFull granule (feAfter qual (b.isFull granule))).full.contains granule
        = (if qual = 2 ∨ qual = 3 then false else if qual = 4 ∨ qual = 5 then true else b.full.contains granule)
      ∧ ∀ g, g ≠ granule → (b1.setFull granule (feAfter qual (b.isFull granule))).full.contains g = b.full.contains g := by
  refine ⟨?_, fun g hg => ?_⟩
  · rw [setFull_contains, if_pos rfl, feAfter_eq]
    rfl
  · rw [setFull_contains, if_neg hg, hfull]

/-- A store's lanes write their bytes in one step. -/
theorem stores_made (hnodup : ∀ l, a.lanes.getLsbD l = true → ∃ d, kget? a.data l = some d ∧ d.length = a.size)
    (hapart : ∀ l m, a.lanes.getLsbD l = true → a.lanes.getLsbD m = true → l ≠ m →
      kgetD a.ofs l 0 + a.size ≤ kgetD a.ofs m 0 ∨ kgetD a.ofs m 0 + a.size ≤ kgetD a.ofs l 0) (b : Block) :
    (∀ l i x, a.lanes.getLsbD l = true → (kgetD a.data l [])[i]? = some x → kgetD (written b (runsOf a)).ls (kgetD a.ofs l 0 + i) 0 = x)
      ∧ ∀ o, (∀ l, a.lanes.getLsbD l = true → o < kgetD a.ofs l 0 ∨ kgetD a.ofs l 0 + a.size ≤ o) →
        kgetD (written b (runsOf a)).ls o 0 = kgetD b.ls o 0 := by
  have hsize : ∀ l, a.lanes.getLsbD l = true → (kgetD a.data l []).length = a.size := fun l hl => by
    obtain ⟨d, hd, hlen⟩ := hnodup l hl
    rw [kgetD, hd]
    exact hlen
  have hrun : ∀ q ∈ runsOf a, ∃ m, a.lanes.getLsbD m = true ∧ q = (kgetD a.ofs m 0, kgetD a.data m []) := by
    intro q hq
    obtain ⟨m, hm, rfl⟩ := List.mem_map.mp hq
    exact ⟨m, (Results.mem_lanesOf _ _).mp hm, rfl⟩
  refine ⟨fun l i x hl hx => ?_, fun o ho => ?_⟩
  · have hmine : byteAt (kgetD a.ofs l 0, kgetD a.data l []) (kgetD a.ofs l 0 + i) = some x := (byteAt_add _ _).trans hx
    rcases written_ls b (runsOf a) (kgetD a.ofs l 0 + i) with ⟨q, hq, hbyte⟩ | ⟨hnone, -⟩
    · obtain ⟨m, hm, rfl⟩ := hrun q hq
      by_cases hlm : l = m
      · subst hlm
        exact Option.some.inj (hbyte.symm.trans hmine)
      · have h1 := range_of_byteAt hbyte
        have h2 := range_of_byteAt hmine
        simp only [hsize m hm, hsize l hl] at h1 h2
        have := hapart l m hl hm hlm
        omega
    · have hin : (kgetD a.ofs l 0, kgetD a.data l []) ∈ runsOf a :=
        List.mem_map_of_mem (f := fun l => (kgetD a.ofs l 0, kgetD a.data l [])) ((Results.mem_lanesOf _ _).mpr hl)
      rw [hnone _ hin] at hmine
      cases hmine
  · rcases written_ls b (runsOf a) o with ⟨q, hq, hbyte⟩ | ⟨-, hls⟩
    · obtain ⟨m, hm, rfl⟩ := hrun q hq
      have h1 := range_of_byteAt hbyte
      simp only [hsize m hm] at h1
      have := ho m hm
      omega
    · exact hls

/-! ## Values that arrive -/

/-- Values whose clk has come are written to their lanes (07 R185). -/
theorem landComing_lands {wid k n : Nat} {q : Result} (hw : s.warp? wid = some w) (hq : kget? w.results k = some q) (hdest : q.dest = .vec n)
    (hunique : Unique q.coming) (hlanes : ∀ x ∈ q.coming, x.1 < 32) (hsome : ∃ x ∈ q.coming, x.2.1 ≤ s.clk) (halone : Results.Alone w q) :
    ∃ t w' q', s.landComing wid k = t ∧ t = { s with warps := t.warps, free := t.free } ∧ t.warp? wid = some w'
      ∧ w' = { w with v := w'.v, results := w'.results } ∧ kget? w'.results k = some q'
      ∧ q'.coming = q.coming.filter (fun x => decide (s.clk < x.2.1))
      ∧ (∀ l d x, (l, (d, x)) ∈ q.coming → d ≤ s.clk → kgetD w'.v (32 * n + l) 0 = x)
      ∧ ∀ j, (∀ l d x, (l, (d, x)) ∈ q.coming → d ≤ s.clk → j ≠ 32 * n + l) → kgetD w'.v j 0 = kgetD w.v j 0 := by
  let here := q.coming.filter fun p => decide (p.2.1 ≤ s.clk)
  let vals : KMap Lane := here.map fun p => (p.1, p.2.2)
  let lanes := maskOf (here.map (·.1))
  have hne : here.isEmpty = false := by
    obtain ⟨x, hx, hd⟩ := hsome
    rw [List.isEmpty_eq_false_iff]
    exact List.ne_nil_of_mem (List.mem_filter.mpr ⟨hx, by simpa using hd⟩)
  let u := landedOn s.free k q lanes vals 0 w
  have hu : u = { w.putLanes n (vals.filter fun p => lanes.getLsbD p.1) with results := kmod w.results k (progressed q.pend lanes vals 0) } := by
    simp only [u, landedOn, Warp.landResult, hdest, Results.standing_of_alone halone]
    rfl
  have hall : vals.filter (fun p => lanes.getLsbD p.1) = vals := by
    rw [List.filter_eq_self]
    intro p hp
    obtain ⟨y, hy, rfl⟩ := List.mem_map.mp hp
    rw [Results.getLsbD_maskOf]
    simp only [Bool.and_eq_true, decide_eq_true_eq]
    exact ⟨hlanes y (List.mem_of_mem_filter hy), List.mem_map_of_mem hy⟩
  let w' : Warp := { u with results := kmod u.results k fun r => { r with coming := r.coming.filter fun p => decide (s.clk < p.2.1) } }
  have hland : s.landComing wid k = withWarp s wid w' (s.free + 1) := by
    simp only [State.landComing, hw, hq]
    rw [if_neg (ne_true_of_eq_false hne), landMem_eq hw hq]
    have hmod := kmod_congr (withWarp s wid u (s.free + 1)).warps wid
      (f := fun w => { w with results := kmod w.results k fun r => { r with coming := r.coming.filter fun p => decide (s.clk < p.2.1) } })
      (g := fun _ => w') (withWarp_warp hw u (s.free + 1)) rfl
    rw [← withWarp_withWarp s wid u w' (s.free + 1) (s.free + 1)]
    exact congrArg (fun m => ({ withWarp s wid u (s.free + 1) with warps := m } : State)) hmod
  have hkeys : (vals.map Prod.fst).Nodup := by
    rw [show vals.map Prod.fst = here.map Prod.fst by simp [vals, List.map_map, Function.comp_def]]
    exact hunique.sublist (List.filter_sublist.map _)
  have hv : w'.v = (w.putLanes n vals).v := by
    show u.v = _
    rw [hu, hall]
  refine ⟨_, w', { progressed q.pend lanes vals 0 q with coming := q.coming.filter fun p => decide (s.clk < p.2.1) }, hland, rfl,
    withWarp_warp hw _ _, ?_, ?_, rfl, fun l d x hx hd => ?_, fun j hj => ?_⟩
  · show ({ u with results := w'.results } : Warp) = { w with v := u.v, results := w'.results }
    rw [hu]
    rfl
  · show kget? (kmod u.results k _) k = _
    rw [hu, kget?_kmod_self, kget?_kmod_self, hq]
    rfl
  · rw [hv]
    exact Results.putLanes_value w n hkeys (List.mem_map.mpr ⟨(l, (d, x)), List.mem_filter.mpr ⟨hx, by simpa using hd⟩, rfl⟩)
  · rw [hv]
    refine Results.putLanes_other w n fun p hp => ?_
    obtain ⟨⟨l, d, x⟩, hy, rfl⟩ := List.mem_map.mp hp
    obtain ⟨hmem, hd⟩ := List.mem_filter.mp hy
    exact hj l d x hmem (by simpa using hd)

end

end Sys2Proof.Laws.LocalAccess

namespace Sys2Proof.Laws.LocalIssue

/-! # Local accesses issue (07 R175, R184, R185, 09 R238) -/

open Sys2Proof.Machine Sys2Proof.Safety Sys2Proof.Rules Sys2Proof.Laws.Operands Sys2Proof.Laws.Requests Sys2Proof.Laws.Splits Sys2Proof.Laws.LocalAccess

/-! ## Lanes by granule -/

/-- The granule of an offset, as the model groups lanes by it. -/
def granuleWord (a : Word) : Word := BitVec.ofNat 64 (a.toNat / 16)

theorem granuleWord_toNat (a : Word) : (granuleWord a).toNat = a.toNat / 16 := by
  have := a.isLt
  rw [granuleWord, BitVec.toNat_ofNat, Nat.mod_eq_of_lt (by omega)]

theorem granuleWord_inj {a b : Word} : granuleWord a = granuleWord b ↔ a.toNat / 16 = b.toNat / 16 := by
  rw [← BitVec.toNat_inj, granuleWord_toNat, granuleWord_toNat]

theorem groupBy_eq (la : List (Nat × Word)) (acc : List (Word × List Nat)) :
    groupGranules.groupBy la acc = groupLanes (la.map fun x => (x.1, granuleWord x.2)) acc := by
  induction la generalizing acc with
  | nil => rfl
  | cons x rest ih => exact ih _

/-- The active lanes whose offset lies in a granule, lowest first. -/
def lanesIn (s : State) (f : MFmt) (g : Word) : List Nat := (activeLanes s f).filter fun m => granuleWord (laneAddr s f m) == g

theorem mem_lanesIn {s : State} {f : MFmt} {g : Word} {m : Nat} : m ∈ lanesIn s f g ↔ m ∈ activeLanes s f ∧ granuleWord (laneAddr s f m) = g := by
  simp [lanesIn]

theorem groupGranules_lanes (s : State) (f : MFmt) :
    (∀ q ∈ groupGranules (s.laneAddrs f), q.2 = lanesIn s f q.1)
      ∧ ∀ l ∈ activeLanes s f, ∃ q ∈ groupGranules (s.laneAddrs f), q.1 = granuleWord (laneAddr s f l) := by
  have hgroups : groupGranules (s.laneAddrs f) = groupLanes ((activeLanes s f).map fun l => (l, granuleWord (laneAddr s f l))) [] := by
    rw [groupGranules, groupBy_eq]
    show groupLanes (((activeLanes s f).map fun l => (l, laneAddr s f l)).map fun x => (x.1, granuleWord x.2)) [] = _
    rw [List.map_map]
    rfl
  obtain ⟨hlanes, hall⟩ := groupLanes_grouped ((activeLanes s f).map fun l => (l, granuleWord (laneAddr s f l))) [] [] ⟨by simp, by simp⟩
  rw [← hgroups, List.nil_append] at hlanes hall
  refine ⟨fun q hq => ?_, fun l hl => hall _ (List.mem_map_of_mem (f := fun l => (l, granuleWord (laneAddr s f l))) hl)⟩
  rw [hlanes q hq]
  simp [lanesAt, lanesIn, List.filter_map, Function.comp_def]

/-! ## The accesses -/

/-- The access of a group of lanes (07 R185). -/
def groupAccess (u : State) (f : MFmt) (la : List (Nat × Word)) (store hold : Bool) (regs : List Nat) (sx : Bool) (seq : Nat)
    (g : Word × List Nat) : FeAccess :=
  let a : FeAccess :=
    { wid := u.cur.1, own := u.curSplit.lmask, span := u.curSplit.span, seq := seq, slot := u.cur.2, granule := g.1.toNat, lanes := maskOf g.2
      ofs := (la.filter fun q => g.2.contains q.1).map fun q => (q.1, q.2.toNat), size := szBytes f, store := store
      qual := f.fq.toNat, data := if store then g.2.map fun l => (l, u.storeData f l) else [], regs := regs, sext := sx
      reach := 0, waiting := false, order := 0 }
  if hold then a else { a with reach := u.clk + u.accessTime a }

/-- Accesses for a list of groups have been entered under new numbers. -/
theorem postFes_enters (u : State) (f : MFmt) (la : List (Nat × Word)) (store hold : Bool) (regs : List Nat) (sx : Bool) :
    ∃ F n, u.postFes f la store hold regs sx = { u with fes := F, nextId := n }
      ∧ (∀ g ∈ groupGranules la, ∃ k, u.nextId ≤ k ∧ kget? F k = some (groupAccess u f la store hold regs sx u.nextId g))
      ∧ ∀ q ∈ F, q ∈ u.fes ∨ ∃ g ∈ groupGranules la, q.2 = groupAccess u f la store hold regs sx u.nextId g := by
  let step (F : KMap FeAccess × Nat) (g : Word × List Nat) : KMap FeAccess × Nat :=
    (kput F.1 F.2 (groupAccess u f la store hold regs sx u.nextId g), F.2 + 1)
  have hfold : ∀ (l : List (Word × List Nat)) (F : KMap FeAccess × Nat),
      l.foldl (fun s (g : Word × List Nat) =>
        let a : FeAccess :=
          { wid := s.cur.1, own := u.curSplit.lmask, span := u.curSplit.span, seq := u.nextId, slot := s.cur.2, granule := g.1.toNat, lanes := maskOf g.2
            ofs := (la.filter fun q => g.2.contains q.1).map fun q => (q.1, q.2.toNat), size := szBytes f, store := store
            qual := f.fq.toNat, data := if store then g.2.map fun l => (l, s.storeData f l) else [], regs := regs, sext := sx
            reach := 0, waiting := false, order := 0 }
        let a := if hold then a else { a with reach := s.clk + s.accessTime a }
        { s with fes := kput s.fes s.nextId a, nextId := s.nextId + 1 }) { u with fes := F.1, nextId := F.2 }
        = { u with fes := (l.foldl step F).1, nextId := (l.foldl step F).2 } := by
    intro l
    induction l with
    | nil => exact fun _ => rfl
    | cons g rest ih => exact fun F => ih (step F g)
  have hkept : ∀ (l : List (Word × List Nat)) (F : KMap FeAccess × Nat), F.2 ≤ (l.foldl step F).2
      ∧ (∀ k, k < F.2 → kget? (l.foldl step F).1 k = kget? F.1 k)
      ∧ (∀ g ∈ l, ∃ k, F.2 ≤ k ∧ kget? (l.foldl step F).1 k = some (groupAccess u f la store hold regs sx u.nextId g))
      ∧ ∀ q ∈ (l.foldl step F).1, q ∈ F.1 ∨ ∃ g ∈ l, q.2 = groupAccess u f la store hold regs sx u.nextId g := by
    intro l
    induction l with
    | nil => exact fun F => ⟨le_rfl, fun _ _ => rfl, fun g hg => absurd hg List.not_mem_nil, fun q hq => .inl hq⟩
    | cons g rest ih =>
      intro F
      obtain ⟨hle, hold', hnew, hmem⟩ := ih (step F g)
      have hnext : (step F g).2 = F.2 + 1 := rfl
      refine ⟨(Nat.le_succ F.2).trans hle, fun k hk => ?_, fun x hx => ?_, fun q hq => ?_⟩
      · exact (hold' k (by omega)).trans (kget?_kput_ne _ _ (Nat.ne_of_lt hk))
      · rcases List.mem_cons.mp hx with rfl | hx
        · exact ⟨F.2, le_rfl, (hold' F.2 (by omega)).trans (kget?_kput_self ..)⟩
        · obtain ⟨k, hk, hget⟩ := hnew x hx
          exact ⟨k, by omega, hget⟩
      · rcases hmem q hq with hq | ⟨x, hx, he⟩
        · rcases mem_kput hq with rfl | hq
          · exact .inr ⟨g, List.mem_cons_self, rfl⟩
          · exact .inl hq
        · exact .inr ⟨x, List.mem_cons_of_mem _ hx, he⟩
  obtain ⟨-, -, hnew, hmem⟩ := hkept (groupGranules la) (u.fes, u.nextId)
  exact ⟨_, _, hfold (groupGranules la) (u.fes, u.nextId), hnew, hmem⟩

theorem accessTime_or (s : State) (a : FeAccess) : s.accessTime a = 7 ∨ s.accessTime a = 12 := by
  unfold State.accessTime
  have hstep : ∀ (l : List Nat) (t : Nat), t = 7 ∨ t = 12 →
      l.foldl (fun t l => max t (s.bankTime a.wid l a.granule)) t = 7 ∨ l.foldl (fun t l => max t (s.bankTime a.wid l a.granule)) t = 12 := by
    intro l
    induction l with
    | nil => exact fun _ h => h
    | cons x rest ih =>
      intro t ht
      have := bankTime_or s a.wid x a.granule
      refine ih _ ?_
      dsimp only
      omega
  exact hstep _ 7 (.inl rfl)

theorem kget?_map_key {α : Type} {l : List Nat} (F : Nat → α) {i : Nat} (hi : i ∈ l) : kget? (l.map fun k => (k, F k)) i = some (F i) := by
  induction l with
  | nil => cases hi
  | cons k rest ih =>
    by_cases hk : i = k
    · simp [kget?, hk]
    · simpa [kget?, hk] using ih ((List.mem_cons.mp hi).resolve_left hk)

/-- What the access of a lane's granule holds (07 R184, R185). -/
def LaneAccess (s u : State) (f : MFmt) (store : Bool) (l : Nat) (a : FeAccess) : Prop :=
  a.wid = s.cur.1 ∧ a.store = store ∧ a.granule = (laneAddr s f l).toNat / 16 ∧ a.qual = f.fq.toNat ∧ a.size = 2 ^ f.sz.toNat ∧ a.waiting = false
    ∧ kget? a.ofs l = some (laneAddr s f l).toNat
    ∧ (∀ m, a.lanes.getLsbD m = true ↔ m ∈ activeLanes s f ∧ (laneAddr s f m).toNat / 16 = (laneAddr s f l).toNat / 16)
    ∧ (store = true → kget? a.data l = some (u.storeData f l))

theorem activeLanes_lt {s : State} {f : MFmt} {l : Nat} (h : l ∈ activeLanes s f) : l < 32 := List.mem_range.mp (List.mem_of_mem_filter h)

theorem groupAccess_lane {s u : State} (hcur : u.cur = s.cur) {f : MFmt} {l : Nat} (hl : l ∈ activeLanes s f) (store hold : Bool) (regs : List Nat)
    (sx : Bool) (seq : Nat) :
    LaneAccess s u f store l (groupAccess u f (s.laneAddrs f) store hold regs sx seq (granuleWord (laneAddr s f l), lanesIn s f (granuleWord (laneAddr s f l)))) := by
  have hmine : l ∈ lanesIn s f (granuleWord (laneAddr s f l)) := mem_lanesIn.mpr ⟨hl, rfl⟩
  have hofs : kget? (((s.laneAddrs f).filter fun q => (lanesIn s f (granuleWord (laneAddr s f l))).contains q.1).map fun q => (q.1, q.2.toNat)) l
      = some (laneAddr s f l).toNat := by
    have heq : ((s.laneAddrs f).filter fun q => (lanesIn s f (granuleWord (laneAddr s f l))).contains q.1).map (fun q => (q.1, q.2.toNat))
        = ((activeLanes s f).filter fun m => (lanesIn s f (granuleWord (laneAddr s f l))).contains m).map fun m => (m, (laneAddr s f m).toNat) := by
      show (((activeLanes s f).map fun m => (m, laneAddr s f m)).filter _).map _ = _
      rw [List.filter_map, List.map_map]
      rfl
    rw [heq]
    exact kget?_map_key _ (List.mem_filter.mpr ⟨hl, by simpa using hmine⟩)
  have hlanes : ∀ m, (maskOf (lanesIn s f (granuleWord (laneAddr s f l)))).getLsbD m = true
      ↔ m ∈ activeLanes s f ∧ (laneAddr s f m).toNat / 16 = (laneAddr s f l).toNat / 16 := by
    intro m
    rw [Results.getLsbD_maskOf, Bool.and_eq_true, decide_eq_true_eq, decide_eq_true_eq, mem_lanesIn, granuleWord_inj]
    exact and_iff_right_of_imp fun h => activeLanes_lt h.1
  unfold groupAccess
  cases hold
  all_goals
    refine ⟨congrArg Prod.fst hcur, rfl, granuleWord_toNat _, rfl, rfl, rfl, hofs, hlanes, fun hs => ?_⟩
    subst hs
    exact kget?_map_key _ hmine

/-! ## The wait for the granules -/

/-- The accesses that a split in FE-WAIT sends to their banks. -/
def heldFes (s : State) (wid : Nat) (p : Split) : List (Nat × FeAccess) :=
  s.fes.filter fun q => q.2.wid == wid && q.2.span == p.span && (q.2.own &&& p.lmask) != 0 && q.2.reach == 0

/-- Their lanes. -/
def lanesOfFes (l : List (Nat × FeAccess)) : Lanes := l.foldl (fun a q => a ||| q.2.lanes) 0

/-- The lowest of their granules. -/
def lowestFes (l : List (Nat × FeAccess)) : Nat := l.foldl (fun x q => min x (16 * q.2.granule)) (2 ^ 64)

/-- Accesses set out for their banks. -/
def sentOut (l : List (Nat × FeAccess)) (s : State) : State :=
  l.foldl (fun s q => { s with fes := kmod s.fes q.1 fun a => { a with reach := s.clk + s.accessTime a } }) s

theorem enterAfter_fe {s : State} {wid slot : Nat} {w : Warp} {q : Split} (h : s.warp? wid = some w) (hq : kget? w.table slot = some q) (ha : q.after = .fe) :
    s.enterAfter wid slot = if lanesOfFes (heldFes s wid q) = 0 then s.wake wid slot (s.clk + 1)
      else sentOut (heldFes s wid q) (s.enterWait wid slot .feWait (BitVec.ofNat 64 (lowestFes (heldFes s wid q))) (lanesOfFes (heldFes s wid q))) := by
  simp only [State.enterAfter, split?_eq h, hq, ha]
  rfl

theorem getLsbD_lanesOfFes (l : List (Nat × FeAccess)) (i : Nat) : (lanesOfFes l).getLsbD i = true ↔ ∃ q ∈ l, q.2.lanes.getLsbD i = true := by
  have hstep : ∀ m : Lanes, (l.foldl (fun a q => a ||| q.2.lanes) m).getLsbD i = (m.getLsbD i || l.any fun q => q.2.lanes.getLsbD i) := by
    induction l with
    | nil => simp
    | cons q rest ih => intro m; rw [List.foldl_cons, ih]; simp [Bool.or_assoc]
  rw [lanesOfFes, hstep]
  simp

/-- Accesses that set out keep everything but the clk of their arrival. -/
theorem sentOut_eq (l : List (Nat × FeAccess)) (s : State) :
    ∃ F, sentOut l s = { s with fes := F } ∧ ∀ k x, kget? s.fes k = some x → ∃ r, kget? F k = some { x with reach := r } := by
  induction l generalizing s with
  | nil => exact ⟨s.fes, rfl, fun _ x hx => ⟨x.reach, hx⟩⟩
  | cons q rest ih =>
    obtain ⟨F, hF, hkept⟩ := ih { s with fes := kmod s.fes q.1 fun a => { a with reach := s.clk + s.accessTime a } }
    refine ⟨F, hF, fun k x hx => ?_⟩
    by_cases hk : k = q.1
    · exact hkept k { x with reach := s.clk + s.accessTime x } (by rw [hk, kget?_kmod_self, ← hk, hx]; rfl)
    · exact hkept k x ((kget?_kmod_ne _ _ hk).trans hx)

/-- What a waiting form leaves: its split waits, its accesses stand under their numbers (09 R238). -/
def WaitsLocal (s t : State) (w w' : Warp) (p : Split) (f : MFmt) (F : KMap FeAccess) : Prop :=
  t = { s with warps := t.warps, fes := t.fes, nextId := t.nextId, free := t.free } ∧ (∀ k, k ≠ s.cur.1 → t.warp? k = s.warp? k)
    ∧ t.warp? s.cur.1 = some w' ∧ OthersKept w w' s.cur.2
    ∧ w' = { w with table := w'.table, results := w'.results, tags := w'.tags, tagKey := w'.tagKey, whole := w'.whole }
    ∧ (∀ k x, kget? F k = some x → ∃ r, kget? t.fes k = some { x with reach := r })
    ∧ (activeLanes s f ≠ [] → ∃ p', kget? w'.table s.cur.2 = some p' ∧ p'.pc = p.pc ∧ p'.lmask = p.lmask
        ∧ (w.outstanding p = false → p'.st = .feWait ∧ p'.waux = s.effective f.msk.toNat) ∧ (w.outstanding p = true → p'.st = .spanPark))

section
variable {s : State} {w v : Warp} {p : Split}

/-- A warp whose split has issued a waiting form. -/
def begunWarp (s : State) (v : Warp) : Warp := { v with table := kmod v.table s.cur.2 (Splits.begun .fe (s.clk + 2)) }

theorem begunWarp_split (h : Issuer s w p) (htable : v.table = w.table) :
    kget? (begunWarp s v).table s.cur.2 = some (Splits.begun .fe (s.clk + 2) p) := by
  obtain ⟨-, hp, -, -⟩ := h
  rw [begunWarp, htable, kget?_kmod_self, hp]
  rfl

theorem othersKept_kmod {w v : Warp} {slot : Nat} {g h : Split → Split} (htable : v.table = kmod (kmod w.table slot g) slot h) : OthersKept w v slot := by
  intro k hk
  rw [htable, kget?_kmod_ne _ _ hk, kget?_kmod_ne _ _ hk]

/-- A split with results of its span to come parks, and its accesses stay where they are (09 R239). -/
theorem parked_waits (h : Issuer s w p) (htable : v.table = w.table) (hkept : RegsKeptButTags w v) (hout : w.outstanding p = true) (f : MFmt)
    (F : KMap FeAccess) (n : Nat) :
    ∃ t w', (replaced { s with fes := F } s.cur.1 n (s.free + 1) (begunWarp s v)).modSplit s.cur.1 s.cur.2 (fun q => q.setEff .spanPark) = t
      ∧ WaitsLocal s t w w' p f F := by
  have hbegun := begunWarp_split h htable
  obtain ⟨hw, hp, hst, -⟩ := h
  have hw0 : ({ s with fes := F } : State).warp? s.cur.1 = some w := hw
  let w' : Warp := { begunWarp s v with table := kmod (begunWarp s v).table s.cur.2 fun q => q.setEff .spanPark }
  have hmod := modSplit_eq (replaced_warp? hw0 n (s.free + 1) (begunWarp s v)) s.cur.2 fun q => q.setEff .spanPark
  rw [replaced_replaced] at hmod
  refine ⟨_, w', hmod, rfl, fun k hk => replaced_warp?_ne _ _ _ hk, replaced_warp? hw0 _ _ _, ?_, ?_, fun k x hx => ⟨x.reach, hx⟩, fun _ => ?_⟩
  · exact othersKept_kmod (by rw [← htable]; rfl)
  · show ({ v with table := w'.table } : Warp) = { w with table := w'.table, results := v.results, tags := v.tags, tagKey := v.tagKey, whole := v.whole }
    rw [hkept]
  · refine ⟨(Splits.begun .fe (s.clk + 2) p).setEff .spanPark, ?_, ?_, ?_, fun hno => ?_, fun _ => ?_⟩
    · exact (kget?_kmod_self _ _ _).trans (by rw [hbegun]; rfl)
    · simp [Split.setEff, Splits.begun, hst]
    · simp [Split.setEff, Splits.begun, hst]
    · rw [hout] at hno; cases hno
    · simp [Split.setEff, Splits.begun, hst]

/-- With nothing of its span to come, the split waits for its granules at once (09 R238). -/
theorem entered_waits (h : Issuer s w p) (htable : v.table = w.table) (hkept : RegsKeptButTags w v) (hout : w.outstanding p = false) (f : MFmt)
    (F : KMap FeAccess) (n : Nat)
    (hlanes : lanesOfFes (F.filter fun q => q.2.wid == s.cur.1 && q.2.span == p.span && (q.2.own &&& p.lmask) != 0 && q.2.reach == 0)
      = s.effective f.msk.toNat) :
    ∃ t w', (replaced { s with fes := F } s.cur.1 n (s.free + 1) (begunWarp s v)).enterAfter s.cur.1 s.cur.2 = t ∧ WaitsLocal s t w w' p f F := by
  have hbegun := begunWarp_split h htable
  obtain ⟨hw, hp, hst, -⟩ := h
  have hw0 : ({ s with fes := F } : State).warp? s.cur.1 = some w := hw
  have hz := replaced_warp? hw0 n (s.free + 1) (begunWarp s v)
  have henter := enterAfter_fe hz hbegun rfl
  have hheld : lanesOfFes (heldFes (replaced { s with fes := F } s.cur.1 n (s.free + 1) (begunWarp s v)) s.cur.1 (Splits.begun .fe (s.clk + 2) p))
      = s.effective f.msk.toNat := hlanes
  rw [hheld] at henter
  by_cases hzero : s.effective f.msk.toNat = 0
  · rw [if_pos hzero, wake_eq hz, replaced_replaced] at henter
    let w' : Warp := { begunWarp s v with table := kmod (begunWarp s v).table s.cur.2 (woken n (s.clk + 1)) }
    refine ⟨_, w', henter, rfl, fun k hk => replaced_warp?_ne _ _ _ hk, replaced_warp? hw0 _ _ _, ?_, ?_, fun k x hx => ⟨x.reach, hx⟩, fun hne => ?_⟩
    · exact othersKept_kmod (by rw [← htable]; rfl)
    · show ({ v with table := w'.table } : Warp) = { w with table := w'.table, results := v.results, tags := v.tags, tagKey := v.tagKey, whole := v.whole }
      rw [hkept]
    · obtain ⟨l, hl⟩ := List.exists_mem_of_ne_nil _ hne
      exact absurd hzero (effective_ne_zero hl)
  · rw [if_neg hzero, enterWait_eq hz, replaced_replaced] at henter
    obtain ⟨F', hF', hfes⟩ := sentOut_eq (heldFes (replaced { s with fes := F } s.cur.1 n (s.free + 1) (begunWarp s v)) s.cur.1 (Splits.begun .fe (s.clk + 2) p)) _
    have hexec := henter.trans hF'
    generalize lowestFes _ = lo at hexec
    let w' : Warp := { begunWarp s v with
      whole := (begunWarp s v).whole || (begunWarp s v).haltH != 0
      table := kmod (begunWarp s v).table s.cur.2 (waiting n ((begunWarp s v).haltH != 0) .feWait (BitVec.ofNat 64 lo) (s.effective f.msk.toNat)) }
    refine ⟨_, w', hexec, rfl, fun k hk => kget?_kmod_ne _ _ hk, Releases.warp?_kmod_self hw0 _, ?_, ?_, fun k x hx => hfes k x hx, fun _ => ?_⟩
    · exact othersKept_kmod (by rw [← htable]; rfl)
    · show ({ v with table := w'.table, whole := w'.whole } : Warp) = { w with table := w'.table, results := v.results, tags := v.tags, tagKey := v.tagKey, whole := w'.whole }
      rw [hkept]
    · refine ⟨waiting n ((begunWarp s v).haltH != 0) .feWait (BitVec.ofNat 64 lo) (s.effective f.msk.toNat) (Splits.begun .fe (s.clk + 2) p), ?_, ?_, ?_, fun _ => ⟨?_, rfl⟩, fun hyes => ?_⟩
      · exact (kget?_kmod_self _ _ _).trans (by rw [hbegun]; rfl)
      · simp [waiting, Split.setEff, Splits.begun, hst]
      · simp [waiting, Split.setEff, Splits.begun, hst]
      · simp [waiting, Split.setEff, Splits.begun, hst]
      · rw [hout] at hyes; cases hyes

end

end Sys2Proof.Laws.LocalIssue

namespace Sys2Proof.Laws.LocalIssue

open Sys2Proof.Machine Sys2Proof.Safety Sys2Proof.Rules Sys2Proof.Laws.Operands Sys2Proof.Laws.Requests Sys2Proof.Laws.Splits Sys2Proof.Laws.LocalAccess
  Sys2Proof.Laws.Landing

/-! # LDL and STL past their checks -/

/-- A form that waits for its granules (09 R238). -/
abbrev waitingForm (f : MFmt) : Prop := f.fq = 1 ∨ f.fq = 2 ∨ f.fq = 5

theorem feWaits_iff (f : MFmt) : feWaits f = true ↔ waitingForm f := by
  simp [feWaits, waitingForm, or_assoc]

/-- What the issue of an LDL or STL leaves (07 R184, R185). -/
def LocalIssued (s t : State) (w w' : Warp) (p : Split) (f : MFmt) (store : Bool) : Prop :=
  t = { s with warps := t.warps, fes := t.fes, nextId := t.nextId, free := t.free }
    ∧ (∀ k, k ≠ s.cur.1 → t.warp? k = s.warp? k) ∧ t.warp? s.cur.1 = some w' ∧ OthersKept w w' s.cur.2
    ∧ w' = { w with table := w'.table, results := w'.results, tags := w'.tags, tagKey := w'.tagKey, whole := w'.whole }
    ∧ (∀ l ∈ activeLanes s f, ∃ k a, s.nextId ≤ k ∧ kget? t.fes k = some a ∧ LaneAccess s s f store l a
        ∧ (¬waitingForm f → a.reach = s.clk + 7 ∨ a.reach = s.clk + 12))
    ∧ (¬waitingForm f → Proceeds w' s.cur.2 p f.sw 1)
    ∧ (waitingForm f → activeLanes s f ≠ [] → ∃ p', kget? w'.table s.cur.2 = some p' ∧ p'.pc = p.pc ∧ p'.lmask = p.lmask
        ∧ (w.outstanding p = false → p'.st = .feWait ∧ p'.waux = s.effective f.msk.toNat)
        ∧ (w.outstanding p = true → p'.st = .spanPark))

theorem LaneAccess.congr {s u : State} {f : MFmt} {store : Bool} {l : Nat} {a : FeAccess} (hdata : store = true → u = s)
    (h : LaneAccess s u f store l a) : LaneAccess s s f store l a := by
  obtain ⟨hwid, hstore, hgranule, hqual, hsize, hwait, hofs, hlanes, hval⟩ := h
  exact ⟨hwid, hstore, hgranule, hqual, hsize, hwait, hofs, hlanes, fun hs => by rw [hval hs, hdata hs]⟩

theorem mem_granules {s : State} {f : MFmt} {l : Nat} (hl : l ∈ activeLanes s f) :
    (granuleWord (laneAddr s f l), lanesIn s f (granuleWord (laneAddr s f l))) ∈ groupGranules (s.laneAddrs f) := by
  obtain ⟨hlanes, hall⟩ := groupGranules_lanes s f
  obtain ⟨q, hq, he⟩ := hall l hl
  have hmine := hlanes q hq
  rw [he] at hmine
  rwa [show q = (granuleWord (laneAddr s f l), lanesIn s f (granuleWord (laneAddr s f l))) from Prod.ext he hmine] at hq

section
variable {s : State} {w : Warp} {p : Split}

/-- A form that does not wait sends its accesses to their banks and goes on (07 R185). -/
theorem goes_issues (h : Issuer s w p) {f : MFmt} (hf : ¬waitingForm f) {a : Nat} {g : Warp → Warp} (htable : (g w).table = w.table)
    (hkept : RegsKeptButTags w (g w)) {store : Bool} (hstore : store = true → issued s a 0 g = s) (ids : List Nat) (sx : Bool) :
    ∃ t w', ((issued s a 0 g).postFes f (s.laneAddrs f) store false ids sx).retire f.sw 2 1 = t ∧ LocalIssued s t w w' p f store := by
  obtain ⟨F, n, hpost, hentered, -⟩ := postFes_enters (issued s a 0 g) f (s.laneAddrs f) store false ids sx
  have hi : Issuer { issued s a 0 g with fes := F, nextId := n } (g w) p := issued_issuer h a 0 htable
  obtain ⟨m, k, hret, hregs, hothers, hproc, -⟩ := retire_proceeds hi f.sw 2 1
  rw [hpost, hret]
  refine ⟨_, k (g w), rfl, rfl, fun j hj => ?_, ?_, fun j hj => ?_, ?_, fun l hl => ?_, fun _ => hproc, fun hw => absurd hw hf⟩
  · exact (kget?_kmod_ne _ k hj).trans (kget?_kmod_ne _ g hj)
  · exact (issued_warp _ m 1 k).trans (by rw [hi.1]; rfl)
  · rw [hothers j hj, htable]
  · rw [hregs, hkept]
  · obtain ⟨j, hj, hget⟩ := hentered _ (mem_granules hl)
    refine ⟨j, _, (Nat.le_add_right ..).trans hj, hget, (groupAccess_lane (s := s) (u := issued s a 0 g) rfl hl store false ids sx _).congr hstore, fun _ => ?_⟩
    exact (accessTime_or _ _).imp (congrArg _) (congrArg _)

/-- The lanes of the accesses that a waiting form has entered are its active lanes. -/
theorem held_lanes (h : Issuer s w p) {a : Nat} {g : Warp → Warp} (htable : (g w).table = w.table) {f : MFmt} {store : Bool} {ids : List Nat} {sx : Bool}
    {F : KMap FeAccess} (hold : ∀ q ∈ s.fes, q.2.wid = s.cur.1 → q.2.span = p.span → q.2.reach ≠ 0)
    (hentered : ∀ x ∈ groupGranules (s.laneAddrs f), ∃ k, kget? F k = some (groupAccess (issued s a 0 g) f (s.laneAddrs f) store true ids sx (s.nextId + a) x))
    (hall : ∀ q ∈ F, q ∈ s.fes ∨ ∃ x ∈ groupGranules (s.laneAddrs f), q.2 = groupAccess (issued s a 0 g) f (s.laneAddrs f) store true ids sx (s.nextId + a) x) :
    lanesOfFes (F.filter fun q => q.2.wid == s.cur.1 && q.2.span == p.span && (q.2.own &&& p.lmask) != 0 && q.2.reach == 0)
      = s.effective f.msk.toNat := by
  have hcur : (issued s a 0 g).curSplit = p := issuer_curSplit (issued_issuer h a 0 htable)
  obtain ⟨-, -, -, hlive⟩ := h
  obtain ⟨hlanes, -⟩ := groupGranules_lanes s f
  refine BitVec.eq_of_getLsbD_eq fun i hi => ?_
  have hactive : i ∈ activeLanes s f ↔ (s.effective f.msk.toNat).getLsbD i = true := by simp [activeLanes, hi]
  rw [Bool.eq_iff_iff, getLsbD_lanesOfFes, ← hactive]
  constructor
  · rintro ⟨q, hq, hbit⟩
    obtain ⟨hmem, hmine⟩ := List.mem_filter.mp hq
    simp only [Bool.and_eq_true, beq_iff_eq, bne_iff_ne] at hmine
    obtain ⟨⟨⟨hwid, hspan⟩, -⟩, hreach⟩ := hmine
    rcases hall q hmem with hq | ⟨x, hx, he⟩
    · exact absurd hreach (hold q hq hwid hspan)
    · rw [he] at hbit
      have hin : i ∈ x.2 := by
        have hbit' : (maskOf x.2).getLsbD i = true := hbit
        rw [Results.getLsbD_maskOf, Bool.and_eq_true, decide_eq_true_eq, decide_eq_true_eq] at hbit'
        exact hbit'.2
      rw [hlanes x hx] at hin
      exact (mem_lanesIn.mp hin).1
  · intro hl
    obtain ⟨k, hk⟩ := hentered _ (mem_granules hl)
    refine ⟨(k, _), List.mem_filter.mpr ⟨Results.kget?_mem hk, ?_⟩, ?_⟩
    · simpa [groupAccess, hcur] using hlive
    · obtain ⟨-, -, -, -, -, -, -, hmask, -⟩ := groupAccess_lane (s := s) (u := issued s a 0 g) rfl hl store true ids sx (s.nextId + a)
      exact (hmask i).mpr ⟨hl, rfl⟩

/-- A warp with results that are no results of a span. -/
def detached (ids : List Nat) (w : Warp) : Warp :=
  { w with results := w.results.map fun q => if ids.contains q.1 then (q.1, { q.2 with span := 0 }) else q }

theorem detach_issued (a : Nat) (g : Warp → Warp) (ids : List Nat) : (issued s a 0 g).detach ids = issued s a 0 fun x => detached ids (g x) :=
  issued_issued s a 0 0 0 g (detached ids)

theorem detached_nil : detached [] = id := by
  funext w
  simp [detached]

/-- A waiting form enters its accesses, and its split waits for them or for the results of its span (09 R238). -/
theorem waits_issues (h : Issuer s w p) {f : MFmt} (hf : waitingForm f) {a : Nat} {g : Warp → Warp} (htable : (g w).table = w.table)
    (hkept : RegsKeptButTags w (g w)) {store : Bool} (hstore : store = true → issued s a 0 g = s) (ids : List Nat) (sx : Bool)
    (hold : ∀ q ∈ s.fes, q.2.wid = s.cur.1 → q.2.span = p.span → q.2.reach ≠ 0) :
    let s2 := (issued s a 0 g).postFes f (s.laneAddrs f) store true ids sx
    let s3 := { s2 with free := s2.free + 1 }.modCur fun p => { p with len := p.len + 1, after := .fe, rdy := max p.rdy (s.clk + 2) }
    ∃ t w', (if s.curWarp.outstanding s.curSplit then s3.modCur fun p => p.setEff .spanPark else s3.enterAfter s.cur.1 s.cur.2) = t
      ∧ LocalIssued s t w w' p f store := by
  intro s2 s3
  obtain ⟨F, n, hpost, hentered, hall⟩ := postFes_enters (issued s a 0 g) f (s.laneAddrs f) store true ids sx
  have hlanes := held_lanes h htable (g := g) (store := store) (ids := ids) (sx := sx) hold (fun x hx => (hentered x hx).imp fun _ => And.right) hall
  have hs3 : s3 = replaced { s with fes := F } s.cur.1 n (s.free + 1) (begunWarp s (g w)) := by
    have hs2 : s2 = { issued s a 0 g with fes := F, nextId := n } := hpost
    have hone := kmod_congr (kmod s.warps s.cur.1 g) s.cur.1 (f := fun v => { v with table := kmod v.table s.cur.2 (Splits.begun .fe (s.clk + 2)) })
      (g := fun _ => begunWarp s (g w)) (Releases.warp?_kmod_self h.1 g) rfl
    show ({ s2 with free := s2.free + 1 } : State).modCur (Splits.begun .fe (s.clk + 2)) = _
    rw [hs2, replaced, ← kmod_kmod s.warps s.cur.1 g fun _ => begunWarp s (g w), ← hone]
    rfl
  have hfinal : ∀ t w', WaitsLocal s t w w' p f F → LocalIssued s t w w' p f store := by
    rintro t w' ⟨hframe, hothers, hwarp, hsplits, hregs, hfes, hwaits⟩
    refine ⟨hframe, hothers, hwarp, hsplits, hregs, fun l hl => ?_, fun hn => absurd hf hn, fun _ => hwaits⟩
    obtain ⟨k, hk, hget⟩ := hentered _ (mem_granules hl)
    obtain ⟨r, hr⟩ := hfes k _ hget
    exact ⟨k, _, (Nat.le_add_right ..).trans hk, hr, (groupAccess_lane (s := s) (u := issued s a 0 g) rfl hl store true ids sx (s.nextId + a)).congr hstore, fun hn => absurd hf hn⟩
  rw [issuer_curWarp h, issuer_curSplit h, hs3]
  cases hout : w.outstanding p with
  | true =>
    obtain ⟨t, w', ht, hw'⟩ := parked_waits h htable hkept hout f F n
    exact ⟨t, w', ht, hfinal t w' hw'⟩
  | false =>
    obtain ⟨t, w', ht, hw'⟩ := entered_waits h htable hkept hout f F n hlanes
    exact ⟨t, w', ht, hfinal t w' hw'⟩

/-- LDL and STL past their checks (07 R184, R185). -/
theorem runLocal_issues (h : Issuer s w p) (f : MFmt) {a : Nat} {g : Warp → Warp} (htable : (g w).table = w.table)
    (hkept : RegsKeptButTags w (g w)) {store : Bool} {ids : List Nat} (hstore : store = true → issued s a 0 g = s ∧ ids = []) (sx : Bool)
    {dests : State → State × List Nat} (hdests : dests s = (issued s a 0 g, ids))
    (hold : ∀ q ∈ s.fes, q.2.wid = s.cur.1 → q.2.span = p.span → q.2.reach ≠ 0) :
    ∃ t w', s.runLocal f (s.laneAddrs f) store dests sx = t ∧ LocalIssued s t w w' p f store := by
  by_cases hf : waitingForm f
  · have hdetached : RegsKeptButTags w (detached ids (g w)) := regsKeptButTags_trans hkept rfl
    obtain ⟨t, w', ht, hissued⟩ := waits_issues h hf (g := fun x => detached ids (g x)) (a := a) htable hdetached
      (fun hs => by
        obtain ⟨hsame, rfl⟩ := hstore hs
        rw [detached_nil]
        exact hsame) ids sx hold
    refine ⟨t, w', ?_, hissued⟩
    rw [← ht]
    simp only [State.runLocal, hdests, (feWaits_iff f).mpr hf, if_true, detach_issued]
  · obtain ⟨t, w', ht, hissued⟩ := goes_issues h hf htable hkept (fun hs => (hstore hs).1) ids sx
    refine ⟨t, w', ?_, hissued⟩
    rw [← ht]
    simp only [State.runLocal, hdests, mt (feWaits_iff f).mp hf, if_false, Bool.false_eq_true]

end

/-! ## The checks pass -/

theorem localFault_none {limit size : Nat} {l : List Word} (h : ∀ a ∈ l, a.toNat % size = 0 ∧ a.toNat + size ≤ limit) : localFault limit size l = none := by
  have hn : l.find? (fun a => a.toNat % size != 0) = none := by
    rw [List.find?_eq_none]
    intro a ha
    simp [(h a ha).1]
  have hr : l.find? (fun a => decide (limit < a.toNat + size)) = none := by
    rw [List.find?_eq_none]
    intro a ha
    simpa using (h a ha).2
  simp only [localFault, hn, rangeFault, hr, Option.map_none]

/-- LDL and STL whose registers, tags and offsets pass issue (07 R175, R184). -/
theorem local_issues {s : State} {w : Warp} {p : Split} {i : Instr} {f : MFmt} {store : Bool} {tags : List (Nat × List Nat)} (h : Issuer s w p)
    (hi : localRule i = some (f, store, tags)) (hr : ∀ v ∈ dataRule f ++ indexRule f, v < w.budget) (ht : ∀ c ∈ tags, (s.tagOfReg c.1).toNat ∈ c.2)
    (hl : ∀ l ∈ activeLanes s f, (laneAddr s f l).toNat % 2 ^ f.sz.toNat = 0
      ∧ (laneAddr s f l).toNat + 2 ^ f.sz.toNat ≤ s.curBlock.alloc - 1536 * s.curBlock.warps)
    (hold : ∀ q ∈ s.fes, q.2.wid = s.cur.1 → q.2.span = p.span → q.2.reach ≠ 0) :
    ∃ t w', exec i s = .next t ∧ LocalIssued s t w w' p f store := by
  have hla : (s.laneAddrs f).map (fun x => x.2) = (activeLanes s f).map (laneAddr s f) := List.map_map
  have hregs : ∀ v ∈ dataRegs f ++ idxRegs f, v < s.curWarp.budget := by
    rwa [dataRegs_rule, idxRegs_rule, issuer_curWarp h]
  have hlocal : localFault s.curBlock.usable (szBytes f) ((activeLanes s f).map (laneAddr s f)) = none := by
    refine localFault_none fun a ha => ?_
    obtain ⟨l, hmem, rfl⟩ := List.mem_map.mp ha
    exact hl l hmem
  cases i with
  | ldl ty f =>
    cases hi
    have hv := vecFault_none s _ false (idxChk f) hregs (.inr (demands_pass (by rwa [demands_idxChk])))
    obtain ⟨a, g, ids, hdests, hd⟩ := loadDests_entered (s.effective f.msk.toNat) ty.toNat (dataRegs f) 0 h
    obtain ⟨t, w', hrun, hissued⟩ := runLocal_issues h f hd.table hd.kept (store := false) (fun hs => by cases hs) (ty == 1)
      (dests := fun s => s.loadDests (s.effective f.msk.toNat) ty.toNat (dataRegs f) 0) hdests hold
    refine ⟨t, w', ?_, hissued⟩
    dsimp only [exec, execLdl]
    simp only [hv, hla, hlocal, hrun]
  | stl ty f =>
    cases hi
    have hv := vecFault_none s _ false (dataChk ty.toNat f ++ idxChk f) hregs
      (.inr (demands_pass (by rwa [demands_append, demands_dataChk, demands_idxChk])))
    obtain ⟨t, w', hrun, hissued⟩ := runLocal_issues h f (a := 0) (g := id) rfl rfl (store := true) (ids := []) (fun _ => ⟨issued_id s, rfl⟩) false
      (dests := fun s => (s, [])) (by rw [issued_id]) hold
    refine ⟨t, w', ?_, hissued⟩
    dsimp only [exec, execStl]
    simp only [hv, hla, hlocal, hrun]
  | _ => cases hi

/-- Settles O37: the issue by whether the form waits; an access by whether its condition holds, and by what it does. -/
theorem localAccesses : Obligations.LocalAccesses := by
  refine ⟨fun s w p i f store tags h _ hi hr ht hl hold => ?_, fun s id a w ha hu hw hwait hreach hdue hcap hready halone hblock => ?_⟩
  · intro waits
    obtain ⟨t, w', hexec, hframe, hothers, hwarp, hsplits, hregs, haccess, hgoes, hwaits⟩ := local_issues h hi hr ht hl hold
    refine ⟨t, w', hexec, hframe, hothers, hwarp, hsplits, hregs, fun l hl => ?_, hgoes, hwaits⟩
    obtain ⟨k, a, hk, hget, ⟨hwid, hstore, hgranule, hqual, hsize, hwait, hofs, hlanes, hdata⟩, hreach⟩ := haccess l hl
    exact ⟨k, a, hk, hget, hwid, hstore, hgranule, hqual, hsize, hwait, hofs, hlanes, fun hs => (hdata hs).trans (by rw [storeData_rule]), hreach⟩
  · intro b full met after start made
    have hexec := feGranuleAccess_eq ha hw hwait hreach hdue hcap hready halone
    have hmet : feMet a.qual ((s.blockD w.block).isFull a.granule) = true ↔ met := feMet_iff _ _
    have done : met → ∀ (u : State) (g : Block → Block), (∀ k, (u.warpD k).block = (s.warpD k).block) → u.mem = s.mem → u.fes = s.fes →
        u.blocks = s.blocks → s.feMake id a = (accessed u id w.block g).feProgress a (s.accessTime a) →
        exec (.feGranuleAccess id) s = .next ((accessed u id w.block g).feProgress a (s.accessTime a))
          ∧ ((accessed u id w.block g).feProgress a (s.accessTime a)).mem = s.mem
          ∧ ((accessed u id w.block g).feProgress a (s.accessTime a)).fes = kdel s.fes id
          ∧ ((accessed u id w.block g).feProgress a (s.accessTime a)).blockD w.block = g b := by
      intro hm u g huw hmem hfes hblocks hmake
      obtain ⟨t, ht⟩ : ∃ t, (accessed u id w.block g).feProgress a (s.accessTime a) = t := ⟨_, rfl⟩
      have htables : TablesOnly (accessed u id w.block g) t := ht ▸ feProgress_tablesOnly _ _ _
      have hblocks' : ∀ k, (t.warpD k).block = (s.warpD k).block := fun k => (htables.block k).trans (huw k)
      have hfes' : t.fes = kdel s.fes id := by rw [htables.1, ← hfes]; rfl
      rw [ht] at hmake ⊢
      refine ⟨?_, ?_, hfes', ?_⟩
      · rw [hexec, if_pos (hmet.mpr hm), hmake, feWake_alone hu hfes' hblocks' halone]
      · rw [htables.1, ← hmem]; rfl
      · have hsome : (u.block? w.block).isSome = true := by rw [State.block?, hblocks]; exact hblock
        have hsame : u.blockD w.block = b := by rw [State.blockD, State.block?, hblocks]; rfl
        rw [htables.1]
        exact (accessed_blockD (id := id) hsome g).trans (by rw [hsame])
    refine ⟨fun hn => ?_, fun hm hstore hdata hapart => ?_, fun hm hstore k q hregs hq hsize => ?_, fun k q n hq hmem hdest hunique hlanes hsome hone => ?_⟩
    · rw [if_neg (mt hmet.mp hn)] at hexec
      exact ⟨_, hexec, rfl, by rw [kget?_kmod_self, ha]; rfl⟩
    · obtain ⟨hx, hmem, hfes, hblk⟩ := done hm s _ (fun _ => rfl) rfl rfl rfl (feMake_store hw hstore)
      obtain ⟨hbit, hbits⟩ := accessed_bit (b := b) (b1 := written b (runsOf a)) (granule := a.granule) (qual := a.qual) (by rw [written_frame])
      obtain ⟨hbytes, hother⟩ := stores_made hdata hapart b
      refine ⟨_, _, ⟨hx, hmem, hfes, hblk, hbit, hbits⟩, ?_, hbytes, hother⟩
      rw [Block.setFull, written_frame]
    · obtain ⟨w', q', hfold, hframe, hq', hvalues, -⟩ := foldl_sendLane (granule := a.granule) a.sext (fun l => b.lsRead (start l) a.size) (lanesOf a.lanes)
        (List.Nodup.filter _ List.nodup_range) hw hq
      have hmake := feMake_load (id := id) (u := withWarp s a.wid w' s.free) hw hstore (by rw [hregs]; exact hfold)
      have huw : ∀ k, ((withWarp s a.wid w' s.free).warpD k).block = (s.warpD k).block := fun k => by
        by_cases hk : k = a.wid
        · subst hk
          rw [State.warpD, withWarp_warp hw, State.warpD, hw, hframe]
          rfl
        · rw [State.warpD, withWarp_other s hk, State.warpD]
      obtain ⟨hx, hmem, hfes, hblk⟩ := done hm _ _ huw rfl rfl rfl hmake
      obtain ⟨hbit, hbits⟩ := accessed_bit (b := b) (b1 := b) (granule := a.granule) (qual := a.qual) rfl
      obtain ⟨f, hf, hwarp⟩ := (feProgress_tablesOnly (accessed (withWarp s a.wid w' s.free) id w.block fun b => b.setFull a.granule
        (feAfter a.qual ((s.blockD w.block).isFull a.granule))) a (s.accessTime a)).2 a.wid
      have hmine : (accessed (withWarp s a.wid w' s.free) id w.block fun b => b.setFull a.granule
        (feAfter a.qual ((s.blockD w.block).isFull a.granule))).warp? a.wid = some w' := withWarp_warp hw w' s.free
      rw [hmine, Option.map_some] at hwarp
      refine ⟨_, _, f w', q', ⟨hx, hmem, hfes, hblk, hbit, hbits⟩, rfl, hwarp, ?_, ?_, ?_, ?_, ?_, fun l hl => ?_⟩
      · rw [hf, hframe]
      · rw [hf, hframe]
      · rw [hf, hframe]
      · rw [hf, hframe]
      · rw [hf]; exact hq'
      · obtain ⟨d, hd, hcoming⟩ := hvalues l ((Results.mem_lanesOf _ _).mpr hl)
        refine ⟨d, hd, hcoming.trans ?_⟩
        rw [lane_value (l := b.lsRead (start l) a.size) (by simp [Block.lsRead]) hsize]
    · obtain ⟨t, w', q', hland, hframe, hwarp, hregs, hq', hcoming, hvalues, hothers⟩ := landComing_lands hw hq hdest hunique hlanes hsome hone
      refine ⟨t, w', q', ?_, hframe, hwarp, hregs, hq', hcoming, hvalues, hothers⟩
      have hdue : exec (.registerResultReturn a.wid k) s = .next (s.landDue a.wid k) := rfl
      rw [hdue, State.landDue, hw]
      simp only [hq, hmem, if_true, hland]

end Sys2Proof.Laws.LocalIssue

namespace Sys2Proof.Laws.Barriers

/-! # Arrivals at barriers (07 R202, R203, R205, 08 R237) -/

open Sys2Proof.Machine Sys2Proof.Safety Sys2Proof.Rules Sys2Proof.Laws.Splits Sys2Proof.Laws.Signals

/-! ## Live lanes -/

theorem liveLanes_kmod {w v : Warp} {slot : Nat} {g : Split → Split} {p : Split} (hp : kget? w.table slot = some p) (hg : (g p).lmask = p.lmask)
    (hv : v.table = kmod w.table slot g) : v.liveLanes = w.liveLanes := by
  have hsame : kmod w.table slot g = kmod w.table slot fun x => { g x with lmask := x.lmask } := by
    refine kmod_congr _ _ hp ?_
    dsimp only
    rw [← hg]
  show lanesOfAll v.table = lanesOfAll w.table
  rw [hv, hsame]
  exact lanes_kmod _ _ fun _ => rfl

/-! ## Arrivals -/

/-- A warp whose arrival set at a barrier takes lanes. -/
def joined (key : Nat) (m : Lanes) (count sc : Nat) (w : Warp) : Warp :=
  { w with arrSet := kput w.arrSet key (kgetD w.arrSet key 0 ||| m), arrCnt := kput w.arrCnt key (count, max sc (kgetD w.arrCnt key (0, 0)).2) }

theorem joined_set (key : Nat) (m : Lanes) (count sc : Nat) (w : Warp) : kgetD (joined key m count sc w).arrSet key 0 = kgetD w.arrSet key 0 ||| m := by
  simp [joined, kgetD]

theorem joined_other (key : Nat) (m : Lanes) (count sc : Nat) (w : Warp) {k : Nat} (hk : k ≠ key) :
    kgetD (joined key m count sc w).arrSet k 0 = kgetD w.arrSet k 0 := by
  simp [joined, kgetD, kget?_kput_ne _ _ hk]

/-- While live lanes are missing, nothing more happens (07 R203). -/
theorem barCheck_idle {s : State} {wid key : Nat} {v : Warp} (h : s.warp? wid = some v) (hlive : v.liveLanes &&& ~~~kgetD v.arrSet key 0 ≠ 0) :
    s.barCheck wid key = s := by
  simp only [State.barCheck, h]
  rw [if_pos (.inr hlive)]

theorem barJoin_idle {s : State} {wid : Nat} {v : Warp} (h : s.warp? wid = some v) {m : Lanes} {lvl num : Nat} (count sc : Nat)
    (hlive : v.liveLanes &&& ~~~(kgetD v.arrSet (16 * lvl + num) 0 ||| m) ≠ 0) :
    s.barJoin wid m lvl num count sc = replaced s wid s.nextId s.free (joined (16 * lvl + num) m count sc v) := by
  have hjoin := modWarp_eq h (joined (16 * lvl + num) m count sc)
  show (s.modWarp wid (joined (16 * lvl + num) m count sc)).barCheck wid (16 * lvl + num) = _
  rw [hjoin]
  exact barCheck_idle (replaced_warp? h _ _ _) (by rw [joined_set]; exact hlive)

/-- A warp with an arrival in progress waits on (07 R205). -/
theorem barTest_idle {s : State} {wid slot : Nat} {v : Warp} {q : Split} (h : s.warp? wid = some v) (hq : kget? v.table slot = some q)
    {sd sc lvl num key : Nat} (ha : q.after = .barWait sd sc lvl num key) (hset : kgetD v.arrSet (16 * lvl + num) 0 ≠ 0) : s.barTest wid slot = s := by
  have hbusy : v.barFree (barKey lvl num) = false := by
    have hb : (kgetD v.arrSet (barKey lvl num) 0 == 0) = false := beq_false_of_ne hset
    rw [Warp.barFree, hb, Bool.false_and, Bool.false_and]
  simp only [State.barTest, h, split?_eq h, hq, ha, hbusy]
  simp

section
variable {s : State} {w : Warp} {p : Split} {f : XFmt}

/-- An arrival that no lane repeats, at a barrier that is bound, takes no fault. -/
theorem barFault_none (h : Issuer s w p) (hset : kgetD w.arrSet (16 * f.lvl.toNat + f.num.toNat) 0 &&& p.lmask = 0)
    (hfree : f.lvl ≠ 2 ∨ (s.curLaunch.desc.wire f.num.toNat).isSome = true) : s.barFault f.lvl.toNat f.num.toNat true = none := by
  have hbound : ¬(f.lvl.toNat = 2 ∧ (s.curLaunch.desc.wire f.num.toNat).isNone = true) := by
    rintro ⟨hl, hn⟩
    rcases hfree with hf | hf
    · exact hf (BitVec.eq_of_toNat_eq hl)
    · rw [Option.isNone_iff_eq_none.mp hn] at hf; cases hf
  rw [State.barFault, issuer_curWarp h, issuer_curSplit h, barKey, hset, if_neg (by simp), if_neg hbound]

theorem barFault_dup (h : Issuer s w p) (hset : kgetD w.arrSet (16 * f.lvl.toNat + f.num.toNat) 0 &&& p.lmask ≠ 0) :
    s.barFault f.lvl.toNat f.num.toNat true = some (0x0F, BitVec.ofNat 64 (f.lvl.toNat + 16 * f.num.toNat)) := by
  rw [State.barFault, issuer_curWarp h, issuer_curSplit h, barKey, if_pos (by simpa using hset)]

theorem barFault_unbound (h : Issuer s w p) {arrives : Bool} (hset : arrives = true → kgetD w.arrSet (16 * f.lvl.toNat + f.num.toNat) 0 &&& p.lmask = 0)
    (hfree : ¬(f.lvl ≠ 2 ∨ (s.curLaunch.desc.wire f.num.toNat).isSome = true)) :
    s.barFault f.lvl.toNat f.num.toNat arrives = some (0x10, BitVec.ofNat 64 (16 * f.num.toNat)) := by
  obtain ⟨hl, hn⟩ := not_or.mp hfree
  have hbound : f.lvl.toNat = 2 ∧ (s.curLaunch.desc.wire f.num.toNat).isNone = true := by
    refine ⟨by rw [not_not.mp hl]; rfl, ?_⟩
    simpa using hn
  rw [State.barFault, issuer_curWarp h, issuer_curSplit h, barKey, if_neg, if_pos hbound]
  cases arrives with
  | false => simp
  | true => simpa using hset rfl

/-- BARARV that leaves live lanes missing adds its lanes and goes on (07 R203). -/
theorem bararv_arrives (h : Issuer s w p) (hset : kgetD w.arrSet (16 * f.lvl.toNat + f.num.toNat) 0 &&& p.lmask = 0)
    (hfree : f.lvl ≠ 2 ∨ (s.curLaunch.desc.wire f.num.toNat).isSome = true)
    (hlive : w.liveLanes &&& ~~~(kgetD w.arrSet (16 * f.lvl.toNat + f.num.toNat) 0 ||| p.lmask) ≠ 0) :
    ∃ t w', exec (.bararv f) s = .next t ∧ OnlyWarp s t s.cur.1 ∧ t.warp? s.cur.1 = some w'
      ∧ kgetD w'.arrSet (16 * f.lvl.toNat + f.num.toNat) 0 = kgetD w.arrSet (16 * f.lvl.toNat + f.num.toNat) 0 ||| p.lmask
      ∧ w' = { w with table := w'.table, results := w'.results, arrSet := w'.arrSet, arrCnt := w'.arrCnt }
      ∧ (∀ k, k ≠ 16 * f.lvl.toNat + f.num.toNat → kgetD w'.arrSet k 0 = kgetD w.arrSet k 0) ∧ OthersKept w w' s.cur.2
      ∧ Proceeds w' s.cur.2 p f.sw 1 := by
  obtain ⟨ids, g, hret, hregs, hothers, hproc, -⟩ := retire_proceeds h f.sw 2 1
  obtain ⟨v, gs, hv, htable⟩ := oneSplit_retire s f.sw 2 1 w h.1
  have hz : (issued s ids 1 g).warp? s.cur.1 = some (g w) := by rw [issued_warp, h.1]; rfl
  obtain rfl : v = g w := by rw [hret] at hv; exact Option.some.inj (hv.symm.trans hz)
  have hlanes : (g w).liveLanes = w.liveLanes := by
    obtain ⟨p', hp', -, hl, -⟩ := hproc
    rw [htable, kget?_kmod_self, h.2.1] at hp'
    exact liveLanes_kmod h.2.1 (by rw [Option.some.inj hp', hl]) htable
  have harr : (g w).arrSet = w.arrSet := by rw [hregs]
  have hexec : exec (.bararv f) s = .next (replaced (issued s ids 1 g) s.cur.1 (s.nextId + ids) (s.free + 1)
      (joined (16 * f.lvl.toNat + f.num.toNat) p.lmask (f.imm.toNat % 64) f.sc.toNat (g w))) := by
    dsimp only [exec, execBararv]
    simp only [barFault_none h hset hfree, hret, issuer_curSplit h]
    rw [barJoin_idle hz _ _ (by rw [hlanes, harr]; exact hlive)]
    rfl
  refine ⟨_, _, hexec, ⟨rfl, fun k hk => ?_⟩, replaced_warp? hz _ _ _, ?_, ?_, fun k hk => ?_, hothers, hproc⟩
  · exact (replaced_warp?_ne _ _ _ hk).trans (kget?_kmod_ne _ g hk)
  · rw [joined_set, harr]
  · show joined _ _ _ _ (g w) = { w with table := (g w).table, results := (g w).results, arrSet := (joined _ _ _ _ (g w)).arrSet, arrCnt := (joined _ _ _ _ (g w)).arrCnt }
    unfold joined
    rw [hregs]
  · rw [joined_other _ _ _ _ _ hk, harr]

theorem enterAfter_barSync {wid slot : Nat} (h : s.warp? wid = some w) {q : Split} (hq : kget? w.table slot = some q) {sd sc lvl num key count : Nat}
    (ha : q.after = .barSync sd sc lvl num key count) :
    s.enterAfter wid slot = ((((s.enterWait wid slot .barWait (BitVec.ofNat 64 (32 * lvl + num)) 0).modSplit wid slot fun p =>
      { p with after := .barWait sd sc lvl num key }).barJoin wid q.lmask lvl num count sc).barTest wid slot) := by
  simp only [State.enterAfter, split?_eq h, hq, ha]

/-- A split that waits at a barrier at which it has arrived. -/
def syncing (n : Nat) (halt : Bool) (sd sc lvl num key count due : Nat) (p : Split) : Split :=
  { waiting n halt .barWait (BitVec.ofNat 64 (32 * lvl + num)) 0 (Splits.begun (.barSync sd sc lvl num key count) due p) with after := .barWait sd sc lvl num key }

/-- BARSYNC that leaves live lanes missing adds its lanes and waits (07 R205). -/
theorem barsync_arrives (h : Issuer s w p) (hquiet : Quiet w p) (hset : kgetD w.arrSet (16 * f.lvl.toNat + f.num.toNat) 0 &&& p.lmask = 0)
    (hfree : f.lvl ≠ 2 ∨ (s.curLaunch.desc.wire f.num.toNat).isSome = true)
    (hlive : w.liveLanes &&& ~~~(kgetD w.arrSet (16 * f.lvl.toNat + f.num.toNat) 0 ||| p.lmask) ≠ 0) :
    ∃ t w', exec (.barsync f) s = .next t ∧ OnlyWarp s t s.cur.1 ∧ t.warp? s.cur.1 = some w'
      ∧ kgetD w'.arrSet (16 * f.lvl.toNat + f.num.toNat) 0 = kgetD w.arrSet (16 * f.lvl.toNat + f.num.toNat) 0 ||| p.lmask
      ∧ w' = { w with table := w'.table, results := w'.results, arrSet := w'.arrSet, arrCnt := w'.arrCnt, whole := w'.whole }
      ∧ (∀ k, k ≠ 16 * f.lvl.toNat + f.num.toNat → kgetD w'.arrSet k 0 = kgetD w.arrSet k 0) ∧ OthersKept w w' s.cur.2
      ∧ Waits w' s.cur.2 p .barWait (BitVec.ofNat 64 (32 * f.lvl.toNat + f.num.toNat)) 0 := by
  obtain ⟨hw, hp, hst, hne⟩ := id h
  let key := 16 * f.lvl.toNat + f.num.toNat
  let count := f.imm.toNat % 64
  let a : After := .barSync f.sd.toNat f.sc.toNat f.lvl.toNat f.num.toNat s.orderKey count
  let g := syncing s.nextId (w.haltH != 0) f.sd.toNat f.sc.toNat f.lvl.toNat f.num.toNat s.orderKey count (s.clk + 1)
  let v : Warp := entered w s.cur.2 g
  have hgp : ∀ x, (g x).lmask = x.lmask := fun x => setEff_lmask _ _
  have hlanes : v.liveLanes = w.liveLanes := liveLanes_kmod hp (hgp p) rfl
  let u : Warp := joined key p.lmask count f.sc.toNat v
  have hz := replaced_warp? hw s.nextId (s.free + 1) { w with table := kmod w.table s.cur.2 (Splits.begun a (s.clk + 1)) }
  have hzp : kget? (kmod w.table s.cur.2 (Splits.begun a (s.clk + 1))) s.cur.2 = some (Splits.begun a (s.clk + 1) p) := by rw [kget?_kmod_self, hp]; rfl
  have hstands : (replaced s s.cur.1 (s.nextId + 1) (s.free + 1) v).warp? s.cur.1 = some v := replaced_warp? hw _ _ _
  have hjoined : (replaced s s.cur.1 (s.nextId + 1) (s.free + 1) u).warp? s.cur.1 = some u := replaced_warp? hw _ _ _
  have hsplit : kget? u.table s.cur.2 = some (g p) := by
    show kget? (kmod w.table s.cur.2 g) s.cur.2 = _
    rw [kget?_kmod_self, hp]
    rfl
  have hset' : kgetD u.arrSet key 0 = kgetD w.arrSet key 0 ||| p.lmask := joined_set _ _ _ _ v
  have hsome : kgetD u.arrSet key 0 ≠ 0 := by
    rw [hset']
    intro hzero
    exact hne (BitVec.or_eq_zero_iff.mp hzero).2
  have hexec : exec (.barsync f) s = .next (replaced s s.cur.1 (s.nextId + 1) (s.free + 1) u) := by
    dsimp only [exec, execBarsync]
    simp only [barFault_none h hset hfree]
    rw [beginWait_eq hw hp hquiet, enterAfter_barSync hz hzp rfl, enterWait_eq hz, replaced_replaced, modSplit_eq (replaced_warp? hw _ _ _), replaced_replaced]
    simp only [kmod_kmod]
    rw [show (Splits.begun a (s.clk + 1) p).lmask = p.lmask from rfl]
    have hjoin := barJoin_idle hstands (m := p.lmask) (lvl := f.lvl.toNat) (num := f.num.toNat) count f.sc.toNat (by rw [hlanes]; exact hlive)
    rw [replaced_replaced] at hjoin
    have htest := barTest_idle hjoined hsplit (sd := f.sd.toNat) (sc := f.sc.toNat) (lvl := f.lvl.toNat) (num := f.num.toNat) (key := s.orderKey) rfl hsome
    exact congrArg Host.Outcome.next ((congrArg (fun z => State.barTest z s.cur.1 s.cur.2) hjoin).trans htest)
  refine ⟨_, u, hexec, replaced_only .., hjoined, hset', rfl, fun k hk => joined_other _ _ _ _ v hk, fun k hk => kget?_kmod_ne _ _ hk, g p, hsplit, ?_⟩
  simp [g, syncing, waiting, Splits.begun, Split.setEff, hst]

end

end Sys2Proof.Laws.Barriers

namespace Sys2Proof.Laws.Barriers

/-! # Phases of cluster and grid barriers (07 R204, R205, 09 R256, 12 R319, R320) -/

open Sys2Proof.Machine Sys2Proof.Safety Sys2Proof.Rules Sys2Proof.Laws.Splits

/-! ## Rising lists of numbers -/

theorem mem_foldl_ninsert {α : Type} (g : α → Nat) (l : List α) (acc : List Nat) (j : Nat) :
    j ∈ l.foldl (fun a x => ninsert a (g x)) acc ↔ j ∈ acc ∨ ∃ x ∈ l, g x = j := by
  induction l generalizing acc with
  | nil => simp
  | cons x rest ih =>
    rw [List.foldl_cons, ih, LocalStore.mem_ninsert]
    simp only [List.mem_cons, exists_eq_or_imp]
    constructor
    · rintro ((rfl | h) | h)
      · exact .inr (.inl rfl)
      · exact .inl h
      · exact .inr (.inr h)
    · rintro (h | rfl | h)
      · exact .inl (.inr h)
      · exact .inl (.inl rfl)
      · exact .inr h

theorem ninsert_rising {l : List Nat} (h : l.Pairwise (· < ·)) (i : Nat) : (ninsert l i).Pairwise (· < ·) := by
  induction l with
  | nil => simp [ninsert]
  | cons k r ih =>
    obtain ⟨hk, hr⟩ := List.pairwise_cons.mp h
    unfold ninsert
    split
    · next hlt => exact List.pairwise_cons.mpr ⟨fun x hx => (List.mem_cons.mp hx).elim (fun e => e ▸ hlt) fun hx => hlt.trans (hk x hx), h⟩
    · split
      · exact h
      · next hlt hne =>
        refine List.pairwise_cons.mpr ⟨fun x hx => ?_, ih hr⟩
        rcases (LocalStore.mem_ninsert _ _ _).mp hx with rfl | hx
        · omega
        · exact hk x hx

theorem foldl_ninsert_rising {α : Type} (g : α → Nat) (l : List α) {acc : List Nat} (h : acc.Pairwise (· < ·)) :
    (l.foldl (fun a x => ninsert a (g x)) acc).Pairwise (· < ·) := by
  induction l generalizing acc with
  | nil => exact h
  | cons x rest ih => exact ih (ninsert_rising h _)

/-- A rising list begins with its least element. -/
theorem head_of_rising {l : List Nat} (h : l.Pairwise (· < ·)) {i : Nat} (hi : i ∈ l) (hleast : ∀ j ∈ l, i ≤ j) : l.head? = some i := by
  cases l with
  | nil => cases hi
  | cons k r =>
    obtain ⟨hk, -⟩ := List.pairwise_cons.mp h
    rcases List.mem_cons.mp hi with rfl | hr
    · rfl
    · have := hk i hr
      have := hleast k List.mem_cons_self
      omega

/-- A rising list holds one number if that is all there is. -/
theorem length_of_rising {l : List Nat} (h : l.Pairwise (· < ·)) {i : Nat} (hi : i ∈ l) : l.length = 1 ↔ ∀ j ∈ l, j = i := by
  constructor
  · intro hlen j hj
    obtain ⟨k, rfl⟩ := List.length_eq_one_iff.mp hlen
    rw [List.mem_singleton.mp hi, List.mem_singleton.mp hj]
  · intro hall
    match l, h, hi, hall with
    | [_], _, _, _ => rfl
    | a :: b :: r, h, _, hall =>
      have hlt := (List.pairwise_cons.mp h).1 b List.mem_cons_self
      have ha := hall a List.mem_cons_self
      have hb := hall b (List.mem_cons_of_mem _ List.mem_cons_self)
      omega

theorem foldl_max_spec (l : List Nat) (a : Nat) : a ≤ l.foldl max a ∧ (∀ x ∈ l, x ≤ l.foldl max a) ∧ (l.foldl max a = a ∨ l.foldl max a ∈ l) := by
  induction l generalizing a with
  | nil => exact ⟨le_rfl, fun x hx => absurd hx List.not_mem_nil, .inl rfl⟩
  | cons b r ih =>
    obtain ⟨hle, hall, hor⟩ := ih (max a b)
    refine ⟨(le_max_left _ _).trans hle, fun x hx => ?_, ?_⟩
    · rcases List.mem_cons.mp hx with rfl | hx
      · exact (le_max_right _ _).trans hle
      · exact hall x hx
    · rcases hor with h | h
      · rw [List.foldl_cons, h]
        rcases le_total a b with hab | hab
        · rw [max_eq_right hab]; exact .inr List.mem_cons_self
        · rw [max_eq_left hab]; exact .inl rfl
      · exact .inr (List.mem_cons_of_mem _ h)

/-! ## The root time of a package -/

/-- The blocks of a package that have arrived in this clk. -/
def arrivedNow (s : State) (l k key pkg : Nat) : List (Nat × Block) :=
  ((s.partBlocks l k).filter fun q => q.2.pkg == pkg).filter fun q => (q.2.bar key).lastKey == s.clk

theorem rootTime_eq (s : State) (l k key pkg : Nat) : s.rootTime l k key pkg =
    if arrivedNow s l k key pkg ≠ [] then s.clk + 6 + 9 * ((arrivedNow s l k key pkg).map fun q => bandOf q.2.die).foldl max 0
    else if (s.launchD l).excused.1 = s.clk then
      s.clk - 1 + 6 + 9 * ((((s.launchD l).excused.2.filter fun dk => dk / 128 == pkg).map (· % 128)).map fun d => bandOf d).foldl max 0
    else s.clk + 6 := by
  have hnow : (s.partBlocks l k).filter (fun q => q.2.pkg == pkg && (q.2.bar key).lastKey == s.clk) = arrivedNow s l k key pkg := by
    rw [arrivedNow, List.filter_filter]
    exact List.filter_congr fun q _ => Bool.and_comm ..
  simp only [State.rootTime, hnow, List.map_map]
  cases arrivedNow s l k key pkg with
  | nil => rfl
  | cons a r => rfl

/-- The root time is that of the last arrival, by its band (09 R256). -/
theorem rootTime_spec (s : State) (l k key pkg : Nat) :
    s.clk + 5 ≤ s.rootTime l k key pkg ∧ (∀ q ∈ arrivedNow s l k key pkg, s.clk + 6 + 9 * bandOf q.2.die ≤ s.rootTime l k key pkg)
      ∧ (arrivedNow s l k key pkg ≠ [] → ∃ q ∈ arrivedNow s l k key pkg, s.rootTime l k key pkg = s.clk + 6 + 9 * bandOf q.2.die)
      ∧ (arrivedNow s l k key pkg = [] → (s.launchD l).excused.1 = s.clk → ∀ dk ∈ (s.launchD l).excused.2, dk / 128 = pkg →
          s.clk + 5 + 9 * bandOf (dk % 128) ≤ s.rootTime l k key pkg) := by
  rw [rootTime_eq]
  by_cases hnow : arrivedNow s l k key pkg = []
  · rw [hnow, if_neg (by simp)]
    refine ⟨by split <;> omega, fun q hq => absurd hq List.not_mem_nil, fun h => absurd rfl h, fun _ hex dk hdk hpkg => ?_⟩
    rw [if_pos hex]
    have hle := (foldl_max_spec ((((s.launchD l).excused.2.filter fun dk => dk / 128 == pkg).map (· % 128)).map fun d => bandOf d) 0).2.1 (bandOf (dk % 128))
      (List.mem_map_of_mem (f := fun d => bandOf d) (List.mem_map_of_mem (f := (· % 128)) (List.mem_filter.mpr ⟨hdk, by simpa using hpkg⟩)))
    omega
  · rw [if_pos hnow]
    obtain ⟨-, hall, hor⟩ := foldl_max_spec ((arrivedNow s l k key pkg).map fun q => bandOf q.2.die) 0
    refine ⟨by omega, fun q hq => ?_, fun _ => ?_, fun h => absurd h hnow⟩
    · have := hall _ (List.mem_map_of_mem (f := fun q : Nat × Block => bandOf q.2.die) hq)
      omega
    · rcases hor with hz | hmem
      · obtain ⟨q, hq⟩ := List.exists_mem_of_ne_nil _ hnow
        have := hall _ (List.mem_map_of_mem (f := fun q : Nat × Block => bandOf q.2.die) hq)
        exact ⟨q, hq, by omega⟩
      · obtain ⟨q, hq, he⟩ := List.mem_map.mp hmem
        exact ⟨q, hq, by rw [← he]⟩

/-! ## MORTAR_ROOT_CLOSE -/

/-- The packages of a barrier's region. -/
def barrierPkgs (x : Launch) (k pkg : Nat) : List Nat := if k = 0 then x.region.foldl (fun a ck => ninsert a (ck / 48 / 128)) [] else [pkg]

/-- The dies of blocks. -/
def diesOf (l : List (Nat × Block)) : List Nat := l.foldl (fun a q => ninsert a q.2.dk) []

theorem mem_diesOf (l : List (Nat × Block)) (d : Nat) : d ∈ diesOf l ↔ ∃ q ∈ l, q.2.dk = d := by
  rw [diesOf, mem_foldl_ninsert]
  simp

/-- The phase that a package closes first. -/
def closedPhase (s : State) (x : Launch) (l k n pkg : Nat) : Phase :=
  { launch := l, cluster := if k = 0 then none else some (k - 1), num := n, root := s.rootTime l k (levelKey k n) pkg
    excused := s.phaseExcused l k n pkg, pkgs := [pkg], told := (barrierPkgs x k pkg).length == 1, dies := diesOf (s.partBlocks l k) }

section
variable {s : State} {l k n : Nat} {x : Launch}

theorem mortarRootClose_eq (hx : s.launch? l = some x) {pkg : Nat} (hold : s.phaseOf l k n = none)
    (hres : ∀ q ∈ (s.partBlocks l k).filter fun q => q.2.pkg == pkg, q.2.resident = true)
    (hany : ∃ q ∈ s.partBlocks l k, (q.2.bar (levelKey k n)).blockArr = true)
    (hready : if k = 0 then (∃ ck ∈ x.region, ck / 48 / 128 = pkg)
        ∧ (∀ ck ∈ x.region, ck / 48 / 128 = pkg → s.coreArrived l (levelKey k n) ck (x.wireOf k n) = true)
      else ((s.partBlocks l k).filter fun q => q.2.pkg == pkg) ≠ []
        ∧ ∀ q ∈ (s.partBlocks l k).filter fun q => q.2.pkg == pkg, (q.2.bar (levelKey k n)).blockArr = true ∨ s.isExcused q.2.ck (x.wireOf k n) = true) :
    exec (.mortarRootClose l k n pkg) s
      = .next { s with phases := kput s.phases s.nextId (closedPhase s x l k n pkg), nextId := s.nextId + 1 } := by
  have hany' : ((s.partBlocks l k).any fun q => (q.2.bar (levelKey k n)).blockArr) = true := List.any_eq_true.mpr hany
  have hres' : (((s.partBlocks l k).filter fun q => q.2.pkg == pkg).any fun q => !q.2.resident) = false := by
    rw [List.any_eq_false]
    intro q hq
    simp [hres q hq]
  dsimp only [exec]
  simp only [execMortarRootClose, hx, hold, hany', hres', closedPhase, barrierPkgs, diesOf]
  by_cases hk : k = 0
  · subst hk
    obtain ⟨⟨ck, hck, hpkg⟩, harr⟩ := (if_pos rfl).mp hready
    have hall : ((x.region.filter fun ck => ck / 48 / 128 == pkg).all fun ck => s.coreArrived l (levelKey 0 n) ck (x.wireOf 0 n)) = true := by
      rw [List.all_eq_true]
      intro ck hck
      obtain ⟨hmem, he⟩ := List.mem_filter.mp hck
      exact harr ck hmem (by simpa using he)
    have hne : (x.region.filter fun ck => ck / 48 / 128 == pkg).isEmpty = false := by
      rw [List.isEmpty_eq_false_iff]
      exact List.ne_nil_of_mem (List.mem_filter.mpr ⟨hck, by simpa using hpkg⟩)
    simp [hall, hne]
  · rw [if_neg hk] at hready
    obtain ⟨hne, harr⟩ := hready
    have hwire : x.wireOf k n = clusterWire := if_neg hk
    have hall : (((s.partBlocks l k).filter fun q => q.2.pkg == pkg).all fun q => (q.2.bar (levelKey k n)).blockArr || s.isExcused q.2.ck clusterWire) = true := by
      rw [List.all_eq_true]
      intro q hq
      simpa [hwire] using harr q hq
    have hne' : ((s.partBlocks l k).filter fun q => q.2.pkg == pkg).isEmpty = false := List.isEmpty_eq_false_iff.mpr hne
    simp [hk, hall, hne']

/-- A phase is told at once if no other package takes part. -/
theorem closedPhase_told {pkg : Nat} (hpkg : k = 0 → ∃ ck ∈ x.region, ck / 48 / 128 = pkg) :
    (closedPhase s x l k n pkg).told = true ↔ k ≠ 0 ∨ ∀ ck ∈ x.region, ck / 48 / 128 = pkg := by
  show ((barrierPkgs x k pkg).length == 1) = true ↔ _
  rw [beq_iff_eq]
  by_cases hk : k = 0
  · subst hk
    have hmem : ∀ j, j ∈ barrierPkgs x 0 pkg ↔ ∃ ck ∈ x.region, ck / 48 / 128 = j := fun j => by
      rw [barrierPkgs, if_pos rfl, mem_foldl_ninsert]
      simp
    have hrising : (barrierPkgs x 0 pkg).Pairwise (· < ·) := by
      rw [barrierPkgs, if_pos rfl]
      exact foldl_ninsert_rising _ _ .nil
    rw [length_of_rising hrising ((hmem pkg).mpr (hpkg rfl))]
    simp only [ne_eq, not_true_eq_false, false_or]
    constructor
    · exact fun h ck hck => h _ ((hmem _).mpr ⟨ck, hck, rfl⟩)
    · intro h j hj
      obtain ⟨ck, hck, rfl⟩ := (hmem j).mp hj
      exact h ck hck
  · simp [barrierPkgs, hk]

theorem phaseExcused_cluster (hx : s.launch? l = some x) {pkg : Nat} (hk : k ≠ 0) :
    s.phaseExcused l k n pkg = true ↔ (s.partBlocks l k).length < x.desc.csize := by
  have hget : s.launchD l = x := by rw [State.launchD, hx]; rfl
  simp [State.phaseExcused, hk, hget]

theorem phaseExcused_grid (hx : s.launch? l = some x) {pkg : Nat} (hk : k = 0) :
    s.phaseExcused l k n pkg = true ↔ ∃ ck ∈ x.region, ck / 48 / 128 = pkg ∧ s.excuseMask (ck / 48) (x.wireOf k n) ≠ 0 := by
  have hget : s.launchD l = x := by rw [State.launchD, hx]; rfl
  subst hk
  simp only [State.phaseExcused, ne_eq, not_true_eq_false, if_false, hget, List.any_eq_true, mem_foldl_ninsert, List.not_mem_nil, false_or,
    List.mem_filter, beq_iff_eq, bne_iff_ne]
  constructor
  · rintro ⟨d, ⟨ck, ⟨hck, hpkg⟩, rfl⟩, hmask⟩
    exact ⟨ck, hck, hpkg, hmask⟩
  · rintro ⟨ck, hck, hpkg, hmask⟩
    exact ⟨ck / 48, ⟨ck, ⟨hck, hpkg⟩, rfl⟩, hmask⟩

/-! ## MORTAR_PACKAGE_COMPLETION -/

/-- The lowest package has every package's completion and tells the dies (12 R320). -/
theorem mortarPackageCompletion_eq (hx : s.launch? l = some x) {pkg i : Nat} {f : Phase} (hphase : s.phaseOf l 0 n = some (i, f)) (htold : f.told = false)
    (hdue : s.clk ≥ f.root) (hmine : ∃ ck ∈ x.region, ck / 48 / 128 = pkg) (hall : ∀ ck ∈ x.region, pkg ≤ ck / 48 / 128 ∧ ck / 48 / 128 ∈ f.pkgs) :
    exec (.mortarPackageCompletion l n pkg) s = .next { s with
      phases := kput s.phases i { f with told := true, root := f.root + 1040, dies := diesOf (s.partBlocks l 0) } } := by
  have hmem : ∀ j, j ∈ x.region.foldl (fun a ck => ninsert a (ck / 48 / 128)) [] ↔ ∃ ck ∈ x.region, ck / 48 / 128 = j := fun j => by
    rw [mem_foldl_ninsert]
    simp
  have hhead : (x.region.foldl (fun a ck => ninsert a (ck / 48 / 128)) []).head? = some pkg := by
    refine head_of_rising (foldl_ninsert_rising _ _ .nil) ((hmem pkg).mpr hmine) fun j hj => ?_
    obtain ⟨ck, hck, rfl⟩ := (hmem j).mp hj
    exact (hall ck hck).1
  have hpkgs : ((x.region.foldl (fun a ck => ninsert a (ck / 48 / 128)) []).any fun p => !f.pkgs.contains p) = false := by
    rw [List.any_eq_false]
    intro j hj
    obtain ⟨ck, hck, rfl⟩ := (hmem j).mp hj
    simp [(hall ck hck).2]
  dsimp only [exec]
  simp only [execMortarPackageCompletion, hx, hphase, htold, hhead, hpkgs, diesOf]
  simp [hdue]

end

end Sys2Proof.Laws.Barriers

namespace Sys2Proof.Laws.Barriers

open Sys2Proof.Machine Sys2Proof.Safety Sys2Proof.Rules Sys2Proof.Laws.Splits

/-! # The release of a phase on a die (07 R204, R205, 12 R320) -/

/-! ## Warps and their blocks -/

/-- The warps of the machine with their blocks. -/
def sites (s : State) : List (Nat × Nat) := s.warps.map fun q => (q.1, q.2.block)

theorem kmod_map {α β : Type} (F : Nat × α → β) {m : KMap α} {k : Nat} {g : α → α} (hg : ∀ i x, F (i, g x) = F (i, x)) :
    (kmod m k g).map F = m.map F := by
  induction m with
  | nil => rfl
  | cons a r ih =>
    obtain ⟨i, x⟩ := a
    unfold kmod
    split <;> simp [ih, hg]

/-- Warps other than one are as they were, and none leaves its block; caches and logical times may change. -/
structure OneWarp (s t : State) (wid : Nat) : Prop where
  frame : t = { s with warps := t.warps, cores := t.cores, copies := t.copies, nextId := t.nextId }
  sites : sites t = sites s
  others : ∀ j, j ≠ wid → t.warp? j = s.warp? j

theorem OneWarp.refl (s : State) (wid : Nat) : OneWarp s s wid := ⟨rfl, rfl, fun _ _ => rfl⟩

theorem OneWarp.trans {s t u : State} {wid : Nat} (h : OneWarp s t wid) (h' : OneWarp t u wid) : OneWarp s u wid :=
  ⟨by rw [h'.frame, h.frame], h'.sites.trans h.sites, fun j hj => (h'.others j hj).trans (h.others j hj)⟩

theorem oneWarp_modWarp (s : State) (n wid : Nat) {g : Warp → Warp} (hg : ∀ w, (g w).block = w.block) :
    OneWarp s ({ s with nextId := n }.modWarp wid g) wid :=
  ⟨rfl, kmod_map _ fun _ _ => by simp [hg], fun _ hj => kget?_kmod_ne _ _ hj⟩

theorem oneWarp_acquire (s : State) (wid sc : Nat) : OneWarp s (s.acquire wid sc) wid := by
  rw [Releases.acquire_eq]
  exact ⟨rfl, kmod_map _ fun _ _ => rfl, fun _ hj => kget?_kmod_ne _ _ hj⟩

theorem oneWarp_modSplit (s : State) (wid slot : Nat) (g : Split → Split) : OneWarp s (s.modSplit wid slot g) wid :=
  oneWarp_modWarp s s.nextId wid fun _ => rfl

theorem oneWarp_freshReady (s : State) (wid slot notBefore : Nat) : OneWarp s (s.freshReady wid slot notBefore) wid :=
  oneWarp_modWarp s (s.nextId + 1) wid fun _ => rfl

theorem oneWarp_waitScalar (s : State) (wid key sd : Nat) (x : Word) (lat : Nat) : OneWarp s (s.waitScalar wid key sd x lat) wid :=
  oneWarp_modWarp s (s.nextId + 2) wid fun _ => rfl

theorem oneWarp_wake (s : State) (wid slot notBefore : Nat) : OneWarp s (s.wake wid slot notBefore) wid :=
  (oneWarp_freshReady s wid slot notBefore).trans (oneWarp_modSplit _ _ _ _)

theorem oneWarp_barDone (s : State) (wid slot sd sc key : Nat) (word : Word) (lat : Nat) : OneWarp s (s.barDone wid slot sd sc key word lat) wid :=
  ((oneWarp_waitScalar s wid key sd word lat).trans (oneWarp_acquire _ _ _)).trans (oneWarp_wake _ _ _ _)

theorem foldl_oneWarp {α : Type} {wid : Nat} {f : State → α → State} (hf : ∀ s a, OneWarp s (f s a) wid) (l : List α) (s : State) :
    OneWarp s (l.foldl f s) wid := by
  induction l generalizing s with
  | nil => exact .refl s wid
  | cons a r ih => exact (hf s a).trans (ih _)

theorem barReleaseWarp_oneWarp (s : State) (wid key : Nat) (excused : Bool) (lat : Nat) : OneWarp s (s.barReleaseWarp wid key excused lat) wid := by
  unfold State.barReleaseWarp
  dsimp only
  split
  · exact .refl s wid
  · have hfirst := oneWarp_modWarp s s.nextId wid (g := fun w => { w with wphase := kput w.wphase key ((kgetD (s.warpD wid).wphase key (0, false)).1, false) })
      fun _ => rfl
    split
    · exact hfirst
    · refine hfirst.trans (foldl_oneWarp (fun u t => ?_) _ _)
      split
      · split
        · exact oneWarp_barDone ..
        · exact .refl u wid
      · exact .refl u wid

/-! ## A warp that waits goes on -/

/-- A warp whose one split waits for the release of a barrier phase, with nothing of it in progress. -/
structure AwaitsPhase (w : Warp) (key slot : Nat) (p : Split) (sd sc lvl num place ph : Nat) : Prop where
  table : w.table = [(slot, p)]
  after : p.after = .barWait sd sc lvl num place
  eff : p.eff = .barWait
  barrier : 16 * lvl + num = key
  phase : kgetD w.wphase key (0, false) = (ph, true)
  set : kgetD w.arrSet key 0 = 0
  pend : ∀ a ∈ w.arrPend, a.1 ≠ key

/-- It goes on 4 clk later with the phase word (07 R205). -/
def PhaseReturned (s : State) (w w' : Warp) (key slot : Nat) (p : Split) (sd place ph : Nat) (excused : Bool) : Prop :=
  w' = { w with table := w'.table, results := w'.results, wphase := w'.wphase, acqAt := w'.acqAt }
    ∧ kgetD w'.wphase key (0, false) = (ph, false) ∧ WaitResult s w' place sd 4 (BitVec.ofNat 64 (ph + if excused then 65536 else 0))
    ∧ ∃ p', kget? w'.table slot = some p' ∧ p'.eff = .ready ∧ p'.pc = p.pc + 1 ∧ p'.lmask = p.lmask

/-- The result of a wait, as it is entered. -/
def waitResult (s : State) (key sd : Nat) (x : Word) (lat : Nat) : Result :=
  { dest := if sd = 63 then .none else .sca sd, span := s.nextId, own := 0, key := key, due := s.clk + lat, mem := false
    lanes := BitVec.allOnes 32, pend := BitVec.allOnes 32, vals := [], olds := [], sval := x, sold := 0, coming := []
    done := false }

theorem waitScalar_eq {s : State} {wid : Nat} {w : Warp} (h : s.warp? wid = some w) (key sd : Nat) (x : Word) (lat : Nat) :
    s.waitScalar wid key sd x lat = replaced s wid (s.nextId + 2) s.free { w with results := kput w.results (s.nextId + 1) (waitResult s key sd x lat) } :=
  modWarp_eq (s := { s with nextId := s.nextId + 2 }) h _

/-- The warp of a BARWAIT that completes. -/
theorem barDone_warp {s : State} {wid : Nat} {w : Warp} (h : s.warp? wid = some w) (slot sd sc key : Nat) (word : Word) (lat : Nat) :
    ∃ n m, (s.barDone wid slot sd sc key word lat).warp? wid = some { w with
      results := kput w.results (s.nextId + 1) (waitResult s key sd word lat), acqAt := n, table := kmod w.table slot (woken m (s.clk + lat)) } := by
  obtain ⟨u, hu⟩ : ∃ u : Warp, u = { w with results := kput w.results (s.nextId + 1) (waitResult s key sd word lat) } := ⟨_, rfl⟩
  have hresult := waitScalar_eq h key sd word lat
  rw [← hu] at hresult
  have hu1 := replaced_warp? h (s.nextId + 2) s.free u
  obtain ⟨z, hz, hzn⟩ : ∃ z, (replaced s wid (s.nextId + 2) s.free u).acquire wid sc = z ∧ z.warp? wid = some { u with acqAt := s.nextId + 2 } := by
    refine ⟨_, Releases.acquire_eq _ _ _, ?_⟩
    exact Releases.warp?_kmod_self hu1 _
  refine ⟨s.nextId + 2, z.nextId, ?_⟩
  rw [State.barDone, hresult, hz, wake_eq hzn, replaced_warp? hzn, hu]

theorem barReleaseWarp_returns {s : State} {wid : Nat} {w : Warp} (h : s.warp? wid = some w) {key slot : Nat} {p : Split} {sd sc lvl num place ph : Nat}
    (hawaits : AwaitsPhase w key slot p sd sc lvl num place ph) (excused : Bool) :
    ∃ w', (s.barReleaseWarp wid key excused 4).warp? wid = some w' ∧ PhaseReturned s w w' key slot p sd place ph excused := by
  obtain ⟨htable, hafter, heff, hkey, hphase, hset, hpend⟩ := hawaits
  have hwarp : s.warpD wid = w := by rw [State.warpD, h]; rfl
  have hnone : (w.arrPend.any fun a => a.1 == key) = false := by
    rw [List.any_eq_false]
    intro a ha
    simp [hpend a ha]
  have hmod := modWarp_eq h fun w => { w with wphase := kput w.wphase key (ph, false) }
  have heq : s.barReleaseWarp wid key excused 4 = (replaced s wid s.nextId s.free { w with wphase := kput w.wphase key (ph, false) }).barDone wid slot sd sc place
      (BitVec.ofNat 64 (ph + 2 ^ 16 * excused.toNat)) 4 := by
    simp only [State.barReleaseWarp, hwarp, hphase, hset, hnone, htable, List.foldl_cons, List.foldl_nil, hafter, heff, barKey, hkey, hmod]
    simp
  obtain ⟨n, m, hdone⟩ := barDone_warp (replaced_warp? h s.nextId s.free { w with wphase := kput w.wphase key (ph, false) }) slot sd sc place
    (BitVec.ofNat 64 (ph + 2 ^ 16 * excused.toNat)) 4
  rw [← heq] at hdone
  have hword : BitVec.ofNat 64 (ph + 2 ^ 16 * excused.toNat) = BitVec.ofNat 64 (ph + if excused then 65536 else 0) := by cases excused <;> rfl
  refine ⟨_, hdone, rfl, by simp [kgetD], ⟨_, _, kget?_kput_self .., rfl, rfl, rfl, rfl, rfl, hword⟩, woken m (s.clk + 4) p, ?_, ?_, ?_, ?_⟩
  · show kget? (kmod w.table slot _) slot = _
    rw [htable]
    simp [kmod, kget?]
  · exact setEff_eff p (by decide)
  · exact congrArg (· + 1) (setEff_pc p _)
  · exact setEff_lmask p _

/-! ## The release of a block -/

theorem warpsOf_sites (s : State) (bid : Nat) : s.warpsOf bid = ((sites s).filter fun q => q.2 == bid).map Prod.fst := by
  simp [State.warpsOf, sites, List.filter_map, Function.comp_def]

theorem sites_keys (s : State) : (sites s).map Prod.fst = s.warps.map Prod.fst := by simp [sites, Function.comp_def]

theorem warpsOf_nodup {s : State} (h : Unique s.warps) (bid : Nat) : (s.warpsOf bid).Nodup := by
  rw [warpsOf_sites]
  refine List.Nodup.sublist (List.filter_sublist.map _) ?_
  rw [sites_keys]
  exact h

theorem mem_warpsOf {s : State} (h : Unique s.warps) {wid : Nat} {w : Warp} (hw : s.warp? wid = some w) (bid : Nat) : wid ∈ s.warpsOf bid ↔ w.block = bid := by
  rw [State.warpsOf, List.mem_map]
  constructor
  · rintro ⟨q, hq, rfl⟩
    obtain ⟨hmem, hblock⟩ := List.mem_filter.mp hq
    have hq' := Releases.kget?_of_unique h hmem
    rw [show q.2 = w from Option.some.inj (hq'.symm.trans hw)] at hblock
    simpa using hblock
  · rintro rfl
    exact ⟨(wid, w), List.mem_filter.mpr ⟨Results.kget?_mem hw, by simp⟩, rfl⟩

/-- Caches, logical times and warps change, but no warp's block. -/
structure WarpsGoOn (s t : State) : Prop where
  frame : t = { s with warps := t.warps, cores := t.cores, copies := t.copies, nextId := t.nextId }
  sites : sites t = sites s

/-- The warps of a list are released one after another: each that waits goes on, and no other warp changes. -/
theorem foldl_releaseWarp (key : Nat) (excused : Bool) (ws : List Nat) (hws : ws.Nodup) (s : State) :
    ∃ t, ws.foldl (fun s w => s.barReleaseWarp w key excused 4) s = t ∧ WarpsGoOn s t ∧ (∀ j, j ∉ ws → t.warp? j = s.warp? j)
      ∧ ∀ wid ∈ ws, ∀ w slot p sd sc lvl num place ph, s.warp? wid = some w → AwaitsPhase w key slot p sd sc lvl num place ph →
          ∃ w', t.warp? wid = some w' ∧ PhaseReturned s w w' key slot p sd place ph excused := by
  induction ws generalizing s with
  | nil => exact ⟨s, rfl, ⟨rfl, rfl⟩, fun _ _ => rfl, fun _ h => absurd h List.not_mem_nil⟩
  | cons a rest ih =>
    obtain ⟨hnot, hrest⟩ := List.nodup_cons.mp hws
    obtain ⟨u, hu⟩ : ∃ u, s.barReleaseWarp a key excused 4 = u := ⟨_, rfl⟩
    have hone : OneWarp s u a := hu ▸ barReleaseWarp_oneWarp s a key excused 4
    have hclk : u.clk = s.clk := by rw [hone.frame]
    obtain ⟨t, ht, hgo, hothers, hreturns⟩ := ih hrest u
    refine ⟨t, by rw [List.foldl_cons, hu, ht], ⟨by rw [hgo.frame, hone.frame], hgo.sites.trans hone.sites⟩, fun j hj => ?_,
      fun wid hwid w slot p sd sc lvl num place ph hw hawaits => ?_⟩
    · obtain ⟨hja, hjr⟩ := not_or.mp (mt List.mem_cons.mpr hj)
      exact (hothers j hjr).trans (hone.others j hja)
    · by_cases he : wid = a
      · subst he
        obtain ⟨w', hw', hret⟩ := barReleaseWarp_returns hw hawaits excused
        exact ⟨w', (hothers wid hnot).trans (hu ▸ hw'), hret⟩
      · obtain ⟨w', hw', hret⟩ := hreturns wid ((List.mem_cons.mp hwid).resolve_left he) w slot p sd sc lvl num place ph ((hone.others wid he).trans hw) hawaits
        refine ⟨w', hw', ?_⟩
        unfold PhaseReturned WaitResult at *
        rwa [hclk] at hret

/-- The next phase of a block's barrier. -/
def advanced (key : Nat) (b : Block) : Block :=
  { b with bars := kput b.bars key { b.bar key with phase := (b.bar key).phase + 1, count := 0, arrived := 0, blockArr := false } }

/-- Blocks, warps, caches and logical times change, but no warp's block. -/
structure BlocksGoOn (s t : State) : Prop where
  frame : t = { s with blocks := t.blocks, warps := t.warps, cores := t.cores, copies := t.copies, nextId := t.nextId }
  sites : sites t = sites s

/-- The release of one block: its phase advances, and its warps that wait go on. -/
theorem barRelease_releases {s : State} (hu : Unique s.warps) (bid key : Nat) (excused : Bool) :
    ∃ t, s.barRelease bid key excused 4 = t ∧ BlocksGoOn s t ∧ t.blocks = kmod s.blocks bid (advanced key)
      ∧ (∀ wid w, s.warp? wid = some w → w.block ≠ bid → t.warp? wid = some w)
      ∧ ∀ wid w slot p sd sc lvl num place ph, s.warp? wid = some w → w.block = bid → AwaitsPhase w key slot p sd sc lvl num place ph →
          ∃ w', t.warp? wid = some w' ∧ PhaseReturned s w w' key slot p sd place ph excused := by
  obtain ⟨t, ht, hgo, hothers, hreturns⟩ := foldl_releaseWarp key excused (s.warpsOf bid) (warpsOf_nodup hu bid) (s.modBlock bid (advanced key))
  refine ⟨t, ht, ⟨by rw [hgo.frame]; rfl, hgo.sites⟩, by rw [hgo.frame]; rfl, fun wid w hw hne => ?_, fun wid w slot p sd sc lvl num place ph hw hblock hawaits => ?_⟩
  · exact (hothers wid (mt (mem_warpsOf hu hw bid).mp hne)).trans hw
  · exact hreturns wid ((mem_warpsOf hu hw bid).mpr hblock) w slot p sd sc lvl num place ph hw hawaits

/-- The release of blocks one after another. -/
theorem foldl_barRelease (key : Nat) (excused : Bool) (l : List (Nat × Block)) (hl : (l.map Prod.fst).Nodup) {s : State} (hu : Unique s.warps) :
    ∃ t, l.foldl (fun s q => s.barRelease q.1 key excused 4) s = t ∧ BlocksGoOn s t
      ∧ (∀ bid, bid ∈ l.map Prod.fst → kget? t.blocks bid = (kget? s.blocks bid).map (advanced key))
      ∧ (∀ bid, bid ∉ l.map Prod.fst → kget? t.blocks bid = kget? s.blocks bid)
      ∧ (∀ wid w, s.warp? wid = some w → w.block ∉ l.map Prod.fst → t.warp? wid = some w)
      ∧ ∀ wid w slot p sd sc lvl num place ph, s.warp? wid = some w → w.block ∈ l.map Prod.fst → AwaitsPhase w key slot p sd sc lvl num place ph →
          ∃ w', t.warp? wid = some w' ∧ PhaseReturned s w w' key slot p sd place ph excused := by
  induction l generalizing s with
  | nil => exact ⟨s, rfl, ⟨rfl, rfl⟩, fun _ h => absurd h List.not_mem_nil, fun _ _ => rfl, fun _ _ h _ => h, fun _ _ _ _ _ _ _ _ _ _ _ h => absurd h List.not_mem_nil⟩
  | cons a rest ih =>
    obtain ⟨hnot, hrest⟩ := List.nodup_cons.mp hl
    obtain ⟨u, hrel, hgo, hblocks, hother, hreturns⟩ := barRelease_releases hu a.1 key excused
    have huniq : Unique u.warps := by
      unfold Rules.Unique at hu ⊢
      rw [← sites_keys, hgo.sites, sites_keys]
      exact hu
    have hclk : u.clk = s.clk := by rw [hgo.frame]
    obtain ⟨t, ht, hgo', hin, hout, hother', hreturns'⟩ := ih hrest huniq
    refine ⟨t, by rw [List.foldl_cons, hrel, ht], ⟨by rw [hgo'.frame, hgo.frame], hgo'.sites.trans hgo.sites⟩, fun bid hbid => ?_, fun bid hbid => ?_,
      fun wid w hw hblock => ?_, fun wid w slot p sd sc lvl num place ph hw hblock hawaits => ?_⟩
    · by_cases he : bid = a.1
      · subst he
        rw [hout _ hnot, hblocks, kget?_kmod_self]
      · rw [hin bid ((List.mem_cons.mp hbid).resolve_left he), hblocks, kget?_kmod_ne _ _ he]
    · obtain ⟨hne, hr⟩ := not_or.mp (mt List.mem_cons.mpr hbid)
      rw [hout bid hr, hblocks, kget?_kmod_ne _ _ hne]
    · obtain ⟨hne, hr⟩ := not_or.mp (mt List.mem_cons.mpr hblock)
      exact hother' wid w (hother wid w hw hne) hr
    · by_cases he : w.block = a.1
      · obtain ⟨w', hw', hret⟩ := hreturns wid w slot p sd sc lvl num place ph hw he hawaits
        have hb : w'.block = w.block := by rw [hret.1]
        exact ⟨w', hother' wid w' hw' (by rw [hb, he]; exact hnot), hret⟩
      · obtain ⟨w', hw', hret⟩ := hreturns' wid w slot p sd sc lvl num place ph (hother wid w hw he) ((List.mem_cons.mp hblock).resolve_left he) hawaits
        refine ⟨w', hw', ?_⟩
        unfold PhaseReturned WaitResult at *
        rwa [hclk] at hret

/-! ## MORTAR_DIE_RELEASE -/

/-- The blocks of a die that a release reaches: those that have arrived. -/
def reached (s : State) (l k key dk : Nat) : List (Nat × Block) :=
  ((s.partBlocks l k).filter fun q => q.2.dk == dk).filter fun q => (q.2.bar key).blockArr

theorem mem_reached {s : State} {l k key dk : Nat} {q : Nat × Block} :
    q ∈ reached s l k key dk ↔ q ∈ s.partBlocks l k ∧ q.2.dk = dk ∧ (q.2.bar key).blockArr = true := by
  simp only [reached, List.mem_filter, beq_iff_eq, and_assoc]

theorem reached_keys {s : State} (h : Unique s.blocks) (l k key dk : Nat) : ((reached s l k key dk).map Prod.fst).Nodup :=
  List.Nodup.sublist ((List.filter_sublist.trans (List.filter_sublist.trans List.filter_sublist)).map _) h

/-- The phases once a die has been released. -/
def phasesLeft (m : KMap Phase) (i dk : Nat) (f : Phase) : KMap Phase :=
  if (f.dies.filter (· != dk)).isEmpty then kdel m i else kput m i { f with dies := f.dies.filter (· != dk) }

theorem phasesLeft_dies {m : KMap Phase} (h : Unique m) {i dk : Nat} {f f' : Phase} (hf : kget? (phasesLeft m i dk f) i = some f') : dk ∉ f'.dies := by
  unfold phasesLeft at hf
  split at hf
  · rw [Transfers.kget?_kdel_self h] at hf
    cases hf
  · rw [kget?_kput_self] at hf
    rw [← Option.some.inj hf]
    simp

theorem mortarDieRelease_eq {s : State} {l k n pkg die i : Nat} {f : Phase} (hphase : s.phaseOf l k n = some (i, f)) (htold : f.told = true)
    (hdie : 128 * pkg + die ∈ f.dies) (hdue : f.root + 14 + 9 * bandOf die ≤ s.clk)
    (hsaved : ∀ q ∈ s.partBlocks l k, q.2.dk = 128 * pkg + die → q.2.saved = false) {u : State}
    (hu : (reached s l k (levelKey k n) (128 * pkg + die)).foldl (fun s q => s.barRelease q.1 (levelKey k n) f.excused 4) s = u) :
    exec (.mortarDieRelease l k n pkg die) s = .next { u with phases := phasesLeft u.phases i (128 * pkg + die) f } := by
  have hnone : (((s.partBlocks l k).filter fun q => q.2.dk == 128 * pkg + die).any fun q => q.2.saved) = false := by
    rw [List.any_eq_false]
    intro q hq
    obtain ⟨hmem, hdk⟩ := List.mem_filter.mp hq
    simp [hsaved q hmem (by simpa using hdk)]
  have hlate : decide (s.clk < f.root + 14 + 9 * bandOf die) = false := decide_eq_false (by omega)
  subst hu
  dsimp only [exec]
  simp only [execMortarDieRelease, hphase]
  rw [if_neg (by simp [htold, hnone, hlate, hdie])]
  rfl

/-- Settles O42: arrivals by the issuer's warp, a close by its guard and its root time, a release block by block and warp by warp. -/
theorem barriersRun : Obligations.BarriersRun := by
  refine ⟨fun s w p f h => ?_, fun s l k n x hx => ?_⟩
  · intro key free set
    refine ⟨fun hfree hset hlive => ⟨bararv_arrives h hset hfree hlive, fun hquiet => barsync_arrives h hquiet hset hfree hlive⟩,
      fun hset i hi => ?_, fun hfree i hi => ?_⟩
    · have hfault := barFault_dup (f := f) h hset
      rcases hi with rfl | rfl
      · exact ⟨_, by dsimp only [exec, execBararv]; rw [hfault], Transfers.raise_takes h 1 _ _⟩
      · exact ⟨_, by dsimp only [exec, execBarsync]; rw [hfault], Transfers.raise_takes h 1 _ _⟩
    · rcases hi with rfl | ⟨hset, rfl | rfl⟩
      · have hfault := barFault_unbound (f := f) (arrives := false) h (fun hf => by cases hf) hfree
        exact ⟨_, by dsimp only [exec, execBarwait]; rw [hfault], Transfers.raise_takes h 1 _ _⟩
      · have hfault := barFault_unbound (f := f) (arrives := true) h (fun _ => hset) hfree
        exact ⟨_, by dsimp only [exec, execBararv]; rw [hfault], Transfers.raise_takes h 1 _ _⟩
      · have hfault := barFault_unbound (f := f) (arrives := true) h (fun _ => hset) hfree
        exact ⟨_, by dsimp only [exec, execBarsync]; rw [hfault], Transfers.raise_takes h 1 _ _⟩
  · intro key wire part here
    refine ⟨fun pkg hold hres hany hready => ?_, fun pkg i f hk hphase htold hdue hmine hall => ?_,
      fun pkg die i f hphase htold hdie hdue hsaved hblocks hwarps hphases => ?_⟩
    · obtain ⟨hroot, hnow, hlast, hexcused⟩ := rootTime_spec s l k key pkg
      have hget : s.launchD l = x := by rw [State.launchD, hx]; rfl
      rw [hget] at hexcused
      refine ⟨_, closedPhase s x l k n pkg, mortarRootClose_eq hx hold hres hany hready, rfl, kget?_kput_self .., rfl, rfl, rfl, rfl, hroot,
        closedPhase_told fun hk => ?_, mem_diesOf _, fun hk => phaseExcused_cluster hx hk, fun hk => phaseExcused_grid hx hk, hnow, hlast, hexcused⟩
      rw [if_pos hk] at hready
      exact hready.1
    · subst hk
      exact ⟨_, _, mortarPackageCompletion_eq hx hphase htold hdue hmine hall, rfl, kget?_kput_self .., rfl, mem_diesOf _⟩
    · obtain ⟨u, hu, hgo, hin, hout, -, hreturns⟩ := foldl_barRelease key f.excused (reached s l k key (128 * pkg + die)) (reached_keys hblocks ..) hwarps
      have hstored : ∀ bid b, (bid, b) ∈ part → kget? s.blocks bid = some b := fun bid b hb =>
        Releases.kget?_of_unique hblocks (List.mem_of_mem_filter hb)
      have hreached : ∀ bid b, (bid, b) ∈ part → b.dk = 128 * pkg + die → (b.bar key).blockArr = true →
          bid ∈ (reached s l k key (128 * pkg + die)).map Prod.fst := fun bid b hb hdk harr =>
        List.mem_map_of_mem (f := Prod.fst) (mem_reached.mpr ⟨hb, hdk, harr⟩)
      refine ⟨_, mortarDieRelease_eq hphase htold hdie hdue hsaved hu, ?_, fun bid b hb hdk harr => ?_, fun bid b hb hnot => ?_,
        fun bid b wid w slot p sd sc lvl num place ph hb hdk harr hw hblock htable hafter heff hkey hph hset hpend _ => ?_, fun f' hf' => ?_⟩
      · rw [hgo.frame]
      · exact (hin bid (hreached bid b hb hdk harr)).trans (by rw [hstored bid b hb]; rfl)
      · refine (hout bid fun hmem => ?_).trans (Releases.kget?_of_unique hblocks hb)
        obtain ⟨q, hq, rfl⟩ := List.mem_map.mp hmem
        obtain ⟨hpart, hdk, harr⟩ := mem_reached.mp hq
        have hsame : q.2 = b := Option.some.inj ((hstored q.1 q.2 hpart).symm.trans (Releases.kget?_of_unique hblocks hb))
        subst hsame
        rcases hnot with hn | hn | hn
        · exact hn hpart
        · exact hn hdk
        · rw [harr] at hn; cases hn
      · exact hreturns wid w slot p sd sc lvl num place ph hw (hblock ▸ hreached bid b hb hdk harr) ⟨htable, hafter, heff, hkey, hph, hset, hpend⟩
      · exact phasesLeft_dies (by rw [hgo.frame]; exact hphases) hf'

end Sys2Proof.Laws.Barriers
